-- ==== Sys2Proof/Word.lean ====
section
/-!
DEFINITION. The byte and the plain word arithmetic of the model: little-endian composition (R10), two's
complement reading and wrapping. Quantities of the device are natural numbers and integers; only what the
device treats as bits is a bit vector.
-/
namespace Sys2Proof

/-- One byte of a packet, a frame or a memory. -/
abbrev Byte := BitVec 8

/-- The number a byte list spells, first byte least significant (R10). -/
def leNat : List Byte → Nat
  | [] => 0
  | b :: bs => b.toNat + 256 * leNat bs

/-- The `n` bytes of a number, least significant first (R10). -/
def leBytes : Nat → Nat → List Byte
  | 0, _ => []
  | n + 1, v => BitVec.ofNat 8 v :: leBytes n (v / 256)

/-- The number a byte list spells, first byte most significant (R49: Elkob frames). -/
def beNat (bs : List Byte) : Nat := bs.foldl (fun a b => 256 * a + b.toNat) 0

/-- The `n` bytes of a number, most significant first (R49). -/
def beBytes (n v : Nat) : List Byte := (leBytes n v).reverse

/-- Two's complement reading of the low `w` bits of `v`. -/
def sInt (w v : Nat) : Int :=
  let u := v % 2 ^ w
  if 2 * u < 2 ^ w then (u : Int) else (u : Int) - (2 ^ w : Nat)

/-- The `w`-bit pattern of an integer. -/
def uNat (w : Nat) (x : Int) : Nat := (x % ((2 ^ w : Nat) : Int)).toNat

/-- Bits `[hi:lo]` of a word (Notation of 00_scope). -/
def bitsOf (v hi lo : Nat) : Nat := v / 2 ^ lo % 2 ^ (hi + 1 - lo)

/-- Bit `k` of a word. -/
def bitOf (v k : Nat) : Bool := v.testBit k

/-- The word with bit `k` set to `b`. -/
def setBit (v k : Nat) (b : Bool) : Nat :=
  if v.testBit k == b then v else if b then v + 2 ^ k else v - 2 ^ k

end Sys2Proof
end

