-- ==== Sys2Proof/Config.lean ====
section
/-!
DEFINITION. What the unit or its manufacturer fixes, the values the manual leaves open (constants without a
body: no proof can see what they are), and the types of the parameter map.
-/
namespace Sys2Proof

/-- Parameter types (R14, R366). -/
inductive PType where
  | u32 | i32 | f32 | u64 | i64
  | lt                 -- uint64 + uint16, 10 bytes
  | f32n (n : Nat)     -- float32 × n
  | u8n (n : Nat)      -- uint8 × n
  deriving DecidableEq, Repr

/-- The stated range of a parameter (R14). Limits of `flt` are binary32 patterns. -/
inductive PRange where
  | any
  | nat (lo hi : Nat)
  | int (lo hi : Int)
  | flt (lo hi : Nat)
  | finite
  | finiteNonneg
  | oneOf (vs : List Nat)
  | mask (m : Nat)          -- reserved bits are ignored (R11)
  | bitsOnly (m : Nat)
  | natOrNone (hi : Nat)    -- 0 to hi, or 0xFF for none
  deriving DecidableEq, Repr

/-- Access codes of Table 0.2 that parameters use (R12). -/
inductive Access where
  | rw | ro | rc | w1c
  deriving DecidableEq, Repr

/-- One row of a parameter table. -/
structure ParamRow where
  index : Nat
  type  : PType
  insts : List (Nat × Nat)
  range : PRange
  reset : Nat
  access : Access
  deriving DecidableEq, Repr

namespace Config

/-- FREE VALUE. What an operation whose result the manual leaves open answers: the kind of the value, and
the number of such values taken before it (`State.free`). -/
opaque freeValue (kind n : Nat) : Int

/-- SysUnitId, "unique per unit" (Table 1.10). -/
opaque unitId : BitVec 64
/-- SysFirmwareVersion of the running image, "per image" (Table 1.10). -/
opaque firmwareVersion : BitVec 32
/-- SysHardwareRev (Table 20.15, per unit). -/
opaque hardwareRev : BitVec 32
/-- SysOrderCode, 16 ASCII bytes (per unit). -/
opaque orderCode : BitVec 128
/-- SysSerial (per unit). -/
opaque serial : BitVec 32
/-- SysMacBase (per unit). -/
opaque macBase : BitVec 48
/-- A quantity the device measures (parameter index, instance) at a tick: the pattern of the parameter. -/
opaque measured (idx inst tick : Nat) : Nat
/-- Virtual page at which a region of a task begins (R392 gives no addresses): 0 code, 1 data, 2 + n stack of thread n. -/
opaque taskPage (region : Nat) : Nat
/-- SafFirmware: processor A [31:16], processor B [15:0]. -/
opaque safFirmware : BitVec 32
/-- SysReadyTime, measured: binary32 pattern. -/
opaque readyTime : BitVec 32

/-- FREE VALUE. One step of a second-order generalised integrator (R284 gives neither its gain nor its discrete form): frequency,
cycle in ns, in-phase and quadrature output, input; answers the new outputs. -/
opaque sogiStep (f dt v q u : Int) : Int × Int
/-- FREE VALUE. One step of a harmonic resonator (R287 gives its gain at resonance only): order, frequency, cycle in ns, gain at resonance,
two states, input; answers the output and the new states. -/
opaque resonatorStep (h f dt k x1 x2 e : Int) : Int × Int × Int

/-- Byte of a firmware slot as the unit left the factory. -/
opaque imageByte (slot off : Nat) : Byte
/-- FREE VALUE. Byte offsets of VERSION, SIZE and CRC in an image header (R467 names the fields and gives no offsets). -/
opaque imageVersionAt : Nat
opaque imageSizeAt : Nat
opaque imageCrcAt : Nat
/-- FREE VALUE. One step of the servo's PI (R452 gives bandwidth and damping, not its discrete form): bandwidth in 2^-20 Hz, Sync interval as
log2 s, offset in 2^-16 ns, integral part; answers the change of the increment and the new integral part. -/
opaque servoStep (bw interval offset integ : Int) : Int × Int
/-- clockIdentity of the unit's own port (IEEE 1588; per unit). -/
opaque clockIdentity : BitVec 64
/-- clockAccuracy and offsetScaledLogVariance of the unit's own clock (R450 gives its class and priorities only). -/
opaque clockAccuracy : BitVec 8
opaque clockVariance : BitVec 16

end Config
end Sys2Proof
end

