-- ==== Sys2Proof/Syntax.lean ====
section
/-!
DEFINITION. The commands of the block: one constructor per row of spec/opcode_table.json, and the operand types
they carry. The first operand `t` of every command is the timebase tick (1 ns) at which it happens. A row that
is an opcode of the command interpreter carries the started request `q`; every other row carries what reaches
the device from outside with the event (frame bytes, levels, measurements).
-/
namespace Sys2Proof

/-- Host transports (Table 13.3), in the instance order of Table 13.13 parameters. -/
inductive Transport where
  | pcie | udp | rs485 | usb
  deriving DecidableEq, Repr

/-- Elkob channels. -/
inductive Channel where
  | a | b
  deriving DecidableEq, Repr

/-- A destination of replies and events: transport and sender (R372). For UDP the sender is
IPv4 address × 65,536 + UDP port; otherwise 0. -/
structure Dest where
  tr : Transport
  sender : Nat
  deriving DecidableEq, Repr

/-- A request packet after its checks (Tables 13.1 and 13.2); `arrival` is its arrival tick. -/
structure Req where
  dest : Dest
  arrival : Nat
  gen : Nat
  more : Bool
  noEvent : Bool
  flow : Nat
  seq : Nat
  opcode : Nat
  inst : Nat
  timeout : Nat
  crc : Nat
  body : List Byte
  deriving DecidableEq, Repr

/-- The start frames that have come back on a channel, all of the same bytes, and the ticks of their arrival, oldest first (R64). -/
structure StartRun where
  bytes : List Byte
  ticks : List Nat
  deriving DecidableEq, Repr

/-- What a cold-start phase has brought (R64, R65): the start frames and the address frames that came back on each channel, whether
cells refused differing addresses, hop delays of both channels in units of 2^-16 ns. -/
structure ColdInfo where
  startA : StartRun
  startB : StartRun
  addrA : List (List Byte)
  addrB : List (List Byte)
  mismatch : Bool
  hopsA : List Nat
  hopsB : List Nat
  deriving DecidableEq, Repr

/-- A level at a field input, and the tick since which the samples show it without a break (R337). -/
structure InputLevel where
  level : Bool
  since : Nat
  deriving DecidableEq, Repr

/-- A frame at a ring port: the time of its /S/ after S(n) in 2^-16 ns (R48), and its bytes. -/
structure RingFrame where
  tau : Int
  bytes : List Byte
  deriving DecidableEq, Repr

/-- A UDP datagram: the address and port it goes to, and its bytes (R227). -/
structure Datagram where
  ip : Nat
  port : Nat
  bytes : List Byte
  deriving DecidableEq, Repr

/-- One measurement of the timebase island (R26): per island (index as Table 1.2) clock deviation in ppm, supply in mV, die
temperature in mK; `full` is true where supplies and temperatures were measured too. -/
structure IslandMeas where
  full : Bool
  clock : List Int
  supply : List Int
  temp : List Int
  deriving DecidableEq, Repr

/-- What the line pairs of a local port did up to its transfer for S(n) (R78, Table 20.4): changes of the levels not reported before, in
time order, each with its time in ns from S(n) and the levels from then on (bit 0 pair A, bit 1 pair B, bit 2 pair Z); up to 5 ns past S(n),
for a serial type to the end of the frame. `low`: longest time, in ns, that pair A, B and Z stayed below 200 mV within the cycle. -/
structure LocalFb where
  changes : List (Int × Nat)
  low : List Nat
  deriving DecidableEq, Repr

/-- What a safety cycle sees (R308, R309): both banks as they read now, readback of the outputs of channel A and B (bit per group), the
internal link, supply and temperature within limits. -/
structure SafetyObs where
  bankA : Nat
  bankB : Nat
  readA : Nat
  readB : Nat
  linkOk : Bool
  supplyOk : Bool
  tempOk : Bool
  deriving DecidableEq, Repr

/-- Base samples, oldest first; each holds the value of every channel as stored. -/
abbrev Samples := List (List Nat)

/-- A DMA descriptor as the engine fetches it (Table 14.5): its address and its bytes. -/
structure DmaDesc where
  addr : Nat
  bytes : List Byte
  deriving DecidableEq, Repr

/-- What the memory word of an ECC error holds (R404, R405, Table 14.6). A damaged block of a queue names how many spilled entries of
that queue stand before it. -/
inductive MemHit where
  | unused
  | firmwareCode
  | firmwareData
  | cam (table : Nat)
  | moveQueue (axis before : Nat)
  | pathQueue (group before : Nat)
  | body (flow pos : Nat)
  | thread (th : Nat)
  | trace (unit : Nat) (off : Nat)
  | page (task vpage : Nat)
  deriving DecidableEq, Repr

/-- A CAN transmission that starts: the controller, and the delay of its transmitter in protocol clocks (R428, R435). -/
structure CanStart where
  c : Nat
  delay : Nat
  deriving DecidableEq, Repr

/-- A CAN frame on the bus. -/
structure CanFrame where
  ide : Bool
  id : Nat
  rtr : Bool
  fdf : Bool
  brs : Bool
  esi : Bool
  dlc : Nat
  data : List Byte
  stamp : Nat
  deriving DecidableEq, Repr

/-- An own bit of the data phase: the bit sent (`true` recessive), and the level received in each protocol clock from the one in which its
sending began; the last level stands. -/
structure OwnBit where
  sent : Bool
  levels : List Bool
  deriving DecidableEq, Repr

/-- A CAN bus error: the error code of the chapter, whether the controller was the transmitter, and whether it lay in an own data field as a
bit error. For an own bit of the data phase (`fast`) the controller's check says whether it is a bit error, and of which kind (R428). -/
structure CanErr where
  kind : Nat
  tx : Bool
  dataBit : Bool
  fast : Option OwnBit
  deriving DecidableEq, Repr

/-- The fields of a PTP message that the time service uses: port it came by (0 X2, 1 X3), domain, messageType (0 Sync, 1 Delay_Req,
8 Follow_Up, 9 Delay_Resp, 11 Announce), sequenceId, sourcePortIdentity, correction in 2^-16 ns, origin or receive timestamp in 2^-16 ns,
ingress stamp in 2^-16 ns, twoStepFlag, Announce data set (priority 1, class, accuracy, variance, priority 2, clockIdentity of the
grandmaster, steps removed), logMessageInterval; for a Delay_Resp `requester` is the port it answers. -/
structure PtpMsg where
  port : Nat
  domain : Nat
  kind : Nat
  seq : Nat
  source : Nat
  corr : Int
  origin : Nat
  stamp : Nat
  twoStep : Bool
  gm : List Nat
  logInt : Int
  requester : Nat
  deriving DecidableEq, Repr

/-- A roll-call frame (R458). -/
structure RollFrame where
  kind : Nat
  num : Nat
  id : Nat
  addr : Nat
  deriving DecidableEq, Repr


/-- The commands: one constructor per row of the table. -/
inductive Instr where
  /-- PACKET_ARRIVAL (R361) -/
  | packetArrival (t : Nat) (tr : Transport) (sender : Nat) (bytes : List Byte)
  /-- PACKET_START (R361) -/
  | packetStart (t : Nat) (flow : Nat)
  /-- COMMAND_TIMED_OUT (R364) -/
  | commandTimedOut (t : Nat) (flow : Nat) (pos : Nat)
  /-- PARAM_READ (R35) -/
  | paramRead (t : Nat) (q : Req)
  /-- PARAM_WRITE (R366) -/
  | paramWrite (t : Nat) (q : Req)
  /-- PARAM_READ_LIST (R367) -/
  | paramReadList (t : Nat) (q : Req)
  /-- STAGE_OPEN (R36) -/
  | stageOpen (t : Nat) (q : Req)
  /-- STAGE_COMMIT (R36) -/
  | stageCommit (t : Nat) (q : Req)
  /-- STAGE_DISCARD (R36) -/
  | stageDiscard (t : Nat) (q : Req)
  /-- EVENT_SUBSCRIBE (R372) -/
  | eventSubscribe (t : Nat) (q : Req)
  /-- EVENT_READ (R373) -/
  | eventRead (t : Nat) (q : Req)
  /-- IDENTIFY (R367) -/
  | identify (t : Nat) (q : Req)
  /-- REPLY_RELEASE (R377) -/
  | replyRelease (t : Nat)
  /-- EVENT_SEND (R373) -/
  | eventSend (t : Nat) (d : Dest)
  /-- DESCRIPTOR_FETCH (R375) -/
  | descriptorFetch (t : Nat) (addr : Nat) (len : Nat) (bytes : List Byte)
  /-- DB_REQ_TAIL_WRITE (R375) -/
  | dbReqTailWrite (t : Nat) (v : Nat)
  /-- DB_RPL_HEAD_WRITE (R376) -/
  | dbRplHeadWrite (t : Nat) (v : Nat)
  /-- DB_EVT_HEAD_WRITE (R376) -/
  | dbEvtHeadWrite (t : Nat) (v : Nat)
  /-- HB_RESET (R379) -/
  | hbReset (t : Nat)
  /-- HB_ENABLE (R374) -/
  | hbEnable (t : Nat) (on : Bool)
  /-- HB_EVT_LOST_READ (R12) -/
  | hbEvtLostRead (t : Nat)
  /-- REGISTER_WRITE (R374) -/
  | registerWrite (t : Nat) (off : Nat) (size : Nat) (v : Nat)
  /-- MSIX_FIRE (R378) -/
  | msixFire (t : Nat) (vec : Nat)
  /-- HOST_BLOCK_DMA_ERROR (R379) -/
  | hostBlockDmaError (t : Nat) (cause : Nat) (addr : Nat)
  /-- HOST_CONFIG_APPLY (R380) -/
  | hostConfigApply (t : Nat)
  /-- LINK_START (R64) -/
  | linkStart (t : Nat) (q : Req)
  /-- LINK_STOP (R67) -/
  | linkStop (t : Nat) (q : Req)
  /-- MODE_LOAD (R76) -/
  | modeLoad (t : Nat) (q : Req)
  /-- MODE_SWITCH (R58) -/
  | modeSwitch (t : Nat) (q : Req)
  /-- NODE_RETIRE (R69) -/
  | nodeRetire (t : Nat) (q : Req)
  /-- NODE_JOIN (R71) -/
  | nodeJoin (t : Nat) (q : Req)
  /-- MODE_CHECK (R76) -/
  | modeCheck (t : Nat) (q : Req)
  /-- COLD_START_PHASE_END (R64) -/
  | coldStartPhaseEnd (t : Nat) (i : ColdInfo)
  /-- COLD_START_PHASE_TIMEOUT (R64) -/
  | coldStartPhaseTimeout (t : Nat)
  /-- FOREIGN_HEAD_FRAME (R66) -/
  | foreignHeadFrame (t : Nat) (bytes : List Byte)
  /-- UPSTREAM_SLOT_RECEIVED (R61) -/
  | upstreamSlotReceived (t : Nat) (ch : Channel) (node : Nat) (tau : Int) (bytes : List Byte)
  /-- ENGINE_JOB_DISPATCH (R130) -/
  | engineJobDispatch (t : Nat)
  /-- PLACE_FRAME_SEND (R53) -/
  | placeFrameSend (t : Nat) (node : Nat)
  /-- SAMPLE_INSTANT (R20) -/
  | sampleInstant (t : Nat)
  /-- LOAD_ALL_RELOAD (R255) -/
  | loadAllReload (t : Nat)
  /-- UPDATE_INSTANT (R20) -/
  | updateInstant (t : Nat)
  /-- RING_OPEN (R68) -/
  | ringOpen (t : Nat) (ch : Channel)
  /-- RING_CLOSED (R68) -/
  | ringClosed (t : Nat) (ch : Channel)
  /-- RING_SETTLED (R68) -/
  | ringSettled (t : Nat) (ch : Channel)
  /-- RING_DELAY_DISAGREEMENT (R44) -/
  | ringDelayDisagreement (t : Nat) (ch : Channel)
  /-- SCHEDULE_RECHECK (R56) -/
  | scheduleRecheck (t : Nat)
  /-- CELL_COUNTER_POLL (R75) -/
  | cellCounterPoll (t : Nat) (node : Nat) (count : Nat)
  /-- SERVICE_REPLY_RECEIVED (R54) -/
  | serviceReplyReceived (t : Nat) (ch : Channel) (f : RingFrame)
  /-- SFP_INSERTED (R503) -/
  | sfpInserted (t : Nat) (port : Nat) (answers : Bool) (ident : List Byte)
  /-- SFP_REMOVED (R503) -/
  | sfpRemoved (t : Nat) (port : Nat) (txFault : Bool)
  /-- ISLAND_MEASUREMENT (R26) -/
  | islandMeasurement (t : Nat) (m : IslandMeas)
  /-- ISLAND_HALT (R19) -/
  | islandHalt (t : Nat) (island : Nat)
  /-- ISLAND_RESUME (R264) -/
  | islandResume (t : Nat) (island : Nat)
  /-- LOCAL_FEEDBACK_SAMPLE (R78) -/
  | localFeedbackSample (t : Nat) (port : Nat) (f : LocalFb)
  /-- FEEDBACK_FREEZE (R96) -/
  | feedbackFreeze (t : Nat) (inst : Nat)
  /-- STANDSTILL_TIMEOUT (R91) -/
  | standstillTimeout (t : Nat) (inst : Nat)
  /-- FOLLOWING_ERROR_TIMEOUT (R101) -/
  | followingErrorTimeout (t : Nat) (axis : Nat)
  /-- LATCH_RECORD_FORM (R113) -/
  | latchRecordForm (t : Nat) (unit : Nat)
  /-- REGISTRATION_MARK_MISSING (R225) -/
  | registrationMarkMissing (t : Nat) (axis : Nat)
  /-- LATCH_READ (R128) -/
  | latchRead (t : Nat) (q : Req)
  /-- LATCH_FLUSH (R128) -/
  | latchFlush (t : Nat) (q : Req)
  /-- AXIS_ENABLE (R153) -/
  | axisEnable (t : Nat) (q : Req)
  /-- AXIS_DISABLE (R154) -/
  | axisDisable (t : Nat) (q : Req)
  /-- STEP_HOLD_DELAY (R147) -/
  | stepHoldDelay (t : Nat) (axis : Nat)
  /-- GAIN_MAP_LOAD (R172) -/
  | gainMapLoad (t : Nat) (q : Req)
  /-- GAIN_MAP_COMMIT (R172) -/
  | gainMapCommit (t : Nat) (q : Req)
  /-- GAIN_MAP_OFF (R175) -/
  | gainMapOff (t : Nat) (q : Req)
  /-- GAIN_MAP_READ (R175) -/
  | gainMapRead (t : Nat) (q : Req)
  /-- MOVE_ABS (R188) -/
  | moveAbs (t : Nat) (q : Req)
  /-- MOVE_REL (R188) -/
  | moveRel (t : Nat) (q : Req)
  /-- MOVE_JOG (R187) -/
  | moveJog (t : Nat) (q : Req)
  /-- MOVE_STOP (R191) -/
  | moveStop (t : Nat) (q : Req)
  /-- MOVE_HOME (R193) -/
  | moveHome (t : Nat) (q : Req)
  /-- HOMING_FAILED (R194) -/
  | homingFailed (t : Nat) (axis : Nat)
  /-- MOVE_TEST (R195) -/
  | moveTest (t : Nat) (q : Req)
  /-- MOVE_RESUME (R192) -/
  | moveResume (t : Nat) (q : Req)
  /-- QUEUE_APPEND (R198) -/
  | queueAppend (t : Nat) (q : Req)
  /-- QUEUE_START (R200) -/
  | queueStart (t : Nat) (q : Req)
  /-- QUEUE_CLEAR (R203) -/
  | queueClear (t : Nat) (q : Req)
  /-- QUEUE_REFILL (R198) -/
  | queueRefill (t : Nat) (axis : Nat) (bad : Bool)
  /-- VM_MOVE (R212) -/
  | vmMove (t : Nat) (q : Req)
  /-- VM_STOP (R212) -/
  | vmStop (t : Nat) (q : Req)
  /-- CAM_LOAD (R216) -/
  | camLoad (t : Nat) (q : Req)
  /-- CAM_DELETE (R216) -/
  | camDelete (t : Nat) (q : Req)
  /-- CAM_READ (R240) -/
  | camRead (t : Nat) (q : Req)
  /-- CAM_PREFETCH (R402) -/
  | camPrefetch (t : Nat) (table : Nat) (seg : Nat)
  /-- CAM_FETCH_LATE (R403) -/
  | camFetchLate (t : Nat) (table : Nat)
  /-- COUPLING_ENGAGE (R219) -/
  | couplingEngage (t : Nat) (q : Req)
  /-- COUPLING_DISENGAGE (R220) -/
  | couplingDisengage (t : Nat) (q : Req)
  /-- COUPLING_CHANGE (R222) -/
  | couplingChange (t : Nat) (q : Req)
  /-- COUPLING_CHANGE_LAPSED (R221) -/
  | couplingChangeLapsed (t : Nat) (axis : Nat)
  /-- PATH_BIND (R232) -/
  | pathBind (t : Nat) (q : Req)
  /-- PATH_APPEND (R233) -/
  | pathAppend (t : Nat) (q : Req)
  /-- PATH_START (R237) -/
  | pathStart (t : Nat) (q : Req)
  /-- PATH_STOP (R237) -/
  | pathStop (t : Nat) (q : Req)
  /-- PATH_RELEASE (R232) -/
  | pathRelease (t : Nat) (q : Req)
  /-- LINE_MOVE (R228) -/
  | lineMove (t : Nat) (q : Req)
  /-- LINE_STOP (R228) -/
  | lineStop (t : Nat) (q : Req)
  /-- LINE_FRAME_SEND (R227) -/
  | lineFrameSend (t : Nat)
  /-- LINE_FRAME_RECEIVED (R229) -/
  | lineFrameReceived (t : Nat) (d : Datagram)
  /-- LINE_TIMEOUT (R230) -/
  | lineTimeout (t : Nat)
  /-- LOAD_ALL (R257) -/
  | loadAll (t : Nat) (q : Req)
  /-- TRIP_CLEAR (R261) -/
  | tripClear (t : Nat) (q : Req)
  /-- GATE_TRIP (R258) -/
  | gateTrip (t : Nat) (pair : Nat) (input : Nat) (edge : Nat)
  /-- LOCAL_DATA_NOT_READY (R266) -/
  | localDataNotReady (t : Nat) (pair : Nat)
  /-- DELAY_LINE_CALIBRATION (R268) -/
  | delayLineCalibration (t : Nat) (pair : Nat) (high : Bool) (n : Nat)
  /-- MICROSTEP_LOAD (R272) -/
  | microstepLoad (t : Nat) (q : Req)
  /-- MICROSTEP_SHAPE (R273) -/
  | microstepShape (t : Nat) (q : Req)
  /-- MICROSTEP_READ (R277) -/
  | microstepRead (t : Nat) (q : Req)
  /-- FRONT_END_JOBS (R283) -/
  | frontEndJobs (t : Nat) (sd : List (List Bool))
  /-- DIP_DETECTED (R285) -/
  | dipDetected (t : Nat)
  /-- DIP_CLEARED (R285) -/
  | dipCleared (t : Nat)
  /-- PHASE_LOSS_TIMEOUT (R301) -/
  | phaseLossTimeout (t : Nat)
  /-- FREQUENCY_FAULT (R285) -/
  | frequencyFault (t : Nat)
  /-- RIDE_RECOVERY_STEP (R298) -/
  | rideRecoveryStep (t : Nat)
  /-- RIDE_THROUGH_EXHAUSTED (R299) -/
  | rideThroughExhausted (t : Nat)
  /-- SIGMA_DELTA_FAULT (R282) -/
  | sigmaDeltaFault (t : Nat) (input : Nat)
  /-- FE_START (R291) -/
  | feStart (t : Nat) (q : Req)
  /-- CONTACTOR_FEEDBACK_CHANGE (R291) -/
  | contactorFeedbackChange (t : Nat) (main : Bool) (closed : Bool)
  /-- PRECHARGE_LEVEL_REACHED (R291) -/
  | prechargeLevelReached (t : Nat)
  /-- PRE_OPEN_DELAY_EXPIRY (R291) -/
  | preOpenDelayExpiry (t : Nat)
  /-- FE_SEQUENCE_TIMEOUT (R291) -/
  | feSequenceTimeout (t : Nat)
  /-- BUS_SETTLED (R291) -/
  | busSettled (t : Nat)
  /-- FE_STOP (R292) -/
  | feStop (t : Nat) (q : Req)
  /-- FE_STOP_RAMP_END (R292) -/
  | feStopRampEnd (t : Nat)
  /-- FE_FAULT_CLEAR (R302) -/
  | feFaultClear (t : Nat) (q : Req)
  /-- SAFETY_INPUT_SAMPLE (R308) -/
  | safetyInputSample (t : Nat) (proc : Nat) (levels : Nat)
  /-- DISCREPANCY_TIMEOUT (R313) -/
  | discrepancyTimeout (t : Nat) (input : Nat)
  /-- SAFETY_CYCLE (R308) -/
  | safetyCycle (t : Nat) (i : SafetyObs)
  /-- TEST_PULSE (R311) -/
  | testPulse (t : Nat) (b : Bool) (shorts : Nat)
  /-- STO_TEST_PULSE (R323) -/
  | stoTestPulse (t : Nat) (out : Nat) (second : Bool) (off : Bool) (quiet : Bool)
  /-- SAFETY_SELF_TEST (R309) -/
  | safetySelfTest (t : Nat) (proc : Nat) (passed : Bool)
  /-- SAFETY_SUPPLY_LOSS (R309) -/
  | safetySupplyLoss (t : Nat)
  /-- SS1_DELAY_EXPIRY (R318) -/
  | ss1DelayExpiry (t : Nat) (group : Nat)
  /-- SRST_PRESS (R321) -/
  | srstPress (t : Nat)
  /-- SRST_RELEASE (R321) -/
  | srstRelease (t : Nat)
  /-- RESET_HELD (R321) -/
  | resetHeld (t : Nat)
  /-- SAFETY_STARTUP_COMPLETE (R322) -/
  | safetyStartupComplete (t : Nat) (passed : Bool) (bankA : Nat) (bankB : Nat) (same : Bool)
  /-- SAFETY_STATUS_FRAME (R327) -/
  | safetyStatusFrame (t : Nat) (proc : Nat) (bytes : List Byte)
  /-- SAFETY_STATUS_LOST (R327) -/
  | safetyStatusLost (t : Nat)
  /-- STO_WIRING_MISMATCH (R330) -/
  | stoWiringMismatch (t : Nat) (node : Nat)
  /-- STO_MAP_SET (R328) -/
  | stoMapSet (t : Nat) (q : Req)
  /-- SAF_STATUS_READ (R334) -/
  | safStatusRead (t : Nat) (q : Req)
  /-- FERRY_DOWN_FRAME (R347) -/
  | ferryDownFrame (t : Nat) (group : Nat)
  /-- FERRY_DOWN_FRAME_RECEIVED (R348) -/
  | ferryDownFrameReceived (t : Nat) (group : Nat) (bytes : List Byte)
  /-- FERRY_UP_FRAME (R347) -/
  | ferryUpFrame (t : Nat) (group : Nat)
  /-- FERRY_UP_FRAME_RECEIVED (R349) -/
  | ferryUpFrameReceived (t : Nat) (group : Nat) (bytes : List Byte)
  /-- FERRY_STALE (R349) -/
  | ferryStale (t : Nat) (group : Nat)
  /-- FERRY_WATCHDOG (R350) -/
  | ferryWatchdog (t : Nat) (group : Nat)
  /-- FIELD_ENTRY_APPLY (R342) -/
  | fieldEntryApply (t : Nat) (group : Nat)
  /-- FAST_INPUT_EDGE (R338) -/
  | fastInputEdge (t : Nat) (input : Nat) (rising : Bool)
  /-- INPUT_FILTER_EXPIRY (R337) -/
  | inputFilterExpiry (t : Nat) (input : Nat) (x : InputLevel)
  /-- INPUT_WIRE_BREAK (R340) -/
  | inputWireBreak (t : Nat) (input : Nat) (broken : Bool)
  /-- OUTPUT_OVERLOAD (R345) -/
  | outputOverload (t : Nat) (out : Nat)
  /-- OUTPUT_OVERLOAD_CLEAR (R345) -/
  | outputOverloadClear (t : Nat) (out : Nat)
  /-- OUTPUT_FED_BACK (R345) -/
  | outputFedBack (t : Nat) (out : Nat) (high : Bool)
  /-- FIELD_SUPPLY_LOW (R346) -/
  | fieldSupplyLow (t : Nat) (group : Nat)
  /-- FIELD_SUPPLY_RESTORED (R346) -/
  | fieldSupplyRestored (t : Nat) (group : Nat)
  /-- IO_SNAPSHOT (R354) -/
  | ioSnapshot (t : Nat) (q : Req)
  /-- DQ_WRITE (R354) -/
  | dqWrite (t : Nat) (q : Req)
  /-- DQ_RELEASE (R351) -/
  | dqRelease (t : Nat) (q : Req)
  /-- SERVICE_RESTART (R387) -/
  | serviceRestart (t : Nat)
  /-- SERVICE_RESTART_COMPLETE (R387) -/
  | serviceRestartComplete (t : Nat)
  /-- THREAD_READY (R389) -/
  | threadReady (t : Nat) (th : Nat) (task : Nat) (prio : Nat) (cores : Nat)
  /-- TIME_SLICE_EXPIRY (R388) -/
  | timeSliceExpiry (t : Nat) (core : Nat)
  /-- BUDGET_EXHAUSTED (R393) -/
  | budgetExhausted (t : Nat) (th : Nat) (core : Nat)
  /-- BUDGET_WINDOW (R393) -/
  | budgetWindow (t : Nat)
  /-- WORK_ITEM_POST (R390) -/
  | workItemPost (t : Nat) (flow : Nat) (handler : Nat) (arg : Nat)
  /-- WORK_ITEM_END (R390) -/
  | workItemEnd (t : Nat) (flow : Nat)
  /-- TASK_LOAD (R408) -/
  | taskLoad (t : Nat) (q : Req)
  /-- TASK_START (R392) -/
  | taskStart (t : Nat) (q : Req)
  /-- TASK_STOP (R408) -/
  | taskStop (t : Nat) (q : Req)
  /-- TASK_UNLOAD (R408) -/
  | taskUnload (t : Nat) (q : Req)
  /-- TASK_MAP (R408) -/
  | taskMap (t : Nat) (q : Req)
  /-- TASK_MEM_READ (R408) -/
  | taskMemRead (t : Nat) (q : Req)
  /-- MEM_INFO (R408) -/
  | memInfo (t : Nat) (q : Req)
  /-- TASK_FAULT (R394) -/
  | taskFault (t : Nat) (task : Nat) (code : Nat) (core : Nat) (th : Nat) (pc : Nat) (addr : Nat)
  /-- TASK_WATCHDOG_EXPIRY (R394) -/
  | taskWatchdogExpiry (t : Nat) (task : Nat)
  /-- TASK_WATCHDOG_KICK (R394) -/
  | taskWatchdogKick (t : Nat) (task : Nat)
  /-- DMA_START (R397) -/
  | dmaStart (t : Nat) (ch : Nat) (owner : Nat) (prio : Nat) (chain : List DmaDesc)
  /-- DMA_BURST (R397) -/
  | dmaBurst (t : Nat)
  /-- MEMORY_ECC_ERROR (R404) -/
  | memoryEccError (t : Nat) (addr : Nat) (correctable : Bool) (again : Bool) (hit : MemHit)
  /-- PATROL_SCRUB (R404) -/
  | patrolScrub (t : Nat)
  /-- ACQ_ARM (R417) -/
  | acqArm (t : Nat) (q : Req)
  /-- ACQ_STOP (R419) -/
  | acqStop (t : Nat) (q : Req)
  /-- ACQ_FORCE (R419) -/
  | acqForce (t : Nat) (q : Req)
  /-- ACQ_TRIGGER (R418) -/
  | acqTrigger (t : Nat) (unit : Nat)
  /-- ACQ_AUTO_TIMEOUT (R419) -/
  | acqAutoTimeout (t : Nat) (unit : Nat)
  /-- ACQ_BLOCK_WRITE (R420) -/
  | acqBlockWrite (t : Nat) (unit : Nat)
  /-- ACQ_OVERRUN (R420) -/
  | acqOverrun (t : Nat) (unit : Nat)
  /-- ACQ_RATE_RESTORE (R420) -/
  | acqRateRestore (t : Nat) (unit : Nat)
  /-- ACQ_READ (R422) -/
  | acqRead (t : Nat) (q : Req)
  /-- ACQ_CAPTURES (R425) -/
  | acqCaptures (t : Nat) (q : Req)
  /-- ACQ_GRANT (R422) -/
  | acqGrant (t : Nat) (q : Req)
  /-- ACQ_REVOKE (R422) -/
  | acqRevoke (t : Nat) (q : Req)
  /-- CAN_SEND (R435) -/
  | canSend (t : Nat) (q : Req)
  /-- CAN_CANCEL (R437) -/
  | canCancel (t : Nat) (q : Req)
  /-- CAN_READ (R432) -/
  | canRead (t : Nat) (q : Req)
  /-- CAN_RX_ALL_READ (R434) -/
  | canRxAllRead (t : Nat) (q : Req)
  /-- CAN_RECOVER (R439) -/
  | canRecover (t : Nat) (q : Req)
  /-- CAN_FRAME_RECEIVED (R431) -/
  | canFrameReceived (t : Nat) (c : Nat) (f : CanFrame)
  /-- CAN_TRANSMIT_START (R435) -/
  | canTransmitStart (t : Nat) (x : CanStart)
  /-- CAN_TX_COMPLETE (R436) -/
  | canTxComplete (t : Nat) (c : Nat)
  /-- CAN_ARBITRATION_LOST (R435) -/
  | canArbitrationLost (t : Nat) (c : Nat)
  /-- CAN_ERROR (R439) -/
  | canError (t : Nat) (c : Nat) (e : CanErr)
  /-- CAN_TX_TIMEOUT (R436) -/
  | canTxTimeout (t : Nat) (c : Nat) (obj : Nat)
  /-- CAN_BUS_INTEGRATION (R427) -/
  | canBusIntegration (t : Nat) (c : Nat)
  /-- CAN_BUS_OFF_RECOVERY (R439) -/
  | canBusOffRecovery (t : Nat) (c : Nat)
  /-- BELLMAN_DUE (R440) -/
  | bellmanDue (t : Nat) (c : Nat)
  /-- TIME_STEP (R449) -/
  | timeStep (t : Nat) (q : Req)
  /-- PTP_SYNC_RECEIVED (R452) -/
  | ptpSyncReceived (t : Nat) (m : PtpMsg)
  /-- PTP_ANNOUNCE_RECEIVED (R453) -/
  | ptpAnnounceReceived (t : Nat) (m : PtpMsg)
  /-- PTP_MASTER_LOSS (R453) -/
  | ptpMasterLoss (t : Nat)
  /-- PTP_MESSAGE_SEND (R450) -/
  | ptpMessageSend (t : Nat) (kind : Nat)
  /-- PTP_TRANSIT (R455) -/
  | ptpTransit (t : Nat) (m : PtpMsg) (inPort : Nat) (residence : Nat)
  /-- FOLLOW_UP_TIMEOUT (R455) -/
  | followUpTimeout (t : Nat)
  /-- BEACON_SEND (R457) -/
  | beaconSend (t : Nat)
  /-- BEACON_RECEIVED (R457) -/
  | beaconReceived (t : Nat) (port : Nat) (id : Nat)
  /-- NEIGHBOUR_LOST (R457) -/
  | neighbourLost (t : Nat) (port : Nat)
  /-- ROLL_CALL_START (R458) -/
  | rollCallStart (t : Nat)
  /-- ROLL_CALL_FRAME_RECEIVED (R458) -/
  | rollCallFrameReceived (t : Nat) (port : Nat) (f : RollFrame)
  /-- ROLL_CALL_TIMEOUT (R458) -/
  | rollCallTimeout (t : Nat)
  /-- ROLL_CALL_RETRY (R459) -/
  | rollCallRetry (t : Nat)
  /-- LINE_ROLL_CALL (R457) -/
  | lineRollCall (t : Nat) (q : Req)
  /-- POWER_UP (R464) -/
  | powerUp (t : Nat)
  /-- BROWN_OUT (R464) -/
  | brownOut (t : Nat)
  /-- SUPPLY_INTERRUPTION (R497) -/
  | supplyInterruption (t : Nat) (ns : Nat)
  /-- SYSTEM_WATCHDOG (R464) -/
  | systemWatchdog (t : Nat)
  /-- BOOT (R468) -/
  | boot (t : Nat)
  /-- READY (R471) -/
  | ready (t : Nat)
  /-- SYS_RESET (R474) -/
  | sysReset (t : Nat) (q : Req)
  /-- SYS_BOOT_STORE (R470) -/
  | sysBootStore (t : Nat) (q : Req)
  /-- AUX_SUPPLY_OVERLOAD (R500) -/
  | auxSupplyOverload (t : Nat) (n : Nat)
  /-- AUX_SUPPLY_RETRY (R500) -/
  | auxSupplyRetry (t : Nat) (n : Nat) (overloaded : Bool)
  /-- FAULT_CLEAR (R489) -/
  | faultClear (t : Nat) (q : Req)
  /-- FAULT_LOG_READ (R490) -/
  | faultLogRead (t : Nat) (q : Req)
  /-- GROUP_CHANGE (R482) -/
  | groupChange (t : Nat) (q : Req)
  /-- IMAGE_WRITE (R484) -/
  | imageWrite (t : Nat) (q : Req)
  /-- IMAGE_CHECK (R484) -/
  | imageCheck (t : Nat) (q : Req)
  /-- FIRMWARE_SWITCH (R485) -/
  | firmwareSwitch (t : Nat) (q : Req)
  /-- FIRMWARE_SWITCHED (R486) -/
  | firmwareSwitched (t : Nat)
  /-- FIRMWARE_TRIAL_END (R487) -/
  | firmwareTrialEnd (t : Nat)
  /-- ECHO_MARKER_RECEIVED (R44) -/
  | echoMarkerReceived (t : Nat) (ch : Channel) (trip : Nat)
  /-- CYCLE_START_FRAME_RETURNED (R44) -/
  | cycleStartFrameReturned (t : Nat) (ch : Channel) (trip : Nat) (bytes : List Byte)
  /-- FOLLOW_UP_RECEIVED (R450) -/
  | followUpReceived (t : Nat) (m : PtpMsg)
  /-- DELAY_RESP_RECEIVED (R452) -/
  | delayRespReceived (t : Nat) (m : PtpMsg)
  /-- DELAY_REQ_RECEIVED (R450) -/
  | delayReqReceived (t : Nat) (m : PtpMsg)
  /-- ARP_REQUEST (R380) -/
  | arpRequest (t : Nat) (ip : Nat) (sender : Nat)
  /-- ICMP_ECHO_REQUEST (R380) -/
  | icmpEchoRequest (t : Nat) (ip : Nat) (sender : Nat) (bytes : List Byte)
  /-- TRIP_INPUT_INACTIVE (R261) -/
  | tripInputInactive (t : Nat) (pair : Nat) (input : Nat)
  /-- SIGMA_DELTA_STREAM_RESUMED (R282) -/
  | sigmaDeltaStreamResumed (t : Nat) (input : Nat)
  /-- ISLAND_HALT_OFF_LOOP_PATH (R410) -/
  | islandHaltOffLoopPath (t : Nat) (island : Nat)
  /-- BOOT_RECORD_WRITTEN (R470) -/
  | bootRecordWritten (t : Nat)
  /-- ACQ_FRAME_FORMED (R417) -/
  | acqFrameFormed (t : Nat) (unit : Nat) (samples : Samples)
  deriving DecidableEq, Repr

end Sys2Proof
end

