-- ==== Sys2Proof/Machine/Bits.lean ====
section
/-!
DEFINITION. Fields of byte lists and the check values: CRC-32 (R49, R357) and CRC-16 (R347, R357).
-/
namespace Sys2Proof.Machine

/-- Bytes `[off, off+len)` of a list. -/
def slice (bs : List Byte) (off len : Nat) : List Byte := (bs.drop off).take len

/-- Little-endian field of `len` bytes at `off`; bytes beyond the end read 0. -/
def fld (bs : List Byte) (off len : Nat) : Nat := leNat (slice bs off len)

/-- Signed little-endian field. -/
def fldI (bs : List Byte) (off len : Nat) : Int := sInt (8 * len) (fld bs off len)

/-- Big-endian field (Elkob frames, R49). -/
def fldBE (bs : List Byte) (off len : Nat) : Nat := beNat (slice bs off len)

/-- A list cut or zero-filled to `n` bytes. -/
def padTo (n : Nat) (bs : List Byte) : List Byte := bs.take n ++ List.replicate (n - bs.length) 0

/-- A list padded with zero bytes to a multiple of 4. -/
def pad4 (bs : List Byte) : List Byte := bs ++ List.replicate ((4 - bs.length % 4) % 4) 0

/-- The list with bytes at `off` replaced by `ys`. -/
def patch (bs : List Byte) (off : Nat) (ys : List Byte) : List Byte :=
  bs.take off ++ ys ++ bs.drop (off + ys.length)

def crc32Bit : Nat → Nat → Nat
  | 0, c => c
  | k + 1, c => crc32Bit k (if c % 2 = 1 then (c / 2).xor 0xEDB88320 else c / 2)

/-- CRC-32 of IEEE 802.3 (R49): reflected, initial value and final complement of all ones. -/
def crc32 (bs : List Byte) : Nat :=
  (bs.foldl (fun c b => crc32Bit 8 (c.xor b.toNat)) 0xFFFFFFFF).xor 0xFFFFFFFF

def crc16Bit : Nat → Nat → Nat
  | 0, c => c
  | k + 1, c => crc16Bit k (if 0x8000 ≤ c then ((2 * c) % 65536).xor 0x1021 else 2 * c)

/-- CRC-16 of R347: polynomial 0x1021, initial 0xFFFF, most significant bit first, no complement. -/
def crc16 (bs : List Byte) : Nat :=
  bs.foldl (fun c b => crc16Bit 8 (c.xor (256 * b.toNat))) 0xFFFF

/-- True if any two entries of `xs` are equal. -/
def hasDup : List Nat → Bool
  | [] => false
  | x :: xs => xs.contains x || hasDup xs

/-- The number of set bits among the low `n` bits. -/
def popcount : Nat → Nat → Nat
  | 0, _ => 0
  | n + 1, v => (v % 2) + popcount n (v / 2)

/-- The positions of the set bits among the low `n` bits, rising. -/
def bitList (n v : Nat) : List Nat := (List.range n).filter v.testBit

/-- Insert into a rising list without repeats. -/
def insNat (x : Nat) : List Nat → List Nat
  | [] => [x]
  | y :: r => if x < y then x :: y :: r else if x = y then y :: r else y :: insNat x r

/-- The members of a list, rising, without repeats. -/
def sortNat (l : List Nat) : List Nat := l.foldl (fun a x => insNat x a) []

/-- A comparison of cycle counts modulo 2^32: `b - a` as a signed number. -/
def cycDiff (a b : Nat) : Int := sInt 32 ((b + 2 ^ 32 - a % 2 ^ 32) % 2 ^ 32)

end Sys2Proof.Machine
end

