-- ==== Sys2Proof/Machine/Codes.lean ====
section
/-!
DEFINITION. Event codes and their levels (R491, Table 19.3): within a family, codes count from family × 256 + 1.
-/
namespace Sys2Proof.E
abbrev commandCompleted : Nat := 0x0101
abbrev eventsLost : Nat := 0x0102
abbrev islandOutOfLimits : Nat := 0x0103
abbrev firmwareSwitched : Nat := 0x0104
abbrev ringDelayDisagreement : Nat := 0x0201
abbrev scheduleMarginLost : Nat := 0x0202
abbrev modeSwitchCancelled : Nat := 0x0203
abbrev foreignHead : Nat := 0x0204
abbrev ringOpenA : Nat := 0x0205
abbrev ringOpenB : Nat := 0x0206
abbrev addressMismatch : Nat := 0x0207
abbrev identityMismatch : Nat := 0x0208
abbrev directionChange : Nat := 0x0301
abbrev indexMismatch : Nat := 0x0302
abbrev sensorWarning : Nat := 0x0303
abbrev feedbackLoss : Nat := 0x0304
abbrev feedbackFreeze : Nat := 0x0305
abbrev overspeed : Nat := 0x0306
abbrev positiveLimit : Nat := 0x0307
abbrev negativeLimit : Nat := 0x0308
abbrev followingError : Nat := 0x0309
abbrev latchOverflow : Nat := 0x0401
abbrev compareLate : Nat := 0x0402
abbrev compareHit : Nat := 0x0403
abbrev compareSourceLost : Nat := 0x0404
abbrev emulationOverspeed : Nat := 0x0405
abbrev emulationOverflow : Nat := 0x0406
abbrev emulationResync : Nat := 0x0407
abbrev currentGainAboveDelayLimit : Nat := 0x0501
abbrev releaseRefused : Nat := 0x0502
abbrev moveDone : Nat := 0x0601
abbrev moveAborted : Nat := 0x0602
abbrev setPointLimited : Nat := 0x0603
abbrev parameterDeferred : Nat := 0x0604
abbrev queueEmpty : Nat := 0x0605
abbrev homingDone : Nat := 0x0606
abbrev homingFailed : Nat := 0x0607
abbrev disengagedByStop : Nat := 0x0608
abbrev queueDataError : Nat := 0x0609
abbrev masterSourceLost : Nat := 0x0701
abbrev couplingChangeLapsed : Nat := 0x0702
abbrev registrationMarkMissing : Nat := 0x0703
abbrev lineParametersDiffer : Nat := 0x0704
abbrev lineMasterDivergence : Nat := 0x0705
abbrev lineMasterLost : Nat := 0x0706
abbrev camDataError : Nat := 0x0707
abbrev gateTrip : Nat := 0x0801
abbrev cellTrip : Nat := 0x0802
abbrev loadAllTaken : Nat := 0x0803
abbrev overmodulation : Nat := 0x0804
abbrev localDataNotReady : Nat := 0x0805
abbrev delayLineCalibrationFailed : Nat := 0x0806
abbrev delayLineCalibrationRestored : Nat := 0x0807
abbrev sigmaDeltaInputFault : Nat := 0x0901
abbrev phaseJump : Nat := 0x0902
abbrev phaseLoss : Nat := 0x0903
abbrev mainsUnbalance : Nat := 0x0904
abbrev brakeResistorOverload : Nat := 0x0905
abbrev frontEndCurrentGainAboveDelayLimit : Nat := 0x0906
abbrev frontEndRunning : Nat := 0x0907
abbrev rideThroughStarted : Nat := 0x0908
abbrev rideThroughEnded : Nat := 0x0909
abbrev rideThroughExhausted : Nat := 0x090A
abbrev frontEndFault : Nat := 0x090B
abbrev fastInputEdgesLost : Nat := 0x0A01
abbrev inputWireBreak : Nat := 0x0A02
abbrev outputOverload : Nat := 0x0A03
abbrev outputFedBack : Nat := 0x0A04
abbrev fieldSupplyLow : Nat := 0x0A05
abbrev fieldDataStale : Nat := 0x0A06
abbrev fieldOutputsHeldOff : Nat := 0x0A07
abbrev acquisitionCaptureComplete : Nat := 0x0B01
abbrev acquisitionRateReduced : Nat := 0x0B02
abbrev acquisitionOverrun : Nat := 0x0B03
abbrev acquisitionDataError : Nat := 0x0B04
abbrev canFrameReceived : Nat := 0x0C01
abbrev canReceiveOverflow : Nat := 0x0C02
abbrev canIdentifierCollision : Nat := 0x0C03
abbrev canErrorPassive : Nat := 0x0C04
abbrev canBusOff : Nat := 0x0C05
abbrev canBusOn : Nat := 0x0C06
abbrev bellmanReferenceLate : Nat := 0x0C07
abbrev lineTimeStepRefused : Nat := 0x0C08
abbrev lineTimeStepped : Nat := 0x0C09
abbrev lineTimeLocked : Nat := 0x0C0A
abbrev lineTimeUnlocked : Nat := 0x0C0B
abbrev grandmasterChanged : Nat := 0x0C0C
abbrev lineTooLong : Nat := 0x0C0D
abbrev lineRollCallIncomplete : Nat := 0x0C0E
abbrev lineRollCallConflict : Nat := 0x0C0F
abbrev lineAddressChanged : Nat := 0x0C10
abbrev serviceRestart : Nat := 0x0D01
abbrev taskFault : Nat := 0x0D02
abbrev dmaParked : Nat := 0x0D03
abbrev memoryErrorCorrected : Nat := 0x0D04
abbrev memoryErrorUncorrectable : Nat := 0x0D05
abbrev safetyDemand : Nat := 0x0E01
abbrev safetyFault : Nat := 0x0E02
abbrev resetTooShort : Nat := 0x0E03
abbrev resetHeld : Nat := 0x0E04
abbrev groupEnabled : Nat := 0x0E05
abbrev safetyStatusLost : Nat := 0x0E06
abbrev safetyStatusDisagreement : Nat := 0x0E07
abbrev stoWiringMismatch : Nat := 0x0E08
abbrev faultCleared : Nat := 0x0F01
end Sys2Proof.E

namespace Sys2Proof.Machine

/-- Levels of Table 19.3, families 0x01 to 0x0F. -/
def evLevels : List (List Nat) :=
  [[0, 1, 2, 0],
   [1, 1, 1, 2, 1, 1, 1, 1],
   [0, 1, 1, 2, 2, 1, 1, 1, 1],
   [1, 1, 0, 1, 1, 1, 0],
   [1, 1],
   [0, 1, 1, 1, 0, 0, 1, 1, 2],
   [2, 1, 1, 2, 2, 2, 2],
   [2, 2, 0, 1, 2, 1, 0],
   [2, 1, 1, 1, 1, 1, 0, 1, 0, 2, 2],
   [1, 1, 1, 1, 1, 2, 2],
   [0, 1, 1, 1],
   [0, 1, 1, 1, 2, 0, 1, 1, 1, 0, 1, 1, 1, 1, 1, 1],
   [1, 2, 0, 0, 2],
   [0, 2, 0, 1, 0, 1, 1, 1],
   [0]]

/-- The level of an event code. -/
def evLevel (code : Nat) : Nat := (evLevels.getD (code / 256 - 1) []).getD (code % 256 - 1) 0

end Sys2Proof.Machine
end

