-- ==== Sys2Proof/Machine/Num.lean ====
section
/-!
DEFINITION. Exact arithmetic: binary32 patterns as rationals and back (R14: round to nearest, ties to even),
rounding and saturation of engine formats (R136), roots, sine and cosine by rational series.
-/
namespace Sys2Proof.Machine

/-- A binary32 pattern is finite. -/
def f32Finite (b : Nat) : Bool := decide (bitsOf b 30 23 ≠ 255)

/-- The value of a finite binary32 pattern. -/
def f32ToRat (b : Nat) : Rat :=
  let e := bitsOf b 30 23
  let m := bitsOf b 22 0
  let a : Rat := if e = 0 then mkRat m (2 ^ 149)
    else if 150 ≤ e then mkRat ((2 ^ 23 + m) * 2 ^ (e - 150)) 1 else mkRat (2 ^ 23 + m) (2 ^ (150 - e))
  if bitOf b 31 then -a else a

/-- Round to nearest, ties to even. -/
def roundHE (x : Rat) : Int :=
  let f := x.floor
  let r := x - f
  if r < 1 / 2 then f else if 1 / 2 < r then f + 1 else if f % 2 = 0 then f else f + 1

/-- The binary32 pattern nearest a rational; beyond the largest value, the infinity of its sign. -/
def ratToF32 (x : Rat) : Nat :=
  if x = 0 then 0 else
  let sgn := if x < 0 then 2 ^ 31 else 0
  let a : Rat := if x < 0 then -x else x
  let e0 : Int := (Nat.log2 a.num.toNat : Int) - (Nat.log2 a.den : Int)
  let p2 (k : Int) : Rat := if 0 ≤ k then mkRat (2 ^ k.toNat) 1 else mkRat 1 (2 ^ (-k).toNat)
  let e1 := if a < p2 e0 then e0 - 1 else e0
  let e := if e1 < -126 then -126 else e1
  let q := (roundHE (a * p2 (23 - e))).toNat
  let (q, e) := if q = 2 ^ 24 then (2 ^ 23, e + 1) else (q, e)
  if 127 < e then sgn + 0x7F800000
  else if q < 2 ^ 23 then sgn + q
  else sgn + (e + 126).toNat * 2 ^ 23 + q

/-- The binary64 pattern nearest a rational of moderate size. -/
def ratToF64 (x : Rat) : Nat :=
  if x = 0 then 0 else
  let sgn := if x < 0 then 2 ^ 63 else 0
  let a : Rat := if x < 0 then -x else x
  let e0 : Int := (Nat.log2 a.num.toNat : Int) - (Nat.log2 a.den : Int)
  let p2 (k : Int) : Rat := if 0 ≤ k then mkRat (2 ^ k.toNat) 1 else mkRat 1 (2 ^ (-k).toNat)
  let e := if a < p2 e0 then e0 - 1 else e0
  let q := (roundHE (a * p2 (52 - e))).toNat
  let (q, e) := if q = 2 ^ 53 then (2 ^ 52, e + 1) else (q, e)
  sgn + (e + 1022).toNat * 2 ^ 52 + q

/-- The value of a finite binary64 pattern; 0 for others. -/
def f64ToRat (b : Nat) : Rat :=
  let e := bitsOf b 62 52
  let m := bitsOf b 51 0
  let a : Rat := if e = 0 ∨ e = 2047 then 0
    else if 1075 ≤ e then mkRat ((2 ^ 52 + m) * 2 ^ (e - 1075)) 1 else mkRat (2 ^ 52 + m) (2 ^ (1075 - e))
  if bitOf b 63 then -a else a

/-- Saturate an integer. -/
def sat (lo hi x : Int) : Int := if x < lo then lo else if hi < x then hi else x

/-- Saturate a rational. -/
def satR (lo hi x : Rat) : Rat := if x < lo then lo else if hi < x then hi else x

/-- Absolute value. -/
def absR (x : Rat) : Rat := if x < 0 then -x else x

/-- Sign: -1, 0 or 1. -/
def sgnR (x : Rat) : Rat := if x < 0 then -1 else if 0 < x then 1 else 0

/-- Whole root of a natural number by bisection: `fuel` bits. -/
def isqrtGo (n : Nat) : Nat → Nat → Nat
  | 0, r => r
  | k + 1, r => let c := r + 2 ^ k; isqrtGo n k (if c * c ≤ n then c else r)

/-- The largest `r` with `r * r ≤ n`. -/
def isqrt (n : Nat) : Nat := isqrtGo n (Nat.log2 n / 2 + 1) 0

/-- Square root of a non-negative rational, cut to a multiple of 2^-64. -/
def sqrtR (x : Rat) : Rat := if x ≤ 0 then 0 else mkRat (isqrt (x * mkRat (2 ^ 128) 1).floor.toNat) (2 ^ 64)

/-- π to 2^-120. -/
def piR : Rat := mkRat 4175892906503776358826876457663557747 (2 ^ 120)

/-- Series of sine: terms from `k` on. -/
def sinGo (x2 : Rat) : Nat → Nat → Rat → Rat → Rat
  | 0, _, _, acc => acc
  | f + 1, k, t, acc => sinGo x2 f (k + 2) (-(t * x2) / ((k + 1 : Nat) * (k + 2 : Nat) : Rat)) (acc + t)

/-- Cut to a multiple of 2^-80. -/
def cut80 (x : Rat) : Rat := mkRat (x * mkRat (2 ^ 80) 1).floor (2 ^ 80)

/-- Sine of an angle in turns. -/
def sinTurn (a : Rat) : Rat :=
  let f := cut80 (a - (a.floor : Rat))
  let g := if f < 1 / 4 then f else if f < 3 / 4 then 1 / 2 - f else f - 1
  let x := cut80 (2 * piR * g)
  cut80 (sinGo (cut80 (x * x)) 14 1 x 0)

/-- Cosine of an angle in turns. -/
def cosTurn (a : Rat) : Rat := sinTurn (a + 1 / 4)

/-- e^(-x) for x ≥ 0, by (e^(-x/2^k))^(2^k) with a series of 12 terms. -/
def expNegGo : Nat → Nat → Rat → Rat → Rat → Rat
  | 0, _, _, _, acc => acc
  | f + 1, k, x, t, acc => expNegGo f (k + 1) x (cut80 (-(t * x) / (k : Rat))) (acc + t)

def sqGo : Nat → Rat → Rat
  | 0, x => x
  | n + 1, x => sqGo n (cut80 (x * x))

/-- e^(-x), cut to 2^-80; 0 for x ≥ 64. -/
def expNeg (x : Rat) : Rat :=
  if 64 ≤ x then 0 else
  if x ≤ 0 then 1 else sqGo 8 (expNegGo 14 1 (cut80 (x / 256)) 1 0)

/-- 2^k for an integer exponent. -/
def pow2R (k : Int) : Rat := if 0 ≤ k then mkRat (2 ^ k.toNat) 1 else mkRat 1 (2 ^ (-k).toNat)

/-- A gain or filter coefficient in engine format: Q1.31 mantissa, exponent -32 to 31 (Table 5.3), saturating at its limits (R136). -/
def engGain (x : Rat) : Rat :=
  if x = 0 then 0 else
  let a := absR x
  let e0 : Int := (Nat.log2 a.num.toNat : Int) - (Nat.log2 a.den : Int)
  let e1 := if a < pow2R e0 then e0 else e0 + 1
  let e := sat (-32) 31 e1
  let m := roundHE (x * pow2R (31 - e))
  ((if e = 31 then sat (-2147483648) 2147483647 m else m : Int) : Rat) * pow2R (e - 31)

end Sys2Proof.Machine
end

