-- ==== Sys2Proof/Machine/ParamTable.lean ====
section
/-!
DEFINITION. The parameter map of the device: one name per index and one row per parameter, as the parameter
tables of the chapters list them (type, instances, stated range, value after reset, access code of R12).
Limits of float32 rows are the binary32 nearest the stated decimal (notes/assumptions/3.md).
-/

namespace Sys2Proof.P
abbrev SysUnitId : Nat := 0x1000
abbrev SysFirmwareVersion : Nat := 0x1001
abbrev SysCycleLength : Nat := 0x1010
abbrev SysCyclePhase : Nat := 0x1011
abbrev SysCycleCount : Nat := 0x1012
abbrev SysLineTime : Nat := 0x1013
abbrev SysIslandState : Nat := 0x1020
abbrev SysIslandLatched : Nat := 0x1021
abbrev SysNextCommitCycle : Nat := 0x1030
abbrev SysLastCommitCycle : Nat := 0x1031
abbrev ElkState : Nat := 0x2000
abbrev ElkCellCount : Nat := 0x2001
abbrev ElkExpectedIdentity : Nat := 0x2002
abbrev ElkAllowSingle : Nat := 0x2003
abbrev ElkStartMode : Nat := 0x2004
abbrev ElkActiveMode : Nat := 0x2005
abbrev ElkRetired : Nat := 0x2006
abbrev ElkRingState : Nat := 0x2007
abbrev ElkCommandLimit : Nat := 0x2010
abbrev ElkAxisNode : Nat := 0x2011
abbrev ElkAxisTurnaround : Nat := 0x2012
abbrev ElkHopDelay : Nat := 0x2020
abbrev ElkRingDelay : Nat := 0x2021
abbrev ElkEmptyUp : Nat := 0x2030
abbrev ElkLateUp : Nat := 0x2031
abbrev ElkNotReady : Nat := 0x2032
abbrev ElkEmptyDown : Nat := 0x2033
abbrev FbType : Nat := 0x3000
abbrev FbInvert : Nat := 0x3001
abbrev FbCountsPerRev : Nat := 0x3002
abbrev FbDataBits : Nat := 0x3003
abbrev FbStatusBits : Nat := 0x3004
abbrev FbCoding : Nat := 0x3005
abbrev FbParity : Nat := 0x3006
abbrev FbAbsolute : Nat := 0x3007
abbrev FbPositionOffset : Nat := 0x3008
abbrev FbEdgeFilter : Nat := 0x3009
abbrev FbClockRate : Nat := 0x300A
abbrev FbRecoveryTime : Nat := 0x300B
abbrev FbLineDelay : Nat := 0x300C
abbrev FbZeroSpeedTime : Nat := 0x3010
abbrev FbSpeedFilter : Nat := 0x3011
abbrev FbIndexWindow : Nat := 0x3018
abbrev FbIndexExpected : Nat := 0x3019
abbrev FbIndexAction : Nat := 0x301A
abbrev FbIndexSlips : Nat := 0x301B
abbrev FbIndexSlipSum : Nat := 0x301C
abbrev FbCheckErrLimit : Nat := 0x3020
abbrev FbCheckErrors : Nat := 0x3021
abbrev FbFreezeTime : Nat := 0x3022
abbrev FbFreezeCurrent : Nat := 0x3023
abbrev FbFaultAction : Nat := 0x3024
abbrev MonFollowErrLimit : Nat := 0x3030
abbrev MonFollowErrTime : Nat := 0x3031
abbrev MonFollowErrAction : Nat := 0x3032
abbrev MonLimitEnable : Nat := 0x3033
abbrev MonLimitPos : Nat := 0x3034
abbrev MonLimitNeg : Nat := 0x3035
abbrev MonLimitAction : Nat := 0x3036
abbrev MonOverspeed : Nat := 0x3037
abbrev MonOverspeedAction : Nat := 0x3038
abbrev FbPosition : Nat := 0x3040
abbrev FbSpeed : Nat := 0x3041
abbrev FbState : Nat := 0x3042
abbrev FbLatched : Nat := 0x3043
abbrev MonFollowErr : Nat := 0x3044
abbrev MonVerdict : Nat := 0x3045
abbrev LatSource : Nat := 0x3800
abbrev LatInput : Nat := 0x3801
abbrev LatEdge : Nat := 0x3802
abbrev LatPosSource : Nat := 0x3803
abbrev LatMode : Nat := 0x3804
abbrev LatWindowEnable : Nat := 0x3805
abbrev LatWindowPeriod : Nat := 0x3806
abbrev LatWindowLo : Nat := 0x3807
abbrev LatWindowHi : Nat := 0x3808
abbrev LatArm : Nat := 0x3809
abbrev LatState : Nat := 0x380A
abbrev LatFill : Nat := 0x380B
abbrev LatCaptures : Nat := 0x380C
abbrev LatLost : Nat := 0x380D
abbrev LatRejected : Nat := 0x380E
abbrev CmpSource : Nat := 0x3820
abbrev CmpDirection : Nat := 0x3821
abbrev CmpMode : Nat := 0x3822
abbrev CmpPosition : Nat := 0x3823
abbrev CmpSpacing : Nat := 0x3824
abbrev CmpWindowWidth : Nat := 0x3825
abbrev CmpPulseWidth : Nat := 0x3826
abbrev CmpCountLimit : Nat := 0x3827
abbrev CmpTarget : Nat := 0x3828
abbrev CmpArm : Nat := 0x3829
abbrev CmpState : Nat := 0x382A
abbrev CmpHits : Nat := 0x382B
abbrev CmpLate : Nat := 0x382C
abbrev CmpLost : Nat := 0x382D
abbrev CmpLastHitTime : Nat := 0x382E
abbrev EmuSource : Nat := 0x3840
abbrev EmuNumerator : Nat := 0x3841
abbrev EmuDenominator : Nat := 0x3842
abbrev EmuInvert : Nat := 0x3843
abbrev EmuMaxRate : Nat := 0x3844
abbrev EmuZMode : Nat := 0x3845
abbrev EmuZPeriod : Nat := 0x3846
abbrev EmuZPhase : Nat := 0x3847
abbrev EmuEnable : Nat := 0x3848
abbrev EmuState : Nat := 0x3849
abbrev EmuBacklog : Nat := 0x384A
abbrev EmuLost : Nat := 0x384B
abbrev LoopMode : Nat := 0x4000
abbrev LoopMotorType : Nat := 0x4001
abbrev LoopVelDivider : Nat := 0x4002
abbrev LoopPosDivider : Nat := 0x4003
abbrev LoopPhase : Nat := 0x4004
abbrev MotPolePairs : Nat := 0x4008
abbrev MotCommOffset : Nat := 0x4009
abbrev MotRs : Nat := 0x400A
abbrev MotLd : Nat := 0x400B
abbrev MotLq : Nat := 0x400C
abbrev MotKe : Nat := 0x400D
abbrev LoopCurGain : Nat := 0x4010
abbrev LoopCurIntTime : Nat := 0x4011
abbrev LoopCurDecouple : Nat := 0x4012
abbrev LoopIdRef : Nat := 0x4013
abbrev LoopCurRef : Nat := 0x4014
abbrev LoopCurLimit : Nat := 0x4015
abbrev LoopVoltLimit : Nat := 0x4016
abbrev LoopUbusMin : Nat := 0x4017
abbrev LoopAngleAdvance : Nat := 0x4018
abbrev LoopVelGain : Nat := 0x4020
abbrev LoopVelIntTime : Nat := 0x4021
abbrev LoopVelLimit : Nat := 0x4022
abbrev LoopVelFF : Nat := 0x4023
abbrev LoopAccFF : Nat := 0x4024
abbrev LoopFrictionFF : Nat := 0x4025
abbrev LoopFrictionBand : Nat := 0x4026
abbrev LoopFiltType : Nat := 0x4028
abbrev LoopFiltFreq : Nat := 0x4029
abbrev LoopFiltDamping : Nat := 0x402A
abbrev LoopFiltDepth : Nat := 0x402B
abbrev LoopFiltCoef : Nat := 0x402C
abbrev LoopDobEnable : Nat := 0x4030
abbrev LoopDobInertia : Nat := 0x4031
abbrev LoopDobBandwidth : Nat := 0x4032
abbrev LoopDobGain : Nat := 0x4033
abbrev LoopPosGain : Nat := 0x4038
abbrev LoopPosOutLimit : Nat := 0x4039
abbrev StepRunCurrent : Nat := 0x4040
abbrev StepHoldCurrent : Nat := 0x4041
abbrev StepHoldDelay : Nat := 0x4042
abbrev LoopReleaseIntegrator : Nat := 0x4048
abbrev AxisState : Nat := 0x4050
abbrev AxisHoldReason : Nat := 0x4051
abbrev LoopStatus : Nat := 0x4052
abbrev LoopDelay : Nat := 0x4053
abbrev LoopCurGainMax : Nat := 0x4054
abbrev LoopIdMeas : Nat := 0x4058
abbrev LoopIqMeas : Nat := 0x4059
abbrev LoopIqRef : Nat := 0x405A
abbrev LoopVelRef : Nat := 0x405B
abbrev LoopVoltCmd : Nat := 0x405C
abbrev LoopDobEstimate : Nat := 0x405D
abbrev EngPeakInFlight : Nat := 0x4070
abbrev EngPeakJobTime : Nat := 0x4071
abbrev GmState : Nat := 0x4080
abbrev GmKeyValue : Nat := 0x4081
abbrev GmRegion : Nat := 0x4082
abbrev GmApplied : Nat := 0x4083
abbrev GmBlendRemaining : Nat := 0x4084
abbrev GmMapChecksum : Nat := 0x4085
abbrev GmKeyAge : Nat := 0x4086
abbrev GmInertiaEstimate : Nat := 0x4087
abbrev GmInertiaTime : Nat := 0x4088
abbrev GmInertiaAccMin : Nat := 0x4089
abbrev GmKeyFilter : Nat := 0x408A
abbrev TrjSource : Nat := 0x5000
abbrev TrjChain : Nat := 0x5001
abbrev TrjProfile : Nat := 0x5002
abbrev TrjVelMax : Nat := 0x5003
abbrev TrjAccMax : Nat := 0x5004
abbrev TrjDecMax : Nat := 0x5005
abbrev TrjJerkMax : Nat := 0x5006
abbrev TrjStopDec : Nat := 0x5007
abbrev TrjStopJerk : Nat := 0x5008
abbrev TrjSoftVel : Nat := 0x5010
abbrev TrjSoftAcc : Nat := 0x5011
abbrev TrjSoftJerk : Nat := 0x5012
abbrev TrjCaptureBand : Nat := 0x5013
abbrev TrjCaptureVel : Nat := 0x5014
abbrev StpStartSpeed : Nat := 0x5018
abbrev StpStopSpeed : Nat := 0x5019
abbrev StpCornerSpeed : Nat := 0x501A
abbrev StpAcc1 : Nat := 0x501B
abbrev StpAcc2 : Nat := 0x501C
abbrev StpDec1 : Nat := 0x501D
abbrev StpDec2 : Nat := 0x501E
abbrev HomeMethod : Nat := 0x5020
abbrev HomeDirection : Nat := 0x5021
abbrev HomeSpeed : Nat := 0x5022
abbrev HomeCreepSpeed : Nat := 0x5023
abbrev HomeInput : Nat := 0x5024
abbrev HomeEdge : Nat := 0x5025
abbrev HomePosition : Nat := 0x5026
abbrev HomeFinal : Nat := 0x5027
abbrev HomeMaxDistance : Nat := 0x5028
abbrev TrjQueueDepth : Nat := 0x5030
abbrev TrjQueueLookahead : Nat := 0x5031
abbrev TrjQueueFill : Nat := 0x5032
abbrev TrjQueueTag : Nat := 0x5033
abbrev TrjTarget : Nat := 0x5040
abbrev TrjSetPos : Nat := 0x5041
abbrev TrjSetVel : Nat := 0x5042
abbrev TrjSetAcc : Nat := 0x5043
abbrev TrjState : Nat := 0x5044
abbrev TrjLatched : Nat := 0x5045
abbrev VmSource : Nat := 0x6000
abbrev VmSourceCode : Nat := 0x6001
abbrev VmRatioNum : Nat := 0x6002
abbrev VmRatioDen : Nat := 0x6003
abbrev VmVelMax : Nat := 0x6004
abbrev VmAccMax : Nat := 0x6005
abbrev VmDecMax : Nat := 0x6006
abbrev VmJerkMax : Nat := 0x6007
abbrev VmStopDec : Nat := 0x6008
abbrev VmStopJerk : Nat := 0x6009
abbrev VmRideThrough : Nat := 0x600A
abbrev VmScaleRate : Nat := 0x600B
abbrev VmScaleAcc : Nat := 0x600C
abbrev VmScaleSet : Nat := 0x600D
abbrev VmSourceFilter : Nat := 0x600E
abbrev VmPosition : Nat := 0x6010
abbrev VmVelocity : Nat := 0x6011
abbrev VmAcceleration : Nat := 0x6012
abbrev VmScale : Nat := 0x6013
abbrev VmState : Nat := 0x6014
abbrev CplKind : Nat := 0x6020
abbrev CplMaster : Nat := 0x6021
abbrev CplGearNum : Nat := 0x6022
abbrev CplGearDen : Nat := 0x6023
abbrev CplCamTable : Nat := 0x6024
abbrev CplCamScale : Nat := 0x6025
abbrev CplMasterOffset : Nat := 0x6026
abbrev CplSlaveOffset : Nat := 0x6027
abbrev CplAnchor : Nat := 0x6028
abbrev CplEngagePos : Nat := 0x6029
abbrev CplDisengagePos : Nat := 0x602A
abbrev CplRegLatch : Nat := 0x6030
abbrev CplRegPeriod : Nat := 0x6031
abbrev CplRegNominal : Nat := 0x6032
abbrev CplRegGain : Nat := 0x6033
abbrev CplRegMax : Nat := 0x6034
abbrev CplRegSpread : Nat := 0x6035
abbrev CplRegMissLimit : Nat := 0x6036
abbrev CplRegError : Nat := 0x6037
abbrev CplRegSkipped : Nat := 0x6038
abbrev CplRegMissed : Nat := 0x6039
abbrev CplState : Nat := 0x603A
abbrev CplCamPhase : Nat := 0x603B
abbrev CamStoreUsed : Nat := 0x6040
abbrev CamStoreFree : Nat := 0x6041
abbrev CamChecksum : Nat := 0x6042
abbrev CamMaxSlope : Nat := 0x6043
abbrev PgAxes : Nat := 0x6050
abbrev PgVelMax : Nat := 0x6051
abbrev PgAccMax : Nat := 0x6052
abbrev PgDecMax : Nat := 0x6053
abbrev PgJerkMax : Nat := 0x6054
abbrev PgStopDec : Nat := 0x6055
abbrev PgStopJerk : Nat := 0x6056
abbrev PgJointJump : Nat := 0x6057
abbrev PgTimeBase : Nat := 0x6058
abbrev PgQueueDepth : Nat := 0x6059
abbrev PgLookahead : Nat := 0x605A
abbrev PgState : Nat := 0x6060
abbrev PgPathPos : Nat := 0x6061
abbrev PgPathVel : Nat := 0x6062
abbrev PgQueueFill : Nat := 0x6063
abbrev PgTag : Nat := 0x6064
abbrev LineEnable : Nat := 0x6070
abbrev LineFramePeriod : Nat := 0x6071
abbrev LineLead : Nat := 0x6072
abbrev LineTimeout : Nat := 0x6073
abbrev LineGroupAddress : Nat := 0x6074
abbrev LinePort : Nat := 0x6075
abbrev LineState : Nat := 0x6076
abbrev LineScale : Nat := 0x6077
abbrev LineDemand : Nat := 0x6078
abbrev LineDivergences : Nat := 0x6079
abbrev ModMethod : Nat := 0x7000
abbrev ModAlign : Nat := 0x7001
abbrev ModDeadTime : Nat := 0x7002
abbrev ModMinPulse : Nat := 0x7003
abbrev ModDtComp : Nat := 0x7004
abbrev ModDtCompBand : Nat := 0x7005
abbrev ModPhaseSwap : Nat := 0x7006
abbrev ModInvert : Nat := 0x7007
abbrev ModLoadGroup : Nat := 0x7008
abbrev ModStepTable : Nat := 0x7009
abbrev GpMode : Nat := 0x7010
abbrev GpTestDuty : Nat := 0x7011
abbrev GpTripEnable : Nat := 0x7012
abbrev GpTripFilter : Nat := 0x7013
abbrev GpTripScope : Nat := 0x7014
abbrev GpTripState : Nat := 0x7015
abbrev GpTripTime : Nat := 0x7016
abbrev GpCalState : Nat := 0x7017
abbrev GpNotReady : Nat := 0x7018
abbrev ModLoadAllState : Nat := 0x7020
abbrev ModLastReload : Nat := 0x7021
abbrev ModStatus : Nat := 0x7030
abbrev ModEdgeRecords : Nat := 0x7031
abbrev MstChecksum : Nat := 0x7040
abbrev MstUsers : Nat := 0x7041
abbrev FeState : Nat := 0x8000
abbrev FeFlags : Nat := 0x8001
abbrev FeFaultCause : Nat := 0x8002
abbrev FePairRole : Nat := 0x8008
abbrev FeModMethod : Nat := 0x8009
abbrev FeSdFunction : Nat := 0x8010
abbrev FeSdScale : Nat := 0x8011
abbrev FeSdOffset : Nat := 0x8012
abbrev FeSdClock : Nat := 0x8013
abbrev FeSdDecimation : Nat := 0x8014
abbrev FeSdValue : Nat := 0x8015
abbrev FeSdState : Nat := 0x8016
abbrev FeMainsNominal : Nat := 0x8020
abbrev FeLineInductance : Nat := 0x8021
abbrev FePllBandwidth : Nat := 0x8022
abbrev FePhaseJump : Nat := 0x8023
abbrev FeDipLevel : Nat := 0x8024
abbrev FeDipDetectTime : Nat := 0x8025
abbrev FeRecoverTime : Nat := 0x8026
abbrev FeUnbalanceMax : Nat := 0x8027
abbrev FePhaseLossTime : Nat := 0x8028
abbrev FeGridState : Nat := 0x8029
abbrev FeBusSet : Nat := 0x8030
abbrev FeBusRamp : Nat := 0x8031
abbrev FeBusGain : Nat := 0x8032
abbrev FeBusIntTime : Nat := 0x8033
abbrev FeBusMax : Nat := 0x8034
abbrev FeBusMinFault : Nat := 0x8035
abbrev FeBusMember : Nat := 0x8036
abbrev FeBusVoltage : Nat := 0x8037
abbrev FeAxisPower : Nat := 0x8038
abbrev FeCurLimit : Nat := 0x8040
abbrev FeRegenLimit : Nat := 0x8041
abbrev FeIqRef : Nat := 0x8042
abbrev FeCurGain : Nat := 0x8043
abbrev FeCurIntTime : Nat := 0x8044
abbrev FeNegSeqEnable : Nat := 0x8045
abbrev FeHarmMask : Nat := 0x8046
abbrev FeLineCurrent : Nat := 0x8047
abbrev FePreOutput : Nat := 0x8050
abbrev FeMainOutput : Nat := 0x8051
abbrev FePreFeedback : Nat := 0x8052
abbrev FeMainFeedback : Nat := 0x8053
abbrev FeContactorTime : Nat := 0x8054
abbrev FePrechargeLevel : Nat := 0x8055
abbrev FePrechargeTime : Nat := 0x8056
abbrev FePreOpenDelay : Nat := 0x8057
abbrev FeChopperOn : Nat := 0x8060
abbrev FeChopperBand : Nat := 0x8061
abbrev FeBrakeResistance : Nat := 0x8062
abbrev FeBrakeRatedPower : Nat := 0x8063
abbrev FeBrakeEnergy : Nat := 0x8064
abbrev FeRideRank : Nat := 0x8070
abbrev FeRideLoadPower : Nat := 0x8071
abbrev FeRideLoadLearned : Nat := 0x8072
abbrev FeRideKinetic : Nat := 0x8073
abbrev FeBusCapacitance : Nat := 0x8074
abbrev FeAuxPower : Nat := 0x8075
abbrev FeRideReserve : Nat := 0x8076
abbrev FeRideLevel : Nat := 0x8077
abbrev FeRideFloor : Nat := 0x8078
abbrev FeRideScaleMin : Nat := 0x8079
abbrev FeScaleStep : Nat := 0x807A
abbrev FeRideMax : Nat := 0x807B
abbrev FeRideDemand : Nat := 0x807C
abbrev FeRideMinBus : Nat := 0x807D
abbrev SafGroupState : Nat := 0xD000
abbrev SafLines : Nat := 0xD001
abbrev SafInputLevels : Nat := 0xD002
abbrev SafInputFault : Nat := 0xD003
abbrev SafOutputs : Nat := 0xD004
abbrev SafFault : Nat := 0xD005
abbrev SafConfig : Nat := 0xD006
abbrev SafConfigChecksum : Nat := 0xD007
abbrev SafSs1Delay : Nat := 0xD008
abbrev SafDiscrepancyTime : Nat := 0xD009
abbrev SafReset : Nat := 0xD00A
abbrev SafMode : Nat := 0xD00B
abbrev SafFirmware : Nat := 0xD00C
abbrev SafFrameAge : Nat := 0xD00D
abbrev SafFrameErrors : Nat := 0xD00E
abbrev SafDemands : Nat := 0xD010
abbrev SafLastCause : Nat := 0xD011
abbrev SafStoGroup : Nat := 0xD020
abbrev SafSs1Masters : Nat := 0xD021
abbrev SafStoMismatch : Nat := 0xD022
abbrev DiState : Nat := 0x9000
abbrev DiFilter : Nat := 0x9001
abbrev DiWireCheck : Nat := 0x9002
abbrev DiWireState : Nat := 0x9003
abbrev LiState : Nat := 0x9008
abbrev LiFilter : Nat := 0x9009
abbrev LiWireCheck : Nat := 0x900A
abbrev LiWireState : Nat := 0x900B
abbrev LiEdges : Nat := 0x900C
abbrev LiLost : Nat := 0x900D
abbrev LiLastEdge : Nat := 0x900E
abbrev DqCommand : Nat := 0x9010
abbrev DqState : Nat := 0x9011
abbrev DqDiag : Nat := 0x9012
abbrev DqOwner : Nat := 0x9013
abbrev DqOverloads : Nat := 0x9014
abbrev FerryWatchdog : Nat := 0x9018
abbrev FerryStaleTime : Nat := 0x9019
abbrev FerryState : Nat := 0x901A
abbrev FerryCheckErrors : Nat := 0x901B
abbrev FerryMissed : Nat := 0x901C
abbrev FerryLate : Nat := 0x901D
abbrev FerryDelay : Nat := 0x901E
abbrev GroupSupply : Nat := 0x901F
abbrev HostIpAddress : Nat := 0x1100
abbrev HostNetmask : Nat := 0x1101
abbrev HostGateway : Nat := 0x1102
abbrev HostUdpPort : Nat := 0x1103
abbrev HostRs485Baud : Nat := 0x1104
abbrev HostRs485Gap : Nat := 0x1105
abbrev HostPackets : Nat := 0x1110
abbrev HostBadPackets : Nat := 0x1111
abbrev HostDuplicates : Nat := 0x1112
abbrev HostRepliesLost : Nat := 0x1113
abbrev HostEventsLost : Nat := 0x1114
abbrev HostQueued : Nat := 0x1115
abbrev HostQueuePeak : Nat := 0x1116
abbrev HostSubscribers : Nat := 0x1117
abbrev ProcCoreState : Nat := 0xC000
abbrev ProcCoreLoad : Nat := 0xC001
abbrev ProcThreads : Nat := 0xC002
abbrev ProcSpilled : Nat := 0xC003
abbrev ProcDispatchPeak : Nat := 0xC004
abbrev ProcServiceRestarts : Nat := 0xC005
abbrev TaskState : Nat := 0xC010
abbrev TaskCores : Nat := 0xC011
abbrev TaskBudget : Nat := 0xC012
abbrev TaskMemLimit : Nat := 0xC013
abbrev TaskMemUsed : Nat := 0xC014
abbrev TaskWatchdog : Nat := 0xC015
abbrev TaskOverruns : Nat := 0xC016
abbrev TaskFaultInfo : Nat := 0xC017
abbrev TaskImageCrc : Nat := 0xC018
abbrev DmaState : Nat := 0xC020
abbrev DmaOwner : Nat := 0xC021
abbrev DmaPriority : Nat := 0xC022
abbrev DmaBytes : Nat := 0xC023
abbrev DmaFaultAddr : Nat := 0xC024
abbrev MemCamStoreSize : Nat := 0xC030
abbrev MemTraceSize : Nat := 0xC031
abbrev MemPartitionSize : Nat := 0xC032
abbrev MemPartitionUsed : Nat := 0xC033
abbrev MemRetiredPages : Nat := 0xC034
abbrev MemEccCorrected : Nat := 0xC038
abbrev MemEccUncorrected : Nat := 0xC039
abbrev MemEccLastAddr : Nat := 0xC03A
abbrev MemScrubPeriod : Nat := 0xC03B
abbrev MemOutstandingPeak : Nat := 0xC03C
abbrev AqMode : Nat := 0xA000
abbrev AqClass : Nat := 0xA001
abbrev AqDivider : Nat := 0xA002
abbrev AqChannels : Nat := 0xA003
abbrev AqChanSignal : Nat := 0xA004
abbrev AqFrames : Nat := 0xA005
abbrev AqPreTrigger : Nat := 0xA006
abbrev AqSegments : Nat := 0xA007
abbrev AqBufferSize : Nat := 0xA008
abbrev AqSdDecimation : Nat := 0xA009
abbrev AqAutoReduce : Nat := 0xA00A
abbrev AqAutoTimeout : Nat := 0xA00B
abbrev AqTrigType : Nat := 0xA010
abbrev AqTrigChannel : Nat := 0xA011
abbrev AqTrigSlope : Nat := 0xA012
abbrev AqTrigLevel1 : Nat := 0xA013
abbrev AqTrigLevel2 : Nat := 0xA014
abbrev AqTrigHyst : Nat := 0xA015
abbrev AqTrigTime1 : Nat := 0xA016
abbrev AqTrigTime2 : Nat := 0xA017
abbrev AqTrigCondition : Nat := 0xA018
abbrev AqState : Nat := 0xA020
abbrev AqFlags : Nat := 0xA021
abbrev AqEffDivider : Nat := 0xA022
abbrev AqLastCapture : Nat := 0xA023
abbrev AqLastTrigTime : Nat := 0xA024
abbrev AqFramesPerBlock : Nat := 0xA025
abbrev AqDemand : Nat := 0xA026
abbrev AqOverwritten : Nat := 0xA027
abbrev AqRateReductions : Nat := 0xA028
abbrev AqDataErrors : Nat := 0xA029
abbrev AqGrant : Nat := 0xA02A
abbrev CanMode : Nat := 0xB000
abbrev CanNomPrescaler : Nat := 0xB001
abbrev CanNomTseg1 : Nat := 0xB002
abbrev CanNomTseg2 : Nat := 0xB003
abbrev CanNomSjw : Nat := 0xB004
abbrev CanDataPrescaler : Nat := 0xB005
abbrev CanDataTseg1 : Nat := 0xB006
abbrev CanDataTseg2 : Nat := 0xB007
abbrev CanDataSjw : Nat := 0xB008
abbrev CanTdc : Nat := 0xB009
abbrev CanTdcOffset : Nat := 0xB00A
abbrev CanAutoRecover : Nat := 0xB00B
abbrev CanRxAll : Nat := 0xB00C
abbrev CanRxAllDepth : Nat := 0xB00D
abbrev CanState : Nat := 0xB010
abbrev CanErrorCounters : Nat := 0xB011
abbrev CanLastError : Nat := 0xB012
abbrev CanFramesTx : Nat := 0xB013
abbrev CanFramesRx : Nat := 0xB014
abbrev CanBusOffs : Nat := 0xB015
abbrev CanRxUnmatched : Nat := 0xB016
abbrev CanRxAllFill : Nat := 0xB017
abbrev CanRxAllLost : Nat := 0xB018
abbrev CanRxFiltered : Nat := 0xB019
abbrev CanObjKind : Nat := 0xB020
abbrev CanObjId : Nat := 0xB021
abbrev CanObjMask : Nat := 0xB022
abbrev CanObjFlags : Nat := 0xB023
abbrev CanObjState : Nat := 0xB024
abbrev CanObjCollisions : Nat := 0xB025
abbrev CanObjLost : Nat := 0xB026
abbrev CanObjLastTx : Nat := 0xB027
abbrev BellEnable : Nat := 0xB040
abbrev BellId : Nat := 0xB041
abbrev BellFormat : Nat := 0xB042
abbrev BellBrs : Nat := 0xB043
abbrev BellPeriod : Nat := 0xB044
abbrev BellPhase : Nat := 0xB045
abbrev BellSeq : Nat := 0xB046
abbrev BellLastSync : Nat := 0xB047
abbrev BellLate : Nat := 0xB048
abbrev BellState : Nat := 0xB049
abbrev NtServoMode : Nat := 0xB080
abbrev NtIncrement : Nat := 0xB081
abbrev NtJumpThreshold : Nat := 0xB082
abbrev NtDomain : Nat := 0xB083
abbrev NtTransport : Nat := 0xB084
abbrev NtRole : Nat := 0xB085
abbrev NtPriority1 : Nat := 0xB086
abbrev NtPriority2 : Nat := 0xB087
abbrev NtSyncInterval : Nat := 0xB088
abbrev NtDelayReqInterval : Nat := 0xB089
abbrev NtAnnounceTimeout : Nat := 0xB08A
abbrev NtServoBandwidth : Nat := 0xB08B
abbrev NtLockBand : Nat := 0xB08C
abbrev NtTcEnable : Nat := 0xB08D
abbrev NtState : Nat := 0xB090
abbrev NtLatched : Nat := 0xB091
abbrev NtOffset : Nat := 0xB092
abbrev NtMeanPathDelay : Nat := 0xB093
abbrev NtGrandmaster : Nat := 0xB094
abbrev NtResidenceMax : Nat := 0xB095
abbrev NtTcUnmatched : Nat := 0xB096
abbrev LineAddress : Nat := 0xB098
abbrev LineCount : Nat := 0xB099
abbrev LineNeighbour : Nat := 0xB09A
abbrev LineRollCallState : Nat := 0xB09B
abbrev SysBootSelect : Nat := 0x1040
abbrev SysBootSlot : Nat := 0x1041
abbrev SysBootState : Nat := 0x1042
abbrev SysImageState : Nat := 0x1043
abbrev SysImageVersion : Nat := 0x1044
abbrev SysResetCause : Nat := 0x1045
abbrev SysReadyTime : Nat := 0x1046
abbrev ElkHoldAfterDiscover : Nat := 0x2008
abbrev ElkNodeIdentity : Nat := 0x2009
abbrev AxisGroup : Nat := 0x1050
abbrev GroupState : Nat := 0x1051
abbrev GroupCycle : Nat := 0x1052
abbrev FaultActive : Nat := 0xE000
abbrev FaultAxes : Nat := 0xE001
abbrev FaultLogCount : Nat := 0xE002
abbrev FaultLogLost : Nat := 0xE003
abbrev EventSeqLast : Nat := 0xE004
abbrev UpdState : Nat := 0xE010
abbrev UpdTrialRemaining : Nat := 0xE011
abbrev UpdWritten : Nat := 0xE012
abbrev SysHardwareRev : Nat := 0x1060
abbrev SysOrderCode : Nat := 0x1061
abbrev SysSerial : Nat := 0x1062
abbrev SysSupplyVoltage : Nat := 0x1063
abbrev SysBoardTemp : Nat := 0x1064
abbrev SysAuxSupplyState : Nat := 0x1065
abbrev SysMacBase : Nat := 0x1066
abbrev ElkSfpState : Nat := 0x200A

end Sys2Proof.P

namespace Sys2Proof.Machine

/-- Chapter 01. -/
def paramRows01a : List ParamRow := [
  ⟨0x1000, .u64, [(0, 0)], .any, 0, .ro⟩,
  ⟨0x1001, .u32, [(0, 0)], .any, 0, .ro⟩,
  ⟨0x1010, .u32, [(0, 0)], .nat 0 3, 0, .rw⟩,
  ⟨0x1011, .u32, [(0, 0)], .nat 0 249999, 0, .rw⟩,
  ⟨0x1012, .u32, [(0, 0)], .any, 0, .ro⟩,
  ⟨0x1013, .lt, [(0, 0)], .any, 0, .ro⟩,
  ⟨0x1020, .u32, [(0, 0)], .any, 0, .ro⟩,
  ⟨0x1021, .u32, [(0, 0)], .any, 0, .w1c⟩,
  ⟨0x1030, .u32, [(0, 0)], .any, 2, .ro⟩,
  ⟨0x1031, .u32, [(0, 0)], .any, 0, .ro⟩]

/-- Chapter 02. -/
def paramRows02a : List ParamRow := [
  ⟨0x2000, .u32, [(0, 0)], .any, 0, .ro⟩,
  ⟨0x2001, .u32, [(0, 0)], .any, 0, .ro⟩,
  ⟨0x2002, .u32, [(1, 63)], .any, 0, .rw⟩,
  ⟨0x2003, .u32, [(0, 0)], .nat 0 1, 0, .rw⟩,
  ⟨0x2004, .u32, [(0, 0)], .nat 0 7, 0, .rw⟩,
  ⟨0x2005, .u32, [(0, 0)], .any, 0xff, .ro⟩,
  ⟨0x2006, .u64, [(0, 0)], .any, 0, .ro⟩,
  ⟨0x2007, .u32, [(0, 0)], .any, 0, .ro⟩,
  ⟨0x2010, .u32, [(1, 63)], .nat 1 4, 2, .rw⟩,
  ⟨0x2011, .u32, [(0, 127)], .bitsOnly 0x73F, 0, .rw⟩,
  ⟨0x2012, .u32, [(0, 127)], .any, 0, .ro⟩,
  ⟨0x2020, .f32, [(1, 128)], .any, 0, .ro⟩,
  ⟨0x2021, .f32, [(0, 1)], .any, 0, .ro⟩,
  ⟨0x2030, .u32, [(1, 63), (65, 127)], .any, 0, .ro⟩,
  ⟨0x2031, .u32, [(1, 63), (65, 127)], .any, 0, .ro⟩,
  ⟨0x2032, .u32, [(0, 127)], .any, 0, .ro⟩,
  ⟨0x2033, .u32, [(1, 63), (65, 127)], .any, 0, .ro⟩]

/-- Chapter 03. -/
def paramRows03a : List ParamRow := [
  ⟨0x3000, .u32, [(0, 135)], .nat 0 5, 0, .rw⟩,
  ⟨0x3001, .u32, [(0, 135)], .nat 0 1, 0, .rw⟩,
  ⟨0x3002, .u32, [(0, 135)], .nat 2 2147483648, 0x1000, .rw⟩,
  ⟨0x3003, .u32, [(0, 135)], .nat 8 40, 0x19, .rw⟩,
  ⟨0x3004, .u32, [(0, 135)], .nat 0 4, 0, .rw⟩,
  ⟨0x3005, .u32, [(0, 135)], .nat 0 1, 0, .rw⟩,
  ⟨0x3006, .u32, [(0, 135)], .nat 0 1, 0, .rw⟩,
  ⟨0x3007, .u32, [(0, 135)], .nat 0 1, 0, .rw⟩,
  ⟨0x3008, .i64, [(0, 135)], .any, 0, .rw⟩,
  ⟨0x3009, .f32, [(128, 135)], .flt 0x00000000 0x43480000, 0x41200000, .rw⟩,
  ⟨0x300A, .f32, [(128, 135)], .flt 0x42C80000 0x461C4000, 0x447a0000, .rw⟩,
  ⟨0x300B, .f32, [(128, 135)], .flt 0x3F800000 0x42700000, 0x41a00000, .rw⟩,
  ⟨0x300C, .f32, [(128, 135)], .flt 0x00000000 0x44FA0000, 0, .rw⟩,
  ⟨0x3010, .f32, [(0, 135)], .flt 0x3DCCCCCD 0x447A0000, 0x41200000, .rw⟩,
  ⟨0x3011, .f32, [(0, 135)], .flt 0x00000000 0x42C80000, 0, .rw⟩,
  ⟨0x3018, .u32, [(0, 135)], .nat 0 1000, 2, .rw⟩,
  ⟨0x3019, .u32, [(0, 135)], .any, 0xffffffff, .rw⟩,
  ⟨0x301A, .u32, [(0, 127)], .nat 0 3, 0, .rw⟩,
  ⟨0x301B, .u32, [(0, 135)], .any, 0, .ro⟩,
  ⟨0x301C, .i32, [(0, 135)], .any, 0, .ro⟩,
  ⟨0x3020, .u32, [(0, 135)], .nat 0 3, 1, .rw⟩,
  ⟨0x3021, .u32, [(0, 135)], .any, 0, .ro⟩,
  ⟨0x3022, .f32, [(0, 127)], .flt 0x3F800000 0x447A0000, 0x41a00000, .rw⟩,
  ⟨0x3023, .f32, [(0, 127)], .flt 0x3C23D70A 0x3F800000, 0x3e4ccccd, .rw⟩,
  ⟨0x3024, .u32, [(0, 127)], .oneOf [2, 4], 2, .rw⟩,
  ⟨0x3030, .f32, [(0, 127)], .flt 0x3F800000 0x4E6E6B28, 0x461c4000, .rw⟩,
  ⟨0x3031, .f32, [(0, 127)], .flt 0x00000000 0x42C80000, 0x3f800000, .rw⟩,
  ⟨0x3032, .u32, [(0, 127)], .nat 0 3, 1, .rw⟩,
  ⟨0x3033, .u32, [(0, 127)], .nat 0 1, 0, .rw⟩,
  ⟨0x3034, .i64, [(0, 127)], .any, 0x7fffffffffffffff, .rw⟩]

/-- Chapter 03. -/
def paramRows03b : List ParamRow := [
  ⟨0x3035, .i64, [(0, 127)], .any, 0x8000000000000000, .rw⟩,
  ⟨0x3036, .u32, [(0, 127)], .nat 0 3, 1, .rw⟩,
  ⟨0x3037, .f32, [(0, 127)], .flt 0x00000000 0x4E6E6B28, 0, .rw⟩,
  ⟨0x3038, .u32, [(0, 127)], .nat 0 3, 2, .rw⟩,
  ⟨0x3040, .i64, [(0, 135)], .any, 0, .ro⟩,
  ⟨0x3041, .i64, [(0, 135)], .any, 0, .ro⟩,
  ⟨0x3042, .u32, [(0, 135)], .any, 0, .ro⟩,
  ⟨0x3043, .u32, [(0, 135)], .any, 0, .w1c⟩,
  ⟨0x3044, .i64, [(0, 127)], .any, 0, .ro⟩,
  ⟨0x3045, .u32, [(0, 127)], .any, 0, .ro⟩]

/-- Chapter 04. -/
def paramRows04a : List ParamRow := [
  ⟨0x3800, .u32, [(0, 63)], .nat 0 3, 0, .rw⟩,
  ⟨0x3801, .u32, [(0, 63)], .nat 0 16383, 0, .rw⟩,
  ⟨0x3802, .u32, [(0, 63)], .nat 1 3, 1, .rw⟩,
  ⟨0x3803, .u32, [(0, 63)], .any, 0, .rw⟩,
  ⟨0x3804, .u32, [(0, 63)], .nat 0 1, 0, .rw⟩,
  ⟨0x3805, .u32, [(0, 63)], .nat 0 1, 0, .rw⟩,
  ⟨0x3806, .i64, [(0, 63)], .int 0 9223372036854775807, 0, .rw⟩,
  ⟨0x3807, .i64, [(0, 63)], .any, 0, .rw⟩,
  ⟨0x3808, .i64, [(0, 63)], .any, 0, .rw⟩,
  ⟨0x3809, .u32, [(0, 63)], .nat 0 1, 0, .rw⟩,
  ⟨0x380A, .u32, [(0, 63)], .any, 0, .ro⟩,
  ⟨0x380B, .u32, [(0, 63)], .any, 0, .ro⟩,
  ⟨0x380C, .u32, [(0, 63)], .any, 0, .ro⟩,
  ⟨0x380D, .u32, [(0, 63)], .any, 0, .ro⟩,
  ⟨0x380E, .u32, [(0, 63)], .any, 0, .ro⟩,
  ⟨0x3820, .u32, [(0, 31)], .any, 0, .rw⟩,
  ⟨0x3821, .u32, [(0, 31)], .nat 1 3, 1, .rw⟩,
  ⟨0x3822, .u32, [(0, 31)], .nat 0 2, 0, .rw⟩,
  ⟨0x3823, .i64, [(0, 31)], .any, 0, .rw⟩,
  ⟨0x3824, .i64, [(0, 31)], .int 0 4611686018427387904, 0, .rw⟩,
  ⟨0x3825, .i64, [(0, 31)], .int 65536 4611686018427387904, 0x10000, .rw⟩,
  ⟨0x3826, .f32, [(0, 31)], .flt 0x3F800000 0x477FFF00, 0x447a0000, .rw⟩,
  ⟨0x3827, .u32, [(0, 31)], .any, 0, .rw⟩,
  ⟨0x3828, .u32, [(0, 31)], .mask 0x3FFFF, 0, .rw⟩,
  ⟨0x3829, .u32, [(0, 31)], .nat 0 1, 0, .rw⟩,
  ⟨0x382A, .u32, [(0, 31)], .any, 0, .ro⟩,
  ⟨0x382B, .u32, [(0, 31)], .any, 0, .ro⟩,
  ⟨0x382C, .u32, [(0, 31)], .any, 0, .ro⟩,
  ⟨0x382D, .u32, [(0, 31)], .any, 0, .ro⟩,
  ⟨0x382E, .lt, [(0, 31)], .any, 0, .ro⟩]

/-- Chapter 04. -/
def paramRows04b : List ParamRow := [
  ⟨0x3840, .u32, [(0, 7)], .any, 0, .rw⟩,
  ⟨0x3841, .u32, [(0, 7)], .nat 1 65535, 1, .rw⟩,
  ⟨0x3842, .u32, [(0, 7)], .nat 1 65535, 1, .rw⟩,
  ⟨0x3843, .u32, [(0, 7)], .nat 0 1, 0, .rw⟩,
  ⟨0x3844, .f32, [(0, 7)], .flt 0x447A0000 0x4B189680, 0x4b189680, .rw⟩,
  ⟨0x3845, .u32, [(0, 7)], .nat 0 1, 0, .rw⟩,
  ⟨0x3846, .u32, [(0, 7)], .nat 4 2147483648, 0x1000, .rw⟩,
  ⟨0x3847, .u32, [(0, 7)], .any, 0, .rw⟩,
  ⟨0x3848, .u32, [(0, 7)], .nat 0 1, 0, .rw⟩,
  ⟨0x3849, .u32, [(0, 7)], .any, 0, .ro⟩,
  ⟨0x384A, .i32, [(0, 7)], .any, 0, .ro⟩,
  ⟨0x384B, .u32, [(0, 7)], .any, 0, .ro⟩]

/-- Chapter 05. -/
def paramRows05a : List ParamRow := [
  ⟨0x4000, .u32, [(0, 127)], .nat 1 4, 3, .rw⟩,
  ⟨0x4001, .u32, [(0, 127)], .nat 0 3, 0, .rw⟩,
  ⟨0x4002, .u32, [(0, 127)], .oneOf [1, 2], 1, .rw⟩,
  ⟨0x4003, .u32, [(0, 127)], .oneOf [1, 2, 4], 1, .rw⟩,
  ⟨0x4004, .u32, [(0, 127)], .any, 0, .rw⟩,
  ⟨0x4008, .u32, [(0, 127)], .nat 1 128, 4, .rw⟩,
  ⟨0x4009, .i64, [(0, 127)], .any, 0, .rw⟩,
  ⟨0x400A, .f32, [(0, 127)], .flt 0x00000000 0x447A0000, 0, .rw⟩,
  ⟨0x400B, .f32, [(0, 127)], .flt 0x00000000 0x461C4000, 0, .rw⟩,
  ⟨0x400C, .f32, [(0, 127)], .flt 0x00000000 0x461C4000, 0, .rw⟩,
  ⟨0x400D, .f32, [(0, 127)], .flt 0x00000000 0x42C80000, 0, .rw⟩,
  ⟨0x4010, .f32, [(0, 127)], .flt 0x00000000 0x461C4000, 0, .rw⟩,
  ⟨0x4011, .f32, [(0, 127)], .flt 0x00000000 0x447A0000, 0x3f800000, .rw⟩,
  ⟨0x4012, .u32, [(0, 127)], .nat 0 1, 1, .rw⟩,
  ⟨0x4013, .f32, [(0, 127)], .finite, 0, .rw⟩,
  ⟨0x4014, .f32, [(0, 127)], .finite, 0, .rw⟩,
  ⟨0x4015, .f32, [(0, 127)], .finiteNonneg, 0, .rw⟩,
  ⟨0x4016, .f32, [(0, 127)], .flt 0x3DCCCCCD 0x3F800000, 0x3f733333, .rw⟩,
  ⟨0x4017, .f32, [(0, 127)], .flt 0x41200000 0x447A0000, 0x42480000, .rw⟩,
  ⟨0x4018, .u32, [(0, 127)], .nat 0 1, 1, .rw⟩,
  ⟨0x4020, .f32, [(0, 127)], .flt 0x00000000 0x3F800000, 0, .rw⟩,
  ⟨0x4021, .f32, [(0, 127)], .flt 0x00000000 0x461C4000, 0x41200000, .rw⟩,
  ⟨0x4022, .f32, [(0, 127)], .flt 0x00000000 0x4CF7F490, 0x49742400, .rw⟩,
  ⟨0x4023, .f32, [(0, 127)], .flt 0x00000000 0x3F99999A, 0x3f800000, .rw⟩,
  ⟨0x4024, .f32, [(0, 127)], .flt 0x00000000 0x3F800000, 0, .rw⟩,
  ⟨0x4025, .f32, [(0, 127)], .finiteNonneg, 0, .rw⟩,
  ⟨0x4026, .f32, [(0, 127)], .flt 0x3F800000 0x49742400, 0x42c80000, .rw⟩,
  ⟨0x4028, .u32, [(0, 255)], .nat 0 3, 0, .rw⟩,
  ⟨0x4029, .f32, [(0, 255)], .finite, 0x447a0000, .rw⟩,
  ⟨0x402A, .f32, [(0, 255)], .flt 0x3D4CCCCD 0x40000000, 0x3f333333, .rw⟩]

/-- Chapter 05. -/
def paramRows05b : List ParamRow := [
  ⟨0x402B, .f32, [(0, 255)], .flt 0x00000000 0x3F800000, 0, .rw⟩,
  ⟨0x402C, .f32n 5, [(0, 255)], .finite, 0x3f800000, .rw⟩,
  ⟨0x4030, .u32, [(0, 127)], .nat 0 1, 0, .rw⟩,
  ⟨0x4031, .f32, [(0, 127)], .flt 0x00000000 0x3F800000, 0, .rw⟩,
  ⟨0x4032, .f32, [(0, 127)], .finite, 0x42c80000, .rw⟩,
  ⟨0x4033, .f32, [(0, 127)], .flt 0x00000000 0x3F800000, 0x3f800000, .rw⟩,
  ⟨0x4038, .f32, [(0, 127)], .flt 0x00000000 0x461C4000, 0, .rw⟩,
  ⟨0x4039, .f32, [(0, 127)], .flt 0x00000000 0x4CF7F490, 0x49742400, .rw⟩,
  ⟨0x4040, .f32, [(0, 127)], .finiteNonneg, 0, .rw⟩,
  ⟨0x4041, .f32, [(0, 127)], .finiteNonneg, 0, .rw⟩,
  ⟨0x4042, .f32, [(0, 127)], .flt 0x00000000 0x461C4000, 0x42c80000, .rw⟩,
  ⟨0x4048, .u32, [(0, 127)], .nat 0 1, 1, .rw⟩,
  ⟨0x4050, .u32, [(0, 127)], .any, 0, .ro⟩,
  ⟨0x4051, .u32, [(0, 127)], .any, 0, .ro⟩,
  ⟨0x4052, .u32, [(0, 127)], .any, 0, .ro⟩,
  ⟨0x4053, .f32, [(0, 127)], .any, 0, .ro⟩,
  ⟨0x4054, .f32, [(0, 127)], .any, 0, .ro⟩,
  ⟨0x4058, .f32, [(0, 127)], .any, 0, .ro⟩,
  ⟨0x4059, .f32, [(0, 127)], .any, 0, .ro⟩,
  ⟨0x405A, .f32, [(0, 127)], .any, 0, .ro⟩,
  ⟨0x405B, .f32, [(0, 127)], .any, 0, .ro⟩,
  ⟨0x405C, .f32n 2, [(0, 127)], .any, 0, .ro⟩,
  ⟨0x405D, .f32, [(0, 127)], .any, 0, .ro⟩,
  ⟨0x4070, .u32, [(0, 0)], .any, 0, .rc⟩,
  ⟨0x4071, .f32, [(0, 0)], .any, 0, .rc⟩]

/-- Chapter 06. -/
def paramRows06a : List ParamRow := [
  ⟨0x4080, .u32, [(0, 127)], .any, 0, .ro⟩,
  ⟨0x4081, .f32n 2, [(0, 127)], .any, 0, .ro⟩,
  ⟨0x4082, .u32, [(0, 127)], .any, 0, .ro⟩,
  ⟨0x4083, .f32n 8, [(0, 127)], .any, 0, .ro⟩,
  ⟨0x4084, .u32, [(0, 127)], .any, 0, .ro⟩,
  ⟨0x4085, .u32, [(0, 127)], .any, 0, .ro⟩,
  ⟨0x4086, .u32, [(0, 127)], .any, 2, .ro⟩,
  ⟨0x4087, .f32, [(0, 127)], .any, 0, .ro⟩,
  ⟨0x4088, .f32, [(0, 127)], .flt 0x3F800000 0x461C4000, 0x43480000, .rw⟩,
  ⟨0x4089, .f32, [(0, 127)], .flt 0x3F800000 0x501502F9, 0x49742400, .rw⟩,
  ⟨0x408A, .f32, [(0, 127)], .flt 0x00000000 0x42C80000, 0, .rw⟩]

/-- Chapter 07. -/
def paramRows07a : List ParamRow := [
  ⟨0x5000, .u32, [(0, 127)], .any, 0, .ro⟩,
  ⟨0x5001, .u32, [(0, 127)], .any, 0, .ro⟩,
  ⟨0x5002, .u32, [(0, 127)], .nat 0 1, 0, .rw⟩,
  ⟨0x5003, .f32, [(0, 127)], .flt 0x3F800000 0x4CF7F490, 0x49742400, .rw⟩,
  ⟨0x5004, .f32, [(0, 127)], .flt 0x3F800000 0x501502F9, 0x4b189680, .rw⟩,
  ⟨0x5005, .f32, [(0, 127)], .flt 0x3F800000 0x501502F9, 0x4b189680, .rw⟩,
  ⟨0x5006, .f32, [(0, 127)], .flt 0x447A0000 0x551184E7, 0x4e6e6b28, .rw⟩,
  ⟨0x5007, .f32, [(0, 127)], .flt 0x3F800000 0x501502F9, 0x4b989680, .rw⟩,
  ⟨0x5008, .f32, [(0, 127)], .flt 0x447A0000 0x551184E7, 0x4f6e6b28, .rw⟩,
  ⟨0x5010, .f32, [(0, 127)], .flt 0x3F800000 0x4CF7F490, 0x47c35000, .rw⟩,
  ⟨0x5011, .f32, [(0, 127)], .flt 0x3F800000 0x501502F9, 0x49742400, .rw⟩,
  ⟨0x5012, .f32, [(0, 127)], .flt 0x447A0000 0x551184E7, 0x4cbebc20, .rw⟩,
  ⟨0x5013, .f32, [(0, 127)], .flt 0x3C23D70A 0x447A0000, 0x40000000, .rw⟩,
  ⟨0x5014, .f32, [(0, 127)], .flt 0x3F800000 0x49742400, 0x447a0000, .rw⟩,
  ⟨0x5018, .f32, [(0, 127)], .finiteNonneg, 0, .rw⟩,
  ⟨0x5019, .f32, [(0, 127)], .finiteNonneg, 0, .rw⟩,
  ⟨0x501A, .f32, [(0, 127)], .finiteNonneg, 0x49742400, .rw⟩,
  ⟨0x501B, .f32, [(0, 127)], .flt 0x3F800000 0x501502F9, 0x4b189680, .rw⟩,
  ⟨0x501C, .f32, [(0, 127)], .flt 0x3F800000 0x501502F9, 0x4b189680, .rw⟩,
  ⟨0x501D, .f32, [(0, 127)], .flt 0x3F800000 0x501502F9, 0x4b189680, .rw⟩,
  ⟨0x501E, .f32, [(0, 127)], .flt 0x3F800000 0x501502F9, 0x4b189680, .rw⟩,
  ⟨0x5020, .u32, [(0, 127)], .nat 0 3, 0, .rw⟩,
  ⟨0x5021, .u32, [(0, 127)], .nat 1 2, 1, .rw⟩,
  ⟨0x5022, .f32, [(0, 127)], .flt 0x3F800000 0x4E6E6B28, 0x461c4000, .rw⟩,
  ⟨0x5023, .f32, [(0, 127)], .flt 0x3F800000 0x4E6E6B28, 0x447a0000, .rw⟩,
  ⟨0x5024, .u32, [(0, 127)], .nat 0 15, 0, .rw⟩,
  ⟨0x5025, .u32, [(0, 127)], .nat 1 2, 1, .rw⟩,
  ⟨0x5026, .i64, [(0, 127)], .any, 0, .rw⟩,
  ⟨0x5027, .i64, [(0, 127)], .any, 0, .rw⟩,
  ⟨0x5028, .f32, [(0, 127)], .flt 0x3F800000 0x5368D4A5, 0x49742400, .rw⟩]

/-- Chapter 07. -/
def paramRows07b : List ParamRow := [
  ⟨0x5030, .u32, [(0, 127)], .nat 16 4096, 0x10, .rw⟩,
  ⟨0x5031, .u32, [(0, 127)], .nat 1 16, 8, .rw⟩,
  ⟨0x5032, .u32, [(0, 127)], .any, 0, .ro⟩,
  ⟨0x5033, .u32, [(0, 127)], .any, 0xffffffff, .ro⟩,
  ⟨0x5040, .i64, [(0, 127)], .any, 0, .ro⟩,
  ⟨0x5041, .i64, [(0, 127)], .any, 0, .ro⟩,
  ⟨0x5042, .i64, [(0, 127)], .any, 0, .ro⟩,
  ⟨0x5043, .i64, [(0, 127)], .any, 0, .ro⟩,
  ⟨0x5044, .u32, [(0, 127)], .any, 0, .ro⟩,
  ⟨0x5045, .u32, [(0, 127)], .any, 0, .w1c⟩]

/-- Chapter 08. -/
def paramRows08a : List ParamRow := [
  ⟨0x6000, .u32, [(0, 15)], .nat 0 2, 0, .rw⟩,
  ⟨0x6001, .u32, [(0, 15)], .nat 0 65535, 0, .rw⟩,
  ⟨0x6002, .i32, [(0, 15)], .int (-2147483647) 2147483647, 1, .rw⟩,
  ⟨0x6003, .u32, [(0, 15)], .nat 1 2147483647, 1, .rw⟩,
  ⟨0x6004, .f32, [(0, 15)], .flt 0x3F800000 0x4CF7F490, 0x49742400, .rw⟩,
  ⟨0x6005, .f32, [(0, 15)], .flt 0x3F800000 0x501502F9, 0x4b189680, .rw⟩,
  ⟨0x6006, .f32, [(0, 15)], .flt 0x3F800000 0x501502F9, 0x4b189680, .rw⟩,
  ⟨0x6007, .f32, [(0, 15)], .flt 0x447A0000 0x551184E7, 0x4e6e6b28, .rw⟩,
  ⟨0x6008, .f32, [(0, 15)], .flt 0x3F800000 0x501502F9, 0x4b989680, .rw⟩,
  ⟨0x6009, .f32, [(0, 15)], .flt 0x447A0000 0x551184E7, 0x4f6e6b28, .rw⟩,
  ⟨0x600A, .u32, [(0, 15)], .nat 0 1, 0, .rw⟩,
  ⟨0x600B, .f32, [(0, 15)], .flt 0x3C23D70A 0x42C80000, 0x40000000, .rw⟩,
  ⟨0x600C, .f32, [(0, 15)], .flt 0x3DCCCCCD 0x461C4000, 0x42200000, .rw⟩,
  ⟨0x600D, .f32, [(0, 15)], .flt 0x00000000 0x3F800000, 0x3f800000, .rw⟩,
  ⟨0x600E, .f32, [(0, 15)], .flt 0x00000000 0x42C80000, 0x3f800000, .rw⟩,
  ⟨0x6010, .i64, [(0, 15)], .any, 0, .ro⟩,
  ⟨0x6011, .i64, [(0, 15)], .any, 0, .ro⟩,
  ⟨0x6012, .i64, [(0, 15)], .any, 0, .ro⟩,
  ⟨0x6013, .f32, [(0, 15)], .any, 0x3f800000, .ro⟩,
  ⟨0x6014, .u32, [(0, 15)], .any, 0, .ro⟩,
  ⟨0x6020, .u32, [(0, 127)], .nat 0 2, 0, .rw⟩,
  ⟨0x6021, .u32, [(0, 127)], .nat 0 15, 0, .rw⟩,
  ⟨0x6022, .i32, [(0, 127)], .int (-2147483647) 2147483647, 1, .rw⟩,
  ⟨0x6023, .u32, [(0, 127)], .nat 1 2147483647, 1, .rw⟩,
  ⟨0x6024, .u32, [(0, 127)], .nat 0 255, 0, .rw⟩,
  ⟨0x6025, .f32, [(0, 127)], .flt 0xC1800000 0x41800000, 0x3f800000, .rw⟩,
  ⟨0x6026, .i64, [(0, 127)], .any, 0, .rw⟩,
  ⟨0x6027, .i64, [(0, 127)], .any, 0, .rw⟩,
  ⟨0x6028, .u32, [(0, 127)], .nat 0 1, 1, .rw⟩,
  ⟨0x6029, .i64, [(0, 127)], .any, 0, .rw⟩]

/-- Chapter 08. -/
def paramRows08b : List ParamRow := [
  ⟨0x602A, .i64, [(0, 127)], .any, 0, .rw⟩,
  ⟨0x6030, .u32, [(0, 127)], .natOrNone 63, 0xff, .rw⟩,
  ⟨0x6031, .i64, [(0, 127)], .int 65536 4611686018427387904, 0x8ca00000, .rw⟩,
  ⟨0x6032, .i64, [(0, 127)], .int 0 9223372036854775807, 0, .rw⟩,
  ⟨0x6033, .f32, [(0, 127)], .flt 0x00000000 0x3F800000, 0x3f000000, .rw⟩,
  ⟨0x6034, .f32, [(0, 127)], .flt 0x00000000 0x49742400, 0x42c80000, .rw⟩,
  ⟨0x6035, .f32, [(0, 127)], .flt 0x3F800000 0x4E6E6B28, 0x447a0000, .rw⟩,
  ⟨0x6036, .u32, [(0, 127)], .nat 1 1000, 3, .rw⟩,
  ⟨0x6037, .i64, [(0, 127)], .any, 0, .ro⟩,
  ⟨0x6038, .u32, [(0, 127)], .any, 0, .ro⟩,
  ⟨0x6039, .u32, [(0, 127)], .any, 0, .ro⟩,
  ⟨0x603A, .u32, [(0, 127)], .any, 0, .ro⟩,
  ⟨0x603B, .f32, [(0, 127)], .any, 0, .ro⟩,
  ⟨0x6040, .u32, [(0, 0)], .any, 0, .ro⟩,
  ⟨0x6041, .u32, [(0, 0)], .any, 0x4000000, .ro⟩,
  ⟨0x6042, .u32, [(0, 255)], .any, 0, .ro⟩,
  ⟨0x6043, .f32n 2, [(0, 255)], .any, 0, .ro⟩,
  ⟨0x6050, .u64, [(0, 15)], .any, 0xffffffffffff, .rw⟩,
  ⟨0x6051, .f32, [(0, 15)], .flt 0x3F800000 0x4CF7F490, 0x49742400, .rw⟩,
  ⟨0x6052, .f32, [(0, 15)], .flt 0x3F800000 0x501502F9, 0x4b189680, .rw⟩,
  ⟨0x6053, .f32, [(0, 15)], .flt 0x3F800000 0x501502F9, 0x4b189680, .rw⟩,
  ⟨0x6054, .f32, [(0, 15)], .flt 0x447A0000 0x551184E7, 0x4e6e6b28, .rw⟩,
  ⟨0x6055, .f32, [(0, 15)], .flt 0x3F800000 0x501502F9, 0x4b989680, .rw⟩,
  ⟨0x6056, .f32, [(0, 15)], .flt 0x447A0000 0x551184E7, 0x4f6e6b28, .rw⟩,
  ⟨0x6057, .f32, [(0, 15)], .flt 0x00000000 0x49742400, 0, .rw⟩,
  ⟨0x6058, .u32, [(0, 15)], .natOrNone 15, 0xff, .rw⟩,
  ⟨0x6059, .u32, [(0, 15)], .nat 16 1024, 0x40, .rw⟩,
  ⟨0x605A, .u32, [(0, 15)], .nat 1 16, 8, .rw⟩,
  ⟨0x6060, .u32, [(0, 15)], .any, 0, .ro⟩,
  ⟨0x6061, .i64, [(0, 15)], .any, 0, .ro⟩]

/-- Chapter 08. -/
def paramRows08c : List ParamRow := [
  ⟨0x6062, .i64, [(0, 15)], .any, 0, .ro⟩,
  ⟨0x6063, .u32, [(0, 15)], .any, 0, .ro⟩,
  ⟨0x6064, .u32, [(0, 15)], .any, 0xffffffff, .ro⟩,
  ⟨0x6070, .u32, [(0, 0)], .nat 0 1, 0, .rw⟩,
  ⟨0x6071, .f32, [(0, 0)], .flt 0x3F000000 0x41200000, 0x3f800000, .rw⟩,
  ⟨0x6072, .f32, [(0, 0)], .flt 0x3FC00000 0x42480000, 0x40800000, .rw⟩,
  ⟨0x6073, .f32, [(0, 0)], .flt 0x40000000 0x42C80000, 0x41200000, .rw⟩,
  ⟨0x6074, .u32, [(0, 0)], .nat 3758096384 4026531839, 0xef004a80, .rw⟩,
  ⟨0x6075, .u32, [(0, 0)], .nat 1024 65535, 0xb818, .rw⟩,
  ⟨0x6076, .u32, [(0, 0)], .any, 0, .ro⟩,
  ⟨0x6077, .f32, [(0, 0)], .any, 0x3f800000, .ro⟩,
  ⟨0x6078, .f32, [(0, 0)], .any, 0x3f800000, .ro⟩,
  ⟨0x6079, .u32, [(0, 0)], .any, 0, .ro⟩]

/-- Chapter 09. -/
def paramRows09a : List ParamRow := [
  ⟨0x7000, .u32, [(0, 127)], .nat 0 3, 0, .rw⟩,
  ⟨0x7001, .u32, [(0, 139)], .nat 0 2, 0, .rw⟩,
  ⟨0x7002, .f32, [(0, 139)], .flt 0x41480000 0x45473800, 0x447a0000, .rw⟩,
  ⟨0x7003, .f32, [(0, 139)], .flt 0xFF7FFFFF 0x461C4000, 0x451c4000, .rw⟩,
  ⟨0x7004, .u32, [(0, 139)], .nat 0 1, 1, .rw⟩,
  ⟨0x7005, .f32, [(0, 139)], .flt 0x3A83126F 0x447A0000, 0x3dcccccd, .rw⟩,
  ⟨0x7006, .u32, [(0, 127)], .nat 0 3, 0, .rw⟩,
  ⟨0x7007, .u32, [(0, 127)], .mask 0x3, 0, .rw⟩,
  ⟨0x7008, .u32, [(0, 139)], .nat 0 15, 0, .rw⟩,
  ⟨0x7009, .u32, [(0, 127)], .nat 0 31, 0, .rw⟩,
  ⟨0x7010, .u32, [(128, 139)], .nat 0 2, 0, .rw⟩,
  ⟨0x7011, .f32, [(128, 139)], .flt 0x00000000 0x3F800000, 0, .rw⟩,
  ⟨0x7012, .u32, [(128, 139)], .mask 0x3, 3, .rw⟩,
  ⟨0x7013, .f32, [(128, 139)], .flt 0x41A00000 0x447A0000, 0x42c80000, .rw⟩,
  ⟨0x7014, .u32, [(128, 139)], .nat 0 2, 1, .rw⟩,
  ⟨0x7015, .u32, [(128, 139)], .any, 0, .ro⟩,
  ⟨0x7016, .lt, [(128, 139)], .any, 0, .ro⟩,
  ⟨0x7017, .u32, [(128, 139)], .any, 0, .ro⟩,
  ⟨0x7018, .u32, [(128, 139)], .any, 0, .ro⟩,
  ⟨0x7020, .u32, [(0, 15)], .any, 0, .ro⟩,
  ⟨0x7021, .u32, [(0, 15)], .any, 0, .ro⟩,
  ⟨0x7030, .u32, [(0, 139)], .any, 0, .ro⟩,
  ⟨0x7031, .u8n 24, [(0, 139)], .any, 0, .ro⟩,
  ⟨0x7040, .u32, [(0, 31)], .any, 0, .ro⟩,
  ⟨0x7041, .u32, [(0, 31)], .any, 0, .ro⟩]

/-- Chapter 10. -/
def paramRows10a : List ParamRow := [
  ⟨0x8000, .u32, [(0, 0)], .any, 0, .ro⟩,
  ⟨0x8001, .u32, [(0, 0)], .any, 0, .ro⟩,
  ⟨0x8002, .u32, [(0, 0)], .any, 0, .ro⟩,
  ⟨0x8008, .u32, [(128, 139)], .nat 0 4, 0, .rw⟩,
  ⟨0x8009, .u32, [(0, 0)], .oneOf [0, 2], 0, .rw⟩,
  ⟨0x8010, .u32, [(0, 11)], .nat 0 8, 0, .rw⟩,
  ⟨0x8011, .f32, [(0, 11)], .flt 0x3F800000 0x461C4000, 0x3f800000, .rw⟩,
  ⟨0x8012, .f32, [(0, 11)], .finite, 0, .rw⟩,
  ⟨0x8013, .f32, [(0, 0)], .flt 0x40A00000 0x41C80000, 0x41a00000, .rw⟩,
  ⟨0x8014, .u32, [(0, 0)], .oneOf [16, 32, 64, 128, 256], 0x40, .rw⟩,
  ⟨0x8015, .f32, [(0, 11)], .any, 0, .ro⟩,
  ⟨0x8016, .u32, [(0, 11)], .any, 0, .ro⟩,
  ⟨0x8020, .f32, [(0, 0)], .flt 0x43480000 0x43F00000, 0x43c80000, .rw⟩,
  ⟨0x8021, .f32, [(0, 0)], .flt 0x3D4CCCCD 0x42480000, 0x3f800000, .rw⟩,
  ⟨0x8022, .f32, [(0, 0)], .flt 0x40A00000 0x42C80000, 0x41f00000, .rw⟩,
  ⟨0x8023, .f32, [(0, 0)], .flt 0x40000000 0x42700000, 0x41200000, .rw⟩,
  ⟨0x8024, .f32, [(0, 0)], .flt 0x3F000000 0x3F733333, 0x3f59999a, .rw⟩,
  ⟨0x8025, .f32, [(0, 0)], .flt 0x3CF5C28F 0x41200000, 0x3e3851ec, .rw⟩,
  ⟨0x8026, .f32, [(0, 0)], .flt 0x3F800000 0x447A0000, 0x41a00000, .rw⟩,
  ⟨0x8027, .f32, [(0, 0)], .flt 0x3CA3D70A 0x3E99999A, 0x3dcccccd, .rw⟩,
  ⟨0x8028, .f32, [(0, 0)], .flt 0x3DCCCCCD 0x42700000, 0x40a00000, .rw⟩,
  ⟨0x8029, .f32n 3, [(0, 0)], .any, 0, .ro⟩,
  ⟨0x8030, .f32, [(0, 0)], .flt 0x44070000 0x44480000, 0x44228000, .rw⟩,
  ⟨0x8031, .f32, [(0, 0)], .flt 0x41200000 0x461C4000, 0x43fa0000, .rw⟩,
  ⟨0x8032, .f32, [(0, 0)], .flt 0x00000000 0x42C80000, 0x3f000000, .rw⟩,
  ⟨0x8033, .f32, [(0, 0)], .flt 0x00000000 0x447A0000, 0x41a00000, .rw⟩,
  ⟨0x8034, .f32, [(0, 0)], .flt 0x440C0000 0x44610000, 0x44548000, .rw⟩,
  ⟨0x8035, .f32, [(0, 0)], .flt 0x43480000 0x442F0000, 0x43e10000, .rw⟩,
  ⟨0x8036, .u32, [(0, 127)], .nat 0 1, 0, .rw⟩,
  ⟨0x8037, .f32, [(0, 0)], .any, 0, .ro⟩]

/-- Chapter 10. -/
def paramRows10b : List ParamRow := [
  ⟨0x8038, .f32, [(0, 0)], .any, 0, .ro⟩,
  ⟨0x8040, .f32, [(0, 0)], .flt 0x00000000 0x44FA0000, 0, .rw⟩,
  ⟨0x8041, .f32, [(0, 0)], .flt 0x00000000 0x3F800000, 0x3f800000, .rw⟩,
  ⟨0x8042, .f32, [(0, 0)], .finite, 0, .rw⟩,
  ⟨0x8043, .f32, [(0, 0)], .flt 0x00000000 0x447A0000, 0, .rw⟩,
  ⟨0x8044, .f32, [(0, 0)], .flt 0x00000000 0x42C80000, 0x3f800000, .rw⟩,
  ⟨0x8045, .u32, [(0, 0)], .nat 0 1, 1, .rw⟩,
  ⟨0x8046, .u32, [(0, 0)], .mask 0xF, 3, .rw⟩,
  ⟨0x8047, .f32n 2, [(0, 0)], .any, 0, .ro⟩,
  ⟨0x8050, .u32, [(0, 0)], .natOrNone 15, 0xff, .rw⟩,
  ⟨0x8051, .u32, [(0, 0)], .natOrNone 15, 0xff, .rw⟩,
  ⟨0x8052, .u32, [(0, 0)], .natOrNone 31, 0xff, .rw⟩,
  ⟨0x8053, .u32, [(0, 0)], .natOrNone 31, 0xff, .rw⟩,
  ⟨0x8054, .f32, [(0, 0)], .flt 0x41200000 0x447A0000, 0x42c80000, .rw⟩,
  ⟨0x8055, .f32, [(0, 0)], .flt 0x3F000000 0x3F7AE148, 0x3f666666, .rw⟩,
  ⟨0x8056, .f32, [(0, 0)], .flt 0x3DCCCCCD 0x41F00000, 0x40400000, .rw⟩,
  ⟨0x8057, .f32, [(0, 0)], .flt 0x00000000 0x447A0000, 0x42480000, .rw⟩,
  ⟨0x8060, .f32, [(0, 0)], .flt 0x440C0000 0x44610000, 0x443e0000, .rw⟩,
  ⟨0x8061, .f32, [(0, 0)], .flt 0x3F800000 0x42C80000, 0x41a00000, .rw⟩,
  ⟨0x8062, .f32, [(0, 0)], .flt 0x3F800000 0x447A0000, 0x42c80000, .rw⟩,
  ⟨0x8063, .f32, [(0, 0)], .flt 0x41200000 0x47C35000, 0x43fa0000, .rw⟩,
  ⟨0x8064, .f32, [(0, 0)], .flt 0x41200000 0x49742400, 0x459c4000, .rw⟩,
  ⟨0x8070, .u32, [(0, 15)], .oneOf [1, 2], 1, .rw⟩,
  ⟨0x8071, .f32, [(0, 0)], .flt 0x00000000 0x49742400, 0, .rw⟩,
  ⟨0x8072, .f32, [(0, 0)], .any, 0, .ro⟩,
  ⟨0x8073, .f32, [(0, 0)], .flt 0x00000000 0x49742400, 0, .rw⟩,
  ⟨0x8074, .f32, [(0, 0)], .flt 0x00000000 0x447A0000, 0, .rw⟩,
  ⟨0x8075, .f32, [(0, 0)], .flt 0x00000000 0x47C35000, 0, .rw⟩,
  ⟨0x8076, .f32, [(0, 0)], .flt 0x00000000 0x47C35000, 0x43fa0000, .rw⟩,
  ⟨0x8077, .f32, [(0, 0)], .flt 0x43C80000 0x44458000, 0x44188000, .rw⟩]

/-- Chapter 10. -/
def paramRows10c : List ParamRow := [
  ⟨0x8078, .f32, [(0, 0)], .flt 0x43960000 0x44430000, 0x440c0000, .rw⟩,
  ⟨0x8079, .f32, [(0, 0)], .flt 0x00000000 0x3F733333, 0x3ecccccd, .rw⟩,
  ⟨0x807A, .f32, [(0, 0)], .flt 0x3C23D70A 0x3E800000, 0x3d4ccccd, .rw⟩,
  ⟨0x807B, .f32, [(0, 0)], .flt 0x3D4CCCCD 0x42700000, 0x3f800000, .rw⟩,
  ⟨0x807C, .f32, [(0, 0)], .any, 0x3f800000, .ro⟩,
  ⟨0x807D, .f32, [(0, 0)], .any, 0, .ro⟩]

/-- Chapter 11. -/
def paramRows11a : List ParamRow := [
  ⟨0xD000, .u32, [(0, 7)], .any, 0, .ro⟩,
  ⟨0xD001, .u32, [(0, 0)], .any, 0xff, .ro⟩,
  ⟨0xD002, .u32, [(0, 0)], .any, 0, .ro⟩,
  ⟨0xD003, .u32, [(0, 11)], .any, 0, .ro⟩,
  ⟨0xD004, .u32, [(0, 0)], .any, 0, .ro⟩,
  ⟨0xD005, .u32, [(0, 0)], .any, 0, .ro⟩,
  ⟨0xD006, .u32, [(0, 0)], .any, 0, .ro⟩,
  ⟨0xD007, .u32, [(0, 0)], .any, 0, .ro⟩,
  ⟨0xD008, .f32, [(0, 0)], .any, 0, .ro⟩,
  ⟨0xD009, .f32, [(0, 0)], .any, 0, .ro⟩,
  ⟨0xD00A, .u32, [(0, 0)], .any, 0, .ro⟩,
  ⟨0xD00B, .u32, [(0, 0)], .any, 0, .ro⟩,
  ⟨0xD00C, .u32, [(0, 0)], .any, 0, .ro⟩,
  ⟨0xD00D, .f32, [(0, 0)], .any, 0x461c4000, .ro⟩,
  ⟨0xD00E, .u32, [(0, 0)], .any, 0, .ro⟩,
  ⟨0xD010, .u32, [(0, 7)], .any, 0, .ro⟩,
  ⟨0xD011, .u32, [(0, 7)], .any, 0xff, .ro⟩,
  ⟨0xD020, .u32, [(0, 127)], .any, 0xff, .ro⟩,
  ⟨0xD021, .u32, [(0, 7)], .any, 0, .ro⟩,
  ⟨0xD022, .u32, [(0, 127)], .any, 0, .ro⟩]

/-- Chapter 12. -/
def paramRows12a : List ParamRow := [
  ⟨0x9000, .u32, [(0, 0)], .any, 0, .ro⟩,
  ⟨0x9001, .f32, [(0, 31)], .flt 0x3A83126F 0x41A00000, 0x40400000, .rw⟩,
  ⟨0x9002, .u32, [(0, 31)], .nat 0 1, 0, .rw⟩,
  ⟨0x9003, .u32, [(0, 0)], .any, 0, .ro⟩,
  ⟨0x9008, .u32, [(0, 0)], .any, 0, .ro⟩,
  ⟨0x9009, .f32, [(0, 15)], .flt 0x00000000 0x461C4000, 0x43480000, .rw⟩,
  ⟨0x900A, .u32, [(0, 15)], .nat 0 1, 0, .rw⟩,
  ⟨0x900B, .u32, [(0, 0)], .any, 0, .ro⟩,
  ⟨0x900C, .u32, [(0, 15)], .any, 0, .ro⟩,
  ⟨0x900D, .u32, [(0, 15)], .any, 0, .ro⟩,
  ⟨0x900E, .lt, [(0, 15)], .any, 0, .ro⟩,
  ⟨0x9010, .u32, [(0, 15)], .nat 0 1, 0, .rw⟩,
  ⟨0x9011, .u32, [(0, 0)], .any, 0, .ro⟩,
  ⟨0x9012, .u32, [(0, 15)], .any, 0, .ro⟩,
  ⟨0x9013, .u32, [(0, 15)], .any, 0, .ro⟩,
  ⟨0x9014, .u32, [(0, 15)], .any, 0, .ro⟩,
  ⟨0x9018, .f32, [(0, 3)], .flt 0x41200000 0x461C4000, 0x42c80000, .rw⟩,
  ⟨0x9019, .f32, [(0, 3)], .flt 0x40000000 0x42C80000, 0x40a00000, .rw⟩,
  ⟨0x901A, .u32, [(0, 3)], .any, 0x10, .ro⟩,
  ⟨0x901B, .u32, [(0, 3)], .any, 0, .ro⟩,
  ⟨0x901C, .u32, [(0, 3)], .any, 0, .ro⟩,
  ⟨0x901D, .u32, [(0, 3)], .any, 0, .ro⟩,
  ⟨0x901E, .f32, [(0, 3)], .any, 0, .ro⟩,
  ⟨0x901F, .f32, [(0, 3)], .any, 0, .ro⟩]

/-- Chapter 13. -/
def paramRows13a : List ParamRow := [
  ⟨0x1100, .u32, [(0, 0)], .any, 0xc0a84ac8, .rw⟩,
  ⟨0x1101, .u32, [(0, 0)], .any, 0xffffff00, .rw⟩,
  ⟨0x1102, .u32, [(0, 0)], .any, 0, .rw⟩,
  ⟨0x1103, .u32, [(0, 0)], .nat 1024 65535, 0xb810, .rw⟩,
  ⟨0x1104, .u32, [(0, 0)], .nat 0 3, 0, .rw⟩,
  ⟨0x1105, .f32, [(0, 0)], .flt 0x3FC00000 0x42C80000, 0x40800000, .rw⟩,
  ⟨0x1110, .u32, [(0, 3)], .any, 0, .ro⟩,
  ⟨0x1111, .u32, [(0, 3)], .any, 0, .ro⟩,
  ⟨0x1112, .u32, [(0, 3)], .any, 0, .ro⟩,
  ⟨0x1113, .u32, [(0, 3)], .any, 0, .ro⟩,
  ⟨0x1114, .u32, [(0, 3)], .any, 0, .ro⟩,
  ⟨0x1115, .u32, [(0, 0)], .any, 0, .ro⟩,
  ⟨0x1116, .u32, [(0, 0)], .any, 0, .rc⟩,
  ⟨0x1117, .u32, [(0, 0)], .any, 0, .ro⟩]

/-- Chapter 14. -/
def paramRows14a : List ParamRow := [
  ⟨0xC000, .u32, [(0, 5)], .any, 1, .ro⟩,
  ⟨0xC001, .f32, [(0, 5)], .any, 0, .ro⟩,
  ⟨0xC002, .u32, [(0, 0)], .any, 0, .ro⟩,
  ⟨0xC003, .u32, [(0, 0)], .any, 0, .ro⟩,
  ⟨0xC004, .f32, [(0, 0)], .any, 0, .rc⟩,
  ⟨0xC005, .u32, [(0, 0)], .any, 0, .ro⟩,
  ⟨0xC010, .u32, [(0, 63)], .any, 0, .ro⟩,
  ⟨0xC011, .u32, [(0, 63)], .mask 0xF, 0xf, .rw⟩,
  ⟨0xC012, .f32, [(0, 63)], .flt 0x3F800000 0x42C80000, 0x42c80000, .rw⟩,
  ⟨0xC013, .u32, [(0, 63)], .nat 1 7600, 0x40, .rw⟩,
  ⟨0xC014, .u32, [(0, 63)], .any, 0, .ro⟩,
  ⟨0xC015, .f32, [(0, 63)], .flt 0x00000000 0x461C4000, 0, .rw⟩,
  ⟨0xC016, .u32, [(0, 63)], .any, 0, .ro⟩,
  ⟨0xC017, .u8n 32, [(0, 63)], .any, 0, .ro⟩,
  ⟨0xC018, .u32, [(0, 63)], .any, 0, .ro⟩,
  ⟨0xC020, .u32, [(0, 15)], .any, 0, .ro⟩,
  ⟨0xC021, .u32, [(0, 15)], .any, 0xff, .ro⟩,
  ⟨0xC022, .u32, [(0, 15)], .any, 0, .ro⟩,
  ⟨0xC023, .u64, [(0, 15)], .any, 0, .ro⟩,
  ⟨0xC024, .u64, [(0, 15)], .any, 0, .ro⟩,
  ⟨0xC030, .u32, [(0, 0)], .oneOf [16, 32, 48, 64], 0x40, .rw⟩,
  ⟨0xC031, .u32, [(0, 0)], .nat 0 6144, 0x800, .rw⟩,
  ⟨0xC032, .u32, [(0, 4)], .any, 0, .ro⟩,
  ⟨0xC033, .u32, [(0, 4)], .any, 0, .ro⟩,
  ⟨0xC034, .u32, [(0, 4)], .any, 0, .ro⟩,
  ⟨0xC038, .u32, [(0, 4)], .any, 0, .ro⟩,
  ⟨0xC039, .u32, [(0, 4)], .any, 0, .ro⟩,
  ⟨0xC03A, .u64, [(0, 0)], .any, 0, .ro⟩,
  ⟨0xC03B, .f32, [(0, 0)], .flt 0x3F800000 0x43280000, 0x41c00000, .rw⟩,
  ⟨0xC03C, .u32, [(0, 0)], .any, 0, .rc⟩]

/-- Chapter 15. -/
def paramRows15a : List ParamRow := [
  ⟨0xA000, .u32, [(0, 3)], .nat 0 2, 0, .rw⟩,
  ⟨0xA001, .u32, [(0, 3)], .nat 0 1, 0, .rw⟩,
  ⟨0xA002, .u32, [(0, 3)], .nat 1 65536, 1, .rw⟩,
  ⟨0xA003, .u32, [(0, 3)], .nat 1 32, 1, .rw⟩,
  ⟨0xA004, .u64, [(0, 127)], .mask 0xFFFFFF00FFFFFFFF, 0, .rw⟩,
  ⟨0xA005, .u32, [(0, 3)], .nat 16 4294967295, 0x400, .rw⟩,
  ⟨0xA006, .u32, [(0, 3)], .any, 0, .rw⟩,
  ⟨0xA007, .u32, [(0, 3)], .nat 1 256, 1, .rw⟩,
  ⟨0xA008, .u32, [(0, 3)], .nat 0 6144, 0, .rw⟩,
  ⟨0xA009, .u32, [(0, 3)], .oneOf [8, 16, 32, 64, 128, 256], 0x20, .rw⟩,
  ⟨0xA00A, .u32, [(0, 3)], .nat 0 1, 0, .rw⟩,
  ⟨0xA00B, .f32, [(0, 3)], .flt 0x3C23D70A 0x461C4000, 0x42c80000, .rw⟩,
  ⟨0xA010, .u32, [(0, 3)], .nat 0 5, 0, .rw⟩,
  ⟨0xA011, .u32, [(0, 3)], .nat 0 31, 0, .rw⟩,
  ⟨0xA012, .u32, [(0, 3)], .nat 1 3, 1, .rw⟩,
  ⟨0xA013, .f32, [(0, 3)], .finite, 0, .rw⟩,
  ⟨0xA014, .f32, [(0, 3)], .finite, 0, .rw⟩,
  ⟨0xA015, .f32, [(0, 3)], .finiteNonneg, 0, .rw⟩,
  ⟨0xA016, .f32, [(0, 3)], .flt 0x00000000 0x4B189680, 0, .rw⟩,
  ⟨0xA017, .f32, [(0, 3)], .flt 0x00000000 0x4B189680, 0, .rw⟩,
  ⟨0xA018, .u32, [(0, 3)], .nat 0 3, 0, .rw⟩,
  ⟨0xA020, .u32, [(0, 3)], .any, 0, .ro⟩,
  ⟨0xA021, .u32, [(0, 3)], .any, 0, .ro⟩,
  ⟨0xA022, .u32, [(0, 3)], .any, 1, .ro⟩,
  ⟨0xA023, .u32, [(0, 3)], .any, 0, .ro⟩,
  ⟨0xA024, .lt, [(0, 3)], .any, 0, .ro⟩,
  ⟨0xA025, .u32, [(0, 3)], .any, 0, .ro⟩,
  ⟨0xA026, .f32, [(0, 3)], .any, 0, .ro⟩,
  ⟨0xA027, .u32, [(0, 3)], .any, 0, .ro⟩,
  ⟨0xA028, .u32, [(0, 3)], .any, 0, .ro⟩]

/-- Chapter 15. -/
def paramRows15b : List ParamRow := [
  ⟨0xA029, .u32, [(0, 3)], .any, 0, .ro⟩,
  ⟨0xA02A, .u32, [(0, 3)], .any, 0xff, .ro⟩]

/-- Chapter 16. -/
def paramRows16a : List ParamRow := [
  ⟨0xB000, .u32, [(0, 1)], .nat 0 3, 0, .rw⟩,
  ⟨0xB001, .u32, [(0, 1)], .nat 1 256, 1, .rw⟩,
  ⟨0xB002, .u32, [(0, 1)], .nat 2 256, 0x3f, .rw⟩,
  ⟨0xB003, .u32, [(0, 1)], .nat 1 128, 0x10, .rw⟩,
  ⟨0xB004, .u32, [(0, 1)], .nat 1 128, 0x10, .rw⟩,
  ⟨0xB005, .u32, [(0, 1)], .nat 1 32, 1, .rw⟩,
  ⟨0xB006, .u32, [(0, 1)], .nat 1 32, 7, .rw⟩,
  ⟨0xB007, .u32, [(0, 1)], .nat 1 16, 2, .rw⟩,
  ⟨0xB008, .u32, [(0, 1)], .nat 1 16, 2, .rw⟩,
  ⟨0xB009, .u32, [(0, 1)], .nat 0 1, 1, .rw⟩,
  ⟨0xB00A, .u32, [(0, 1)], .nat 0 127, 8, .rw⟩,
  ⟨0xB00B, .u32, [(0, 1)], .nat 0 1, 1, .rw⟩,
  ⟨0xB00C, .u32, [(0, 1)], .nat 0 1, 0, .rw⟩,
  ⟨0xB00D, .u32, [(0, 1)], .nat 64 4096, 0x100, .rw⟩,
  ⟨0xB010, .u32, [(0, 1)], .any, 0, .ro⟩,
  ⟨0xB011, .u32, [(0, 1)], .any, 0, .ro⟩,
  ⟨0xB012, .u32, [(0, 1)], .any, 0, .rc⟩,
  ⟨0xB013, .u32, [(0, 1)], .any, 0, .ro⟩,
  ⟨0xB014, .u32, [(0, 1)], .any, 0, .ro⟩,
  ⟨0xB015, .u32, [(0, 1)], .any, 0, .ro⟩,
  ⟨0xB016, .u32, [(0, 1)], .any, 0, .ro⟩,
  ⟨0xB017, .u32, [(0, 1)], .any, 0, .ro⟩,
  ⟨0xB018, .u32, [(0, 1)], .any, 0, .ro⟩,
  ⟨0xB019, .u32, [(0, 1)], .any, 0, .ro⟩,
  ⟨0xB020, .u32, [(0, 199)], .nat 0 2, 0, .rw⟩,
  ⟨0xB021, .u32, [(0, 199)], .mask 0x9FFFFFFF, 0, .rw⟩,
  ⟨0xB022, .u32, [(0, 199)], .mask 0x1FFFFFFF, 0x1fffffff, .rw⟩,
  ⟨0xB023, .u32, [(0, 199)], .mask 0x3F, 0x30, .rw⟩,
  ⟨0xB024, .u32, [(0, 199)], .any, 0, .ro⟩,
  ⟨0xB025, .u32, [(0, 199)], .any, 0, .ro⟩]

/-- Chapter 16. -/
def paramRows16b : List ParamRow := [
  ⟨0xB026, .u32, [(0, 199)], .any, 0, .ro⟩,
  ⟨0xB027, .u64, [(0, 199)], .any, 0, .ro⟩,
  ⟨0xB040, .u32, [(0, 1)], .nat 0 1, 0, .rw⟩,
  ⟨0xB041, .u32, [(0, 1)], .mask 0x9FFFFFFF, 0x10, .rw⟩,
  ⟨0xB042, .u32, [(0, 1)], .nat 0 1, 0, .rw⟩,
  ⟨0xB043, .u32, [(0, 1)], .nat 0 1, 0, .rw⟩,
  ⟨0xB044, .f32, [(0, 1)], .flt 0x3F800000 0x447A0000, 0x41200000, .rw⟩,
  ⟨0xB045, .f32, [(0, 1)], .flt 0x00000000 0x49742400, 0, .rw⟩,
  ⟨0xB046, .u32, [(0, 1)], .any, 0, .ro⟩,
  ⟨0xB047, .lt, [(0, 1)], .any, 0, .ro⟩,
  ⟨0xB048, .u32, [(0, 1)], .any, 0, .ro⟩,
  ⟨0xB049, .u32, [(0, 1)], .any, 0, .ro⟩]

/-- Chapter 17. -/
def paramRows17a : List ParamRow := [
  ⟨0xB080, .u32, [(0, 0)], .nat 0 2, 2, .rw⟩,
  ⟨0xB081, .u32, [(0, 0)], .nat 16768827 16785605, 0x1000000, .rw⟩,
  ⟨0xB082, .f32, [(0, 0)], .flt 0x3DCCCCCD 0x49742400, 0x3f800000, .rw⟩,
  ⟨0xB083, .u32, [(0, 0)], .nat 0 127, 0, .rw⟩,
  ⟨0xB084, .u32, [(0, 0)], .nat 0 1, 0, .rw⟩,
  ⟨0xB085, .u32, [(0, 0)], .nat 0 1, 0, .rw⟩,
  ⟨0xB086, .u32, [(0, 0)], .nat 0 255, 0x80, .rw⟩,
  ⟨0xB087, .u32, [(0, 0)], .nat 0 255, 0x80, .rw⟩,
  ⟨0xB088, .i32, [(0, 0)], .int (-7) 0, 0xfffffffc, .rw⟩,
  ⟨0xB089, .i32, [(0, 0)], .int (-7) 4, 0, .rw⟩,
  ⟨0xB08A, .u32, [(0, 0)], .nat 2 10, 3, .rw⟩,
  ⟨0xB08B, .f32, [(0, 0)], .flt 0x3C23D70A 0x40000000, 0x3dcccccd, .rw⟩,
  ⟨0xB08C, .f32, [(0, 0)], .flt 0x40A00000 0x447A0000, 0x42480000, .rw⟩,
  ⟨0xB08D, .u32, [(0, 0)], .nat 0 1, 1, .rw⟩,
  ⟨0xB090, .u32, [(0, 0)], .any, 0, .ro⟩,
  ⟨0xB091, .u32, [(0, 0)], .any, 0, .w1c⟩,
  ⟨0xB092, .f32, [(0, 0)], .any, 0, .ro⟩,
  ⟨0xB093, .f32, [(0, 0)], .any, 0, .ro⟩,
  ⟨0xB094, .u64, [(0, 0)], .any, 0, .ro⟩,
  ⟨0xB095, .f32, [(0, 0)], .any, 0, .rc⟩,
  ⟨0xB096, .u32, [(0, 0)], .any, 0, .ro⟩,
  ⟨0xB098, .u32, [(0, 0)], .any, 0, .ro⟩,
  ⟨0xB099, .u32, [(0, 0)], .any, 0, .ro⟩,
  ⟨0xB09A, .u64, [(0, 1)], .any, 0, .ro⟩,
  ⟨0xB09B, .u32, [(0, 0)], .any, 0, .ro⟩]

/-- Chapter 18. -/
def paramRows18a : List ParamRow := [
  ⟨0x1040, .u32, [(0, 0)], .nat 0 1, 0, .rw⟩,
  ⟨0x1041, .u32, [(0, 0)], .any, 0, .ro⟩,
  ⟨0x1042, .u32, [(0, 0)], .any, 0, .ro⟩,
  ⟨0x1043, .u32, [(0, 1)], .any, 0, .ro⟩,
  ⟨0x1044, .u32, [(0, 1)], .any, 0, .ro⟩,
  ⟨0x1045, .u32, [(0, 0)], .any, 0, .ro⟩,
  ⟨0x1046, .f32, [(0, 0)], .any, 0, .ro⟩,
  ⟨0x2008, .u32, [(0, 0)], .nat 0 1, 0, .rw⟩,
  ⟨0x2009, .u8n 32, [(1, 63)], .any, 0, .ro⟩]

/-- Chapter 19. -/
def paramRows19a : List ParamRow := [
  ⟨0x1050, .u32, [(0, 127)], .natOrNone 15, 0xff, .rw⟩,
  ⟨0x1051, .u32, [(0, 15)], .any, 0, .ro⟩,
  ⟨0x1052, .u32, [(0, 15)], .any, 0, .ro⟩,
  ⟨0xE000, .u32, [(0, 0)], .any, 0, .ro⟩,
  ⟨0xE001, .u8n 16, [(0, 0)], .any, 0, .ro⟩,
  ⟨0xE002, .u32, [(0, 0)], .any, 0, .ro⟩,
  ⟨0xE003, .u32, [(0, 0)], .any, 0, .rc⟩,
  ⟨0xE004, .u32, [(0, 0)], .any, 0, .ro⟩,
  ⟨0xE010, .u32, [(0, 0)], .any, 0, .ro⟩,
  ⟨0xE011, .f32, [(0, 0)], .any, 0, .ro⟩,
  ⟨0xE012, .u32, [(0, 0)], .any, 0, .ro⟩]

/-- Chapter 20. -/
def paramRows20a : List ParamRow := [
  ⟨0x1060, .u32, [(0, 0)], .any, 0, .ro⟩,
  ⟨0x1061, .u8n 16, [(0, 0)], .any, 0, .ro⟩,
  ⟨0x1062, .u32, [(0, 0)], .any, 0, .ro⟩,
  ⟨0x1063, .f32, [(0, 0)], .any, 0, .ro⟩,
  ⟨0x1064, .f32, [(0, 0)], .any, 0, .ro⟩,
  ⟨0x1065, .u32, [(0, 0)], .any, 0, .ro⟩,
  ⟨0x1066, .u64, [(0, 0)], .any, 0, .ro⟩,
  ⟨0x200A, .u32, [(0, 3)], .any, 0, .ro⟩]

/-- Every parameter of the device. -/
def paramRows : List ParamRow :=
  paramRows01a ++
  paramRows02a ++
  paramRows03a ++
  paramRows03b ++
  paramRows04a ++
  paramRows04b ++
  paramRows05a ++
  paramRows05b ++
  paramRows06a ++
  paramRows07a ++
  paramRows07b ++
  paramRows08a ++
  paramRows08b ++
  paramRows08c ++
  paramRows09a ++
  paramRows10a ++
  paramRows10b ++
  paramRows10c ++
  paramRows11a ++
  paramRows12a ++
  paramRows13a ++
  paramRows14a ++
  paramRows15a ++
  paramRows15b ++
  paramRows16a ++
  paramRows16b ++
  paramRows17a ++
  paramRows18a ++
  paramRows19a ++
  paramRows20a

/-- Parameters 0x3000 to 0x9FFF of an enum or bitfield type (R414). -/
def enumParams : List Nat :=
  [P.FbType, P.FbIndexAction, P.FbFaultAction, P.MonFollowErrAction, P.MonLimitAction, P.MonOverspeedAction, P.FbState, P.FbLatched,
   P.MonVerdict, P.LatSource, P.LatEdge, P.LatMode, P.LatState, P.CmpDirection, P.CmpMode, P.CmpTarget,
   P.CmpState, P.EmuZMode, P.EmuState, P.LoopMode, P.LoopMotorType, P.LoopFiltType, P.AxisState, P.AxisHoldReason,
   P.LoopStatus, P.GmState, P.TrjSource, P.TrjChain, P.TrjProfile, P.HomeMethod, P.HomeDirection, P.HomeEdge,
   P.TrjState, P.TrjLatched, P.VmSource, P.VmState, P.CplKind, P.CplAnchor, P.CplState, P.PgState,
   P.LineState, P.ModMethod, P.ModAlign, P.ModPhaseSwap, P.ModInvert, P.GpMode, P.GpTripEnable, P.GpTripScope,
   P.GpTripState, P.GpCalState, P.ModLoadAllState, P.ModStatus, P.FeState, P.FeFlags, P.FeFaultCause, P.FePairRole,
   P.FeModMethod, P.FeSdFunction, P.FeSdState, P.FeHarmMask, P.DiState, P.DiWireState, P.LiState, P.LiWireState,
   P.DqState, P.DqDiag, P.DqOwner, P.FerryState]

end Sys2Proof.Machine
end

