-- ==== Sys2Proof/Machine/Tab.lean ====
section
/-!
DEFINITION. Sparse tables: a list of key and value pairs in one canonical form (keys strictly rising, no entry
equal to what an unlisted key reads as), so that equal tables are equal lists. Parameters, units and memory
bytes are held in it.
-/
namespace Sys2Proof.Machine

/-- A sparse table. -/
abbrev Tab (α : Type) := List (Nat × α)

/-- The entry of a key, or the default. -/
def tabGet {α : Type} : Tab α → α → Nat → α
  | [], d, _ => d
  | (k, v) :: r, d, n => if n = k then v else if n < k then d else tabGet r d n

/-- The table with key `n` reading `x`; an entry equal to the default `d` is not listed. -/
def tabSet {α : Type} [DecidableEq α] : Tab α → α → Nat → α → Tab α
  | [], d, n, x => if x = d then [] else [(n, x)]
  | (k, v) :: r, d, n, x =>
    if n = k then (if x = d then r else (n, x) :: r)
    else if n < k then (if x = d then (k, v) :: r else (n, x) :: (k, v) :: r)
    else (k, v) :: tabSet r d n x

/-- The table with key `n` changed by `f`. -/
def tabMod {α : Type} [DecidableEq α] (t : Tab α) (d : α) (n : Nat) (f : α → α) : Tab α :=
  tabSet t d n (f (tabGet t d n))

/-- Keys strictly rising and above a bound. -/
def tabSorted {α : Type} : Option Nat → Tab α → Bool
  | _, [] => true
  | b, (k, _) :: r => (match b with | none => true | some m => decide (m < k)) && tabSorted (some k) r

/-- The canonical form, for a default that may depend on the key. -/
def tabWf {α : Type} [DecidableEq α] (t : Tab α) (d : Nat → α) : Bool :=
  tabSorted none t && t.all fun e => decide (e.2 ≠ d e.1)

end Sys2Proof.Machine
end

