-- ==== Sys2Proof/Machine/State.lean ====
section
/-!
DEFINITION. The state of the device: every register, parameter, store, queue, counter and mode the manual gives
it, as plain data, one structure per chapter; the stops; and the state right after reset. A parameter has one
home: `Params.active` (its shadow copy in `Params.shadow`), at key index × 65,536 + instance; a parameter that
reports other state (SysCycleCount, HostQueued, …) is computed where it is read.
-/
namespace Sys2Proof.Machine

/-- Why a step stops with a fault. -/
inductive Fault where
  /-- A command names a unit (axis, node, port, group, object …) that the device does not have. Raised by the
  guard of an event row. Safe: no such event exists. -/
  | noSuchUnit
  deriving DecidableEq, Repr

/-- Why a command has no meaning. -/
inductive Refusal where
  /-- The row has no meaning yet. Raised by `exec` only. Safe. -/
  | notModelled (mnemonic : String)
  deriving DecidableEq, Repr

/-- Chapter 01: time base and cycle grid. `lt` is the line-time accumulator in units of 2^-24 ns (R13). -/
structure TimeState where
  tick : Nat
  lt : Nat
  cycle : Nat
  lastS : Nat       -- line time of the present cycle's sample instant, ns
  nextS : Nat       -- line time of the next sample instant, ns
  lastTick : Nat    -- tick of the present cycle's sample instant
  rephase : Int     -- ns by which the next sample instant still lies beside the grid (R29)
  offGrid : Bool    -- a step has moved the grid and it has not been reached again (R29)
  deriving DecidableEq, Repr

/-- A staged set (R36): scope (0 axis, 1 group, 2 section, 3 device), its instance, the parameters staged, and
the commit that is pending on it. -/
structure Staged where
  scope : Nat
  inst : Nat
  fam : Nat
  keys : List Nat
  pending : Option Nat
  deriving DecidableEq, Repr

/-- An accepted commit: target cycle, COMMITID, the request it came from. -/
structure Commit where
  target : Nat
  id : Nat
  req : Req
  deriving DecidableEq, Repr

/-- Chapter 01, Shadow and commit: parameter copies, staged sets, accepted commits in order of acceptance. -/
structure Params where
  active : Tab Nat
  shadow : Tab (Option Nat)
  staged : List Staged
  commits : List Commit
  nextId : Nat
  deriving DecidableEq, Repr

/-- An event (Table 13.8). -/
structure Ev where
  code : Nat
  inst : Nat
  flow : Nat
  timeNs : Nat
  frac : Nat
  level : Nat
  cycle : Nat
  evseq : Nat
  data : List Byte
  deriving DecidableEq, Repr

/-- A reply (R360). -/
structure Reply where
  dest : Dest
  gen : Nat
  flow : Nat
  seq : Nat
  opcode : Nat
  inst : Nat
  status : Nat
  body : List Byte
  dup : Bool
  deriving DecidableEq, Repr

/-- Kinds of frames and register answers the device sends. `port` names the port, channel, group or controller. -/
inductive FrameKind where
  | regRead | arp | icmp | line | beacon | rollCall | ptp | cycleStart | place | service | coldStart | halt
  | ferryDown | ferryUp | canFrame | edges | level | safety
  deriving DecidableEq, Repr

/-- What leaves the device: packets on USB, UDP and RS-485, writes of the host block into host memory, MSI-X messages,
and frames on Ethernet ports, Elkob, CAN and the Ferry links (`kind` says which); `frameAt` gives the line time in ns at which a frame
leaves that is sent between two rows. -/
inductive Out where
  | packet (d : Dest) (bytes : List Byte)
  | dma (addr : Nat) (bytes : List Byte)
  | msix (vec : Nat)
  | frame (kind : FrameKind) (port : Nat) (bytes : List Byte)
  | frameAt (ns : Nat) (kind : FrameKind) (port : Nat) (bytes : List Byte)
  deriving DecidableEq, Repr

/-- The record a flow of a sender keeps of its last packet that ended (R365). -/
structure LastRec where
  dest : Dest
  flow : Nat
  seq : Nat
  opcode : Nat
  inst : Nat
  crc : Nat
  reply : Reply
  deriving DecidableEq, Repr

/-- An open part assembly of a flow (R359), with the sender of its parts (R7, Table 13.12). -/
structure Assembly where
  dest : Dest
  flow : Nat
  opcode : Nat
  inst : Nat
  nextSeq : Nat
  body : List Byte
  deriving DecidableEq, Repr

/-- A subscription (R372). -/
structure Sub where
  dest : Dest
  families : Nat
  level : Nat
  vector : Nat
  deriving DecidableEq, Repr

/-- The event queue of a destination (R373): queued events oldest first, events dropped and not yet reported, events sent. -/
structure EvQueue where
  dest : Dest
  evs : List Ev
  dropped : Nat
  sentSeq : Nat
  deriving DecidableEq, Repr

/-- BAR0 registers (Table 13.10) and the state behind them. `mx` holds MX_TABLE entries as 128-bit numbers. -/
structure HostRegs where
  enable : Bool
  running : Bool
  err : Bool
  cause : Nat
  errAddr : Nat
  reqBase : Nat
  reqCount : Nat
  reqHead : Nat
  reqTail : Nat
  rplBase : Nat
  rplSize : Nat
  rplTail : Nat
  rplHead : Nat
  evtBase : Nat
  evtSize : Nat
  evtTail : Nat
  evtHead : Nat
  shadowBase : Nat
  irqDelay : Nat
  evtLost : Nat
  mx : Tab Nat
  pba : Nat
  want : Nat               -- vectors with an advance not yet signalled
  lastFire : Tab Nat       -- tick of the last firing + 1, 0 = never
  deriving DecidableEq, Repr

/-- Chapter 13: command packets and host transports. -/
structure HostState where
  waiting : List Req
  running : List Req
  broken : List Req            -- running packets that broke an assembly (R359)
  assemblies : List Assembly
  last : List LastRec
  udpRecent : List Nat
  subs : List Sub
  queues : List EvQueue
  evseq : Nat
  replyWait : List Reply       -- PCI Express replies waiting for room (R377)
  pendingCfg : List (Nat × Nat)  -- parameter key and value waiting for the reply to be sent (R380)
  rsFrom : Nat                 -- RS-485: first and last tick of the running transmission
  rsTo : Nat
  regs : HostRegs
  log : List Ev                -- fault log, newest first (R490)
  deriving DecidableEq, Repr

/-- The host block right after reset (Table 13.10). -/
def HostRegs.reset : HostRegs :=
  { enable := false, running := false, err := false, cause := 0, errAddr := 0, reqBase := 0, reqCount := 16,
    reqHead := 0, reqTail := 0, rplBase := 0, rplSize := 65536, rplTail := 0, rplHead := 0, evtBase := 0,
    evtSize := 65536, evtTail := 0, evtHead := 0, shadowBase := 0, irqDelay := 0, evtLost := 0, mx := [], pba := 0,
    want := 0, lastFire := [] }

def HostState.reset : HostState :=
  { waiting := [], running := [], broken := [], assemblies := [], last := [], udpRecent := [], subs := [], queues := [], evseq := 0,
    replyWait := [], pendingCfg := [], rsFrom := 0, rsTo := 0, regs := HostRegs.reset, log := [] }


/-! Chapter 02: Elkob. -/

/-- An announced mode switch (R58, R59): nodes that have acknowledged (bit per address) and the decision of S(c - 1). -/
structure Ann where
  mode : Nat
  cycle : Nat
  id : Nat
  req : Req
  acks : Nat
  decided : Option Bool
  missing : List Nat
  group : Option Nat      -- the group changeover the switch belongs to (R38, R482)
  deriving DecidableEq, Repr

/-- An exchange through the service window (R54, R64, R71, R75, R76): a mode part of a ModeLoad, a step of a NodeJoin, the identity of a
node in the Discover phase, a step of its Download, its acknowledgement in the Sync phase, its counters. -/
inductive SvcOp where
  | load (q : Req) (mode node : Nat)
  | join (q : Req) (node step : Nat)
  | identify (node : Nat)
  | down (node step : Nat)
  | ack (node : Nat)
  | counters (node : Nat)
  deriving DecidableEq, Repr

/-- A request that has been sent and waits for its reply: its SEQ, the cycle of its window, and S(n + 1) + W + 840 ns of that cycle n, at which the
reply passes the head's place in the stream (R54). -/
structure SvcSent where
  op : SvcOp
  seq : Nat
  cycle : Nat
  replyAt : Nat
  deriving DecidableEq, Repr

/-- What the head knows of a node from its slots (Table 2.3). `taken` is the count of the cycle of the last slot taken, plus 1. -/
structure NodeRec where
  lsafe : Bool
  sto : Bool
  ubus : Nat
  temp : Nat
  cin : Nat
  tript : Nat
  rxpd : Nat
  skew : Bool
  taken : Nat
  bad : Nat               -- copies that failed in cycle `badAt` - 1
  badAt : Nat
  mismatch : Nat          -- tick + 1 since which the STO bit differs from its group (R330), 0 = equal
  misDone : Bool          -- that difference is reported
  placed : Nat            -- count of the cycle of the last place, plus 1
  polled : Nat            -- count of the cycle of the last counter poll, plus 1
  run : List Nat          -- per channel, consecutive cycles with a valid slot copy, 64 at most (R64)
  runAt : List Nat        -- per channel, count of the cycle of the last valid copy, plus 1
  rowAt : List Nat        -- per channel, count of the cycle whose copy was last counted or taken, plus 1 (R62)
  deriving DecidableEq, Repr

def NodeRec.init : NodeRec :=
  { lsafe := false, sto := false, ubus := 0, temp := 0, cin := 0, tript := 0xFFFF, rxpd := 0, skew := false, taken := 0, bad := 0, badAt := 0,
    mismatch := 0, misDone := false, placed := 0, polled := 0, run := [0, 0], runAt := [0, 0], rowAt := [0, 0] }

/-- The link controller. Lists of two hold channel A, then B. -/
structure LinkState where
  modes : Tab (List Byte)      -- mode store, [] = not loaded
  ann : Option Ann
  idents : Tab (List Byte)     -- identity block per address, [] = not in use
  ringCount : Nat              -- cells counted in the Address phase
  discovered : Bool
  measured : Nat               -- bit per channel: the last Discover phase measured its delays
  found : Tab (List Byte)      -- identity blocks answered in this Discover phase
  agree : List Nat             -- consecutive cycles in which both values of D agree, 64 at most (R64)
  held : Bool
  phaseTick : Nat
  foreignTick : Nat
  foreignId : Nat
  coldSent : Nat               -- start frames sent in this Start phase after the first (R64)
  recheckAt : Nat              -- cycle of the last recheck of the active mode (R56)
  startReq : Option Req
  stopReq : List Req
  stopLeft : Nat
  loads : List Req             -- ModeLoads that complete with the next Download
  loading : List Req           -- those whose parts the running Download writes
  svc : List SvcOp             -- exchanges not yet sent
  svcOut : List SvcSent        -- requests sent and not answered
  joining : List (Req × Nat)   -- nodes that have joined and whose first slot is awaited
  svcSeq : Nat
  nodes : Tab NodeRec
  lastRet : List Nat           -- cycle of the last cycle-start frame returned
  settleTo : List Nat
  disagree : List Nat
  echo : List (List Nat)       -- last 16 echo round trips of the outgoing hop, 2^-16 ns
  deriving DecidableEq, Repr

def LinkState.reset : LinkState :=
  { modes := [], ann := none, idents := [], ringCount := 0, discovered := false, measured := 0, found := [], agree := [0, 0], held := false, phaseTick := 0, foreignTick := 0,
    foreignId := 0, coldSent := 0, recheckAt := 0, startReq := none, stopReq := [], stopLeft := 0, loads := [], loading := [], svc := [], svcOut := [], joining := [], svcSeq := 0, nodes := [],
    lastRet := [0, 0], settleTo := [0, 0], disagree := [0, 0], echo := [[], []] }


/-! Chapter 03: feedback. Positions and velocities are integers in the units of R13 (2^-16 count, 2^-16 counts/s). -/

/-- The receiver of a local port (R81, R82, R84): levels before the changes that the edge filter has not settled, those changes (line time in
ns, levels), the settled levels, the counter, the direction of the last counted edge, its time and whether it was an edge of A. -/
structure PortRx where
  base : Nat
  tail : List (Nat × Nat)
  lvl : Nat
  cnt : Int
  up : Bool
  edge : Option (Nat × Bool)
  deriving DecidableEq, Repr

def PortRx.init : PortRx := { base := 0, tail := [], lvl := 0, cnt := 0, up := false, edge := none }

/-- A feedback instance (axis k is k, port LFn is 128 + n). -/
structure FbRec where
  ready : Bool      -- c has been initialised (R90)
  used : Bool       -- a sample has been used since enabling (R94)
  c : Int           -- continuous count (R89)
  r : Nat           -- previous raw count
  dirKnown : Bool   -- speed estimator (R91)
  nSame : Nat
  cRef : Int
  tRef : Nat        -- line time, ns
  v : Int           -- estimate before the low-pass
  errRun : Nat      -- consecutive cycles with a check error
  warn : Bool       -- nW = 0 on the last sample
  frz : Nat         -- consecutive samples that meet the freeze condition (R96)
  follow : Nat      -- consecutive samples with |e| above the limit (R101)
  idxC : Option Int -- position at the index event of the latest sample, before correction
  pPrev : Int       -- position at the sample before the latest
  ack : Nat         -- acknowledge time of the last BiSS-C frame of a local port, ns (R86)
  port : PortRx     -- the receiver of a local port
  deriving DecidableEq, Repr

def FbRec.init : FbRec :=
  { ready := false, used := false, c := 0, r := 0, dirKnown := false, nSame := 0, cRef := 0, tRef := 0, v := 0, errRun := 0,
    warn := false, frz := 0, follow := 0, idxC := none, pPrev := 0, ack := 0, port := PortRx.init }

/-- One entry of a source's history (R106). -/
structure HistEntry where
  cycle : Nat
  sNs : Nat
  pos : Int
  valid : Bool
  subst : Bool
  deriving DecidableEq, Repr


/-! Chapter 04: latch, compare, emulation. Line times in units of 2^-16 ns where a fraction matters. -/

/-- A trigger that waits for its positions (R113). `fixed` carries the position where it is known at once; `atS` asks for the position
at the stamped sample instant alone. -/
structure LatTrig where
  stamp : Nat          -- line time, 2^-16 ns
  rising : Bool
  flags : Nat          -- TSEST, CYCLEQ
  fixed : Option Int
  atS : Bool
  deriving DecidableEq, Repr

/-- A latch unit. Arm and disarm ticks as line times in 2^-16 ns; `wins` keeps window limits in force before a stamp. -/
structure LatRec where
  armed : Bool
  armAt : Nat
  past : List (Nat × Nat)     -- armed intervals that have ended, as far back as a stamp can reach
  fifo : List (List Byte)     -- oldest first
  trigs : List LatTrig
  wins : List (Nat × Int × Int)
  rearm : List Nat            -- ticks at which a single-mode unit that reads armed was armed again (R111)
  deriving DecidableEq, Repr

def LatRec.init : LatRec := { armed := false, armAt := 0, past := [], fifo := [], trigs := [], wins := [], rearm := [] }

/-- A switching instant of a compare unit (ns of line time): a step of the count of things that hold the output on (pulses and windows), or an
inversion; `hit`: it belongs to a counted hit. -/
structure CmpInst where
  at_ : Nat
  delta : Int
  inv : Bool
  hit : Bool
  deriving DecidableEq, Repr

/-- What an earlier arming of a compare unit has left running on its target (R120). -/
structure CmpRest where
  mask : Nat
  base : Int × Bool
  sched : List CmpInst
  deriving DecidableEq, Repr

/-- A compare unit. `side` is the side of C the next hit comes from (-1 below, 1 above, 0 not yet known). -/
structure CmpRec where
  armed : Bool
  first : Bool                -- the first prediction is still to be made
  need : Bool                 -- the source must first be seen on the near side
  needT : Nat                 -- at a sample after this instant
  side : Int
  c : Int
  inWin : Bool                -- between entry and exit (window mode)
  count : Nat                 -- hits since arming, late and lost ones included
  mask : Nat                  -- CmpTarget since arming
  mode : Nat                  -- CmpMode since arming
  base : Int × Bool           -- count and inversion before the entries of `sched`
  sched : List CmpInst        -- instants scheduled or kept
  hits : List Nat             -- instants of hits whose event is still to be raised
  left : List CmpRest         -- pulses of earlier armings on other targets that still run
  deriving DecidableEq, Repr

def CmpRec.init : CmpRec :=
  { armed := false, first := false, need := false, needT := 0, side := 0, c := 0, inWin := false, count := 0, mask := 0, mode := 0, base := (0, false),
    sched := [], hits := [], left := [] }

/-- An encoder emulation output. -/
structure EmuRec where
  q : Int          -- q(n - 1)
  started : Bool   -- q holds a value of this enabling
  count : Int      -- output counter
  z : Bool
  deriving DecidableEq, Repr

def EmuRec.init : EmuRec := { q := 0, started := false, count := 0, z := false }


/-! Chapter 05: loops and engine. Integrator, filter and observer states are 64-bit; their binary point is open (notes/assumptions/20.md):
amperes and volts in units of 2^-40. -/

/-- A biquad in direct form I (R141). -/
structure Biquad where
  x1 : Int
  x2 : Int
  y1 : Int
  y2 : Int
  deriving DecidableEq, Repr

def Biquad.zero : Biquad := { x1 := 0, x2 := 0, y1 := 0, y2 := 0 }

/-- An axis in the engine. -/
structure AxisRec where
  psp : Int          -- active set-point for S(n)
  vsp : Int
  asp : Int
  iv : Int           -- integrators: velocity, d (or A), q (or B)
  iId : Int
  iIq : Int
  dhat : Int
  f1 : Biquad
  f2 : Biquad
  fInit : Bool       -- filters take the steady state of their next input (R153)
  vPos : Int         -- 2^-4 counts/s
  iqRef : Int        -- Q1.31
  vHist : List (Nat × Int)  -- cycle count and v of the latest samples, newest first (R143)
  isat : Bool
  cut : Int          -- sign of the part cut off
  stepTicks : Nat    -- time counted towards StepHoldDelay, ns
  stepHold : Bool    -- the hold current applies (R147)
  ia : Int           -- currents of the latest slot, fraction 2^-15
  ib : Int
  ic : Int
  block : Nat        -- byte 13 of the axis block of the latest slot (Table 2.4)
  trips : Nat        -- trip flags seen, for the edge of the cell trip event
  openLoop : Bool    -- fault action 4 (R97)
  openNew : Bool     -- it began on the present sample (R100)
  closed : Bool      -- the position loop was closed as the present sample came (R100)
  raised : Nat       -- monitor conditions, bits of FbState, whose event has been raised and that have held since (R102)
  monStop : Bool     -- a stop verdict waits for the trajectory section
  blockedBy : List Nat  -- axes whose verdict 3 blocks this one (R489)
  relink : Bool      -- released and LSAFE not yet reported clear (R74, R153)
  cmdA : Int         -- modulation command, Q1.31
  cmdB : Int
  cmdCycle : Nat     -- count + 1 of the cycle the command was computed in
  mon : List Nat     -- engine internals 1 to 11 of Table 15.1, latest computation, binary32
  pw : Int           -- electrical power of that computation, 2^-40 W (R286)
  deriving DecidableEq, Repr

def AxisRec.init : AxisRec :=
  { psp := 0, vsp := 0, asp := 0, iv := 0, iId := 0, iIq := 0, dhat := 0, f1 := Biquad.zero, f2 := Biquad.zero, fInit := false,
    vPos := 0, iqRef := 0, vHist := [], isat := false, cut := 0, stepTicks := 0, stepHold := false, ia := 0, ib := 0, ic := 0, block := 0,
    trips := 0, openLoop := false, openNew := false, closed := false, raised := 0, monStop := false, blockedBy := [], relink := false, cmdA := 0, cmdB := 0, cmdCycle := 0, mon := List.replicate 11 0, pw := 0 }

/-- A job that waits for a lane: front-end jobs first, then axes (R130). -/
structure Job where
  tick : Nat
  fe : Bool
  id : Nat
  passes : Nat     -- of a front-end job
  deriving DecidableEq, Repr

/-- A job in flight: the engine clock at which its first pass entered stage 0, its passes, whether it is a front-end job. -/
structure LaneJob where
  start : Nat
  passes : Nat
  fe : Bool
  deriving DecidableEq, Repr

/-- The engine: ready jobs and, per lane, the jobs in flight. -/
structure EngState where
  ready : List Job
  lanes : List (List LaneJob)
  deriving DecidableEq, Repr


/-! Chapter 06: gain maps. Gains are binary32 patterns in slot order. -/

/-- Key sources of one sample: speed, bus voltage, inertia estimate; none where the sample gives no value (R161). -/
structure KeySample where
  cycle : Nat
  speed : Option Int
  ubus : Option Nat
  inertia : Option Nat
  deriving DecidableEq, Repr

/-- The gain maps of an axis. -/
structure GmRec where
  act : List Byte          -- active block, [] = none
  shadow : List Byte
  loaded : Bool            -- loaded since the last commit
  plane2 : Bool
  fresh : Bool             -- the next evaluation takes regions without hysteresis and steps (R166, R170)
  r1 : Nat
  r2 : Nat
  blendB : Nat
  blendLeft : Nat
  g0 : List Nat
  slots : Nat              -- slots that the running blend covers: those of the maps it runs from and to (R158, R169)
  app : List Nat
  keys : List KeySample    -- last three samples, newest first
  held : List (Option Nat) -- key values last used, by key code from 1 (R161)
  pre : Option (Nat × List Nat)  -- cycle, and the applied values before its parameter commits (R169)
  relAt : Nat              -- cycle + 1 of the last release (R170)
  longAt : Nat             -- cycle + 1 at which LoopDelay last went from T/2 to T (R170)
  chk : Nat                -- checks to be made once this S(c) has its LoopDelay: [0] LoopCurGain (R155), [1] the map (R173)
  jest : Int               -- 2^-60 A·s²/count (R162)
  dc : Int                 -- 2^-40 A
  deriving DecidableEq, Repr

def GmRec.init : GmRec :=
  { act := [], shadow := [], loaded := false, plane2 := false, fresh := false, r1 := 0, r2 := 0, blendB := 0, blendLeft := 0, g0 := [], slots := 0,
    app := [], keys := [], held := List.replicate 6 none, pre := none, relAt := 0, longAt := 0, chk := 0, jest := 0, dc := 0 }



/-! Chapter 07: set-points. Kinematic states in 2^-64 count, count/s and count/s² (R178); targets in 2^-16 count. -/

/-- Position, velocity, acceleration. -/
structure Kin where
  p : Int
  v : Int
  a : Int
  deriving DecidableEq, Repr

def Kin.zero : Kin := { p := 0, v := 0, a := 0 }

/-- What a generator does: nothing, a position target, a velocity target, a stop. -/
inductive GenMode where
  | idle | pos | vel | stop
  deriving DecidableEq, Repr

/-- A profile generator (of an axis, a virtual master or a path). `own` holds the move's own V, A, D, J and `keep` deferred
values of D and J, as binary32 patterns, 0 = none. -/
structure Gen where
  k : Kin
  mode : GenMode
  target : Int
  vel : Int          -- velocity target, 2^-64 counts/s
  own : List Nat
  keep : List Nat    -- deferred D and J, then those of a quick stop; 0 = none
  quick : Bool
  deriving DecidableEq, Repr

/-- No deferred value (R189). -/
abbrev noKeep : List Nat := [0, 0, 0, 0]

def Gen.init : Gen := { k := Kin.zero, mode := .idle, target := 0, vel := 0, own := [0, 0, 0, 0], keep := noKeep, quick := false }

/-- What an axis's generator runs for: nothing, a single move, a jog, homing, a test move, the queue. -/
inductive Task where
  | none | move | jog | home | test | queue
  deriving DecidableEq, Repr

/-- A queue entry: its 32 bytes and the first cycle in which it is available (R198). -/
structure QEntry where
  bytes : List Byte
  avail : Nat
  deriving DecidableEq, Repr

/-- The trajectory section's record of an axis. -/
structure TrjRec where
  gen : Gen
  task : Task
  tag : Nat
  moveAt : Nat                -- cycle + 1 of the last S(c) at which a motion command was due (R204)
  res : Option (Int × List Nat × Nat)   -- interrupted single move: target, limits, tag (R192)
  prev : Int                  -- target before the executing entry
  curT : Int                  -- target of the executing entry
  exec_ : Bool                -- the first entry of `sec` has started
  vj : Int                    -- speed allowed at the joint ahead, 2^-64 counts/s
  sec : List QEntry           -- entries held in the section
  spill : List QEntry         -- entries in the queue-spill partition
  hPhase : Nat                -- homing: 1 to the event, 2 creep to the index, 3 stopping, 4 to HomeFinal
  hStart : Int
  hEdge : Option Nat          -- switch edge to be interpolated, stamp in ns
  hIdx : List (Nat × Int)     -- index events of the homing before its edge arrives: stamp, position
  tPos : List Int             -- test move: PA, PB
  tLeft : Nat                 -- round trips left, 0 = until stopped
  tDwell : Nat                -- dwell in ticks
  tWait : Option Nat          -- tick at which the dwell ends
  tAt : Nat                   -- end it moves to: 0 PA, 1 PB
  c : Kin                     -- set-point state of the chain
  src : Kin                   -- last source state
  was : Option (Kin × Kin)    -- set-point and source state from which the chase formed the present set-point
  deriving DecidableEq, Repr

def TrjRec.init : TrjRec :=
  { gen := Gen.init, task := .none, tag := 0, moveAt := 0, res := none, prev := 0, curT := 0, exec_ := false, vj := 0, sec := [],
    spill := [], hPhase := 0, hStart := 0, hEdge := none, hIdx := [], tPos := [0, 0], tLeft := 0, tDwell := 0, tWait := none, tAt := 0,
    c := Kin.zero, src := Kin.zero, was := none }



/-! Chapter 08: virtual masters, couplings, cams, paths, line master. -/

/-- A virtual master. `cur` is its state for the present sample instant, `next` the one computed for the next; 2^-16. -/
structure VmRec where
  gen : Gen
  tag : Bool         -- a position target is to be reached
  sg : Int           -- σ and its rate, 2^-64
  sd : Int
  cur : Kin
  next : Kin
  made : Nat         -- cycle + 1 in which `next` was computed
  own : Bool         -- source lost: on its own generator (R209)
  af : Int           -- low-passed acceleration of a followed axis or port
  vPrev : Int
  first : Bool       -- no previous v_m of a followed axis or port yet
  dt : Int           -- Δτ of the latest step, 2^-40 ns
  was : Int × Int × Bool   -- vPrev, af and first before `next` was computed
  back : Gen × Int × Int   -- generator, σ and its rate before `next` was computed
  deriving DecidableEq, Repr

def VmRec.init : VmRec :=
  { gen := Gen.init, tag := false, sg := 18446744073709551616, sd := 0, cur := Kin.zero, next := Kin.zero, made := 0, own := false,
    af := 0, vPrev := 0, first := true, dt := 0, was := (0, 0, true), back := (Gen.init, 18446744073709551616, 0) }

/-- A change at a master position (R221). `kind` 0 engage, 1 disengage, 2 change. -/
structure CplPend where
  kind : Nat
  master : Nat
  psw : Int
  up : Bool
  lapse : Nat        -- tick at which it lapses
  id : Nat
  req : Req
  deriving DecidableEq, Repr

/-- A coupling: engaged, pending change, running registration correction. Positions in 2^-16 count. -/
structure CplRec where
  engaged : Bool
  pend : Option CplPend
  wait : Option (Int × Nat)    -- correction Δ and cycle of its first set-point
  delta : Int                  -- correction in progress, 0 = none
  travel : Int                 -- master travel since it started, 2^-16
  off0 : Int                   -- CplMasterOffset before it
  missed : Int                 -- master travel since the last accepted record
  lastPm : Option Int
  lastMm : Option Int          -- master position at the latest set-point, for crossings
  deriving DecidableEq, Repr

def CplRec.init : CplRec :=
  { engaged := false, pend := none, wait := none, delta := 0, travel := 0, off0 := 0, missed := 0, lastPm := none, lastMm := none }

/-- A path entry held: its 160 bytes, start point, first cycle, length and table of arc lengths (Bézier). -/
structure PEntry where
  bytes : List Byte
  start : List Int
  avail : Nat
  len : Int                    -- 2^-64 count
  table : List Int             -- arc length at k/64, 2^-64 count
  deriving DecidableEq, Repr

/-- A path group. -/
structure PgRec where
  bound : Bool
  members : List Nat
  k : Kin                      -- s, ṡ, s̈ within the executing entry, 2^-64
  mode : GenMode               -- idle, pos (run), stop
  quick : Bool
  paused : Bool
  sec : List PEntry
  spill : List PEntry
  exec_ : Bool
  rest : List Int              -- position at rest
  last : List Int              -- end point of the last entry appended
  stopNew : Bool               -- a stop has taken effect and its first step is still to come
  deriving DecidableEq, Repr

def PgRec.init : PgRec :=
  { bound := false, members := [], k := Kin.zero, mode := .idle, quick := false, paused := false, sec := [], spill := [], exec_ := false,
    rest := [], last := [], stopNew := false }

/-- A line command (Table 8.6). -/
structure LineCmd where
  eff : Nat
  kind : Nat
  value : Nat
  lims : List Nat
  no : Nat
  req : Option (Nat × Req)     -- the request it came from
  deriving DecidableEq, Repr

/-- One past state of the line master: sample instant, P, P', P'', σ, σ̇. -/
structure LineHist where
  at_ : Nat
  p : Int
  v : Int
  a : Int
  sg : Int
  sd : Int
  deriving DecidableEq, Repr

/-- The line master's section. -/
structure LineRec where
  cmds : List LineCmd          -- pending, in order of CMDSEQ
  no : Nat                     -- CMDSEQ of the last command formed or taken
  seq : Nat
  vtgt : Nat                   -- present velocity target, binary32
  on_ : Nat                    -- tick of LineEnable = 1
  heard : Nat                  -- tick of the last valid owner frame + 1, 0 = none since LineEnable
  demands : List (Nat × Nat × Nat)   -- line address, SCALEDEM, tick
  hist : List LineHist         -- newest first, 64 entries
  still : Bool                 -- joining, refused or diverged: the master stands
  sent : Nat                   -- multiple of LineFramePeriod of the last frame sent + 1
  owner : Option (Nat × List Byte)   -- last valid owner frame: tick, bytes
  deriving DecidableEq, Repr

def LineRec.init : LineRec :=
  { cmds := [], no := 0, seq := 0, vtgt := 0, on_ := 0, heard := 0, demands := [], hist := [], still := false, sent := 0, owner := none }


/-! Chapter 09: modulation. -/

/-- A gate output's delay lines (R268, R270): line in service, N of both lines, runs of invalid and valid measurements, coarse placement. -/
structure OutCal where
  serv : Nat
  n : List Nat
  bad : Nat
  good : Nat
  coarse : Bool     -- COARSE as reported
  now : Bool        -- placement since the last exchange of lines
  near : Bool       -- an edge of the ending period lies within 20 ns of the coming reload
  deriving DecidableEq, Repr

def OutCal.init : OutCal := { serv := 0, n := [0, 0], bad := 0, good := 0, coarse := false, now := false, near := false }

/-- A local gate pair. -/
structure GpRec where
  inact : List Nat       -- per input: tick since which it reads inactive
  since : List Nat       -- per input: line time (R13 as a number) of the edge that began its active level
  offBy : List Nat       -- tripped pairs that keep it off (R259)
  clear : Nat            -- tick of the last TripClear
  wait : Bool            -- off until a load-all set after a halt or block has ended (R264)
  duty : Option Rat      -- front-end duty for the coming reload
  scaled : Bool          -- that duty was scaled under R247
  endLv : Nat            -- end level of the last record: 0 low, 1 high, 2 off (R244)
  missed : Bool          -- data not ready for the coming reload (R266)
  edges : List (Nat × Nat × Nat)   -- switchings sent for the period: modulation clock, tap, what switches
  cal : List OutCal      -- low-side output, then high-side output
  deriving DecidableEq, Repr

def GpRec.init : GpRec :=
  { inact := [0, 0], since := [0, 0], offBy := [], clear := 0, wait := false, duty := none, scaled := false, endLv := 2, missed := false,
    edges := [], cal := [OutCal.init, OutCal.init] }

/-- A load-all that is set (R257). -/
structure LoadReq where
  groups : Nat
  cycle : Nat
  tick : Nat
  id : Nat
  req : Req
  deriving DecidableEq, Repr

/-- The modulation section. `prev` keeps the values that govern the records of the present samples after a reload (R256). -/
structure ModState where
  gp : Tab GpRec
  prev : Tab (Option Nat)
  loads : List LoadReq
  mst : Tab (List Byte)      -- entries of microstep tables 1 to 31; [] = all entries 0
  axWait : List Nat          -- axes whose ISLAND bit waits for a load-all (R265)
  halted : Nat               -- islands halted or without clock, bits of Table 1.2
  blocked : Bool             -- pulse block of R27
  relTick : Nat              -- tick at which the last halt ended
  clrTick : Nat              -- tick at which the last block of R27 was cleared
  deriving DecidableEq, Repr

def ModState.reset : ModState :=
  { gp := [], prev := [], loads := [], mst := [], axWait := [], halted := 0, blocked := false, relTick := 0, clrTick := 0 }


/-! Chapter 10: front end. Amperes, volts, watts and joules in units of 2^-40, turns in 2^-64, hertz in 2^-40. -/

/-- The front-end section. -/
structure FeRec where
  made : Nat               -- cycle + 1 of the latest front-end jobs
  done : Nat               -- `made` of the jobs whose FJ8 was taken up last, and the tick at which that FJ8 ends
  doneAt : Nat
  sogi : List (Int × Int)  -- in-phase and quadrature outputs for α and β
  ph : Int                 -- PLL angle at S(n) - τ_sd
  f : Int                  -- PLL frequency and the integral part of its PI
  fi : Int
  uPos : Int               -- positive-sequence peak
  nLock : Nat              -- runs of consecutive samples: angle error below 2°, ready for FeStart, …
  nReady : Nat
  nDip : Nat
  nRec : Nat
  nUnbal : Nat
  nBal : Nat
  nLoss : Nat
  nWhole : Nat
  nFreq : Nat
  nLow : Nat               -- below FeRideLevel with CURLIM
  lossAt : Nat             -- tick at which PHASELOSS was set
  bus : Int                -- U_bus of the latest sample
  uRef : Int
  iB : Int
  cut : Int                -- sign of the part of id* cut off
  id_ : Int                -- id* of the latest sample
  pi_ : List Int           -- integrators: positive d, q, negative d, q
  res : List (Int × Int)   -- resonators: orders 6, 12, 18, 24 for d, then for q
  energy : Int
  step : Nat               -- start sequence: 1 pre closing, 2 precharge, 3 main closing, 4 delay, 5 pre opening, 6 settling, 0 none
  t0 : Nat                 -- tick of acceptance, tick at which the present step began
  tStep : Nat
  start : Option Req
  stops : List Req
  stopAt : Nat
  stopId : Int
  bridge : Bool            -- the bridge switches during the stop ramp
  preFb : Bool             -- contactor feedbacks, and changes that their outputs let expect
  mainFb : Bool
  preWait : Bool
  mainWait : Bool
  rideAt : Nat
  all_ : Bool              -- σ_r reaches both ranks since a fault
  learn : List Int         -- P_ax/σ of the samples since σ last changed, newest first
  learnSg : Int
  deriving DecidableEq, Repr

/-- After reset. The PLL frequency starts at 50 Hz, within the limits of R284 (DESIGN CHOICE, notes/assumptions/112.md). -/
def FeRec.init : FeRec :=
  { made := 0, done := 0, doneAt := 0, sogi := [(0, 0), (0, 0)], ph := 0, f := 50 * 2 ^ 40, fi := 50 * 2 ^ 40, uPos := 0, nLock := 0, nReady := 0, nDip := 0, nRec := 0,
    nUnbal := 0, nBal := 0, nLoss := 0, nWhole := 0, nFreq := 0, nLow := 0, lossAt := 0, bus := 0, uRef := 0, iB := 0, cut := 0,
    id_ := 0, pi_ := [0, 0, 0, 0], res := List.replicate 8 (0, 0), energy := 0, step := 0, t0 := 0, tStep := 0, start := none,
    stops := [], stopAt := 0, stopId := 0, bridge := false, preFb := false, mainFb := false, preWait := false, mainWait := false,
    rideAt := 0, all_ := false, learn := [], learnSg := 0 }


/-! Chapter 11: Lockkeeper, and what the chip has received from it. -/

/-- A safety input pair. Lists of two hold channel A, then B. -/
structure SafIn where
  lvl : List Bool      -- latest sampled levels, and ticks since which they stand
  since : List Nat
  hi : List Nat        -- ticks since which they have been high, low pulses that are ignored left out
  closed : List Bool   -- filtered
  code : Nat           -- input fault (Table 11.2)
  stage : Nat          -- of its clearing: 0 both open awaited, 1 both closed awaited, 2 reset awaited
  short : List Bool    -- the latest pulse of TPA, of TPB, showed a short
  dis : Nat            -- channels differ: 1 on opening, 2 on closing, 0 not
  disAt : Nat
  deriving DecidableEq, Repr

def SafIn.init : SafIn :=
  { lvl := [false, false], since := [0, 0], hi := [0, 0], closed := [false, false], code := 0, stage := 0, short := [false, false], dis := 0, disAt := 0 }

/-- One of the two safety processors (R308). Masks have one bit per group. -/
structure SafProc where
  gs : List Nat        -- group states (Table 11.4)
  dem : List Nat       -- demanding inputs of each group at the latest evaluation
  gWas : Nat           -- guards [7:0], SI10 [8] and SI11 [9] that read open at the latest evaluation
  pend : Nat           -- guard test pending; guard has read open in it
  gOpen : Nat
  auto : Nat           -- off only because of the guard
  rst : Nat            -- ready at a valid reset of this cycle, and without demand since
  ss1At : List Nat
  peer : Nat           -- the other channel's filtered levels as last exchanged, one bit per input
  deriving DecidableEq, Repr

def SafProc.init : SafProc :=
  { gs := List.replicate 8 0, dem := List.replicate 8 0, gWas := 0, pend := 0, gOpen := 0, auto := 0, rst := 0, ss1At := List.replicate 8 0,
    peer := 0 }

/-- The Lockkeeper, then the chip's side of its frames. -/
structure SafRec where
  ins : Tab SafIn
  prs : List SafProc   -- processors A and B
  fault : Nat
  started : Bool
  powered : Bool       -- output drive present
  tpAt : List (Option Nat)   -- start of the latest pulse of TPA, of TPB
  rstDue : Bool        -- a valid reset was given in this cycle
  bank : Nat
  bankOk : Bool
  linkBad : Nat        -- consecutive cycles with link failed, with group states differing
  differ : Nat
  outRb : Nat
  srst : Nat           -- 0 released, 1 pressed, 2 held
  srstAt : Nat
  srstOk : Bool        -- the press may end in a reset
  relAt : Option Nat   -- released after a held press
  seq : Nat
  up : Nat             -- tick at which start-up completed
  frames : List (List Byte)   -- chip side: latest valid frame of A and B, reference SEQ + 1, tick + 1 of the latest valid frame
  refs : List Nat
  at_ : List Nat
  unequal : Nat
  lost : Bool
  lines : Nat          -- lines read at the last sample instant: SS1 [15:8], STO [7:0]
  deriving DecidableEq, Repr

def SafRec.init : SafRec :=
  { ins := [], prs := [SafProc.init, SafProc.init], fault := 0, started := false, powered := true, tpAt := [none, none], rstDue := false, bank := 0, bankOk := false, linkBad := 0, differ := 0,
    outRb := 0, srst := 0, srstAt := 0, srstOk := true, relAt := none, seq := 0, up := 0, frames := [[], []], refs := [0, 0],
    at_ := [0, 0], unequal := 0, lost := false, lines := 0 }


/-! Chapter 12: field I/O. -/

/-- An output entry (R342): output within the group, level, instant in ns of line time. -/
structure FEntry where
  out : Nat
  level : Bool
  at_ : Nat
  deriving DecidableEq, Repr

/-- An edge record (R338): stamp in ns of line time, fast input within the group. -/
structure FEdge where
  stamp : Nat
  inp : Nat
  rising : Bool
  deriving DecidableEq, Repr

/-- A Ferry link: the chip side, then the field side of its group. -/
structure FerryRec where
  wait : List FEntry        -- entries not yet sent, oldest first
  cfg : List (Nat × Nat)    -- settings to be sent (CFGADDR, CFGVAL)
  seq : Nat
  downs : List (Nat × Nat × Nat × Nat)   -- down frames not yet answered: SEQ, G, tick, entries; oldest first
  release : Bool
  upG : Nat                 -- G of the latest valid up frame
  upTick : Nat
  delays : List Nat         -- link delays of the last 64 valid pairs, both ways together, ns
  free : Nat                -- free places last reported
  upOk : Nat                -- consecutive valid up frames, up to 16
  lt : Nat                  -- field side: line time in ns at `ltTick`
  ltTick : Nat
  locked : Bool
  lockRun : Nat
  badRun : Nat
  lastDown : Nat            -- tick of the last valid down frame
  downOk : Nat              -- consecutive valid down frames, up to 16
  answer : Option (Nat × Nat)   -- SEQ and G of the down frame to answer
  set_ : Tab Nat            -- settings by CFGADDR
  edges : List FEdge
  diS : Nat                 -- chip side: input levels for S(n), of the latest valid up frame with G at or before it (R349)
  di : Nat
  li : Nat
  levels : List (Nat × Nat × Nat)   -- filtered levels of the last 2 µs and before: field time since which they stand, di, li; newest first
  diWire : Nat
  liWire : Nat
  ovl : Nat
  feed : Nat
  low : Bool                -- L+n low
  held : Bool
  pend : List FEntry
  lvl : Nat                 -- owner's levels applied
  offAt : List Nat          -- per output: tick since which its owner's level is off
  set0 : Bool               -- a line time has been taken
  opened : Bool             -- chip side: an up frame has shown the group released (R513)
  lastG : Option Nat        -- G of the latest down frame
  line : List (List (Nat × Bool))   -- per output: instants and levels of the entries formed, oldest first (R342)
  deriving DecidableEq, Repr

/-- A group after power-up: outputs held off (R350). -/
def FerryRec.init : FerryRec :=
  { wait := [], cfg := [], seq := 0, downs := [], release := false, upG := 0, upTick := 0, delays := [],
    free := 32, upOk := 0, lt := 0, ltTick := 0, locked := false, lockRun := 0, badRun := 0, lastDown := 0, downOk := 0, answer := none,
    set_ := [], edges := [], diS := 0, di := 0, li := 0, levels := [], diWire := 0, liWire := 0, ovl := 0, feed := 0, low := false, held := true, pend := [],
    lvl := 0, offAt := [0, 0, 0, 0], set0 := false, opened := false, lastG := none, line := [[], [], [], []] }


/-! Chapter 14: processor complex and Granary. Task 0xFE stands for firmware. -/

/-- A thread. -/
structure ThrRec where
  owner : Nat
  prio : Nat
  cores : Nat          -- allowed cores, bits 0 to 5
  seq : Nat            -- order in which it became ready
  spent : Nat          -- cores on which its budget is exhausted
  used : List Nat      -- ns run in the present window, application cores
  deriving DecidableEq, Repr

/-- A core: the thread it runs, since when, start of its time slice, and its busy and idle changes, newest first. -/
structure CoreRec where
  run : Option Nat
  at_ : Nat
  slice : Nat
  hist : List (Nat × Bool)
  deriving DecidableEq, Repr

def CoreRec.init : CoreRec := { run := none, at_ := 0, slice := 0, hist := [] }

/-- An atomic flow: items not yet ended, oldest first; the first one is with its handler. -/
structure FlowRec where
  owner : Nat
  items : List (List Byte)
  deriving DecidableEq, Repr

def FlowRec.init : FlowRec := { owner := 0xFE, items := [] }

/-- A mapped 4 KB page; `data` [] stands for zeros. -/
structure Page where
  w : Bool
  x : Bool
  data : List Byte
  deriving DecidableEq, Repr

/-- A user task: image parts by offset, TaskStart that waits, last kick, pages by virtual page number, DMA flow. -/
structure TaskRec where
  parts : List (Nat × List Byte)
  start : Option Req
  kick : Nat
  pages : Tab (Option Page)
  dmaFlow : List (List Byte)
  deriving DecidableEq, Repr

def TaskRec.init : TaskRec := { parts := [], start := none, kick := 0, pages := [], dmaFlow := [] }

/-- The processor complex and the memory. `dma` holds the descriptors of each channel not yet ended (address, 48 bytes). -/
structure ProcRec where
  thr : Tab (Option ThrRec)
  cores : List CoreRec
  seq : Nat
  flows : Tab FlowRec
  tasks : Tab TaskRec
  dma : Tab (List DmaDesc)
  dmaLast : List Nat       -- per priority: channel served last
  dmaAt : Nat              -- tick + 1 of the latest burst
  restart : Bool           -- service cores restart
  damaged : List Req       -- waiting packets whose spilled body is damaged (R405)
  ecc : Tab Nat            -- corrected errors by physical page
  retired : List Nat       -- retired physical pages
  eccAt : Nat              -- tick + 1 of the latest "memory error corrected"
  scrubAt : Nat
  peakFrom : Nat           -- tick up to which MemOutstandingPeak has been cleared
  deriving DecidableEq, Repr

def ProcRec.init : ProcRec :=
  { thr := [], cores := List.replicate 6 CoreRec.init, seq := 0, flows := [], tasks := [], dma := [], dmaLast := [15, 15, 15, 15], dmaAt := 0, restart := false,
    damaged := [], ecc := [], retired := [], eccAt := 0, scrubAt := 0, peakFrom := 0 }


/-! Chapter 15: acquisition units. -/

/-- A block of 4,096 bytes in the making or in the buffer: number in the buffer, first frame, frames oldest first, time and cycle of frame 0,
divider, FLAGS, trigger frame and time. -/
structure AqBlk where
  no : Nat
  first : Nat
  frames : List (List Byte)
  t0 : Nat
  cycle0 : Nat
  d : Nat
  flags : Nat
  trigF : Option Nat
  ttrig : Nat
  skip : Nat
  bseq : Nat
  deriving DecidableEq, Repr

/-- A completed capture. -/
structure AqCap where
  seq : Nat
  seg : Nat
  flags : Nat
  ttrig : Nat
  blocks : List Nat
  deriving DecidableEq, Repr

/-- Crossing logic of one level: seen below L - H, above L + H; base samples of its last rising and falling crossing. -/
structure AqLevel where
  below : Bool
  above : Bool
  rise : Option Nat
  fall : Option Nat
  deriving DecidableEq, Repr

def AqLevel.init : AqLevel := { below := false, above := false, rise := none, fall := none }

/-- A trigger taken: frame, line time in ns, flags TRIG, AUTO, FORCED as in Table 15.3. -/
structure AqTrig where
  frame : Nat
  time : Nat
  flags : Nat
  deriving DecidableEq, Repr

/-- The sinc³ filter of a class 3 channel (R413): the last bits, newest first; bits since the latest result; that result (binary32). -/
structure SincRec where
  bits : List Bool
  since : Nat
  val : Nat
  deriving DecidableEq, Repr

def SincRec.init : SincRec := { bits := [], since := 0, val := 0 }

/-- An acquisition unit. Frames and base samples count from arming. -/
structure AqRec where
  d : Nat
  seg : Nat
  pos : Nat
  start : Nat                 -- frame at which the running capture began
  idx : Nat
  frame : Nat
  acc : List (List Nat)       -- base samples of the present interval, newest first
  blk : Option AqBlk          -- open block
  ring : List AqBlk           -- closed blocks of the running capture, newest first
  blocks : Tab (List Byte)    -- buffer by block
  staged : List Nat           -- closed blocks not yet written, oldest first
  lowAt : Nat                 -- tick since which the staging store holds less than 16 KB
  halve : Bool
  chg : Bool                  -- D has changed at the boundary at which the next block begins
  lv1 : AqLevel
  lv2 : AqLevel
  fired : Bool                -- type 4 has triggered since the last crossing
  cand : Option (Nat × Nat)   -- condition met while waiting: frame, line time
  trig : Option AqTrig
  waitAt : Nat                -- line time of entering state 2
  force : Bool
  stop : Bool
  caps : List AqCap           -- oldest first
  caSeq : Nat
  bSeq : Nat
  lost : Nat                  -- blocks lost from the last segment
  win : Nat                   -- address of the granted window
  sinc : Tab SincRec          -- filters by channel
  deriving DecidableEq, Repr

def AqRec.init : AqRec :=
  { d := 1, seg := 0, pos := 0, start := 0, idx := 0, frame := 0, acc := [], blk := none, ring := [], blocks := [], staged := [], lowAt := 0,
    halve := false, chg := false, lv1 := AqLevel.init, lv2 := AqLevel.init, fired := false, cand := none, trig := none, waitAt := 0, force := false,
    stop := false, caps := [], caSeq := 0, bSeq := 0, lost := 0, win := 0, sinc := [] }


/-! Chapter 16: CAN controllers and Bellman. -/

/-- A message object: the record a receive object holds, the data, request, COMMITID and deadline (tick) of a pending send, cancels that
wait for the running attempt, consecutive identifier collisions. -/
structure CanObjRec where
  held : Option (List Byte)
  data : List Byte
  send : Option (Nat × Req)
  deadline : Option Nat
  cancels : List (Nat × Req)
  consec : Nat
  deriving DecidableEq, Repr

def CanObjRec.init : CanObjRec := { held := none, data := [], send := none, deadline := none, cancels := [], consec := 0 }

/-- A controller: the attempt in progress (object, or 100 for the Bellman reference) with its SOF stamp and cycle, the receive-all store
oldest first, recoveries that wait, and Bellman: references pending, references sent, previous sync point and its cycle, GAP and STEP for
the next reference and for the one after it, consecutive collisions, number of the last due instant. -/
structure CanRec where
  cur : Option Nat
  stamp : Nat
  cycle : Nat
  cycS : Nat                  -- cycle of the last sample instant at or before the stamp
  ssp : Option Nat            -- secondary sample point of the attempt's data phase, protocol clocks after a bit's start (R428)
  rx : List (List Byte)
  ovf : Bool
  recovers : List Req
  bWait : Nat
  bSent : Nat
  bPrev : Nat
  bPrevCyc : Nat
  gap : Bool
  gapN : Bool
  step : Bool
  stepN : Bool
  bConsec : Nat
  bLast : Option Int
  deriving DecidableEq, Repr

def CanRec.init : CanRec :=
  { cur := none, stamp := 0, cycle := 0, cycS := 0, ssp := none, rx := [], ovf := false, recovers := [], bWait := 0, bSent := 0, bPrev := 0, bPrevCyc := 0,
    gap := false, gapN := false, step := false, stepN := false, bConsec := 0, bLast := none }


/-! Chapter 17: IEEE 1588 time service and line roll call. -/

/-- The data set of a master heard by Announce: priority 1, class, accuracy, variance, priority 2, grandmaster identity, steps removed,
source port identity, the ticks of its last two Announce messages. -/
structure PtpMaster where
  gm : List Nat
  source : Nat
  prevAt : Option Nat
  at_ : Nat
  deriving DecidableEq, Repr

/-- The time service. `sync` keeps a two-step Sync that waits for its Follow_Up: sequence, ingress stamp, correction; `req` the Delay_Req
in flight: sequence and egress stamp; times are ticks. -/
structure NtRec where
  masters : List PtpMaster
  sel : Option Nat               -- source port identity of the selected master
  own : Bool                     -- the algorithm selects the unit itself
  annAt : Nat
  syncAt : Nat
  lost : Bool                    -- the loss of R453 has been acted on
  sync : Option (Nat × Nat × Int)
  req : Option (Nat × Nat)
  delay : Int                    -- mean path delay, 2^-16 ns
  lastPair : Option (Nat × Nat)  -- origin and ingress stamp of the latest Sync, 2^-16 ns
  locked1 : Bool                 -- LOCKED since power-up or since the mode was set to 2
  good : Nat
  bad : Nat
  integ : Int                    -- integral part of the servo, 2^-40 of an increment step
  incs : List Nat                -- last increments, newest first
  seqs : List Nat                -- next sequenceId of Sync, Announce, Delay_Req
  sentAt : List (Option Nat)     -- tick of the last one sent of each
  transit : List (List Nat × Nat × Nat)   -- two-step Syncs on their way: key, residence 2^-16 ns, tick
  deriving DecidableEq, Repr

def NtRec.init : NtRec :=
  { masters := [], sel := none, own := false, annAt := 0, syncAt := 0, lost := false, sync := none, req := none, delay := 0, lastPair := none,
    locked1 := false, good := 0, bad := 0, integ := 0, incs := [], seqs := [0, 0, 0], sentAt := [none, none, none], transit := [] }

/-- The line roll call: tick of the last beacon on each port, tick since which the neighbour state is stable, a request waiting since,
whether the pending change has been called, the running call, whether it follows after a conflict, requests that wait for completion. -/
structure RollRec where
  seen : List (Option Nat)
  stableAt : Nat
  called : Bool
  reqAt : Option Nat
  num : Nat
  nextNum : Nat
  startAt : Option Nat
  addrSent : Bool
  follow : Bool
  gotAddr : Bool
  retryAt : Option Nat
  waiting : List Req
  beaconAt : Option Nat    -- tick of the latest beacons
  deriving DecidableEq, Repr

def RollRec.init : RollRec :=
  { seen := [none, none], stableAt := 0, called := false, reqAt := none, num := 0, nextNum := 1, startAt := none, addrSent := false,
    follow := false, gotAddr := false, retryAt := none, waiting := [], beaconAt := none }


/-! Chapters 18 to 20: start-up, image store, boot record, update. -/

/-- A firmware slot (R467): bytes written; the others hold what the unit left the factory with, or read 0xFF once the slot was marked
empty. -/
structure SlotRec where
  emptied : Bool
  bytes : Tab (Option Byte)
  deriving DecidableEq, Repr

/-- A copy of the boot record (R470): sequence number and the stored values. -/
structure BootCopy where
  seq : Nat
  vals : List Nat
  deriving DecidableEq, Repr

/-- A boot record on its way into flash: its values and the request that started it. -/
structure StoreJob where
  vals : List Nat
  req : Option Req
  deriving DecidableEq, Repr

/-- Start-up and update. `phase`: 0 in reset, 1 image started, 2 ready; ticks throughout. -/
structure BootState where
  phase : Nat
  ready : Bool                 -- the interpreter accepts packets (R472)
  recovery : Bool              -- no valid slot (R469)
  bootAt : Nat
  slots : List SlotRec
  copies : List (Option BootCopy)
  storing : List StoreJob      -- oldest first
  islFault : Bool              -- "island out of limits", until cleared (R489)
  restarts : List Nat          -- service restarts of the last 60 s, newest first
  restartAt : Nat
  switch : Option (Nat × Req × Nat)   -- slot, request, tick of the start
  trial : Option Nat           -- tick at which the trial began (R487)
  due : Nat                    -- what follows a reply: 1 reset, 2 stop of the service cores
  offHalt : Nat                -- halted islands off the loop path, bits of Table 1.2
  islBadAt : Option Nat        -- tick of the last measurement out of limits
  islEarly : Bool              -- an island was out of limits before ready
  auxAt : List Nat             -- ticks at which the auxiliary supplies switched off
  cages : List Nat             -- what is in X6 to X9: state as ElkSfpState
  deriving DecidableEq, Repr

def BootState.init : BootState :=
  { phase := 0, ready := false, recovery := false, bootAt := 0, slots := [⟨false, []⟩, ⟨false, []⟩], copies := [none, none], storing := [],
    islFault := false, restarts := [], restartAt := 0, switch := none, trial := none, due := 0,
    offHalt := 0, islBadAt := none, islEarly := false, auxAt := List.replicate 10 0, cages := [0, 0, 0, 0] }


/-- The device. `sent` is what it has sent, newest first; `free` counts the free values taken; `pending` holds the
commands that wait, first in, first out. -/
structure State where
  time : TimeState
  par : Params
  host : HostState
  sent : List Out
  free : Nat
  link : LinkState
  fb : Tab FbRec
  hist : Tab (List HistEntry)
  lat : Tab LatRec
  cmp : Tab CmpRec
  emu : Tab EmuRec
  ax : Tab AxisRec
  eng : EngState
  gm : Tab GmRec
  trj : Tab TrjRec
  vm : Tab VmRec
  cpl : Tab CplRec
  cams : Tab (List Byte)
  camHeld : Tab (List Nat)
  pg : Tab PgRec
  line : LineRec
  mod : ModState
  fe : FeRec
  saf : SafRec
  ferry : Tab FerryRec
  dqFe : Nat
  pr : ProcRec
  aq : Tab AqRec
  can : Tab CanRec
  canObj : Tab CanObjRec
  nt : NtRec
  roll : RollRec
  boot : BootState
  pending : List Instr
  deriving DecidableEq, Repr

/-- The device right after reset: every field at the value the manual states; the other values are named in
notes/assumptions. -/
def State.reset : State :=
  { time := { tick := 0, lt := 0, cycle := 0, lastS := 0, nextS := 31250, lastTick := 0, rephase := 0, offGrid := false },
    par := { active := [], shadow := [], staged := [], commits := [], nextId := 1 },
    host := HostState.reset,
    sent := [],
    free := 0,
    link := LinkState.reset,
    fb := [],
    hist := [],
    lat := [],
    cmp := [],
    emu := [],
    ax := [],
    eng := { ready := [], lanes := [[], [], [], []] },
    gm := [],
    trj := [],
    vm := [],
    cpl := [],
    cams := [],
    camHeld := [],
    pg := [],
    line := LineRec.init,
    mod := ModState.reset,
    fe := FeRec.init,
    saf := SafRec.init,
    ferry := [],
    dqFe := 0,
    pr := ProcRec.init,
    aq := [],
    can := [],
    canObj := [],
    nt := NtRec.init,
    roll := RollRec.init,
    boot := BootState.init,
    pending := [] }

end Sys2Proof.Machine
end

