-- ==== Sys2Proof/Machine/Ops.lean ====
section
/-!
DEFINITION. The operations every section shares: time, parameter copies, what leaves the device, replies, events,
completion events, and the acceptance of commits. A block takes no exceptions; the reply with its status is what
a refused command answers (R16).
-/
namespace Sys2Proof.Machine

/-- The outcome of a step that goes on. -/
abbrev Res := Host.Outcome State Fault Refusal

/-! ### Parameters -/

/-- The row of an index (R15). -/
def paramRow (idx : Nat) : Option ParamRow := paramRows.find? (fun r => r.index == idx)

/-- The value after reset of a parameter (column "after reset"; the values each unit or start has of its own come
from Config). -/
def paramReset (idx inst : Nat) : Nat :=
  if idx = P.SysUnitId then Config.unitId.toNat
  else if idx = P.SysFirmwareVersion then Config.firmwareVersion.toNat
  else if idx = P.SysHardwareRev then Config.hardwareRev.toNat
  else if idx = P.SysOrderCode then Config.orderCode.toNat
  else if idx = P.SysSerial then Config.serial.toNat
  else if idx = P.SysMacBase then Config.macBase.toNat
  else if idx = P.SysReadyTime then Config.readyTime.toNat
  else if idx = P.SysResetCause then 1
  else if idx = P.DmaOwner then (if inst < 4 then 0xFE else 0xFF)
  else if idx = P.MemPartitionSize then [512, 64, 64, 2048, 5504].getD inst 0
  else match paramRow idx with
    | some r => r.reset
    | none => 0

/-- Key of a parameter instance; instances are 16-bit numbers. -/
def pkey (idx inst : Nat) : Nat := idx * 65536 + inst % 65536

/-- The value after reset of the parameter instance with a key. -/
def keyReset (k : Nat) : Nat := paramReset (k / 65536) (k % 65536)

/-- The active copy of a parameter (R35). -/
def State.rd (s : State) (idx inst : Nat) : Nat := tabGet s.par.active (keyReset (pkey idx inst)) (pkey idx inst)

/-- The active copy of a float32 parameter. -/
def State.rf (s : State) (idx inst : Nat) : Rat := f32ToRat (s.rd idx inst)

/-- The active copy of an int64 parameter; positions in 2^-16 counts (R13). -/
def State.rp (s : State) (idx inst : Nat) : Int := sInt 64 (s.rd idx inst)

/-- The active copy of an int32 parameter. -/
def State.ri (s : State) (idx inst : Nat) : Int := sInt 32 (s.rd idx inst)

/-- True where the active copy is not 0. -/
def State.rb (s : State) (idx inst : Nat) : Bool := decide (s.rd idx inst ≠ 0)

/-- Write the active copy. -/
def State.wr (s : State) (idx inst v : Nat) : State :=
  { s with par := { s.par with active := tabSet s.par.active (keyReset (pkey idx inst)) (pkey idx inst) v } }

/-- Write the active copy of a float32 report. -/
def State.wrF (s : State) (idx inst : Nat) (x : Rat) : State := s.wr idx inst (ratToF32 x)

/-- Write the active copy of an int64 report. -/
def State.wrP (s : State) (idx inst : Nat) (x : Int) : State := s.wr idx inst (uNat 64 x)

/-- Set or clear one bit of a bitfield report. -/
def State.wrBit (s : State) (idx inst k : Nat) (b : Bool) : State := s.wr idx inst (setBit (s.rd idx inst) k b)

/-- Set the bits of a mask in a bitfield report. -/
def State.orBits (s : State) (idx inst m : Nat) : State := s.wr idx inst ((s.rd idx inst).lor m)

/-- Clear the bits of a mask in a bitfield report. -/
def State.clrBits (s : State) (idx inst m : Nat) : State :=
  s.wr idx inst ((s.rd idx inst) - (s.rd idx inst).land m)

/-- Count up a report that wraps at 2^32. -/
def State.inc (s : State) (idx inst : Nat) : State := s.wr idx inst ((s.rd idx inst + 1) % 2 ^ 32)

/-- The shadow copy: what was written and not yet committed, else the active value (R35). -/
def State.rdShadow (s : State) (idx inst : Nat) : Nat :=
  (tabGet s.par.shadow none (pkey idx inst)).getD (s.rd idx inst)

/-- Write the shadow copy. -/
def State.wrShadow (s : State) (idx inst v : Nat) : State :=
  { s with par := { s.par with shadow := tabSet s.par.shadow none (pkey idx inst) (some v) } }

/-- Return the shadow copy to the active value. -/
def State.dropShadow (s : State) (key : Nat) : State :=
  { s with par := { s.par with shadow := tabSet s.par.shadow none key none } }

/-- Some choice of one value for each parameter of a list is bad. -/
def anyChoice (bad : (Nat → Nat) → Bool) : List (Nat × List Nat) → (Nat → Nat) → Bool
  | [], f => bad f
  | (p, vs) :: r, f => vs.any fun x => anyChoice bad r fun q => if q = p then x else f q

/-- The active and the shadow value of a parameter. -/
def State.copies (s : State) (p i : Nat) : List Nat := if s.rd p i = s.rdShadow p i then [s.rd p i] else [s.rd p i, s.rdShadow p i]

/-- A write of `v` to parameter `idx` would break a relation between parameters of an instance: with the active or with the shadow value of
any other, since what is staged or pending becomes active later, or never. -/
def State.breaks (s : State) (idx i v : Nat) (ps : List Nat) (bad : (Nat → Nat) → Bool) : Bool :=
  anyChoice bad (ps.map fun p => (p, if p = idx then [v] else s.copies p i)) fun p => s.rd p i

/-- Enter a key into a staged set (R36). -/
def State.joinSet (s : State) (g : Staged) (key : Nat) : State :=
  { s with par := { s.par with staged := s.par.staged.map fun x =>
      if x = g then { g with keys := if g.keys.contains key then g.keys else g.keys ++ [key] } else x } }

/-! ### Time -/

/-- The cycle length T in ns (R40). -/
def State.cycleNs (s : State) : Nat := 31250 * 2 ^ s.rd P.SysCycleLength 0

/-- Line time, whole nanoseconds (R13). -/
def State.lineNs (s : State) : Nat := s.time.lt / 2 ^ 24

/-- Fraction of line time in 2^-16 ns (R13). -/
def State.lineFrac (s : State) : Nat := s.time.lt % 2 ^ 24 / 2 ^ 8

/-- The device at tick `t` (1 ns timebase ticks): on each tick the increment is added to the line-time accumulator.
Time never runs back. -/
def State.advance (s : State) (t : Nat) : State :=
  if t ≤ s.time.tick then s else
    { s with time := { s.time with
        tick := t, lt := (s.time.lt + (t - s.time.tick) * s.rd P.NtIncrement 0) % 2 ^ 88 } }

/-- Milliseconds in ticks. -/
def msTicks (x : Rat) : Int := roundHE (x * 1000000)

/-- The bytes of a stamp: u64 ns, u16 fraction (R491). -/
def stampBytes (ns frac : Nat) : List Byte := leBytes 8 ns ++ leBytes 2 frac

/-! ### What leaves the device -/

/-- Send something. -/
def State.out (s : State) (o : Out) : State := { s with sent := o :: s.sent }

/-- Send a frame. -/
def State.frame (s : State) (kind : FrameKind) (port : Nat) (bytes : List Byte) : State := s.out (.frame kind port bytes)

def State.setHost (s : State) (h : HostState) : State := { s with host := h }

def State.setRegs (s : State) (r : HostRegs) : State := { s with host := { s.host with regs := r } }

/-- Instance of a transport in Table 13.13: 0 PCI Express, 1 UDP, 2 RS-485, 3 USB. -/
def trNum : Transport → Nat
  | .pcie => 0
  | .udp => 1
  | .rs485 => 2
  | .usb => 3

/-- Largest LENGTH (Table 13.3; R356: generation 1 at most 1,040). -/
def maxLen (tr : Transport) (gen : Nat) : Nat :=
  if gen = 1 then 1040 else match tr with
    | .pcie => 262144
    | .usb => 262144
    | .udp => 65507
    | .rs485 => 1040

/-- Header length of a generation. -/
def hdrLen (gen : Nat) : Nat := if gen = 1 then 16 else 32

/-- A packet with its header and check value (Tables 13.1, 13.2; R357). `sc` is the STATUS field. -/
def packetBytes (gen flags flow seq op inst sc : Nat) (body : List Byte) : List Byte :=
  if gen = 1 then
    let p (c : Nat) := [0x4A, 0x58, 0x01] ++ leBytes 1 flags ++ leBytes 2 (16 + body.length) ++ leBytes 2 seq ++
      leBytes 2 op ++ leBytes 2 inst ++ leBytes 2 sc ++ leBytes 2 c ++ body
    p (crc16 (p 0))
  else
    let p (c : Nat) := [0x4A, 0x58, 0x43, 0x50, 0x02] ++ leBytes 1 flags ++ leBytes 1 flow ++ [0] ++
      leBytes 4 (32 + body.length) ++ leBytes 4 seq ++ leBytes 2 op ++ leBytes 2 inst ++ leBytes 2 sc ++ [0, 0] ++
      [0, 0, 0, 0] ++ leBytes 4 c ++ body
    p (crc32 (p 0))

/-- The parts of a body of at most `m` bytes each; a last one always exists (R359). -/
def bodyParts : Nat → Nat → List Byte → List (Bool × List Byte)
  | 0, _, b => [(false, b)]
  | f + 1, m, b => if b.length ≤ m then [(false, b)] else (true, b.take m) :: bodyParts f m (b.drop m)

/-- The packets of a reply (R359, R360): REPLY set, MORE on all parts but the last, DUP on a resend. -/
def Reply.packets (r : Reply) : List (List Byte) :=
  let m := maxLen r.dest.tr r.gen - hdrLen r.gen
  (bodyParts (r.body.length / m + 1) m r.body).map fun p =>
    packetBytes r.gen (1 + (if p.1 then 4 else 0) + (if r.dup then 8 else 0)) r.flow r.seq r.opcode r.inst r.status p.2

/-- An event packet (R370, Table 13.8). -/
def Ev.body (e : Ev) : List Byte :=
  leBytes 8 e.timeNs ++ leBytes 2 e.frac ++ leBytes 1 e.level ++ [0] ++ leBytes 4 e.cycle ++ leBytes 4 e.evseq ++
    leBytes 2 e.data.length ++ [0, 0] ++ e.data

def Ev.packet (e : Ev) (seq : Nat) : List Byte := packetBytes 2 2 e.flow seq e.code e.inst 0 e.body

/-- A packet placed in a byte ring (R376): the writes, the new tail; none where it does not fit. A full ring keeps 8 bytes free, so
that head and tail differ (DEDUCED, notes/assumptions/8.md). -/
def ringPut (base size head tail : Nat) (pkt : List Byte) : Option (List Out × Nat) :=
  let need := (pkt.length + 7) / 8 * 8
  let free := (head + size - tail - 1) % size / 8 * 8
  if tail + need ≤ size then
    if need ≤ free then some ([.dma (base + tail) pkt], (tail + need) % size) else none
  else
    let gap := size - tail
    if gap + need ≤ free then
      some ([.dma base pkt, .dma (base + tail) (leBytes 4 0xFFFFFFFF ++ leBytes 4 gap)], need)
    else none

/-- The mirror of the three ring registers (R376). -/
def HostRegs.mirror (r : HostRegs) : List Out :=
  if r.shadowBase = 0 then [] else
    [.dma r.shadowBase (leBytes 4 r.reqHead ++ leBytes 4 r.rplTail ++ leBytes 4 r.evtTail)]

/-- Write all packets of a reply into the reply ring, or none of them. -/
def ringPutAll (base size head : Nat) : Nat → List (List Byte) → Option (List Out × Nat)
  | tail, [] => some ([], tail)
  | tail, p :: ps => match ringPut base size head tail p with
    | none => none
    | some (o, tail') => match ringPutAll base size head tail' ps with
      | none => none
      | some (o', t') => some (o' ++ o, t')

/-- One PCI Express reply into the reply ring, if the host block runs and there is room (R376, R377). -/
def State.ringReply (s : State) (r : Reply) : Option State :=
  let g := s.host.regs
  if g.running then
    match ringPutAll g.rplBase g.rplSize g.rplHead g.rplTail r.packets with
    | none => none
    | some (o, tl) =>
      let g' := { g with rplTail := tl, want := setBit g.want 0 true }
      some { s with sent := g'.mirror ++ o ++ s.sent, host := { s.host with regs := g' } }
  else none

/-- Ticks of `n` characters on RS-485: 10 bits at HostRs485Baud (R381). -/
def State.rsChars (s : State) (n : Rat) : Nat :=
  (n * 10 * 1000000000 / ([115200, 460800, 921600, 3000000].getD (s.rd P.HostRs485Baud 0) 115200 : Nat)).floor.toNat

/-- Send a reply to its destination (R360, R377, R379, R381). -/
def State.deliver (s : State) (r : Reply) : State :=
  match r.dest.tr with
  | .pcie =>
    if s.host.replyWait = [] then
      match s.ringReply r with
      | some s' => s'
      | none => { s with host := { s.host with replyWait := [r] } }
    else if s.host.regs.err && decide (256 ≤ s.host.replyWait.length) then s.inc P.HostRepliesLost 0
    else { s with host := { s.host with replyWait := s.host.replyWait ++ [r] } }
  | .rs485 =>
    let n : Rat := ((r.packets.map List.length).sum : Nat)
    let s := { s with host := { s.host with
      rsFrom := s.time.tick + s.rsChars (s.rf P.HostRs485Gap 0 - 1)
      rsTo := s.time.tick + s.rsChars (s.rf P.HostRs485Gap 0 + n + 1) } }
    { s with sent := (r.packets.map (Out.packet r.dest)).reverse ++ s.sent }
  | _ => { s with sent := (r.packets.map (Out.packet r.dest)).reverse ++ s.sent }

/-- The record of the last packet of a flow of a sender (R365); UDP keeps the 8 senders most recently active. -/
def HostState.record (h : HostState) (l : LastRec) : HostState :=
  let same (x : LastRec) : Bool := x.dest == l.dest && x.flow == l.flow
  let rec' := l :: h.last.filter (fun x => !same x)
  if l.dest.tr = .udp then
    let ud := (l.dest.sender :: h.udpRecent.filter (· ≠ l.dest.sender)).take 8
    { h with udpRecent := ud, last := rec'.filter fun x => x.dest.tr ≠ .udp || ud.contains x.dest.sender }
  else { h with last := rec' }

/-- End a packet with its reply (R360, R361, R365). -/
def State.reply (s : State) (q : Req) (status : Nat) (body : List Byte) : State :=
  let r : Reply := { dest := q.dest, gen := q.gen, flow := q.flow, seq := q.seq, opcode := q.opcode, inst := q.inst,
                     status := status, body := body, dup := false }
  let h := { s.host with running := s.host.running.filter (· ≠ q), broken := s.host.broken.filter (· ≠ q) }
  ({ s with host := h.record ⟨q.dest, q.flow, q.seq, q.opcode, q.inst, q.crc, r⟩ }).deliver r

/-- A REF block (Table 13.5). -/
def refBytes (detail wh val : Nat) : List Byte := leBytes 2 detail ++ leBytes 2 wh ++ leBytes 4 val

/-! ### Events -/

/-- The queue of a destination. -/
def HostState.queue (h : HostState) (d : Dest) : EvQueue :=
  (h.queues.find? (fun q => q.dest == d)).getD { dest := d, evs := [], dropped := 0, sentSeq := 0 }

def HostState.setQueue (h : HostState) (q : EvQueue) : HostState :=
  { h with queues := h.queues.filter (fun x => !(x.dest == q.dest)) ++ [q] }

/-- Queue an event for a destination; one that finds the queue full is dropped and counted (R373). -/
def State.enqueue (s : State) (d : Dest) (e : Ev) : State :=
  let q := s.host.queue d
  if q.evs.length < 256 then s.setHost (s.host.setQueue { q with evs := q.evs ++ [e] })
  else (s.setHost (s.host.setQueue { q with dropped := q.dropped + 1 })).inc P.HostEventsLost (trNum d.tr)

/-- The event of a code now, with the next device-wide number (Table 13.8). -/
def State.mkEvent (s : State) (code inst flow : Nat) (data : List Byte) : Ev :=
  { code := code, inst := inst, flow := flow, timeNs := s.lineNs, frac := s.lineFrac, level := evLevel code, cycle := s.time.cycle,
    evseq := if s.host.evseq = 0xFFFFFFFF then 1 else s.host.evseq + 1, data := data }

/-- Subscriptions that take an event (R372). -/
def Sub.takes (b : Sub) (e : Ev) : Bool := bitOf b.families (e.code / 256) && decide (b.level ≤ e.level)

/-- Raise a formed event: it is numbered, queued for every subscribed destination (R372), and kept in the fault log where
its level is 2 (R490). -/
def State.raiseEv (s : State) (e : Ev) : State :=
  let s := s.setHost { s.host with evseq := e.evseq }
  let s := if e.level = 2 then
      let s' := s.setHost { s.host with log := (e :: s.host.log).take 64 }
      if 64 ≤ s.host.log.length then s'.inc P.FaultLogLost 0 else s'
    else s
  (s.host.subs.filter (·.takes e)).foldl (fun s b => s.enqueue b.dest e) s

/-- Raise an event now. -/
def State.raise (s : State) (code inst : Nat) (data : List Byte) : State := s.raiseEv (s.mkEvent code inst 0 data)

/-- Raise an event where a condition holds. -/
def State.raiseIf (s : State) (c : Bool) (code inst : Nat) (data : List Byte) : State :=
  if c then s.raise code inst data else s

/-- The "command completed" event of a request (R371, Table 13.9): to the sender, past subscriptions; none with NOEVENT. -/
def State.complete (s : State) (q : Req) (id effc status detail wh val : Nat) : State :=
  if q.noEvent then s else
    let e := s.mkEvent E.commandCompleted q.inst q.flow
      (leBytes 4 q.seq ++ leBytes 1 q.flow ++ [0] ++ leBytes 2 q.opcode ++ leBytes 4 id ++ leBytes 4 effc ++
        leBytes 2 status ++ [0, 0] ++ refBytes detail wh val)
    (s.setHost { s.host with evseq := e.evseq }).enqueue q.dest e

/-! ### Requests and commits -/

/-- A refusal: status and the fields of its REF block. -/
structure Rsn where
  status : Nat
  detail : Nat := 0
  wh : Nat := 0
  val : Nat := 0
  deriving DecidableEq, Repr

/-- What an operation answers: accepted with a status and a body, or refused with nothing changed (R16). -/
inductive OpRes where
  | ok (status : Nat) (body : List Byte) (s : State)
  | no (r : Rsn)

/-- The first condition that fails (R511). -/
def firstBad : List (Bool × Rsn) → Option Rsn
  | [] => none
  | (c, r) :: l => if c then some r else firstBad l

/-- Refuse on the first condition that fails, else go on. -/
def guarded (l : List (Bool × Rsn)) (k : OpRes) : OpRes :=
  match firstBad l with
  | some r => .no r
  | none => k

/-- The rules that govern an opcode, or a parameter of ParamRead and ParamWrite, come after the packet chapter. -/
def laterRules (q : Req) : Bool :=
  decide (0x0B00 ≤ q.opcode) || ((q.opcode == 0x0101 || q.opcode == 0x0102) && decide (0xA000 ≤ fld q.body 0 2))

/-- A status that a request is refused with before 0x0202 of R359: class 03, and those of class 02 that rules before R359 give (R511). -/
def before359 (q : Req) (st : Nat) : Bool :=
  st / 256 == 3 || (st / 256 == 2 && decide (st < 0x0232) && st != 0x0203 && !(q.opcode == 0x0102 && st == 0x0212) &&
    (!laterRules q || [0x0210, 0x0211, 0x0212].contains st))

/-- A status that a request is refused with before 0x0240 of R469: class 03, and those of class 02 that rules before R469 give (R511). -/
def before469 (q : Req) (st : Nat) : Bool :=
  st / 256 == 3 || (st / 256 == 2 && decide (st < 0x0240) && (q.opcode / 256 != 0x0F || [0x0210, 0x0211].contains st))

/-- A refusal that holds beside those of the operation: the one that R511 puts first stands. -/
def OpRes.beside (c : Bool) (r : Rsn) (first : Nat → Bool) (x : OpRes) : OpRes :=
  if c then
    match x with
    | .no y => if first y.status then .no y else .no r
    | .ok _ _ _ => .no r
  else x

/-- Run a request: its instance and body length (R511 steps 3 and 4), then the operation; the reply ends the packet. -/
def runOp (t : Nat) (q : Req) (s : State) (instOk lenOk : Bool) (f : State → OpRes) : Res :=
  let s := s.advance t
  .next <|
    if !instOk then s.reply q 0x0302 (refBytes 0 0 0)
    else if !lenOk then s.reply q 0x0303 (refBytes 0 0 0)
    else match (f s).beside (s.host.broken.contains q) ⟨0x0202, 0, 0, 0⟩ (before359 q) with
      | .ok st b s' => s'.reply q st b
      | .no r => s.reply q r.status (refBytes r.detail r.wh r.val)

/-- The first cycle that meets the deadline of R32: cycle n + 2 while cycle n runs. -/
def State.nextTarget (s : State) : Nat := (s.time.cycle + 2) % 2 ^ 32

/-- A target is not too late: S(c - 1) still lies ahead (R32), compared modulo 2^32. -/
def State.inTime (s : State) (c : Nat) : Bool := decide (2 ≤ cycDiff s.time.cycle c)

/-- The target a TGT block names (Table 13.5), or the first cycle that meets the deadline. -/
def State.tgt (s : State) (b : List Byte) (off : Nat) : Nat :=
  if bitOf (fld b (off + 4) 1) 0 then fld b off 4 else s.nextTarget

/-- A TGT block asks for a cycle whose deadline has passed (0x0211, R32). -/
def State.late (s : State) (b : List Byte) (off : Nat) : Bool :=
  bitOf (fld b (off + 4) 1) 0 && !s.inTime (fld b off 4)

/-- A CR block (Table 13.5). -/
def crBytes (target id : Nat) : List Byte := leBytes 4 target ++ leBytes 4 id

/-- The COMMITID after one: counting from 1, wrapping, never 0. -/
def bumpId (id : Nat) : Nat := if id = 0xFFFFFFFF then 1 else id + 1

/-- Take a COMMITID. -/
def State.takeId (s : State) : Nat × State :=
  (s.par.nextId, { s with par := { s.par with nextId := bumpId s.par.nextId } })

/-- Accept a commit request for a target: 0x0102 with a CR block (R32). -/
def State.accept (s : State) (q : Req) (target : Nat) : OpRes :=
  .ok 0x0102 (crBytes target s.par.nextId)
    { s with par := { s.par with
        nextId := bumpId s.par.nextId
        commits := s.par.commits ++ [{ target := target, id := s.par.nextId, req := q }] } }

/-- A commit request: refusals of class 0x03xx, then the deadline (R32), then the other refusals, then acceptance. -/
def State.commitReq (s : State) (q : Req) (off : Nat) (c3 c2 : List (Bool × Rsn)) : OpRes :=
  guarded (c3 ++ (s.late q.body off, ⟨0x0211, 0, 0, 0⟩) :: c2) (s.accept q (s.tgt q.body off))

/-- A pending commit of an opcode and instance exists. -/
def State.hasCommit (s : State) (op inst : Nat) : Bool :=
  s.par.commits.any fun c => c.req.opcode == op && c.req.inst == inst

/-- An event row that names a unit: a unit the device does not have is a stop; otherwise the state at its tick. -/
def onUnit (t : Nat) (s : State) (ok : Bool) (f : State → State) : Res :=
  if ok then .next (f (s.advance t)) else .fault .noSuchUnit

/-- An event row without a unit. -/
def onEvent (t : Nat) (s : State) (f : State → State) : Res := .next (f (s.advance t))

/-- Take a free value (Config.freeValue). -/
def State.takeFree (s : State) (kind : Nat) : Int × State :=
  (Config.freeValue kind s.free, { s with free := s.free + 1 })

end Sys2Proof.Machine
end

