-- ==== Sys2Proof/Machine/OpTable.lean ====
section
/-!
DEFINITION. The opcode table of the command interpreter (Table 13.6 and the opcode lists of the chapters): generation 1
mark (R356), instances (R367) and body length where it is fixed (R368).
-/
namespace Sys2Proof.Machine

/-- The instances an opcode takes. `param`: those of the parameter; `scope`: those of SCOPE (R367). -/
inductive OpInst where
  | range (lo hi : Nat)
  | param
  | scope
  | faultScope
  deriving DecidableEq, Repr

/-- A row of the opcode table. -/
structure OpRow where
  op : Nat
  g1 : Bool
  inst : OpInst
  len : Option Nat
  deriving DecidableEq, Repr

def opRows0 : List OpRow := [
  ⟨0x0101, true, .param, some 4⟩,
  ⟨0x0102, true, .param, none⟩,
  ⟨0x0103, true, .range 0 0, none⟩,
  ⟨0x0104, false, .scope, some 4⟩,
  ⟨0x0105, false, .scope, some 12⟩,
  ⟨0x0106, false, .scope, some 4⟩,
  ⟨0x0107, false, .range 0 0, some 4⟩,
  ⟨0x0108, true, .range 0 0, some 4⟩,
  ⟨0x0109, true, .range 0 0, some 0⟩,
  ⟨0x010A, false, .range 0 0, some 4⟩,
  ⟨0x010B, false, .range 0 0, some 4⟩,
  ⟨0x0201, false, .range 0 0, some 0⟩,
  ⟨0x0202, false, .range 0 0, some 0⟩,
  ⟨0x0203, false, .range 0 7, none⟩,
  ⟨0x0204, false, .range 0 7, some 8⟩,
  ⟨0x0205, false, .range 1 63, some 0⟩,
  ⟨0x0206, false, .range 1 63, some 0⟩,
  ⟨0x0207, false, .range 0 0, none⟩,
  ⟨0x0401, true, .range 0 63, some 4⟩,
  ⟨0x0402, true, .range 0 63, some 0⟩,
  ⟨0x0501, true, .range 0 127, some 8⟩,
  ⟨0x0502, true, .range 0 127, some 8⟩,
  ⟨0x0510, false, .range 0 127, none⟩,
  ⟨0x0511, false, .range 0 127, some 8⟩,
  ⟨0x0512, false, .range 0 127, some 8⟩,
  ⟨0x0513, false, .range 0 127, some 4⟩,
  ⟨0x0601, true, .range 0 127, some 36⟩,
  ⟨0x0602, true, .range 0 127, some 36⟩,
  ⟨0x0603, true, .range 0 127, some 24⟩,
  ⟨0x0604, true, .range 0 127, some 12⟩,
  ⟨0x0605, true, .range 0 127, some 8⟩]

def opRows1 : List OpRow := [
  ⟨0x0606, false, .range 0 127, some 48⟩,
  ⟨0x0607, true, .range 0 127, some 8⟩,
  ⟨0x0608, false, .range 0 127, none⟩,
  ⟨0x0609, false, .range 0 127, some 8⟩,
  ⟨0x060A, false, .range 0 127, some 0⟩,
  ⟨0x0701, false, .range 0 15, some 36⟩,
  ⟨0x0702, false, .range 0 15, some 12⟩,
  ⟨0x0703, false, .range 0 255, none⟩,
  ⟨0x0704, false, .range 0 255, some 0⟩,
  ⟨0x0705, false, .range 0 255, some 0⟩,
  ⟨0x0706, false, .range 0 127, some 64⟩,
  ⟨0x0707, false, .range 0 127, some 24⟩,
  ⟨0x0708, false, .range 0 127, some 64⟩,
  ⟨0x0709, false, .range 0 15, some 8⟩,
  ⟨0x070A, false, .range 0 15, none⟩,
  ⟨0x070B, false, .range 0 15, some 8⟩,
  ⟨0x070C, false, .range 0 15, some 12⟩,
  ⟨0x070D, false, .range 0 15, some 8⟩,
  ⟨0x070E, false, .range 0 0, some 16⟩,
  ⟨0x070F, false, .range 0 0, some 0⟩,
  ⟨0x0801, false, .range 0 0, some 12⟩,
  ⟨0x0802, true, .range 0 0, some 4⟩,
  ⟨0x0803, false, .range 1 31, none⟩,
  ⟨0x0804, false, .range 1 31, some 16⟩,
  ⟨0x0805, false, .range 0 31, some 0⟩,
  ⟨0x0901, true, .range 0 0, some 0⟩,
  ⟨0x0902, true, .range 0 0, some 0⟩,
  ⟨0x0903, true, .range 0 0, some 0⟩,
  ⟨0x0A01, true, .range 0 0, some 0⟩,
  ⟨0x0A02, true, .range 0 0, some 12⟩,
  ⟨0x0A03, false, .range 0 0, some 12⟩]

def opRows2 : List OpRow := [
  ⟨0x0B01, false, .range 0 3, some 8⟩,
  ⟨0x0B02, false, .range 0 3, some 0⟩,
  ⟨0x0B03, false, .range 0 3, some 0⟩,
  ⟨0x0B04, false, .range 0 3, some 8⟩,
  ⟨0x0B05, false, .range 0 3, some 0⟩,
  ⟨0x0B06, false, .range 0 3, some 12⟩,
  ⟨0x0B07, false, .range 0 3, some 0⟩,
  ⟨0x0C01, false, .range 0 199, none⟩,
  ⟨0x0C02, false, .range 0 199, some 0⟩,
  ⟨0x0C03, false, .range 0 199, some 0⟩,
  ⟨0x0C04, false, .range 0 1, none⟩,
  ⟨0x0C05, false, .range 0 1, some 0⟩,
  ⟨0x0C20, false, .range 0 0, some 12⟩,
  ⟨0x0C21, false, .range 0 0, some 0⟩,
  ⟨0x0D01, false, .range 0 63, none⟩,
  ⟨0x0D02, false, .range 0 63, some 0⟩,
  ⟨0x0D03, false, .range 0 63, some 0⟩,
  ⟨0x0D04, false, .range 0 63, some 0⟩,
  ⟨0x0D05, false, .range 0 63, some 16⟩,
  ⟨0x0D06, false, .range 0 63, some 12⟩,
  ⟨0x0D07, false, .range 0 0, some 0⟩,
  ⟨0x0E01, false, .range 0 0, some 152⟩,
  ⟨0x0E02, true, .range 0 0, some 0⟩,
  ⟨0x0F01, false, .faultScope, some 4⟩,
  ⟨0x0F02, false, .range 0 0, some 4⟩,
  ⟨0x0F03, false, .range 0 15, some 12⟩,
  ⟨0x0F10, false, .range 0 0, none⟩,
  ⟨0x0F11, false, .range 0 0, some 4⟩,
  ⟨0x0F12, false, .range 0 0, some 4⟩]

/-- Every opcode of the device. -/
def opRows : List OpRow := opRows0 ++ opRows1 ++ opRows2

def opRow (op : Nat) : Option OpRow := opRows.find? (fun r => r.op == op)

/-- The instance of a request is one its opcode takes (0x0302 otherwise). -/
def instOk (op : Nat) (q : Req) : Bool :=
  match opRow op with
  | none => false
  | some r => match r.inst with
    | .range lo hi => decide (lo ≤ q.inst ∧ q.inst ≤ hi)
    | .param => true
    | .scope => match fld q.body 0 1 with
      | 0 => decide (q.inst < 128)
      | 1 => decide (q.inst < 16)
      | 2 => decide (q.inst = 0)
      | 3 => decide (q.inst = 0)
      | _ => true
    | .faultScope => decide (if fld q.body 0 1 = 0 then q.inst < 128 else q.inst = 0)

/-- The body of a request has the length its opcode fixes (0x0303 otherwise). -/
def lenOk (op : Nat) (q : Req) : Bool :=
  match opRow op with
  | none => false
  | some r => match r.len with
    | none => true
    | some n => q.body.length == n

/-- The image-writing opcodes and Identify are all that recovery accepts (R469). -/
def recoveryOp (op : Nat) : Bool := [0x0109, 0x0F10, 0x0F11].contains op

/-- Run a request of an opcode: the checks of R511 from the instance on, then the operation. -/
def runReq (op t : Nat) (q : Req) (s : State) (f : State → OpRes) : Res :=
  runOp t q s (instOk op q) (lenOk op q) fun s =>
    (f s).beside (s.boot.recovery && !recoveryOp op) ⟨0x0240, 0, 0, 0⟩ (before469 q)

end Sys2Proof.Machine
end

