-- ==== Sys2Proof/Machine/Elkob.lean ====
section
/-!
DEFINITION. The Elkob link controller (chapter 02): schedule checks, modes and switches, cold start, rings, redundancy and counting,
retire and join. The contents of slots and places belong to the feedback and modulation files.
-/
namespace Sys2Proof.Machine

def State.setLink (s : State) (l : LinkState) : State := { s with link := l }

/-- Instance number of a channel: 0 = A, 1 = B. -/
def chNum : Channel → Nat
  | .a => 0
  | .b => 1

/-- Instance of a node on a channel: +64 for B (R75). -/
def chInst (ch : Channel) (n : Nat) : Nat := n + 64 * chNum ch

/-- The identity block of an address. -/
def State.ident (s : State) (k : Nat) : List Byte := tabGet s.link.idents [] k

/-- An address is in use. -/
def State.addressed (s : State) (k : Nat) : Bool := decide (s.ident k ≠ [])

/-- An address is retired. -/
def State.retired (s : State) (k : Nat) : Bool := bitOf (s.rd P.ElkRetired 0) k

/-- Fields of the identity block (R512), most significant byte first. -/
def identAxes (b : List Byte) : Nat := fldBE b 5 1
def identPairs (b : List Byte) (i : Nat) : Nat := bitsOf (fldBE b 6 4) (4 * i + 3) (4 * i)
def identPairSum (b : List Byte) : Nat := ((List.range (min 8 (identAxes b))).map (identPairs b)).sum
def identCurFs (b : List Byte) : Rat := f32ToRat (fldBE b 0x0A 4)
def identVoltFs (b : List Byte) : Rat := f32ToRat (fldBE b 0x0E 4)
def identReady (b : List Byte) : Nat := fldBE b 0x12 2
def identSetup (b : List Byte) : Nat := fldBE b 0x14 2
def identEcho (b : List Byte) : Nat := fldBE b 0x17 1
def identFbTypes (b : List Byte) : Nat := fldBE b 0x18 2

/-- Node and cell axis of an axis (ElkAxisNode); node 0 = none. -/
def State.axisNode (s : State) (a : Nat) : Nat := bitsOf (s.rd P.ElkAxisNode a) 5 0
def State.cellAxis (s : State) (a : Nat) : Nat := bitsOf (s.rd P.ElkAxisNode a) 10 8

/-- The axes mapped to a node, ascending. -/
def State.nodeAxes (s : State) (k : Nat) : List Nat :=
  if k = 0 then [] else (List.range 128).filter fun a => s.axisNode a == k

/-- The axis of a cell axis of a node. -/
def State.axisOf (s : State) (k i : Nat) : Option Nat := (s.nodeAxes k).find? fun a => s.cellAxis a == i

/-- What the head knows of a node. -/
def State.node (s : State) (k : Nat) : NodeRec := tabGet s.link.nodes NodeRec.init k

def State.setNode (s : State) (k : Nat) (r : NodeRec) : State :=
  s.setLink { s.link with nodes := tabSet s.link.nodes NodeRec.init k r }

/-! ### Schedule checks (R47, R55, R56) -/

/-- The allotment of a frame of `n` code groups: 8.25 ns each, up to the next 20 ns (R43). -/
def allot (n : Nat) : Nat := (n * 825 + 1999) / 2000 * 20

def slotAllot (b : List Byte) : Nat := allot (18 + 14 * identAxes b)
def placeAllot (b : List Byte) : Nat := allot (10 + 6 * identPairSum b)

/-- Fields of a mode table (Table 2.7); times in ns. -/
def modeClen (m : List Byte) : Nat := fld m 0 1
def modeSvc (m : List Byte) : Option Nat := if fld m 2 2 = 0xFFFF then none else some (20 * fld m 2 2)
def modeSlot (m : List Byte) (k : Nat) : Nat := 20 * fld m (8 + 8 * (k - 1)) 2
def modePlace (m : List Byte) (k : Nat) : Nat := 20 * fld m (10 + 8 * (k - 1)) 2
def modePresent (m : List Byte) (k : Nat) : Bool := decide (1 ≤ k) && decide (k ≤ 63) && bitOf (fld m (12 + 8 * (k - 1)) 1) 0
def modeTurn (m : List Byte) (k : Nat) : Bool := bitOf (fld m (12 + 8 * (k - 1)) 1) 1

/-- The reserved bytes of a mode table are 0. -/
def modeReservedOk (m : List Byte) : Bool :=
  fld m 1 1 == 0 && fld m 4 4 == 0 && (List.range 63).all fun i => fld m (13 + 8 * i) 3 == 0

/-- Measured hop delays of a channel, hops 1 to N + 1, in ns; a hop listed in `gone` counts as 0. -/
def State.hops (s : State) (ch : Channel) (gone : List Nat) : List Rat :=
  (List.range (s.link.ringCount + 1)).map fun i =>
    if gone.contains (i + 1) then 0 else s.rf P.ElkHopDelay (chInst ch (i + 1))

/-- d(k), the delay from the head to node k; D is d(N + 1) (R43). -/
def delayTo (h : List Rat) (k : Nat) : Rat := (h.take k).sum

/-- A frame of the schedule on one channel: transmitter, segments, start and allotment end in stream time. -/
structure SchedFrame where
  tx : Nat
  node : Nat
  segLo : Nat
  segHi : Nat
  start : Rat
  stop : Rat

/-- All frames of a mode (R46). -/
def State.schedFrames (s : State) (m : List Byte) (h : List Rat) (nodes : List Nat) : List SchedFrame :=
  let n1 := s.link.ringCount + 1
  let svc := match modeSvc m with
    | none => []
    | some w => [{ tx := 0, node := 0, segLo := 1, segHi := n1, start := (w : Rat), stop := w + 640 },
                 { tx := 64, node := 0, segLo := 1, segHi := n1, start := (w : Rat) + 840, stop := w + 1480 }]
  [{ tx := 0, node := 0, segLo := 1, segHi := n1, start := 0, stop := 620 }] ++ svc ++
    (nodes.map fun k =>
      let st : Rat := (modeSlot m k : Rat) - delayTo h k
      { tx := k, node := k, segLo := k + 1, segHi := n1, start := st, stop := st + slotAllot (s.ident k) }) ++
    (nodes.map fun k =>
      { tx := 0, node := k, segLo := 1, segHi := k, start := modePlace m k, stop := (modePlace m k : Rat) + placeAllot (s.ident k) })

/-- Two frames meet R47. -/
def framesApart (a b : SchedFrame) : Bool :=
  decide (a.segHi < b.segLo) || decide (b.segHi < a.segLo) ||
    (let g : Rat := if a.tx = b.tx then 0 else 200
     decide (a.stop + g ≤ b.start) || decide (b.stop + g ≤ a.start))

/-- The first frame that breaks check 4, by node: in the order cycle start, window, slots, places, each by address, the first frame outside the
stream or that meets a later one; of two frames that meet, the higher address is named (DESIGN CHOICE, notes/assumptions/103.md). -/
def check4 (T : Nat) : List SchedFrame → Option Nat
  | [] => none
  | f :: r =>
    if decide (f.start < 0) || decide ((T : Rat) - 200 < f.stop) then some f.node
    else match r.find? (fun g => !framesApart f g) with
      | some g => some (max f.node g.node)
      | none => check4 T r

/-- The channels whose delays the last Discover phase measured, or that have closed and settled since, on which the checks of R56 are made; an
open ring and a stopped link keep what was measured. -/
def State.measuredChans (s : State) : List Channel :=
  (if bitOf s.link.measured 0 then [Channel.a] else []) ++ (if bitOf s.link.measured 1 then [Channel.b] else [])

/-- The channels whose ring is closed. -/
def State.closedChans (s : State) : List Channel :=
  (if bitOf (s.rd P.ElkRingState 0) 0 then [Channel.a] else []) ++ (if bitOf (s.rd P.ElkRingState 0) 1 then [Channel.b] else [])

/-- Checks 4 to 6 of R56 on one channel: the first that fails and its node. Nodes of `skip` send nothing, hops of `gone` count as 0. -/
def State.checks456 (s : State) (m : List Byte) (skip gone : List Nat) (ch : Channel) : Option (Nat × Nat) :=
  let T := s.cycleNs
  let h := s.hops ch gone
  let D := h.sum
  let nodes := (List.range 64).filter fun k => modePresent m k && !skip.contains k
  match check4 T (s.schedFrames m h nodes) with
  | some k => some (4, k)
  | none =>
    match nodes.find? (fun k => decide ((modePlace m k : Rat) <
        (modeSlot m k : Rat) + slotAllot (s.ident k) - delayTo h k + D + 240)) with
    | some k => some (5, k)
    | none =>
      match nodes.find? (fun k => decide ((if modeTurn m k then (T : Rat) / 2 else T) <
          (modePlace m k : Rat) + placeAllot (s.ident k) + delayTo h k + identSetup (s.ident k))) with
      | some k => some (6, k)
      | none => none

/-- Checks 2 and 3 of R56. -/
def State.checks23 (s : State) (m : List Byte) : Option (Nat × Nat) :=
  match (List.range 64).find? (fun k => decide (1 ≤ k) && (modePresent m k != (s.addressed k && !s.retired k))) with
  | some k => some (2, k)
  | none => match (List.range 64).find? (fun k => modePresent m k && decide (modeSlot m k < identReady (s.ident k))) with
    | some k => some (3, k)
    | none => none

/-- Checks 2 to 6; 4 to 6 on channel A before those on channel B (DESIGN CHOICE, notes/assumptions/103.md). -/
def State.checks2to6 (s : State) (m : List Byte) : Option (Nat × Nat) :=
  match s.checks23 m with
  | some x => some x
  | none => s.measuredChans.findSome? (s.checks456 m [] [])

/-- The checks of R56 as far as they are made now: check 1 and the format always, the rest once a Discover phase has run. A reserved byte
that is not 0 is answered as check 1 of node 0 (DESIGN CHOICE, notes/assumptions/76.md). -/
def State.modeCheck (s : State) (m : List Byte) : Option (Nat × Nat) :=
  if modeClen m ≠ s.rd P.SysCycleLength 0 ∨ !modeReservedOk m then some (1, 0)
  else if s.link.discovered then s.checks2to6 m else none

/-- The refusal of a mode that fails (0x0314: DETAIL check, WHERE node). -/
def schedRsn (x : Option (Nat × Nat)) : Bool × Rsn :=
  (x.isSome, ⟨0x0314, (x.getD (0, 0)).1, (x.getD (0, 0)).2, 0⟩)

/-- A mode of the store. -/
def State.mode (s : State) (m : Nat) : List Byte := tabGet s.link.modes [] m

/-- The mode in force, if the link runs. -/
def State.activeMode (s : State) : List Byte :=
  if s.rd P.ElkActiveMode 0 = 0xFF then [] else s.mode (s.rd P.ElkActiveMode 0)

/-! ### Opcodes -/

/-- ElkState values (Table 2.15). -/
abbrev elkRun : Nat := 7

/-- LINK_START (R64, R76, R475): Listen begins; while held after Discover, Download begins. -/
def State.setElk (s : State) (v : Nat) : State :=
  (s.wr P.ElkState 0 v).setLink { s.link with phaseTick := s.time.tick }

/-- End a running LinkStart with a final status. -/
def State.endStart (s : State) (status detail val : Nat) : State :=
  match s.link.startReq with
  | none => s
  | some q =>
    let s := s.setLink { s.link with startReq := none }
    s.complete q 0 (if status = 0 then s.time.cycle else 0xFFFFFFFF) status detail 0 val

/-- An announced mode switch ends without being made: final status 0x0205; a group's staged set is unlocked (R38, R371). -/
def State.dropAnn (s : State) : State :=
  match s.link.ann with
  | none => s
  | some a =>
    let s := s.setLink { s.link with ann := none }
    if a.id = 0 then s else
      let s := { s with par := { s.par with staged := s.par.staged.map fun (g : Staged) => if g.pending = some a.id then { g with pending := none } else g } }
      s.complete a.req a.id 0xFFFFFFFF 0x0205 0 0 0

/-- The exchanges of the service window end with the link: a load stays stored and completes with the next Download phase (R76), a join has
failed (R371). -/
def State.dropSvc (s : State) : State :=
  let ops := s.link.svcOut.map SvcSent.op ++ s.link.svc
  let loads := ops.filterMap fun o => match o with | .load q _ _ => some q | _ => none
  let joins := s.link.joining ++ ops.filterMap fun o => match o with | .join q k _ => some (q, k) | _ => none
  let s := s.setLink { s.link with svc := [], svcOut := [], joining := [], loading := [], loads := s.link.loading ++ s.link.loads ++ loads }
  joins.foldl (fun s x => s.complete x.1 0 0xFFFFFFFF 0x0503 0 x.2 0) s

/-- The link controller stops sending, with an ElkState: no mode is active, no ring is closed; every LinkStop that waits for it completes
(R67). -/
def State.linkOff (s : State) (st : Nat) : State :=
  let reqs := s.link.stopReq
  let s := ((((s.setElk st).wr P.ElkActiveMode 0 0xFF).wr P.ElkRingState 0 0).dropAnn).dropSvc
  let s := s.setLink { s.link with held := false, stopLeft := 0, stopReq := [] }
  reqs.foldl (fun s q => s.complete q 0 s.time.cycle 0 0 0 0) s

/-- The cold start fails in a phase (R64, R371). -/
def State.coldFail (s : State) (phase val : Nat) : State := (s.linkOff 9).endStart 0x0503 phase val

/-- The nodes that keep their address, ascending. -/
def State.cells (s : State) : List Nat := (List.range 64).filter s.addressed

/-- The Download phase begins: checks 2 to 6 of every stored mode (R56), and the exchanges that write the mode parts and ElkCommandLimit of
each node and ask whether it is ready (Table 2.9). -/
def State.enterDownload (s : State) : State :=
  let s := (s.setElk 5).setLink { s.link with
    held := false, phaseTick := s.time.tick, svcOut := [], loading := s.link.loads, loads := []
    svc := (s.cells.map fun k => (List.range 4).map (SvcOp.down k)).flatten }
  let sm := s.rd P.ElkStartMode 0
  if s.mode sm = [] ∨ (s.checks2to6 (s.mode sm)).isSome then s.coldFail 5 0
  else (List.range 8).foldl (fun s m =>
    if s.mode m = [] ∨ m = sm then s else
      match s.checks2to6 (s.mode m) with
      | none => s
      | some (c, k) =>
        let (out, keep) := s.link.loading.partition (·.inst == m)
        let s := (s.setLink { s.link with modes := tabSet s.link.modes [] m [], loading := keep }).raise E.scheduleMarginLost m
          (leBytes 4 m ++ leBytes 4 c ++ leBytes 4 k)
        out.foldl (fun s q => s.complete q 0 0xFFFFFFFF 0x0503 0 k 0) s) s

/-- A cold-start frame: PHASE 1 start, 2 address; COUNT 0 from the head (Table 2.6 and the text after it). -/
def State.coldFrame (s : State) (phase : Nat) : List Byte :=
  let b := beBytes 1 phase ++ beBytes 8 (s.rd P.SysUnitId 0) ++ [0]
  b ++ leBytes 4 (crc32 b)

/-- A cold-start frame on both channels. -/
def State.sendCold (s : State) (phase : Nat) : State := (s.frame .coldStart 0 (s.coldFrame phase)).frame .coldStart 1 (s.coldFrame phase)

/-- The start frames that have left since, one every 10 µs on both channels while the Start phase runs (Table 2.9). -/
def State.sendStarts (s : State) : State :=
  if s.rd P.ElkState 0 ≠ 2 then s else
    let n := (s.time.tick - s.link.phaseTick) / 10000
    let f := s.coldFrame 1
    let at_ (k : Nat) : Nat := (s.time.lt - (s.time.tick - (s.link.phaseTick + 10000 * k)) * s.rd P.NtIncrement 0) / 2 ^ 24
    let new := (List.range (n - s.link.coldSent)).flatMap fun j =>
      [Out.frameAt (at_ (n - j)) .coldStart 1 f, Out.frameAt (at_ (n - j)) .coldStart 0 f]
    { s with sent := new ++ s.sent, link := { s.link with coldSent := n } }

/-- LINK_START. -/
def execLinkStart (t : Nat) (q : Req) (s : State) : Res :=
  runReq 0x0201 t q s fun s =>
    let st := s.rd P.ElkState 0
    guarded [(!(st == 0 || st == 8 || st == 9 || (st == 4 && s.link.held)), ⟨0x0213, 0, 0, 0⟩)] <|
      let s1 := s.setLink { s.link with startReq := some q }
      .ok 0x0101 [] (if st = 4 then s1.enterDownload else
        (s1.setLink { s1.link with foreignTick := s.time.tick, held := false }).setElk 1)

/-- LINK_STOP (R67). -/
def execLinkStop (t : Nat) (q : Req) (s : State) : Res :=
  runReq 0x0202 t q s fun s =>
    let st := s.rd P.ElkState 0
    if st = 0 ∨ st = 8 ∨ st = 9 then .ok 0 [] (s.setElk 0)
    else
      let s1 := s.sendStarts.endStart 0x0205 st 0
      if 4 ≤ st then .ok 0x0101 [] (s1.setLink { s1.link with
        stopReq := s1.link.stopReq ++ [q], stopLeft := if s1.link.stopLeft = 0 then 17 else s1.link.stopLeft, held := false })
      else .ok 0x0101 [] ((s1.linkOff 0).complete q 0 s.time.cycle 0 0 0 0)

/-- The mode part of a node: 16 bytes, the fields of Table 2.11 in its order, each in the width the mode table gives it, then zeros; zeros
for a mode that is not loaded (DESIGN CHOICE, notes/assumptions/77.md). -/
def modePart (m : List Byte) (k : Nat) : List Byte :=
  beBytes 2 (fld m (8 + 8 * (k - 1)) 2) ++ beBytes 2 (fld m (10 + 8 * (k - 1)) 2) ++ slice m (12 + 8 * (k - 1)) 1 ++
    beBytes 2 (fld m 2 2) ++ slice m 0 1 |> padTo 16

/-- A service request frame (Table 2.6); a read names in LEN the bytes it asks for and carries none (DESIGN CHOICE,
notes/assumptions/78.md). -/
def svcFrame (op node seq addr len : Nat) (data : List Byte) : List Byte :=
  let b := beBytes 1 (0x80 + op) ++ beBytes 1 node ++ beBytes 1 seq ++ [0] ++ beBytes 2 addr ++ beBytes 1 len ++ data
  b ++ leBytes 4 (crc32 b)

/-- Four mode parts of a node, from mode 4 × h on. -/
def State.modeParts (s : State) (h k : Nat) : List Byte := ((List.range 4).map fun i => modePart (s.mode (4 * h + i)) k).flatten

/-- The node of an exchange. -/
def SvcOp.node : SvcOp → Nat
  | .load _ _ k => k
  | .join _ k _ => k
  | .identify k => k
  | .down k _ => k
  | .ack k => k
  | .counters k => k

/-- The request of an exchange. -/
def State.svcRequest (s : State) (op : SvcOp) (n : Nat) : List Byte :=
  match op with
  | .load _ m k => svcFrame 2 k n (0x100 + 16 * m) 16 (modePart (s.mode m) k)
  | .join _ k st => if st = 0 then svcFrame 3 k n 0 0 [] else svcFrame 2 k n (0x100 + 64 * (st - 1)) 64 (s.modeParts (st - 1) k)
  | .identify k => svcFrame 3 k n 0 0 []
  | .down k st =>
    if st < 2 then svcFrame 2 k n (0x100 + 64 * st) 64 (s.modeParts st k)
    else if st = 2 then svcFrame 2 k n 0x200 1 (beBytes 1 (s.rd P.ElkCommandLimit k)) else svcFrame 4 k n 0 0 []
  | .ack k => svcFrame 4 k n 0 0 []
  | .counters k => svcFrame 1 k n 0x300 16 []

/-- The start of the service window of this cycle: that of the active mode, and stream time 1,000 ns in a cold start before a mode is active
(R54, Table 2.9). -/
def State.svcWindow (s : State) : Option Nat :=
  if s.rd P.ElkActiveMode 0 ≠ 0xFF then modeSvc s.activeMode
  else if 4 ≤ s.rd P.ElkState 0 ∧ s.rd P.ElkState 0 ≤ 6 then some 1000 else none

/-- The ring delay that a window is formed with: in the Discover phase what the own frames have shown so far, then the sum of the hops. -/
def State.windowDelay (s : State) (ch : Channel) : Rat :=
  if s.rd P.ElkState 0 ≤ 4 then s.rf P.ElkRingDelay (chNum ch) else (s.hops ch []).sum

/-- The service window of a cycle: the request at the front leaves on both channels at S(n) + W; a request whose reply has not come in its
window is sent again (DESIGN CHOICE, notes/assumptions/78.md). -/
def State.svcSend (s : State) : State :=
  match s.svcWindow with
  | none => s
  | some w =>
    let D : Rat := max (s.windowDelay .a) (s.windowDelay .b)
    let lost (x : SvcSent) : Bool := decide ((x.replyAt : Rat) + D + 80 < s.time.lastS)
    let l := s.link
    let s := s.setLink { l with svc := (l.svcOut.filter lost).map SvcSent.op ++ l.svc, svcOut := l.svcOut.filter fun x => !lost x }
    match s.link.svc with
    | [] => s
    | op :: r =>
      let n := (s.link.svcSeq + 1) % 256
      let f := s.svcRequest op n
      let x : SvcSent := { op := op, seq := n, cycle := s.time.cycle, replyAt := s.time.nextS + w + 840 }
      ((s.setLink { s.link with svcSeq := n, svc := r, svcOut := s.link.svcOut ++ [x] }).out (.frameAt (s.time.lastS + w) .service 0 f)).out
        (.frameAt (s.time.lastS + w) .service 1 f)

/-- The present nodes of a mode, ascending. -/
def modeNodes (m : List Byte) : List Nat := (List.range 64).filter (modePresent m)

/-- MODE_LOAD (R55 to R57, R76). -/
def execModeLoad (t : Nat) (q : Req) (s : State) : Res :=
  runReq 0x0203 t q s fun s =>
    if q.body.length ≠ 512 then .no ⟨0x0303, 0, 0, 0⟩ else
    let run := s.rd P.ElkState 0 = elkRun
    let inUse := s.rd P.ElkActiveMode 0 == q.inst ||
      (match s.link.ann with | some a => a.mode == q.inst | none => false)
    guarded [schedRsn (s.modeCheck q.body), (inUse, ⟨0x0216, 0, 0, 0⟩)] <|
      let s1 := s.setLink { s.link with modes := tabSet s.link.modes [] q.inst q.body }
      match (if run ∧ (modeSvc s.activeMode).isSome then (modeNodes q.body)[0]? else none) with
      | some k => .ok 0x0101 [] (s1.setLink { s1.link with svc := s1.link.svc ++ [.load q q.inst k] })
      | none => .ok 0x0101 [] (s1.setLink { s1.link with loads := s1.link.loads ++ [q] })

/-- MODE_CHECK (R76). -/
def execModeCheck (t : Nat) (q : Req) (s : State) : Res :=
  runReq 0x0207 t q s fun s =>
    if q.body.length ≠ 512 then .no ⟨0x0303, 0, 0, 0⟩ else
    guarded [schedRsn (s.modeCheck q.body)] (.ok 0 [] s)

/-- The conditions of a mode switch to mode `m` at a cycle (R58, R76). -/
def State.switchBad (s : State) (m : Nat) (late : Bool) : List (Bool × Rsn) :=
  [(late, ⟨0x0211, 0, 0, 0⟩), (s.link.ann.isSome, ⟨0x0215, 0, 0, 0⟩), (decide (s.mode m = []), ⟨0x0247, 0, 0, 0⟩),
   (decide (s.rd P.ElkState 0 ≠ elkRun), ⟨0x0214, 0, 0, 0⟩)]

/-- The target of a mode switch: a request must come before S(c - 9) (R58). -/
def State.switchTgt (s : State) (b : List Byte) (off : Nat) : Nat × Bool :=
  if bitOf (fld b (off + 4) 1) 0 then (fld b off 4, decide (cycDiff s.time.cycle (fld b off 4) < 10))
  else ((s.time.cycle + 10) % 2 ^ 32, false)

/-- MODE_SWITCH. -/
def execModeSwitch (t : Nat) (q : Req) (s : State) : Res :=
  runReq 0x0204 t q s fun s =>
    let (c, late) := s.switchTgt q.body 0
    guarded (s.switchBad q.inst late) <|
      let (id, s1) := s.takeId
      let a : Ann := { mode := q.inst, cycle := c, id := id, req := q, acks := 0, decided := none, missing := [], group := none }
      .ok 0x0102 (crBytes c id) (s1.setLink { s1.link with ann := some a })

/-- NODE_RETIRE (R69, R76): the RETIRED bit is set from the next cycle-start frame. -/
def execNodeRetire (t : Nat) (q : Req) (s : State) : Res :=
  runReq 0x0205 t q s fun s =>
    let k := q.inst
    let run := decide (s.rd P.ElkState 0 = elkRun)
    guarded [schedRsn (if run then s.measuredChans.findSome? (s.checks456 s.activeMode (k :: (List.range 64).filter s.retired) [k]) else none),
        ((s.nodeAxes k).any (fun a => s.rd P.AxisState a != 0), ⟨0x0217, 0, 0, 0⟩),
        (s.link.ann.isSome, ⟨0x0215, 0, 0, 0⟩), (!run, ⟨0x0214, 0, 0, 0⟩)]
      (s.accept q ((s.time.cycle + 1) % 2 ^ 32))

/-- r(k): the retired addresses below k (R70). -/
def State.retiredBelow (s : State) (k : Nat) : Nat := ((List.range k).filter s.retired).length

/-- NODE_JOIN (R71, R76). Where the active mode has no service window the exchanges wait for a mode that has one (DESIGN CHOICE,
notes/assumptions/78.md). -/
def execNodeJoin (t : Nat) (q : Req) (s : State) : Res :=
  runReq 0x0206 t q s fun s =>
    let a := q.inst
    let h (k : Nat) : Int := (k : Int) - 1 - s.retiredBelow k
    guarded [((List.range a).any (fun b => s.retired b && h b == h a), ⟨0x0246, 0, 0, 0⟩),
        (decide (s.rd P.ElkState 0 ≠ elkRun), ⟨0x0214, 0, 0, 0⟩)]
      (.ok 0x0101 [] (s.setLink { s.link with svc := s.link.svc ++ [.join q a 0] }))

/-! ### Cold start -/

/-- The limit of a cold-start phase in ticks (Table 2.9). -/
def State.phaseLimit (s : State) (st : Nat) : Nat :=
  match st with
  | 1 => 50000000
  | 2 => 50000000
  | 3 => 1000000
  | 4 => 100000000
  | 5 => 100000000
  | _ => 73 * s.cycleNs + 10000000

/-- The key age of an axis in a mode (R160). -/
def State.keyAge (s : State) (m : List Byte) (a : Nat) : Nat :=
  let k := s.axisNode a
  let ok (ch : Channel) : Bool :=
    let h := s.hops ch []
    decide ((modeSlot m k : Rat) + slotAllot (s.ident k) + h.sum - delayTo h k + 240 ≤ (s.cycleNs : Rat) - 2000)
  if modePresent m k && s.measuredChans.all ok then 1 else 2

/-- ElkAxisTurnaround and GmKeyAge of an axis follow the active mode and the axis's node. -/
def State.turnAxis (s : State) (m : List Byte) (a : Nat) : State :=
  let was := s.rb P.ElkAxisTurnaround a
  let s := (s.wr P.ElkAxisTurnaround a (if modePresent m (s.axisNode a) && modeTurn m (s.axisNode a) then 1 else 0)).wr P.GmKeyAge a (s.keyAge m a)
  if was && !s.rb P.ElkAxisTurnaround a && decide (s.axisNode a ≠ 0) then
    { s with gm := tabMod s.gm GmRec.init a fun r => { r with longAt := s.time.cycle + 1 } }
  else s

def State.applyTurn (s : State) (m : List Byte) : State := (List.range 128).foldl (fun s a => s.turnAxis m a) s

/-- The Sync phase announces the start mode, and each node acknowledges it by poll: COMMITID 0 marks a switch that no request asked for
(R59, R64). -/
def State.announceStart (s : State) : State :=
  let q : Req := { dest := ⟨.usb, 0⟩, arrival := 0, gen := 2, more := false, noEvent := true, flow := 0, seq := 0, opcode := 0x0201, inst := 0
                   timeout := 0, crc := 0, body := [] }
  let a : Ann := { mode := s.rd P.ElkStartMode 0, cycle := (s.time.cycle + 9) % 2 ^ 32, id := 0, req := q, acks := 0, decided := none
                   missing := [], group := none }
  s.setLink { s.link with ann := some a, svc := s.cells.map SvcOp.ack, svcOut := [] }

/-- The Discover phase ends: identities and delays are recorded, refused cells keep no address (R65, R475, R476). The nodes that have not
answered are those that refused their address. -/
def State.endDiscover (s : State) (i : ColdInfo) : State :=
  let ok (k : Nat) (b : List Byte) : Bool :=
    let e := s.rd P.ElkExpectedIdentity k
    e == 0 || e == fldBE b 0 4
  let answered := s.link.found
  let s := s.raiseIf i.mismatch E.addressMismatch 0 []
  let s := (answered.filter fun x => !ok x.1 x.2).foldl (fun s x => s.raise E.identityMismatch x.1 []) s
  let good := answered.filter fun x => ok x.1 x.2
  let ids : Tab (List Byte) := good.foldl (fun t x => tabSet t [] x.1 x.2) []
  let s := s.setLink { s.link with
    discovered := true, measured := s.rd P.ElkRingState 0 % 4, nodes := [], idents := ids, svc := [], svcOut := [] }
  let s := s.wr P.ElkCellCount 0 good.length
  let put (ch : Channel) (hs : List Nat) (s : State) : State :=
    let s := (List.range (s.link.ringCount + 1)).foldl (fun s j =>
      s.wrF P.ElkHopDelay (chInst ch (j + 1)) (mkRat (hs.getD j 0) 65536)) s
    s.wrF P.ElkRingDelay (chNum ch) (mkRat ((hs.take (s.link.ringCount + 1)).sum) 65536)
  let s := put .b i.hopsB (put .a i.hopsA s)
  if s.rb P.ElkHoldAfterDiscover 0 then (s.setLink { s.link with held := true }).endStart 0 4 0 else s.enterDownload

/-- The unit ID of the head that a cold-start frame of a phase, or a cycle-start frame, names; none where the frame is not valid: its length
or its check value is wrong (R49, Table 2.2). -/
def coldHead (phase : Nat) (b : List Byte) : Option Nat :=
  if b.length = 14 ∧ fld b 10 4 = crc32 (b.take 10) ∧ fld b 0 1 / 32 = 0 ∧ fld b 0 1 % 8 = phase then some (fldBE b 1 8) else none
def startHead (b : List Byte) : Option Nat :=
  if b.length = 73 ∧ fld b 69 4 = crc32 (b.take 69) ∧ fld b 0 1 / 32 = 1 then some (fldBE b 1 8) else none

/-- The own start frames have come back without a gap for 1 ms up to now: each within 20 µs of the one before it (R64). -/
def State.startsBack (s : State) (r : StartRun) : Bool :=
  coldHead 1 r.bytes == some (s.rd P.SysUnitId 0) && (match r.ticks with
    | [] => false
    | t0 :: _ => decide (s.link.phaseTick ≤ t0) && decide (t0 + 1000000 ≤ s.time.tick)) &&
    (r.ticks.zip (r.ticks.tail ++ [s.time.tick])).all fun x => decide (x.1 ≤ x.2 ∧ x.2 < x.1 + 20000)

/-- The count that the own address frames bring back, where all that are valid bring the same (R64). -/
def State.addrCount (s : State) (fs : List (List Byte)) : Option Nat :=
  match (fs.filter fun b => coldHead 2 b == some (s.rd P.SysUnitId 0)).map fun b => fld b 9 1 with
  | [] => none
  | n :: r => if r.all (· == n) then some n else none

/-- The channels a cold start requires: both, or those that closed while ElkAllowSingle is 1 (R64). -/
def State.coldChans (s : State) : List Channel := if s.rb P.ElkAllowSingle 0 then s.closedChans else [.a, .b]

/-- Both values of D have agreed for 64 cycles up to this one or the last, and every node has answered, or refused its address (Table 2.9). At
least one ring is required. -/
def State.cellsFound (s : State) (refused : Bool) : Bool :=
  s.coldChans != [] && s.coldChans.all (fun ch => decide (64 ≤ s.link.agree.getD (chNum ch) 0) && decide (cycDiff (s.link.lastRet.getD (chNum ch) 0) s.time.cycle ≤ 1)) &&
    (refused || (List.range s.link.ringCount).all fun j => tabGet s.link.found [] (j + 1) != [])

/-- The mode is active and every node has delivered valid slots on each required channel for 64 consecutive cycles up to this one or the
last (Table 2.9). -/
def State.cellsSynced (s : State) : Bool :=
  s.rd P.ElkActiveMode 0 == s.rd P.ElkStartMode 0 && s.coldChans != [] && s.cells.all fun k => s.coldChans.all fun ch =>
    decide (64 ≤ (s.node k).run.getD (chNum ch) 0) && decide (cycDiff ((s.node k).runAt.getD (chNum ch) 0) (s.time.cycle + 1) ≤ 1)

/-- COLD_START_PHASE_END: the phase has met its end condition (Table 2.9); where it has not, or LinkStop is ending the link, nothing
happens. -/
def execColdStartPhaseEnd (t : Nat) (i : ColdInfo) (s : State) : Res :=
  onEvent t s fun s =>
    if 0 < s.link.stopLeft then s else
    let single := s.rb P.ElkAllowSingle 0
    let now := s.time.tick
    match s.rd P.ElkState 0 with
    | 1 => if s.link.foreignTick + 1000000 ≤ now then ((s.setLink { s.link with coldSent := 0 }).sendCold 1).setElk 2 else s
    | 2 =>
      let a := s.startsBack i.startA
      let b := s.startsBack i.startB
      if (a && b) || (single && (a || b)) then
        let s := s.sendStarts.wr P.ElkRingState 0 ((if a then 1 else 0) + (if b then 2 else 0))
        (((s.setLink { s.link with lastRet := [s.time.cycle, s.time.cycle] }).sendCold 2).sendCold 2).sendCold 2 |>.setElk 3
      else s
    | 3 =>
      let a := s.addrCount i.addrA
      let b := s.addrCount i.addrB
      match (if bitOf (s.rd P.ElkRingState 0) 0 then a else b) with
      | none => s
      | some n =>
        if (s.rd P.ElkRingState 0 ≠ 3 ∨ a = b) ∧ n ≤ 63 then
          (s.setLink { s.link with
            ringCount := n, found := [], agree := [0, 0], svcOut := [], svc := (List.range n).map fun j => .identify (j + 1) }).setElk 4
        else s
    | 4 => if s.link.held || !s.cellsFound i.mismatch then s else s.endDiscover i
    | 5 =>
      if s.link.svc ≠ [] ∨ s.link.svcOut ≠ [] then s else
      let ls := s.link.loading
      let s := ((s.setLink { s.link with loading := [] }).setElk 6).announceStart
      ls.foldl (fun s q => s.complete q 0 s.time.cycle 0 0 0 0) s
    | 6 => if s.cellsSynced then ((s.setLink { s.link with svc := [], svcOut := [], recheckAt := s.time.cycle }).setElk elkRun).endStart 0 0 0 else s
    | _ => s

/-- COLD_START_PHASE_TIMEOUT (R64). The 4 bytes of VALUE (R371, Table 13.5) hold the low 32 bits of the last foreign HEADID seen in Listen
(DESIGN CHOICE, notes/assumptions/104.md). -/
def execColdStartPhaseTimeout (t : Nat) (s : State) : Res :=
  onEvent t s fun s =>
    let st := s.rd P.ElkState 0
    if 1 ≤ st ∧ st ≤ 6 ∧ !s.link.held ∧ s.link.stopLeft = 0 ∧ s.link.phaseTick + s.phaseLimit st ≤ s.time.tick then
      s.sendStarts.coldFail st (if st = 1 then s.link.foreignId % 2 ^ 32 else 0)
    else s

/-- FOREIGN_HEAD_FRAME (R64, R66): a valid start frame of another head keeps Listen from ending; from the Start phase on, the head with the
higher ID falls silent on a valid cold-start or cycle-start frame of another. -/
def execForeignHeadFrame (t : Nat) (b : List Byte) (s : State) : Res :=
  onEvent t s fun s =>
    let st := s.rd P.ElkState 0
    let own := s.rd P.SysUnitId 0
    if st = 1 then
      match coldHead 1 b with
      | some id => if id = own then s else s.setLink { s.link with foreignTick := s.time.tick, foreignId := id }
      | none => s
    else match ((coldHead 1 b).or (coldHead 2 b)).or (startHead b) with
      | some id =>
        if 2 ≤ st ∧ st ≤ 7 ∧ id < own then ((s.sendStarts.endStart 0x0503 st 0).linkOff 8).raise E.foreignHead 0 [] else s
      | none => s

/-! ### Rings, delays, counters -/

/-- The identity of node 1 as this Discover phase has found it, else as recorded. -/
def State.firstIdent (s : State) : List Byte := if tabGet s.link.found [] 1 = [] then s.ident 1 else tabGet s.link.found [] 1

/-- h_1 from the echo round trips of a channel: half their mean less the turnaround that node 1 declares, in ns (R44). The head's own
forwarding delay counts as 0 (DEDUCED, notes/assumptions/79.md). Before 16 round trips have been received the mean is that of those held so
far (DESIGN CHOICE, notes/assumptions/105.md). -/
def State.echoHop (s : State) (l : List Nat) : Rat :=
  max 0 ((mkRat l.sum (65536 * l.length) - identEcho s.firstIdent) / 2)

/-- ECHO_MARKER_RECEIVED: `trip` is the time from /S/ to /E/ in 2^-16 ns; the outgoing cable delay is averaged over 16 cycles (R44). -/
def execEchoMarkerReceived (t : Nat) (ch : Channel) (trip : Nat) (s : State) : Res :=
  onEvent t s fun s =>
    let c := chNum ch
    let l := (trip :: s.link.echo.getD c []).take 16
    let s := s.setLink { s.link with echo := s.link.echo.set c l }
    -- the turnaround is known once node 1 has been identified
    if s.firstIdent = [] then s else s.wrF P.ElkHopDelay (chInst ch 1) (s.echoHop l)

/-- d(k) and D of a channel as measured (R43). -/
def State.delayOf (s : State) (ch : Channel) (k : Nat) : Rat := delayTo (s.hops ch []) k
def State.ringDelay (s : State) (ch : Channel) : Rat := (s.hops ch []).sum

/-- A time lies within 80 ns of the expected one (R48, R9). -/
def inWindow (x : Rat) : Bool := decide (-80 ≤ x) && decide (x ≤ 80)

/-- The own cycle-start frame has come back valid (R49): length, check value, type, channel and head, the count of this cycle or of one just
before it, and its window unless the channel is open or settles. `trip` is its time around the ring in 2^-16 ns. -/
def State.returnValid (s : State) (ch : Channel) (trip : Nat) (b : List Byte) : Bool :=
  let c := chNum ch
  b.length == 73 && fld b 69 4 == crc32 (b.take 69) && fld b 0 1 / 16 == 2 + c && fldBE b 1 8 == s.rd P.SysUnitId 0 &&
    decide (0 ≤ cycDiff (fldBE b 9 4) s.time.cycle) && decide (cycDiff (fldBE b 9 4) s.time.cycle ≤ 3) &&
    (!bitOf (s.rd P.ElkRingState 0) c || bitOf (s.rd P.ElkRingState 0) (c + 2) || decide (s.rd P.ElkState 0 ≤ 4) ||
      inWindow (mkRat trip 65536 - s.ringDelay ch))

/-- A run of consecutive cycles goes on or starts anew. -/
def runOn (yes : Bool) (prev now n cap : Nat) : Nat := if !yes then 0 else if cycDiff prev now ≤ 1 then min cap (n + 1) else 1

/-- CYCLE_START_FRAME_RETURNED: own time around the ring and the path delay field (R44, R68). The last hop is what is left of D. -/
def execCycleStartFrameReturned (t : Nat) (ch : Channel) (trip : Nat) (b : List Byte) (s : State) : Res :=
  onEvent t s fun s =>
    if !s.returnValid ch trip b then s else
    let c := chNum ch
    let D := mkRat trip 65536
    let far := decide (absR (D - (fldBE b 35 2 : Nat)) > 20)
    let last := s.link.lastRet.getD c 0
    let s := (s.setLink { s.link with
      lastRet := s.link.lastRet.set c s.time.cycle
      disagree := s.link.disagree.set c (runOn far last s.time.cycle (s.link.disagree.getD c 0) 17)
      agree := s.link.agree.set c (runOn (!far) last s.time.cycle (s.link.agree.getD c 0) 64) }).wrF P.ElkRingDelay c D
    if 5 ≤ s.rd P.ElkState 0 then
      s.wrF P.ElkHopDelay (chInst ch (s.link.ringCount + 1)) (max 0 (D - s.delayOf ch s.link.ringCount))
    else s

/-- RING_DELAY_DISAGREEMENT: after 16 consecutive cycles, once (R44). -/
def execRingDelayDisagreement (t : Nat) (ch : Channel) (s : State) : Res :=
  onEvent t s fun s =>
    let c := chNum ch
    if s.link.disagree.getD c 0 = 16 then
      (s.setLink { s.link with disagree := s.link.disagree.set c 17 }).raise E.ringDelayDisagreement c []
    else s

/-- The head sends cycle-start frames: from the Discover phase on. -/
def State.linkSending (s : State) : Bool := decide (4 ≤ s.rd P.ElkState 0) && decide (s.rd P.ElkState 0 ≤ 7)

/-- RING_OPEN: no own frame back for 4 consecutive cycles (R68). -/
def execRingOpen (t : Nat) (ch : Channel) (s : State) : Res :=
  onEvent t s fun s =>
    let c := chNum ch
    if s.linkSending && bitOf (s.rd P.ElkRingState 0) c && decide (4 ≤ cycDiff (s.link.lastRet.getD c 0) s.time.cycle) then
      ((s.wrBit P.ElkRingState 0 c false).wrBit P.ElkRingState 0 (c + 2) false).raise
        (if c = 0 then E.ringOpenA else E.ringOpenB) c []
    else s

/-- RING_CLOSED: sending resumes with 64 settling cycles (R68). -/
def execRingClosed (t : Nat) (ch : Channel) (s : State) : Res :=
  onEvent t s fun s =>
    let c := chNum ch
    if s.linkSending && !bitOf (s.rd P.ElkRingState 0) c then
      let s := (s.wrBit P.ElkRingState 0 c true).wrBit P.ElkRingState 0 (c + 2) true
      s.setLink { s.link with
        lastRet := s.link.lastRet.set c s.time.cycle, settleTo := s.link.settleTo.set c ((s.time.cycle + 64) % 2 ^ 32) }
    else s

/-- The delays of a channel that no Discover phase has measured: h_1 from the echoes, the rest of the measured D in equal parts on the hops
behind it, until the nodes report theirs (DESIGN CHOICE, notes/assumptions/79.md). From then on the checks of R56 are made on it as well. -/
def State.lateChannel (s : State) (ch : Channel) : State :=
  let c := chNum ch
  let n := s.link.ringCount
  if bitOf s.link.measured c ∨ !s.link.discovered ∨ n = 0 then s else
    let rest : Rat := max 0 (s.rf P.ElkRingDelay c - s.rf P.ElkHopDelay (chInst ch 1)) / n
    (List.range n).foldl (fun s i => s.wrF P.ElkHopDelay (chInst ch (i + 2)) rest)
      (s.setLink { s.link with measured := setBit s.link.measured c true })

/-- RING_SETTLED: 64 cycles after closing (R68). -/
def execRingSettled (t : Nat) (ch : Channel) (s : State) : Res :=
  onEvent t s fun s =>
    let c := chNum ch
    if bitOf (s.rd P.ElkRingState 0) (c + 2) && decide (0 ≤ cycDiff (s.link.settleTo.getD c 0) s.time.cycle) then
      (s.wrBit P.ElkRingState 0 (c + 2) false).lateChannel ch
    else s

/-- SCHEDULE_RECHECK: once in 1,024 cycles, checks 4 to 6 on each channel; nothing else changes (R56). -/
def execScheduleRecheck (t : Nat) (s : State) : Res :=
  onEvent t s fun s =>
    if s.rd P.ElkState 0 = elkRun ∧ 1024 ≤ cycDiff s.link.recheckAt s.time.cycle then
      let s := s.setLink { s.link with recheckAt := s.time.cycle }
      s.measuredChans.foldl (fun s ch =>
        s.raiseIf (s.checks456 s.activeMode ((List.range 64).filter s.retired) [] ch).isSome E.scheduleMarginLost (chNum ch) []) s
    else s

/-- The counters of a node are read through the service window, once in 1,024 cycles (R75, Table 2.11). -/
def State.counterPoll (s : State) (node : Nat) : State :=
  let r := s.node node
  if s.rd P.ElkState 0 = elkRun ∧ s.addressed node ∧ !s.retired node ∧ (r.polled = 0 ∨ 1024 ≤ cycDiff r.polled (s.time.cycle + 1)) then
    let s := s.setNode node { r with polled := s.time.cycle + 1 }
    s.setLink { s.link with svc := s.link.svc ++ [.counters node] }
  else s

/-- CELL_COUNTER_POLL of `count` nodes from `node` on (R75). -/
def execCellCounterPoll (t node count : Nat) (s : State) : Res :=
  onUnit t s (decide (1 ≤ node ∧ node + count ≤ 64)) fun s =>
    (List.range count).foldl (fun s k => s.counterPoll (node + k)) s

/-! ### Slots -/

/-- How far the /S/ of a slot copy lies from its expected time S(n) + s_k - d(k) + D, in ns (R48); `tau` is its time after S(n) in
2^-16 ns. -/
def State.slotDev (s : State) (ch : Channel) (node : Nat) (tau : Int) : Rat :=
  mkRat tau 65536 - (modeSlot s.activeMode node - s.delayOf ch node + s.ringDelay ch)

/-- A slot copy is valid (R49): check value, the length of a cell of the node's axes, window, TAG. -/
def State.slotValid (s : State) (ch : Channel) (node : Nat) (tau : Int) (b : List Byte) : Bool :=
  let n := b.length
  let a := bitsOf (fld b 3 1) 3 0
  decide (16 ≤ n) && fld b (n - 4) 4 == crc32 (b.take (n - 4)) && bitsOf (fld b 0 1) 7 5 == 2 &&
    decide (1 ≤ a) && decide (a ≤ 8) && a == identAxes (s.ident node) && n == 16 + 14 * a && bitsOf (fld b 1 1) 5 0 == node &&
    inWindow (s.slotDev ch node tau) && fld b 2 1 == s.time.cycle % 256

/-- The channel whose path delay a node has received: the only closed one, else the one whose measured d(k) lies nearer (DEDUCED,
notes/assumptions/79.md). -/
def State.rxpdChan (s : State) (k : Nat) (r : Rat) : Channel :=
  match s.closedChans with
  | [ch] => ch
  | _ => if absR (s.delayOf .b k - r) < absR (s.delayOf .a k - r) then .b else .a

/-- The measured delays follow the path delay a node reports (R56): hop k is d(k) less d(k - 1); retired nodes before it that have left the
ring count as 0. Hop 1 is what the echoes show: node 1 reports no more than the h_1 the head has sent. -/
def State.takeRxpd (s : State) (k rxpd : Nat) : State :=
  if k = 1 then s else
  let ch := s.rxpdChan k rxpd
  let j := max 1 (((List.range k).filter fun x => !s.retired x).getLast?.getD 0)
  let s := if (rxpd : Rat) < s.delayOf ch (k - 1) then
      (List.range (k - 1 - j)).foldl (fun s i => s.wrF P.ElkHopDelay (chInst ch (j + 1 + i)) 0) s else s
  s.wrF P.ElkHopDelay (chInst ch k) (max 0 ((rxpd : Rat) - s.delayOf ch (k - 1)))

/-- One more cycle in which a node's copy came valid on a channel (Table 2.9). -/
def NodeRec.seen (r : NodeRec) (c now : Nat) : NodeRec :=
  { r with run := r.run.set c (runOn true (r.runAt.getD c 0) now (r.run.getD c 0) 64), runAt := r.runAt.set c now, rowAt := r.rowAt.set c now }

/-- A slot of this cycle without a valid copy on a channel is counted, once (R62). -/
def State.slotEmpty (s : State) (c node : Nat) : State :=
  let r := s.node node
  if r.rowAt.getD c 0 = s.time.cycle + 1 then s
  else (s.setNode node { r with rowAt := r.rowAt.set c (s.time.cycle + 1) }).inc P.ElkEmptyUp (node + 64 * c)

/-- The end of a cycle: the slots of which no copy has come at all (R62); those of retired nodes are not counted. -/
def State.slotsMissing (s : State) : State :=
  if !s.linkSending || bitOf s.mod.halted 3 then s else
    ((modeNodes s.activeMode).filter fun k => !s.retired k).foldl (fun s k => (s.slotEmpty 0 k).slotEmpty 1 k) s

/-- The link's part of a slot copy (R48, R49, R61, R62): counts, and the first valid copy of the cycle is taken. -/
def State.takeSlot (s : State) (ch : Channel) (node : Nat) (tau : Int) (b : List Byte) : Option State × State :=
  let late := b ≠ [] ∧ !inWindow (s.slotDev ch node tau)
  let s := if late then s.inc P.ElkLateUp (chInst ch node) else s
  if !s.slotValid ch node tau b then (none, s.slotEmpty (chNum ch) node)
  else
    let s := s.setNode node ((s.node node).seen (chNum ch) (s.time.cycle + 1))
    if bitOf (s.rd P.ElkRingState 0) (2 + chNum ch) then (none, s)
    else
    let r := s.node node
    if r.taken = s.time.cycle + 1 then (none, s)
    else
      let f := fld b 0 1
      let s := s.setNode node { r with
        lsafe := bitOf f 3, sto := bitOf f 2, skew := bitOf f 1, ubus := fldBE b 4 2, temp := fld b 6 1, cin := fld b 7 1,
        tript := fldBE b 8 2, rxpd := fldBE b 10 2, taken := s.time.cycle + 1 }
      let s := match s.link.ann with
        | some a => if bitOf f 4 && decide (2 ≤ cycDiff s.time.cycle a.cycle) then
            s.setLink { s.link with ann := some { a with acks := setBit a.acks node true } } else s
        | none => s
      let (done, wait) := s.link.joining.partition fun x => x.2 == node
      let s := s.setLink { s.link with joining := wait }
      let s := done.foldl (fun s x => s.complete x.1 0 s.time.cycle 0 0 0 0) s
      let s := s.takeRxpd node (fldBE b 10 2)
      (some s, s)

/-! ### Service exchanges -/

/-- The identity of a joining cell fits the recorded one (R71). -/
def joinFits (old new : List Byte) : Bool :=
  slice old 0 4 == slice new 0 4 && slice old 5 13 == slice new 5 13 &&
    decide (identReady new ≤ identReady old) && decide (identSetup new ≤ identSetup old)

/-- An exchange that cannot go on ends in failure: final status 0x0503, WHERE the node (R371); those of a cold start are repeated until the
limit of their phase. A ModeLoad that fails so leaves the table in the mode store as its acceptance stored it (DESIGN CHOICE,
notes/assumptions/106.md). -/
def State.svcFail (s : State) (op : SvcOp) : State :=
  match op with
  | .load q _ k => s.complete q 0 0xFFFFFFFF 0x0503 0 k 0
  | .join q k _ => s.complete q 0 0xFFFFFFFF 0x0503 0 k 0
  | .counters _ => s
  | op => s.setLink { s.link with svc := op :: s.link.svc }

/-- An exchange whose request is done: what its reply brings, and the exchange that follows it. -/
def State.svcDone (s : State) (op : SvcOp) (data : List Byte) : State :=
  let next (o : SvcOp) : State := s.setLink { s.link with svc := o :: s.link.svc }
  match op with
  | .load q m k => match (modeNodes (s.mode m)).find? (fun j => decide (k < j)) with
    | some j => next (.load q m j)
    | none => s.complete q 0 s.time.cycle 0 0 0 0
  | .join q k st =>
    if st = 0 then
      if joinFits (s.ident k) data then
        s.setLink { s.link with svc := .join q k 1 :: s.link.svc, idents := tabSet s.link.idents [] k data }
      else (s.raise E.identityMismatch k []).svcFail op
    else if st = 1 then next (.join q k 2)
    else (s.setLink { s.link with joining := s.link.joining ++ [(q, k)] }).wr P.ElkRetired 0 (setBit (s.rd P.ElkRetired 0) k false)
  | .identify k => s.setLink { s.link with found := tabSet s.link.found [] k data }
  | .down _ _ => s
  | .ack k => match s.link.ann with
    | some a =>
      if a.id = 0 ∧ 2 ≤ cycDiff s.time.cycle a.cycle then s.setLink { s.link with ann := some { a with acks := setBit a.acks k true } } else next op
    | none => s
  | .counters k => (s.wr P.ElkEmptyDown k (fldBE data 0 4)).wr P.ElkEmptyDown (k + 64) (fldBE data 4 4)

/-- A reply is valid (R49, R54): check value, length of 0 to 64 data bytes, type. -/
def replyValid (b : List Byte) : Bool :=
  let n := b.length
  decide (11 ≤ n) && fld b (n - 4) 4 == crc32 (b.take (n - 4)) && bitsOf (fld b 0 1) 7 4 == 9 && decide (fld b 6 1 ≤ 64) && n == 11 + fld b 6 1

/-- A reply answers a request in its window on its channel: SEQ and node are echoed, and it comes at S(c + 1) + W + 840 ns + D of the request's
cycle c, in that cycle or, where D is long, in the next; `tau` is its time after the latest sample instant in 2^-16 ns. -/
def State.answersIn (s : State) (ch : Channel) (f : RingFrame) (x : SvcSent) : Bool :=
  x.seq == fld f.bytes 2 1 && x.op.node == bitsOf (fld f.bytes 1 1) 5 0 &&
    inWindow ((s.time.lastS : Rat) + mkRat f.tau 65536 - (x.replyAt : Rat) - s.windowDelay ch)

/-- SERVICE_REPLY_RECEIVED: the reply to a request advances its exchange (R54, R71, R76); a cell that is busy is asked
again. -/
def execServiceReplyReceived (t : Nat) (ch : Channel) (f : RingFrame) (s : State) : Res :=
  onEvent t s fun s =>
    let b := f.bytes
    if !replyValid b then s else
    match s.link.svcOut.find? (s.answersIn ch f) with
    | none => s
    | some x =>
      let s := s.setLink { s.link with svcOut := s.link.svcOut.erase x }
      let stat := fld b 3 1
      if stat = 3 then s.setLink { s.link with svc := x.op :: s.link.svc }
      else if stat ≠ 0 then s.svcFail x.op
      else s.svcDone x.op (slice b 7 (fld b 6 1))

/-! ### Cycle-start frames and the switch at a sample instant -/

/-- The cycle-start frame of a channel (Table 2.2). TGT and SWCYC are 0 while no switch is announced, ACT is 7 while no mode is active, and
PATHDLY is h_1 rounded down to whole ns (DESIGN CHOICE, notes/assumptions/80.md). -/
def State.cycleStart (s : State) (ch : Channel) (halt : Bool) : List Byte :=
  -- announced from S(c - 8) on (Table 2.8)
  let ann := s.link.ann.filter fun a => decide (cycDiff s.time.cycle a.cycle ≤ 8)
  let sw := match ann with
    | some a => (if a.decided = some false then 128 else 0) + (if a.decided = none ∨ a.cycle ≠ s.time.cycle then 64 else 0) + 8 * a.mode
    | none => 0
  let late := (List.range 32).map fun i =>
    BitVec.ofNat 8 (s.rd P.ElkLateUp (chInst ch (2 * i + 1)) % 16 * 16 + s.rd P.ElkLateUp (chInst ch (2 * i)) % 16)
  let b := beBytes 1 (0x20 + 16 * chNum ch + (if halt then 8 else 0)) ++ beBytes 8 (s.rd P.SysUnitId 0) ++
    beBytes 4 s.time.cycle ++ beBytes 8 s.time.lastS ++ beBytes 1 (sw + s.rd P.ElkActiveMode 0 % 8) ++
    beBytes 4 (match ann with | some a => a.cycle | none => 0) ++ beBytes 8 (s.rd P.ElkRetired 0) ++ [0] ++
    beBytes 2 (s.rf P.ElkHopDelay (chInst ch 1)).floor.toNat ++ late
  b ++ leBytes 4 (crc32 b)

/-- MODE_SWITCH_DECISION at S(c - 1): every present, non-retired node must have acknowledged (R59). -/
def State.switchDecide (s : State) : State :=
  match s.link.ann with
  | some a =>
    if a.decided = none ∧ cycDiff s.time.cycle a.cycle = 1 then
      let miss := (modeNodes (s.mode a.mode)).filter fun k => !s.retired k && !bitOf a.acks k
      s.setLink { s.link with ann := some { a with decided := some (decide (miss = [])), missing := miss } }
    else s
  | none => s

/-- The switch at S(c): the mode changes, or the switch is cancelled (R38, R59, R371). Answers the group whose staged set is withheld. The
switch of a cold start that lacks acknowledgements is announced again, until the limit of the Sync phase (DESIGN CHOICE,
notes/assumptions/81.md). -/
def State.switchAct (s : State) : Option Nat × State :=
  match s.link.ann with
  | some a =>
    if a.decided.isSome ∧ a.cycle = s.time.cycle then
      let s := s.setLink { s.link with ann := none }
      if a.decided = some true then
        (none, ((s.wr P.ElkActiveMode 0 a.mode).applyTurn (s.mode a.mode)).complete a.req a.id s.time.cycle 0 0 0 0)
      else
        let s := s.raise E.modeSwitchCancelled a.mode (leBytes 1 a.missing.length ++ (a.missing.map (leBytes 4)).flatten)
        if a.id = 0 ∧ s.rd P.ElkState 0 = 6 then
          (none, s.setLink { s.link with ann := some { a with cycle := (s.time.cycle + 9) % 2 ^ 32, decided := none, missing := [] } })
        else (a.group, s.complete a.req a.id 0xFFFFFFFF 0x0205 0 (a.missing.getD 0 0) 0)
    else (none, s)
  | none => (none, s)

/-- The link's part of a sample instant: the cycle-start frames, the request of the cycle's service window, and LinkStop's 16 cycles with HALT
and the end after them (R51, R54, R67). -/
def State.linkSample (s : State) (haltIsland : Bool) : State :=
  if !s.linkSending then s
  else if s.link.stopLeft = 1 then
    s.linkOff 0
  else
    let halt := haltIsland || decide (0 < s.link.stopLeft)
    let s := (s.frame .cycleStart 0 (s.cycleStart .a halt)).frame .cycleStart 1 (s.cycleStart .b halt)
    let s := if s.link.stopLeft = 0 then s.svcSend else s
    s.setLink { s.link with stopLeft := s.link.stopLeft - 1 }

end Sys2Proof.Machine
end

