-- ==== Sys2Proof/Machine/Feedback.lean ====
section
/-!
DEFINITION. The feedback section and the axis monitor (chapter 03), and how an axis becomes held (R150).
-/
namespace Sys2Proof.Machine

def State.axis (s : State) (a : Nat) : AxisRec := tabGet s.ax AxisRec.init a
def State.setAxis (s : State) (a : Nat) (r : AxisRec) : State := { s with ax := tabSet s.ax AxisRec.init a r }
def State.fbk (s : State) (i : Nat) : FbRec := tabGet s.fb FbRec.init i
def State.setFb (s : State) (i : Nat) (r : FbRec) : State := { s with fb := tabSet s.fb FbRec.init i r }

/-- An axis is enabled: held or running (AxisState). -/
def State.axisOn (s : State) (a : Nat) : Bool := decide (a < 128) && s.rb P.AxisState a
def State.axisRuns (s : State) (a : Nat) : Bool := s.rd P.AxisState a == 2

/-- Bits of FbState (Table 3.7). -/
abbrev fbVALID : Nat := 0
abbrev fbDIR : Nat := 1
abbrev fbSTANDSTILL : Nat := 2
abbrev fbSPEEDVALID : Nat := 3
abbrev fbREF : Nat := 4
abbrev fbSUBST : Nat := 5
abbrev fbLOSS : Nat := 8
abbrev fbFREEZE : Nat := 9
abbrev fbIDXMIS : Nat := 10
abbrev fbWARN : Nat := 11
abbrev fbWIRE : Nat := 12
abbrev fbFOLLOW : Nat := 16
abbrev fbLIMPOS : Nat := 17
abbrev fbLIMNEG : Nat := 18
abbrev fbOVERSPEED : Nat := 19

/-- Bits of AxisHoldReason (Table 5.4). -/
abbrev holdSTO : Nat := 0
abbrev holdBLOCK : Nat := 1
abbrev holdLINK : Nat := 2
abbrev holdCELL : Nat := 3
abbrev holdISLAND : Nat := 4
abbrev holdHALT : Nat := 5

/-- Set a hold reason; an enabled axis is held (R150, R151). -/
def State.hold (s : State) (a k : Nat) : State :=
  let s := s.wrBit P.AxisHoldReason a k true
  if s.axisRuns a then
    let r := s.axis a
    ((s.wr P.AxisState a 1).wrBit P.LoopStatus a 0 false).setAxis a { r with iqRef := 0, vPos := 0, cmdA := 0, cmdB := 0 }
  else s

def State.unhold (s : State) (a k : Nat) : State := s.wrBit P.AxisHoldReason a k false

/-- The axes of an axis's group (AxisGroup); an axis in no group is alone. -/
def State.groupAxes (s : State) (a : Nat) : List Nat :=
  let g := s.rd P.AxisGroup a
  if g = 0xFF then [a] else (List.range 128).filter fun b => s.rd P.AxisGroup b == g

/-- Apply an action code to an axis (Tables 3.4 and 3.5, R97, R103): MonVerdict keeps the most severe verdict. Action 4 acts also where the motor
type has changed from stepper since it was set (DESIGN CHOICE, notes/assumptions/110.md). -/
def State.verdict (s : State) (a code : Nat) : State :=
  let cur := s.rd P.MonVerdict a
  match code with
  | 1 => if cur = 0 ∨ cur = 4 then (s.wr P.MonVerdict a 1).setAxis a { s.axis a with monStop := true } else s
  | 2 => (if cur = 3 then s else s.wr P.MonVerdict a 2).hold a holdBLOCK
  | 3 =>
    let s := (s.wr P.MonVerdict a 3).hold a holdBLOCK
    ((s.groupAxes a).filter (· != a)).foldl (fun s b =>
      (s.hold b holdBLOCK).setAxis b { s.axis b with blockedBy := a :: (s.axis b).blockedBy.erase a }) s
  | 4 =>
    let s := if cur = 0 then s.wr P.MonVerdict a 4 else s
    s.setAxis a { s.axis a with openLoop := true, openNew := !(s.axis a).openLoop }
  | _ => s

/-! ### Decoding -/

/-- The raw field of a sensor, decoded. `edge`: direction, and time from the edge to S(n) in ns. -/
structure FbDec where
  r : Nat
  w : Nat
  err : Bool
  warn : Bool
  edge : Option (Bool × Nat)
  idx : Option Int
  hall : Option Nat

/-- Index of a Hall state in the up sequence (R84). -/
def hallIndex (st : Nat) : Option Nat := [1, 3, 2, 6, 4, 5].findIdx? (· == st)

/-- Gray to binary, `w` bits. -/
def grayDecode : Nat → Nat → Nat
  | 0, g => g
  | k + 1, g => grayDecode k (g.xor (g / 2 ^ (2 ^ k)))

/-- The CRC of BiSS-C over a number of `n` bits (R87): polynomial 0x43, initial value 0. -/
def crc6 : Nat → Nat → Nat → Nat
  | 0, _, c => c
  | n + 1, v, c =>
    let b := ((c / 32) + (v / 2 ^ n)) % 2
    crc6 n v (((2 * c) % 64).xor (if b = 1 then 3 else 0))

/-- Decode FBRAW (R83 to R88). -/
def State.fbDecode (s : State) (i raw : Nat) (serr : Bool) : FbDec :=
  let T := s.cycleNs
  let te := 40 * bitsOf raw 28 16
  let edge := if te < T then some (bitOf raw 29, te) else none
  match s.rd P.FbType i with
  | 1 => { r := bitsOf raw 47 30, w := 18, err := serr, warn := false, edge := edge,
           idx := if bitOf raw 15 then some (sInt 15 raw) else none, hall := none }
  | 2 => { r := bitsOf raw 47 30, w := 18, err := serr, warn := false, edge := edge, idx := none, hall := none }
  | 3 =>
    let h := hallIndex (bitsOf raw 15 13)
    { r := bitsOf raw 47 30, w := 18, err := serr || h.isNone, warn := false, edge := edge, idx := none, hall := h }
  | 4 =>
    let n := s.rd P.FbDataBits i
    let st := s.rd P.FbStatusBits i
    let par := s.rd P.FbParity i
    let pos := raw / 2 ^ (st + par) % 2 ^ n
    let pos := if s.rb P.FbCoding i then grayDecode 6 pos else pos
    { r := pos, w := n, err := serr || (par == 1 && popcount (n + st + 1) raw % 2 == 1) || raw / 2 ^ par % 2 ^ st != 0,
      warn := false, edge := none, idx := none, hall := none }
  | _ =>
    let n := s.rd P.FbDataBits i
    let crc := raw % 64
    { r := raw / 256 % 2 ^ n, w := n, err := serr || !bitOf raw 7 || 63 - crc6 (n + 2) (raw / 64) 0 != crc, warn := !bitOf raw 6,
      edge := none, idx := none, hall := none }

/-- s of R89. -/
def State.fbSign (s : State) (i : Nat) : Int := if s.rb P.FbInvert i then -1 else 1

/-- The whole-count position offset (R89, R93). -/
def State.fbOffset (s : State) (i : Nat) : Int := s.rp P.FbPositionOffset i / 65536

/-- FbPosition of a count. -/
def State.fbPos (s : State) (i : Nat) (c : Int) : Int := (c + s.fbOffset i) * 65536

/-- The low-pass of FbSpeedFilter, by its exact step response over T (DEDUCED, notes/assumptions/12.md). -/
def State.fbLow (s : State) (i : Nat) (old new : Int) : Int :=
  let tau := s.rf P.FbSpeedFilter i
  if tau = 0 then new else roundHE (new + ((old : Rat) - new) * expNeg ((s.cycleNs : Rat) / (tau * 1000000)))

/-- Set FbState bits of a mask and latch the newly set ones among [19:8] (Table 3.7). `keep` leaves bits out of the latch. -/
def State.fbFlags (s : State) (i old new keep : Nat) : State :=
  let fresh := (new - new.land old).land (0xFFF00 - keep)
  (s.wr P.FbState i new).orBits P.FbLatched i fresh

/-- Add an entry to the history of a source (R106). -/
def State.addHist (s : State) (src : Nat) (pos : Int) (valid subst : Bool) : State :=
  let e : HistEntry := { cycle := s.time.cycle, sNs := s.time.lastS, pos := pos, valid := valid, subst := subst }
  { s with hist := tabMod s.hist [] src fun l => (e :: match l with | x :: r => if x.sNs = e.sNs then r else l | [] => []).take 64 }

/-- The feedback counts as enabled again (R90). The speed reads 0 from then on (DESIGN CHOICE, notes/assumptions/83.md). -/
def State.fbEnable (s : State) (i : Nat) : State :=
  let f := s.fbk i
  ((s.setFb i { FbRec.init with tRef := s.time.lastS, r := f.r, ack := f.ack, port := f.port }).clrBits P.FbState i 0x3F).wrP P.FbSpeed i 0

/-- FbFaultAction has no effect any more though the loss or freeze is not cleared: the axis has been disabled and enabled again (R97, R99). -/
def State.faultFree (s : State) (a : Nat) : Bool := !(s.axis a).openLoop && decide (s.rd P.MonVerdict a ≠ 2 ∧ s.rd P.MonVerdict a ≠ 3)

/-- A loss on the sample (R95, R97 to R99). On an enabled axis it is acted on where it is new, where it began while the axis was disabled, and
where its action has ended without a clear. -/
def State.fbLose (s : State) (i : Nat) (wire : Bool) : State :=
  let f := s.fbk i
  let old := s.rd P.FbState i
  let on := s.axisOn i
  let st0 := setBit (setBit (setBit (setBit old fbVALID false) fbREF false) fbLOSS true) fbWIRE wire
  let st := setBit (setBit (setBit st0 fbSUBST false) fbSPEEDVALID false) fbWARN false
  let fresh := !bitOf old fbLOSS || (on && !bitOf (s.rd P.FbLatched i) fbLOSS)
  let s := s.fbFlags i old st (if i < 128 ∧ !on then 2 ^ fbLOSS else 0)
  let s := if on then s.wrBit P.FbLatched i fbLOSS true else s
  let g : FbRec := { f with ready := false, used := false, v := 0, nSame := 0, frz := 0, follow := 0, idxC := none }
  let s := (s.wrP P.FbSpeed i 0).setFb i { g with pPrev := s.rp P.FbPosition i }
  let s := s.raiseIf (fresh && (on || decide (128 ≤ i))) E.feedbackLoss i []
  if on && (fresh || s.faultFree i) then s.verdict i (s.rd P.FbFaultAction i) else s

/-- The magnitude of the measured current vector exceeds FbFreezeCurrent (R96). -/
def State.curAbove (s : State) (a : Nat) : Bool :=
  let r := s.axis a
  let th := s.rf P.FbFreezeCurrent a
  let x : Rat := match s.rd P.LoopMotorType a with
    | 1 => mkRat ((2 * r.ia - r.ib - r.ic) ^ 2) 9 + mkRat ((r.ib - r.ic) ^ 2) 3
    | 2 => ((r.ia ^ 2 + r.ib ^ 2 : Int) : Rat)
    | _ => ((r.ia ^ 2 : Int) : Rat)
  decide (th * th * 1073741824 < x)

/-- The position loop of an axis is closed. -/
def State.posClosed (s : State) (a : Nat) : Bool :=
  s.axisRuns a && s.rd P.LoopMode a == 3 && !(s.axis a).openLoop

/-- FbFreezeTime in whole cycles (R96). -/
def State.freezeCycles (s : State) (a : Nat) : Nat := (s.rf P.FbFreezeTime a * 1000000 / s.cycleNs).ceil.toNat

/-- The samples in a row, this one included, with an unchanged raw count under current while the position loop is closed (R96, R100). -/
def State.freezeRun (s : State) (a : Nat) (same : Bool) : Nat :=
  if decide (a < 128) && s.posClosed a && s.curAbove a then (if same then (s.fbk a).frz else 0) + 1 else 0

/-- The freeze condition holds on a sample with that run (R96). -/
def State.frozen (s : State) (a run : Nat) : Bool := s.axisOn a && decide (s.freezeCycles a + 1 ≤ run)

/-- Freeze is detected: flags, event and fault action (R96, R97, R102). -/
def State.freezeNow (s : State) (a : Nat) : State :=
  let st := s.rd P.FbState a
  let s := s.wr P.FbState a (setBit (setBit (setBit st fbVALID false) fbSPEEDVALID false) fbFREEZE true)
  let s := ((s.wrBit P.FbLatched a fbFREEZE true).wrP P.FbSpeed a 0).setFb a
    { s.fbk a with ready := false, used := false, v := 0, nSame := 0, frz := 0 }
  (s.raise E.feedbackFreeze a []).verdict a (s.rd P.FbFaultAction a)

/-- What a sample brings: FBRAW, wire break, check error of the receiver or the cell, no sensor data. -/
structure FbIn where
  raw : Nat
  wire : Bool
  err : Bool
  empty : Bool
  deriving DecidableEq, Repr

/-- A sample without data. -/
def FbIn.none_ : FbIn := { raw := 0, wire := false, err := false, empty := true }

/-- WARN of a sample, and its event (R88). -/
def State.fbWarn (s : State) (i : Nat) (warn : Bool) : State :=
  let was := (s.fbk i).warn
  let s := if warn && !was then s.wrBit P.FbLatched i fbWARN true else s
  ((s.wrBit P.FbState i fbWARN warn).setFb i { s.fbk i with warn := warn }).raiseIf (warn && !was) E.sensorWarning i []

/-- A sample while a loss or freeze is not yet cleared: the position holds (R95, R96, R99). `same`: the raw count is unchanged. -/
def State.fbHold (s : State) (i : Nat) (x : FbDec) (err : Bool) (run : Nat) (same : Bool) : State :=
  let pOld := s.rp P.FbPosition i
  let old := s.rd P.FbState i
  let s := if err then s.inc P.FbCheckErrors i else s
  let s := s.setFb i { s.fbk i with errRun := run, idxC := none, pPrev := pOld, ready := false, used := false }
  let frozen := bitOf old fbFREEZE && same && s.posClosed i && s.curAbove i
  let st := setBit (setBit (setBit (setBit (setBit old fbVALID false) fbLOSS false) fbWIRE false) fbFREEZE frozen) fbSUBST false
  let s := s.wr P.FbState i (setBit st fbWARN false)
  let s := if err then s else s.fbWarn i x.warn
  let s := if s.axisOn i && s.faultFree i then s.verdict i (s.rd P.FbFaultAction i) else s
  (s.wrP P.FbSpeed i 0).addHist i pOld false false

/-- A sample with a check error that is no loss (R94). Its raw count, which is not used, counts as unchanged towards FbFreezeTime (DESIGN CHOICE,
notes/assumptions/110.md). -/
def State.fbErr (s : State) (i run : Nat) : State :=
  let f := s.fbk i
  let pOld := s.rp P.FbPosition i
  let s := s.inc P.FbCheckErrors i
  let st := setBit (setBit (setBit (s.rd P.FbState i) fbLOSS false) fbWIRE false) fbWARN false
  if !f.used then
    ((s.wr P.FbState i (setBit st fbSUBST false)).setFb i { f with errRun := run, idxC := none }).addHist i pOld false false
  else
    let p := pOld + roundHE (s.rp P.FbSpeed i * (s.cycleNs : Rat) / 1000000000)
    let k := s.freezeRun i true
    let s := (s.setFb i { f with errRun := run, idxC := none, pPrev := pOld, frz := k }).wrP P.FbPosition i p
    let s := s.wr P.FbState i (setBit st fbSUBST true)
    if s.frozen i k then (s.freezeNow i).addHist i p false true else s.addHist i p true true

/-- One sample of a feedback instance (R77, R89 to R96, R100). -/
def State.fbSample (s : State) (i : Nat) (d : FbIn) : State :=
  let s := if i < 128 then s.setAxis i { s.axis i with closed := s.posClosed i } else s
  let f := s.fbk i
  let pOld := s.rp P.FbPosition i
  if s.rd P.FbType i = 0 then s
  else if d.empty then
    let s := if d.err then s.inc P.FbCheckErrors i else s
    ((s.setFb i { f with errRun := if d.err then f.errRun + 1 else 0 }).fbLose i d.wire).addHist i pOld false false
  else
    let x := s.fbDecode i d.raw d.err
    let sg := s.fbSign i
    let delta := sInt x.w (x.r + 2 ^ x.w - f.r)
    let c1 := f.c + sg * delta
    let hallBad := match x.hall with | some k => f.ready && (sg * c1) % 6 != (k : Int) | none => false
    let err := x.err || hallBad
    let run := if err then f.errRun + 1 else 0
    let latched := s.rd P.FbLatched i
    if d.wire || decide (s.rd P.FbCheckErrLimit i < run) then
      let s := if err then s.inc P.FbCheckErrors i else s
      let s := s.setFb i { f with errRun := run }
      (s.fbLose i d.wire).addHist i pOld false false
    else if decide (i < 128) && (bitOf latched fbFREEZE || (bitOf latched fbLOSS && s.axisOn i)) then
      s.fbHold i x err run (decide (delta = 0))
    else if err then s.fbErr i run
    else
      let fresh := !f.ready
      let ref := fresh && s.rb P.FbAbsolute i && decide (4 ≤ s.rd P.FbType i)
      let c : Int := if fresh then
          (if ref then sg * x.r else match x.hall with | some k => sg * k | none => 0)
        else c1
      let f0 : FbRec := if !fresh then f else if f.dirKnown then { f with v := 0, nSame := 0 } else { f with v := 0, nSame := 0, tRef := s.time.lastS }
      let dc : Int := if fresh then 0 else sg * delta
      -- freeze comes before the index check (R100)
      let k := s.freezeRun i (decide (dc = 0) && !fresh)
      let froze := s.frozen i k
      let s := if froze then s.freezeNow i else s
      -- index check (R93)
      let P' := s.rd P.FbCountsPerRev i
      let ci : Option Int := x.idx.map fun o => c - sg * o + s.fbOffset i
      let E0 := s.rd P.FbIndexExpected i
      let learn := ci.isSome && E0 == 0xFFFFFFFF
      let d : Int := match ci with
        | some ci => if learn then 0 else
            let m := (ci - E0) % (P' : Int)
            if (P' : Int) - (P' / 2 : Nat) ≤ m then m - P' else m
        | none => 0
      let slip := decide (d ≠ 0) && decide (d.natAbs ≤ s.rd P.FbIndexWindow i)
      let mis := decide (s.rd P.FbIndexWindow i < d.natAbs)
      let c' := if slip then c - d else c
      let f0 := if slip then { f0 with cRef := f0.cRef - d } else f0
      let s := if learn then s.wr P.FbIndexExpected i ((ci.getD 0) % (P' : Int)).toNat else s
      let s := if slip then
          (s.inc P.FbIndexSlips i).wr P.FbIndexSlipSum i (uNat 32 (s.ri P.FbIndexSlipSum i + d)) else s
      -- speed estimator (R91, R92)
      let edge : Option (Bool × Nat) := match x.edge with
        | some (up, te) => some (up != s.rb P.FbInvert i, te)
        | none => if 4 ≤ s.rd P.FbType i ∧ dc ≠ 0 then some (decide (0 < dc), 0) else none
      let old := s.rd P.FbState i
      let dirUp := bitOf old fbDIR
      let still := bitOf old fbSTANDSTILL
      let now := s.time.lastS
      let zst := (s.rf P.FbZeroSpeedTime i * 1000000).ceil.toNat
      let (s, f1, dir', still', forced) : State × FbRec × Bool × Bool × Bool :=
        match edge with
        | some (up, te) =>
          let tE := now - te
          if !f0.dirKnown then
            (s, { f0 with dirKnown := true, v := 0, nSame := 1, cRef := c', tRef := tE }, up, false, true)
          else if up != dirUp then
            (s.raise E.directionChange i [], { f0 with v := 0, nSame := 1, cRef := c', tRef := tE }, up, false, true)
          else if 2 ≤ f0.nSame + 1 then
            if tE = f0.tRef then
              let (v, s) := s.takeFree 3
              (s, { f0 with v := v, nSame := f0.nSame + 1, cRef := c', tRef := tE }, up, false, false)
            else
              let v := roundHE (mkRat ((c' - f0.cRef) * 65536000000000) 1 / (((tE : Int) - f0.tRef : Int) : Rat))
              (s, { f0 with v := v, nSame := f0.nSame + 1, cRef := c', tRef := tE }, up, false, false)
          else (s, { f0 with nSame := f0.nSame + 1, cRef := c', tRef := tE }, up, false, false)
        | none =>
          if f0.tRef + zst ≤ now then (s, { f0 with v := 0, nSame := 0 }, dirUp, true, true)
          else if 2 ≤ f0.nSame ∧ f0.tRef < now then
            let b : Int := roundHE (mkRat 65536000000000 (now - f0.tRef))
            (s, { f0 with v := if b < f0.v.natAbs then (if f0.v < 0 then -b else b) else f0.v }, dirUp, still, false)
          else (s, f0, dirUp, still, false)
      let dir'' := if f1.dirKnown then dir' else false
      let pos := s.fbPos i c'
      let speed := if froze || forced then 0 else s.fbLow i (s.rp P.FbSpeed i) f1.v
      let s := (s.wrP P.FbPosition i pos).wrP P.FbSpeed i speed
      let s := s.setFb i { f1 with
        ready := !froze, used := !froze, c := c', r := x.r, errRun := 0, warn := x.warn, idxC := ci.map (· * 65536), pPrev := pOld
        frz := if froze then 0 else k, nSame := if froze then 0 else f1.nSame, v := if froze then 0 else f1.v }
      let m := (if ref then 1 else 0)
      let st := setBit (setBit (setBit (setBit (setBit (setBit old fbVALID (!froze)) fbDIR dir'') fbSTANDSTILL still')
        fbSPEEDVALID (!froze && decide (2 ≤ f1.nSame))) fbSUBST false) fbLOSS false
      let st := setBit (setBit st fbWARN x.warn) fbWIRE false
      let st := if m = 1 then setBit st fbREF true else if fresh then setBit st fbREF false else st
      let st := if ci.isSome then setBit st fbIDXMIS mis else st
      let s := s.fbFlags i old st 0
      let s := s.raiseIf (x.warn && !f.warn) E.sensorWarning i []
      let s := s.raiseIf (mis && !bitOf old fbIDXMIS) E.indexMismatch i []
      let s := if mis && s.axisOn i then s.verdict i (s.rd P.FbIndexAction i) else s
      s.addHist i pos (!froze) false

/-! ### Axis monitor -/

/-- A condition of the monitor on this sample: its bit follows; when it becomes true, its event is raised and its bit latched; its action
applies while it holds (R102, R103). -/
def State.monCond (s : State) (a k : Nat) (on : Bool) (code act : Nat) : State :=
  let r := s.axis a
  let s := (s.wrBit P.FbState a k on).setAxis a { r with raised := setBit r.raised k on }
  let s := if on && !bitOf r.raised k then (s.wrBit P.FbLatched a k true).raise code a [] else s
  if on then s.verdict a act else s

/-- Overspeed on the latest sample (R101). -/
def State.overspeed (s : State) (a : Nat) : Bool :=
  let os := s.rf P.MonOverspeed a
  decide (os ≠ 0) && decide (os * 65536 < absR (s.rp P.FbSpeed a))

/-- The position that the limits are checked on: the set-point of an axis that runs open-loop (R97) or in LoopMode 4 (R147). -/
def State.limPos (s : State) (a : Nat) : Int :=
  if (s.axis a).openLoop ∨ s.rd P.LoopMode a = 4 then (s.axis a).psp else s.rp P.FbPosition a

/-- The position limits (R101). -/
def State.aboveLim (s : State) (a : Nat) : Bool := s.rb P.MonLimitEnable a && decide (s.rp P.MonLimitPos a < s.limPos a)
def State.belowLim (s : State) (a : Nat) : Bool := s.rb P.MonLimitEnable a && decide (s.limPos a < s.rp P.MonLimitNeg a)

/-- The conditions on a sample of a disabled axis: FbState shows them, and nothing else happens (R100, Table 3.7). One that has become false
counts as false for R102. -/
def State.monIdle (s : State) (a : Nat) : State :=
  let os := s.overspeed a
  let up := s.aboveLim a
  let dn := s.belowLim a
  let r := s.axis a
  let m := (if os then 2 ^ fbOVERSPEED else 0) + (if up then 2 ^ fbLIMPOS else 0) + if dn then 2 ^ fbLIMNEG else 0
  (s.wr P.FbState a (setBit (setBit (setBit (setBit (s.rd P.FbState a) fbOVERSPEED os) fbLIMPOS up) fbLIMNEG dn) fbFOLLOW false)).setAxis a
    { r with raised := r.raised.land m }

/-- A verdict of 1 ends once its stop stands and no condition with action 1 holds on the sample (R103). -/
def State.stopEnds (s : State) (a : Nat) : State :=
  let st := s.rd P.FbState a
  let on := (bitOf st fbOVERSPEED && s.rd P.MonOverspeedAction a == 1) ||
    ((bitOf st fbLIMPOS || bitOf st fbLIMNEG) && s.rd P.MonLimitAction a == 1) || (bitOf st fbFOLLOW && s.rd P.MonFollowErrAction a == 1) ||
    (bitOf st fbIDXMIS && s.rd P.FbIndexAction a == 1)
  if s.rd P.MonVerdict a = 1 ∧ !(s.axis a).monStop ∧ s.rd P.TrjSetVel a = 0 ∧ s.rd P.TrjSetAcc a = 0 ∧ !bitOf (s.rd P.TrjState a) 6 ∧ !on then
    s.wr P.MonVerdict a (if (s.axis a).openLoop then 4 else 0)
  else s

/-- The position limits on a sample. -/
def State.monLimits (s : State) (a : Nat) : State :=
  let up := s.aboveLim a
  let dn := s.belowLim a
  (s.monCond a fbLIMPOS up E.positiveLimit (s.rd P.MonLimitAction a)).monCond a fbLIMNEG dn E.negativeLimit (s.rd P.MonLimitAction a)

/-- The monitor's evaluation of a sample after its loss, freeze and index checks (R100, R101): overspeed, limits, the run of following error.
A sample with a loss has none of them, but an axis that runs on open-loop since an earlier sample keeps its limits (R97; DEDUCED,
notes/assumptions/84.md). -/
def State.monitor (s : State) (a : Nat) : State :=
  if !s.axisOn a then s.monIdle a else
  let r := s.axis a
  let e := r.psp - s.rp P.FbPosition a
  let s := (s.wrP P.MonFollowErr a e).setAxis a { r with openNew := false }
  if bitOf (s.rd P.FbState a) fbLOSS then (if r.openLoop && !r.openNew then (s.monLimits a).stopEnds a else s)
  else
  let s := (s.monCond a fbOVERSPEED (s.overspeed a) E.overspeed (s.rd P.MonOverspeedAction a)).monLimits a
  -- a verdict of this sample that opens the loop does not keep the condition from being flagged (R103)
  let far := r.closed && !(s.axis a).openLoop && decide (s.rf P.MonFollowErrLimit a * 65536 < absR e)
  let s := if far then s else s.monCond a fbFOLLOW false 0 0
  let n := if far then (s.fbk a).follow + 1 else 0
  let k := (s.rf P.MonFollowErrTime a * 1000000 / s.cycleNs).ceil.toNat
  let s := s.setFb a { s.fbk a with follow := n }
  (if k + 1 ≤ n then s.monCond a fbFOLLOW true E.followingError (s.rd P.MonFollowErrAction a) else s).stopEnds a

/-- FOLLOWING_ERROR_TIMEOUT: |e| above its limit on k + 1 consecutive samples (R101, R102). The monitor finds it on the sample itself; the
command repeats that evaluation. -/
def execFollowingErrorTimeout (t axis : Nat) (s : State) : Res :=
  onUnit t s (decide (axis < 128)) fun s =>
    let k := (s.rf P.MonFollowErrTime axis * 1000000 / s.cycleNs).ceil.toNat
    if s.axisOn axis && decide (k + 1 ≤ (s.fbk axis).follow) then
      s.monCond axis fbFOLLOW true E.followingError (s.rd P.MonFollowErrAction axis)
    else s

/-- FEEDBACK_FREEZE: the raw count unchanged under current for FbFreezeTime (R96, R97). The sample itself detects it in the monitor's order
(R100); a freeze not yet latched is taken here, on the latest sample. -/
def execFeedbackFreeze (t inst : Nat) (s : State) : Res :=
  onUnit t s (decide (inst < 128)) fun s =>
    if s.frozen inst (s.fbk inst).frz && !bitOf (s.rd P.FbLatched inst) fbFREEZE then
      let s := s.freezeNow inst
      { s with hist := tabMod s.hist [] inst fun l => match l with | e :: r => { e with valid := false } :: r | [] => [] }
    else s

/-- STANDSTILL_TIMEOUT: no edge for FbZeroSpeedTime at S(n) (R91, R92). The sample itself finds it; the command repeats that evaluation. -/
def execStandstillTimeout (t inst : Nat) (s : State) : Res :=
  onUnit t s (decide (inst < 136)) fun s =>
    let f := s.fbk inst
    let now := s.time.lastS
    let taken := (tabGet s.hist [] inst).head?.elim false fun e => e.sNs == now
    if f.ready && taken && decide (f.tRef + (s.rf P.FbZeroSpeedTime inst * 1000000).ceil.toNat ≤ now) then
      let st := s.rd P.FbState inst
      ((s.wr P.FbState inst (setBit (setBit st fbSTANDSTILL true) fbSPEEDVALID false)).wrP P.FbSpeed inst 0).setFb inst
        { f with v := 0, nSame := 0 }
    else s

/-! ### Write rules -/

/-- Clock periods of a local port's frame (R86): one per bit plus one. -/
def frameBits (ty data stat par : Nat) : Nat := (if ty = 4 then data + stat + par else data + 10) + 1

/-- The transfer of a local port fits the cycle (R86). -/
def transferFits (T : Nat) (ty data stat par : Nat) (khz rec : Rat) (ack : Nat) : Bool :=
  if ty < 4 then true else
    let tr : Rat := (frameBits ty data stat par : Rat) * 1000000 / khz + (if ty = 5 then ack else 0)
    decide (tr ≤ (T : Rat) / 2) && decide (tr + rec * 1000 ≤ T)

/-- A local port's settings with one replaced fit a cycle. -/
def State.portFits (s : State) (idx i v T : Nat) : Bool :=
  !s.breaks idx i v [P.FbType, P.FbDataBits, P.FbStatusBits, P.FbParity, P.FbClockRate, P.FbRecoveryTime] fun x =>
    !transferFits T (x P.FbType) (x P.FbDataBits) (x P.FbStatusBits) (x P.FbParity) (f32ToRat (x P.FbClockRate)) (f32ToRat (x P.FbRecoveryTime))
      (s.fbk i).ack

/-- The cycle lengths that are or become active, ns. -/
def State.cycleLens (s : State) : List Nat := [s.cycleNs, 31250 * 2 ^ s.rdShadow P.SysCycleLength 0]

/-- The types a parameter of Table 3.6 applies to; FbEdgeFilter to Hall ports too (DESIGN CHOICE, notes/assumptions/110.md). -/
def fbApplies (idx ty : Nat) : Bool :=
  if idx = P.FbDataBits then decide (4 ≤ ty)
  else if idx = P.FbStatusBits ∨ idx = P.FbCoding ∨ idx = P.FbParity ∨ idx = P.FbLineDelay then ty == 4
  else if idx = P.FbAbsolute ∨ idx = P.FbClockRate ∨ idx = P.FbRecoveryTime then decide (4 ≤ ty)
  else if idx = P.FbEdgeFilter then decide (1 ≤ ty) && decide (ty ≤ 3)
  else if idx = P.FbIndexWindow ∨ idx = P.FbIndexExpected ∨ idx = P.FbIndexAction then ty == 1
  else true

/-- A source code is in use by a master, a latch unit or an emulation output (R104). -/
def State.portUsed (s : State) (i : Nat) : Bool :=
  (List.range 16).any (fun v => s.rd P.VmSource v == 1 && s.rd P.VmSourceCode v == i) ||
    (List.range 64).any (fun u => (tabGet s.lat LatRec.init u).armed && s.rd P.LatPosSource u == i) ||
    (List.range 8).any (fun e => s.rb P.EmuEnable e && s.rd P.EmuSource e == i)

/-- Refusals of a write to a feedback parameter (R79, R86, R97, R104), class 0x03xx, then 0x02xx. A change of FbType does not look at the rate
in FbClockRate, and one of LoopMotorType not at FbFaultAction (DESIGN CHOICE, notes/assumptions/110.md). -/
def State.fbWriteBad (s : State) (idx i v : Nat) : List (Bool × Rsn) :=
  let cell := s.ident (s.axisNode i)
  let serial := idx = P.FbType ∨ idx = P.FbDataBits ∨ idx = P.FbStatusBits ∨ idx = P.FbParity ∨ idx = P.FbClockRate ∨
    idx = P.FbRecoveryTime
  let applies := fbApplies idx (s.rdShadow P.FbType i)
  [(decide (idx = P.FbType ∧ i < 128 ∧ cell ≠ []) && !bitOf (identFbTypes cell) v, ⟨0x0315, 0, 0, 0⟩),
   (decide (serial ∧ 128 ≤ i) && s.cycleLens.any (fun T => !s.portFits idx i v T), ⟨0x0316, 0, 0, 0⟩),
   (decide (idx = P.SysCycleLength) && (List.range 8).any (fun n => !s.portFits 0 (128 + n) 0 (31250 * 2 ^ v)), ⟨0x0316, 0, 0, 0⟩),
   (decide (idx = P.FbFaultAction ∧ v = 4 ∧ s.rdShadow P.LoopMotorType i ≠ 2), ⟨0x0317, 0, 0, 0⟩),
   (decide (0x3000 ≤ idx ∧ idx ≤ 0x301A ∧ idx ≠ P.FbType) && !applies, ⟨0x0304, 0, 0, 0⟩),
   (decide (idx = P.FbClockRate) && (let k := f32ToRat v
      if s.rdShadow P.FbType i = 4 then decide (k > 2000) else decide (k < 1000)), ⟨0x0304, 0, 0, 0⟩),
   (decide (idx = P.FbIndexExpected ∧ v ≠ 0xFFFFFFFF ∧ (s.rdShadow P.FbCountsPerRev i ≤ v ∨ s.rd P.FbCountsPerRev i ≤ v)), ⟨0x0304, 0, 0, 0⟩),
   (decide (0x3000 ≤ idx ∧ idx ≤ 0x300C ∧ i < 128) && s.axisOn i, ⟨0x0217, 0, 0, 0⟩),
   (decide (0x3000 ≤ idx ∧ idx ≤ 0x300C ∧ 128 ≤ i) && s.portUsed i, ⟨0x0218, 0, 0, 0⟩)]

/-- What a change of a feedback parameter brings once it is active (R90). -/
def State.fbChanged (s : State) (idx i old : Nat) : State :=
  if s.rd idx i ≠ old ∧ [P.FbType, P.FbInvert, P.FbDataBits, P.FbStatusBits, P.FbCoding, P.FbParity, P.FbAbsolute].contains idx = true then s.fbEnable i else s

/-- A W1C write of FbLatched: LOSS and FREEZE of an axis need a FaultClear (R99). -/
def State.fbLatchedClear (s : State) (i v : Nat) : State :=
  s.clrBits P.FbLatched i (if i < 128 then v - v.land 0x300 else v)

end Sys2Proof.Machine
end

