-- ==== Sys2Proof/Machine/Latch.lean ====
section
/-!
DEFINITION. Latch units, compare units and encoder emulation (chapter 04), and the entries by which output levels reach the field
side (R342).
-/
namespace Sys2Proof.Machine

def State.latch (s : State) (u : Nat) : LatRec := tabGet s.lat LatRec.init u
def State.cmpU (s : State) (u : Nat) : CmpRec := tabGet s.cmp CmpRec.init u
def State.emuU (s : State) (e : Nat) : EmuRec := tabGet s.emu EmuRec.init e
def State.setCmp (s : State) (u : Nat) (r : CmpRec) : State := { s with cmp := tabSet s.cmp CmpRec.init u r }
def State.setEmu (s : State) (e : Nat) (r : EmuRec) : State := { s with emu := tabSet s.emu EmuRec.init e r }
def State.group (s : State) (g : Nat) : FerryRec := tabGet s.ferry FerryRec.init g
def State.setGroup (s : State) (g : Nat) (r : FerryRec) : State := { s with ferry := tabSet s.ferry FerryRec.init g r }

/-- A source code of R105. -/
def srcCodeOk (v : Nat) : Bool := decide (v ≤ 135) || (decide (256 ≤ v) && decide (v ≤ 271))

/-- Line time in units of 2^-16 ns. -/
def State.line16 (s : State) : Nat := s.time.lt / 2 ^ 8

/-- Ns of re-phasing the next cycle takes up (R29). -/
def rephaseStep (x : Int) : Int := sat (-100) 100 x

/-- S(n + 2) as it stands now. -/
def State.nextS2 (s : State) : Nat := ((s.time.nextS : Int) + s.cycleNs + rephaseStep s.time.rephase).toNat

/-! ### Outputs: owner, level, entries (R120, R341, R342) -/

/-- Count and inversion of a unit's output at a line time. -/
def CmpRec.sumAt (r : CmpRec) (x : Nat) : Int × Bool :=
  r.sched.foldl (fun b e => if e.at_ ≤ x then (b.1 + e.delta, b.2 != e.inv) else b) r.base

/-- The level of a unit's output at a line time: a pulse or window holds it on, or it is inverted (R119). -/
def CmpRec.levelAt (r : CmpRec) (x : Nat) : Bool := decide (0 < (r.sumAt x).1) || (r.sumAt x).2

/-- Add a switching instant; those already scheduled stand (R118). -/
def CmpRec.put (r : CmpRec) (x : Nat) (delta : Int) (inv hit : Bool) : CmpRec :=
  { r with sched := r.sched ++ [{ at_ := x, delta := delta, inv := inv, hit := hit }] }

/-- Take the output off at an instant. -/
def CmpRec.offAt (r : CmpRec) (x : Nat) : CmpRec :=
  let b := r.sumAt x
  if b = (0, false) then r else r.put x (-b.1) b.2 false

/-- Instants after a line time. -/
def CmpRec.after (r : CmpRec) (x : Nat) : List Nat := (r.sched.map (·.at_)).filter (fun y => decide (x < y))

/-- Fold entries that lie more than 1 ms back into the base. -/
def CmpRec.prune (r : CmpRec) (now : Nat) : CmpRec :=
  { r with base := r.sumAt (now - 1000000), sched := r.sched.filter (fun e => decide (now - 1000000 < e.at_)) }

/-- The owner of an output (DqOwner, R341): 0 command, 1 compare, 2 front end. -/
def State.dqOwner (s : State) (o : Nat) : Nat :=
  if s.rd P.FePreOutput 0 = o ∨ s.rd P.FeMainOutput 0 = o then 2
  else if (List.range 32).any (fun u => (s.cmpU u).armed && bitOf (s.cmpU u).mask o) then 1
  else 0

/-- What is left of an earlier arming holds its target on at a line time. -/
def CmpRest.levelAt (r : CmpRest) (x : Nat) : Bool := { CmpRec.init with base := r.base, sched := r.sched }.levelAt x

/-- A unit's output at a line time, pulses of earlier armings included (R120). -/
def CmpRec.outAt (r : CmpRec) (x : Nat) : Bool := r.levelAt x || r.left.any (·.levelAt x)

/-- A unit's output on a target. -/
def CmpRec.onTarget (r : CmpRec) (o x : Nat) : Bool := (bitOf r.mask o && r.levelAt x) || r.left.any fun l => bitOf l.mask o && l.levelAt x

/-- The switching instants of a unit on a target after a line time. -/
def CmpRec.instants (r : CmpRec) (o x : Nat) : List Nat :=
  (if bitOf r.mask o then r.after x else []) ++
    ((r.left.filter fun l => bitOf l.mask o).flatMap fun l => (l.sched.map (·.at_)).filter fun y => decide (x < y))

/-- The OR of the units that target an output. -/
def State.unitsLevel (s : State) (o x : Nat) : Bool := (List.range 32).any fun u => (s.cmpU u).onTarget o x

/-- The owner's level of an output at a line time. -/
def State.dqLevel (s : State) (o x : Nat) : Bool :=
  match s.dqOwner o with
  | 0 => s.rb P.DqCommand o || s.unitsLevel o x
  | 1 => s.unitsLevel o x
  | _ => bitOf s.dqFe o

/-- The timeline of an output that its entries give, with a further one: it removes those at or after its instant (R343); the last 64 are kept. -/
def lineAdd (l : List (Nat × Bool)) (x : Nat) (lv : Bool) : List (Nat × Bool) :=
  let k := l.filter fun e => decide (e.1 < x)
  k.drop (k.length - 63) ++ [(x, lv)]

/-- Level changes after a level. -/
def lineChanges : Bool → List (Nat × Bool) → List (Nat × Bool)
  | _, [] => []
  | lv, e :: r => if e.2 == lv then lineChanges lv r else e :: lineChanges e.2 r

/-- A timeline from an instant on: the level there, then its changes. -/
def lineFrom (l : List (Nat × Bool)) (x : Nat) : List (Nat × Bool) :=
  let lv := ((l.filter fun e => decide (e.1 ≤ x)).getLast?.map (·.2)).getD false
  (x, lv) :: lineChanges lv (l.filter fun e => decide (x < e.1))

/-- Form an entry (R342); entries wait on the chip side in order of formation (R344). -/
def State.entry (s : State) (o : Nat) (lv : Bool) (x : Nat) : State :=
  let g := s.group (o / 4)
  s.setGroup (o / 4) { g with
    wait := g.wait ++ [{ out := o % 4, level := lv, at_ := x }], line := g.line.set (o % 4) (lineAdd (g.line.getD (o % 4) []) x lv) }

/-- Send the timeline of an output from its first instant on, where it differs from what the entries formed so far give (R342). -/
def State.pushNew (s : State) (o : Nat) (new : List (Nat × Bool)) : State :=
  if lineFrom ((s.group (o / 4)).line.getD (o % 4) []) (new.headD (0, false)).1 = new then s
  else new.foldl (fun s e => s.entry o e.2 e.1) s

/-- The timeline of the outputs of a mask from an instant on (R342). -/
def State.pushLine (s : State) (mask x : Nat) : State :=
  (bitList 16 mask).foldl (fun s o =>
    if s.dqOwner o = 2 then s else
      let ts := sortNat ((List.range 32).flatMap fun u => (s.cmpU u).instants o x)
      let lv := s.dqLevel o x
      s.pushNew o ((x, lv) :: lineChanges lv (ts.map fun y => (y, s.dqLevel o y)))) s

/-! ### Latch units -/

/-- Store a unit and its reports LatArm, LatState [1:0] and LatFill. -/
def State.setLatch (s : State) (u : Nat) (r : LatRec) : State :=
  let s := { s with lat := tabSet s.lat LatRec.init u r }
  let s := (s.wr P.LatArm u (if r.armed then 1 else 0)).wr P.LatFill u r.fifo.length
  (s.wrBit P.LatState u 0 r.armed).wrBit P.LatState u 1 (decide (r.fifo ≠ []))

/-- A trigger waits for its positions. -/
def State.latTrig (s : State) (u : Nat) (x : LatTrig) : State :=
  let r := s.latch u
  if r.armed || decide (r.past ≠ []) then s.setLatch u { r with trigs := r.trigs ++ [x] } else s

/-- The edges a unit takes (LatEdge). -/
def edgeTaken (sel : Nat) (rising : Bool) : Bool := sel == 3 || (sel == 1 && rising) || (sel == 2 && !rising)

/-- A stamped edge of a fast input reaches the latch units (R107, R338). -/
def State.latEdge (s : State) (inp stampNs : Nat) (rising : Bool) : State :=
  (List.range 64).foldl (fun s u =>
    if s.rd P.LatSource u = 1 ∧ s.rd P.LatInput u = inp ∧ edgeTaken (s.rd P.LatEdge u) rising then
      s.latTrig u { stamp := stampNs * 65536, rising := rising, flags := 0, fixed := none, atS := false }
    else s) s

/-- The history of a source (R106), newest first. -/
def State.history (s : State) (src : Nat) : List HistEntry := tabGet s.hist [] src

/-- The stamp of an index event (R109), 2^-16 ns. -/
def State.indexStamp (s : State) (inst : Nat) (ci : Int) : Nat :=
  match s.history inst with
  | b :: a :: _ =>
    if b.pos = a.pos then b.sNs * 65536 else
      let x : Rat := mkRat ((ci - a.pos) * 65536 * (b.sNs - a.sNs : Int)) 1 / ((b.pos - a.pos : Int) : Rat)
      (sat (a.sNs * 65536) (b.sNs * 65536) (a.sNs * 65536 + roundHE x)).toNat
  | b :: _ => b.sNs * 65536
  | [] => 0

/-- An index event of the latest sample triggers the units that watch it (R107, R109); it is a rising edge (R82, Table 4.2). -/
def State.latIndex (s : State) (inst : Nat) : State :=
  match (s.fbk inst).idxC with
  | none => s
  | some ci =>
    (List.range 64).foldl (fun s u =>
      if s.rd P.LatSource u = 2 ∧ s.rd P.LatInput u = inst then
        s.latTrig u { stamp := s.indexStamp inst ci, rising := true, flags := 32, fixed := some ci, atS := false }
      else s) s

/-- A change of a CIN bit between consecutive valid slots of a node (R107). -/
def State.latCin (s : State) (node old new : Nat) : State :=
  (List.range 64).foldl (fun s u =>
    let k := s.rd P.LatInput u
    let b := bitsOf k 2 0
    if s.rd P.LatSource u = 3 ∧ bitsOf k 13 8 = node ∧ bitOf old b ≠ bitOf new b ∧ edgeTaken (s.rd P.LatEdge u) (bitOf new b) then
      s.latTrig u { stamp := s.time.lastS * 65536, rising := bitOf new b, flags := 16, fixed := none, atS := true }
    else s) s

/-- The sample pair around a stamp: m and, where held, m + 1. -/
def samplePair (stamp : Nat) : Option HistEntry → List HistEntry → Option (HistEntry × Option HistEntry)
  | _, [] => none
  | nxt, e :: r => if e.sNs * 65536 ≤ stamp then some (e, nxt) else samplePair stamp (some e) r

/-- The last valid position at or before a cycle's entry. -/
def lastValid (l : List HistEntry) (e : HistEntry) : Int :=
  match l.find? (fun x => x.valid && decide (x.sNs ≤ e.sNs)) with
  | some x => x.pos
  | none => e.pos

/-- Position, flags and cycle of a trigger, once its positions are held (R108, R113, R114). -/
def State.latValue (s : State) (u : Nat) (x : LatTrig) : Option (Int × Nat × Nat) :=
  let h := s.history (s.rd P.LatPosSource u)
  match samplePair x.stamp none h with
  | none => none
  | some (m, nx) =>
    let exact := decide (m.sNs * 65536 = x.stamp)
    match nx, exact || x.fixed.isSome with
    | none, false => none
    | _, _ =>
      let n := if x.atS || exact then m else nx.getD m
      let bad := !m.valid || !n.valid
      let sub := m.subst || n.subst
      let p : Int := match x.fixed with
        | some p => if bad then lastValid h n else p
        | none =>
          if bad then lastValid h n
          else if x.atS ∨ n.sNs = m.sNs then m.pos
          else roundHE (m.pos + mkRat ((n.pos - m.pos) * ((x.stamp : Int) - m.sNs * 65536)) (65536 * (n.sNs - m.sNs)))
      some (p, (if bad then 128 else 0) + (if sub then 64 else 0) + x.flags + (if x.rising then 8 else 0), m.cycle)

/-- The window limits in force at a stamp. -/
def State.latLimits (s : State) (u stamp : Nat) : Int × Int :=
  ((s.latch u).wins.reverse.find? (fun w => decide (stamp < w.1))).elim (s.rp P.LatWindowLo u, s.rp P.LatWindowHi u) (·.2)

/-- The window test (R112). -/
def State.latWindow (s : State) (u stamp : Nat) (p : Int) : Bool :=
  if !s.rb P.LatWindowEnable u then true else
    let per := s.rp P.LatWindowPeriod u
    let f := if per = 0 then p else p % per
    let (lo, hi) := s.latLimits u stamp
    if lo ≤ hi then decide (lo ≤ f ∧ f ≤ hi) else decide (lo ≤ f ∨ f ≤ hi)

/-- A stamp lies in an armed interval (R110). -/
def LatRec.caught (r : LatRec) (stamp : Nat) : Bool :=
  (r.armed && decide (r.armAt ≤ stamp)) || r.past.any fun x => decide (x.1 ≤ stamp ∧ stamp ≤ x.2)

/-- The first capture in single mode (R111): its stamp ends the armed interval it lies in; a LatArm after that stamp has armed the unit again. -/
def LatRec.single (r : LatRec) (stamp : Nat) : LatRec :=
  let later := r.rearm.filter fun y => decide (stamp < y)
  if r.armed && decide (r.armAt ≤ stamp) then
    match later with
    | [] => { r with armed := false, past := (r.armAt, stamp) :: r.past, rearm := [] }
    | y :: l => { r with armAt := y, past := (r.armAt, stamp) :: r.past, rearm := l }
  else
    { r with past := r.past.flatMap fun p =>
        if p.1 ≤ stamp ∧ stamp ≤ p.2 then (match later.find? (fun y => decide (y ≤ p.2)) with
          | some y => [(y, p.2), (p.1, stamp)]
          | none => [(p.1, stamp)]) else [p] }

/-- A latch record (Table 4.2). -/
def latRecord (u stamp flags seq : Nat) (p : Int) (cyc : Nat) : List Byte :=
  stampBytes (stamp / 65536) (stamp % 65536) ++ leBytes 1 flags ++ leBytes 1 u ++ leBytes 4 seq ++ leBytes 8 (uNat 64 p) ++
    leBytes 4 cyc ++ leBytes 4 0

/-- A stamp is more than 64 sample instants old: before every sample the section keeps. -/
def State.latOld (s : State) (u stamp : Nat) : Bool :=
  match (s.history (s.rd P.LatPosSource u)).reverse with
  | [] => decide (stamp / 65536 + 64 * s.cycleNs < s.time.lastS)
  | e :: r => decide (64 ≤ r.length + 1 ∧ stamp < e.sNs * 65536) || decide (stamp / 65536 + 64 * s.cycleNs < s.time.lastS)

/-- Form the record of the first trigger that has its positions: answers the record's stamp and position where one is captured. -/
def State.latForm (s : State) (u : Nat) : Option (Nat × Int × Nat) × State :=
  let r := s.latch u
  match r.trigs.find? (fun x => (s.latValue u x).isSome || s.latOld u x.stamp) with
  | none => (none, s)
  | some x =>
    let r := { r with trigs := r.trigs.erase x }
    if !r.caught x.stamp then (none, s.setLatch u r)
    else if s.latOld u x.stamp then (none, (s.setLatch u r).inc P.LatLost u)
    else match s.latValue u x with
      | none => (none, s.setLatch u r)
      | some (p, fl, cyc) =>
        if !bitOf fl 7 && !s.latWindow u x.stamp p then (none, (s.setLatch u r).inc P.LatRejected u)
        else
          let s := s.inc P.LatCaptures u
          let rec' := latRecord u x.stamp fl (s.rd P.LatCaptures u) p cyc
          let r := if s.rd P.LatMode u = 0 then r.single x.stamp else r
          if r.fifo.length < 8 then (some (x.stamp, p, fl), s.setLatch u { r with fifo := r.fifo ++ [rec'] })
          else (some (x.stamp, p, fl), (((s.setLatch u r).inc P.LatLost u).wrBit P.LatState u 2 true).raise E.latchOverflow u [])

/-- LatArm (R110): both limits take in the whole tick. A single-mode unit that reads armed may turn out to have been disarmed by a trigger that is
still on its way or waits for its positions; the tick of a further LatArm is kept for that case (R111). Intervals and ticks are kept for
2^30 ns, further back than the 29 bits of a stamp reach (Table 12.5). -/
def State.latArm (s : State) (u v : Nat) : State :=
  let r := s.latch u
  let now := s.lineNs * 65536
  let held (x : Nat) : Bool := decide (s.lineNs ≤ x / 65536 + 2 ^ 30)
  if v = 1 then
    if r.armed then (if s.rd P.LatMode u = 0 then s.setLatch u { r with rearm := r.rearm.filter held ++ [now] } else s)
    else
      let old := r.past.filter fun x => held x.2
      s.setLatch u { r with armed := true, armAt := now, past := old, wins := [], rearm := [] }
  else if r.armed then s.setLatch u { r with armed := false, past := (r.armAt, now + 65535) :: r.past }
  else s

/-- LATCH_READ (R111, R128). -/
def execLatchRead (t : Nat) (q : Req) (s : State) : Res :=
  runReq 0x0401 t q s fun s =>
    let n := fld q.body 0 1
    guarded [(decide (n < 1 ∨ 8 < n), ⟨0x0304, 0, 0, 0⟩)] <|
      let r := s.latch q.inst
      -- a unit that a coupling names returns no records (R223)
      let out := if (List.range 128).any fun a => s.rd P.CplRegLatch a == q.inst then [] else r.fifo.take n
      .ok 0 (leBytes 1 out.length ++ [0, 0, 0] ++ out.flatten)
        ((s.setLatch q.inst { r with fifo := r.fifo.drop out.length }).wrBit P.LatState q.inst 2 false)

/-- LATCH_FLUSH (R128). -/
def execLatchFlush (t : Nat) (q : Req) (s : State) : Res :=
  runReq 0x0402 t q s fun s => .ok 0 [] (s.setLatch q.inst { s.latch q.inst with fifo := [] })

/-! ### Compare units -/

/-- Raise the events of the hits whose instant has come, each with its own instant and cycle (R120). -/
def State.cmpDue (s : State) (u : Nat) : State :=
  let r := s.cmpU u
  if r.hits.all (fun x => decide (s.lineNs < x)) then s else
    (r.hits.filter (fun x => decide (x ≤ s.lineNs))).foldl (fun s x =>
        let e := s.mkEvent E.compareHit u 0 []
        s.raiseEv { e with timeNs := x, frac := 0, cycle := if x < s.time.lastS then (s.time.cycle + 0xFFFFFFFF) % 2 ^ 32 else s.time.cycle })
      (s.setCmp u { r with hits := r.hits.filter (fun x => decide (s.lineNs < x)) })

/-- The same for every unit. -/
def State.cmpDueAll (s : State) : State := (List.range 32).foldl State.cmpDue s

/-- The near side for a direction: hits in direction 1 come from below, in 2 from above. -/
def cmpSide (d : Nat) : Int := if d = 1 then -1 else if d = 2 then 1 else 0

/-- What runs on of a unit's output after a line time, for its present target. -/
def CmpRec.rest (r : CmpRec) (now : Nat) : List CmpRest :=
  (if r.levelAt now || r.after now != [] then [{ mask := r.mask, base := r.base, sched := r.sched }] else []) ++
    r.left.filter fun l => l.levelAt now || l.sched.any fun e => decide (now < e.at_)

/-- Arm a unit at S(c) (R115, R119). A pulse that still runs completes, on the target it was begun for (R120). -/
def State.cmpArm (s : State) (u : Nat) : State :=
  if (s.cmpU u).armed then s else
    let r : CmpRec := { CmpRec.init with
      hits := (s.cmpU u).hits, left := (s.cmpU u).rest s.time.lastS
      armed := true, first := true, side := cmpSide (s.rd P.CmpDirection u), c := s.rp P.CmpPosition u
      mask := s.rd P.CmpTarget u, mode := s.rd P.CmpMode u }
    ((s.setCmp u r).wr P.CmpState u 1).pushLine r.mask (s.time.lastS + 3000)

/-- Disarm a unit; toggle and window levels turn off at `x`, pulses complete (R120, R121). Instants already scheduled after `x` still take place;
the level they leave ends with the following cycle (DESIGN CHOICE, notes/assumptions/86.md). -/
def State.cmpDisarm (s : State) (u x : Nat) : State :=
  let r := { s.cmpU u with armed := false }
  let r' := if r.mode = 0 then r else if r.after x = [] then r.offAt x else (r.offAt x).offAt (x + s.cycleNs)
  (((s.setCmp u r').wr P.CmpArm u 0).wrBit P.CmpState u 0 false).pushLine r.mask x

/-- A crossing of `x` interpolated as in R108 from samples newest first; 2^-16 ns. -/
def crossing (x : Int) (dflt : Nat) : List (Nat × Int) → Nat
  | (t1, p1) :: (t0, p0) :: r =>
    if p0 ≠ p1 ∧ min p0 p1 ≤ x ∧ x ≤ max p0 p1 then
      (t0 * 65536 + roundHE (mkRat ((x - p0) * 65536 * (t1 - t0 : Int)) 1 / ((p1 - p0 : Int) : Rat))).toNat
    else crossing x dflt ((t0, p0) :: r)
  | _ => dflt

/-- What one prediction works on: unit, reference instant, position and velocity, virtual master, horizon, samples. -/
structure CmpCtx where
  u : Nat
  t0 : Nat
  p : Int
  v : Int
  vm : Bool
  h1 : Nat
  h2 : Nat
  sp : Int
  w : Int
  pw : Nat
  lim : Nat
  dir : Nat
  hist : List (Nat × Int)

/-- Hits of the horizon that are not scheduled: C advances past them (R118). -/
def State.cmpLostHits (s : State) (x : CmpCtx) (r : CmpRec) : State × CmpRec × Bool :=
  let dm := -r.side
  let c := if r.mode = 2 then r.c + dm * x.w else r.c
  -- of the hits C, C + spacing, … those that are late
  let gap := (c - x.p) * dm
  let k0 : Nat := if x.sp = 0 then 1 else if x.vm then (if 0 ≤ gap then 0 else ((x.sp - 1 - gap) / x.sp).toNat)
    else if 0 < gap then 0 else (-gap / x.sp + 1).toNat
  let th : Int := x.t0 + roundHE (mkRat ((c + dm * k0 * x.sp - x.p) * 1000000000) 1 / (x.v : Rat))
  let m0 : Nat := if x.sp = 0 ∨ x.v * dm ≤ 0 ∨ th < x.h1 then k0 else
    -- and those of the horizon: t0 + round((c + dm·k·sp - p) / v) < h2
    let b : Rat := mkRat (2 * ((x.h2 : Int) - x.t0) - 1) 2
    let y (k : Int) : Rat := mkRat ((c + dm * k * x.sp - x.p) * 1000000000) 1 / (x.v : Rat)
    let d := y 1 - y 0
    let q := (b - y 0) / d
    max k0 (if (x.h2 - x.t0) % 2 = 0 then q.ceil else q.floor + 1).toNat
  let m1 := max 1 m0
  let m := if x.lim = 0 then m1 else min m1 (x.lim - r.count)
  let s := s.wr P.CmpLost x.u ((s.rd P.CmpLost x.u + m) % 2 ^ 32)
  let r := { r with count := r.count + m, inWin := false }
  let r := if x.sp = 0 then { r with need := true, needT := x.h2, side := if x.dir = 3 then -r.side else r.side }
    else { r with c := r.c + dm * x.sp * m }
  (s, r, decide (x.lim ≠ 0 ∧ x.lim ≤ r.count))

/-- The switching instants of one prediction (R116 to R119): `room` of them are left. Answers the unit, the first instant set, done. -/
def State.cmpLoop (x : CmpCtx) : Nat → Nat → Option Nat → State → CmpRec → State × CmpRec × Option Nat × Bool
  | 0, _, first, s, r => (s, r, first, false)
  | fuel + 1, room, first, s, r =>
    let dm := -r.side
    let entry := decide (r.mode = 2) && !r.inWin
    let c := if r.mode = 2 ∧ r.inWin then r.c + dm * x.w else r.c
    let gap := (c - x.p) * dm
    let late := if x.vm then decide (gap < 0) else decide (gap ≤ 0)
    let go := decide (0 < x.v * dm)
    let th : Int := if gap = 0 then x.t0 else
      if go then x.t0 + roundHE (mkRat ((c - x.p) * 1000000000) 1 / (x.v : Rat)) else s.lineNs
    if !late && !(go || decide (gap = 0)) then (s, r, first, false)
    else if !late && (decide (th < x.h1) || decide ((x.h2 : Int) ≤ th)) then (s, r, first, false)
    else if decide (room < 1) || (entry && decide (room < 2) && decide (x.t0 + roundHE (mkRat ((c + dm * x.w - x.p) * 1000000000) 1 / (x.v : Rat)) < x.h2)) then
      let (s, r, done) := s.cmpLostHits x r
      (s, r, first, done)
    else
      let t := th.toNat
      let s := if late then (s.inc P.CmpLate x.u).raise E.compareLate x.u [] else s
      let first := some (match first with | some y => min y t | none => t)
      if entry then cmpLoop x fuel (room - 1) first s { r.put t 1 false false with inWin := true }
      else
        let s := s.inc P.CmpHits x.u
        let at16 := if late then crossing c (x.t0 * 65536) x.hist else t * 65536
        let s := s.wr P.CmpLastHitTime x.u (at16 / 65536 + at16 % 65536 * 2 ^ 64)
        let r := match r.mode with
          | 0 => (r.put t 1 false !late).put (t + x.pw) (-1) false false
          | 1 => r.put t 0 true !late
          | _ => { r.put t (-1) false !late with inWin := false }
        let r := { r with count := r.count + 1, hits := if bitOf r.mask 16 then r.hits ++ [t] else r.hits }
        let r := if x.sp = 0 then { r with need := true, needT := t, side := if x.dir = 3 then -r.side else r.side }
          else { r with c := r.c + dm * x.sp }
        if x.lim ≠ 0 ∧ x.lim ≤ r.count then (s, r, first, true)
        else if r.need then (s, r, first, false)
        else cmpLoop x fuel (room - 1) first s r

/-- One prediction of an armed unit (R115 to R121): reference instant, position, velocity, validity. -/
def State.cmpPredict (s : State) (u t0 : Nat) (p v : Int) (vm valid : Bool) : State :=
  let r := (s.cmpU u).prune s.time.lastS
  if !r.armed then s
  else if !valid then
    ((s.cmpDisarm u s.time.nextS).wrBit P.CmpState u 3 true).raise E.compareSourceLost u []
  else
    let sp := s.rp P.CmpSpacing u
    let src := s.rd P.CmpSource u
    let x : CmpCtx := { u := u, t0 := t0, p := p, v := v, vm := vm, h1 := s.time.nextS, h2 := s.nextS2, sp := sp
                        w := s.rp P.CmpWindowWidth u, pw := (roundHE (s.rf P.CmpPulseWidth u * 1000)).toNat
                        lim := s.rd P.CmpCountLimit u, dir := s.rd P.CmpDirection u
                        hist := (if vm then [(t0, p)] else []) ++ (s.history src).map fun e => (e.sNs, e.pos) }
    -- first prediction: beyond C already (R115)
    let beyond := r.first && decide (r.side ≠ 0 ∧ (p - r.c) * r.side ≤ 0)
    let k : Int := if sp = 0 then 0 else (p - r.c) * (-r.side) / sp + 1
    let s := if beyond ∧ sp ≠ 0 then s.wrBit P.CmpState u 4 true else s
    let r := if beyond then (if sp = 0 then { r with need := true } else { r with c := r.c - r.side * k * sp }) else r
    let r := { r with first := false, side := if r.side = 0 then (if r.c < p then 1 else if p < r.c then -1 else 0) else r.side }
    if r.side = 0 then s.setCmp u r
    else if r.need && (decide (t0 ≤ r.needT) || decide ((p - r.c) * r.side ≤ 0)) then s.setCmp u r
    else
      let (s, r, first, done) := State.cmpLoop x 6 4 none s { r with need := false }
      let s := s.setCmp u r
      let s := match first with | some y => s.pushLine r.mask y | none => s
      if done then
        let last := r.sched.foldl (fun m e => max m e.at_) s.lineNs
        (s.wrBit P.CmpState u 2 true).cmpDisarm u (if last < s.time.nextS then s.time.nextS else s.nextS2)
      else s

/-- The predictions of a sample of an axis or port (R116, R121). -/
def State.cmpSample (s : State) (src : Nat) : State :=
  match s.history src with
  | [] => s
  | e :: _ => (List.range 32).foldl (fun s u =>
      if (s.cmpU u).armed ∧ s.rd P.CmpSource u = src then s.cmpPredict u e.sNs e.pos (s.rp P.FbSpeed src) false e.valid else s) s

/-- CmpPosition written while armed replaces the advanced C (Table 4.4). A window whose entry is scheduled ends at S(c), or at its entry where
that comes later (DESIGN CHOICE, notes/assumptions/86.md). -/
def State.cmpNewC (s : State) (u : Nat) : State :=
  let r := s.cmpU u
  if r.armed ∧ r.inWin then
    let x := r.sched.foldl (fun m e => max m e.at_) s.time.lastS
    (s.setCmp u { r.put x (-1) false false with
      c := s.rp P.CmpPosition u, inWin := false, need := false, side := cmpSide (s.rd P.CmpDirection u) }).pushLine r.mask x
  else if r.armed then s.setCmp u { r with c := s.rp P.CmpPosition u, inWin := false, need := false, side := cmpSide (s.rd P.CmpDirection u) }
  else s

/-- An entry that reached the field side late: the hits it carries count as late (R117, R342). -/
def State.cmpLateEntry (s : State) (o x : Nat) : State :=
  (List.range 32).foldl (fun s u =>
    let r := s.cmpU u
    let told (l : List CmpInst) : List CmpInst := l.map fun e => if e.at_ = x then { e with hit := false } else e
    let hit (l : List CmpInst) : Bool := l.any fun e => e.at_ == x && e.hit
    if (bitOf r.mask o && hit r.sched) || r.left.any (fun l => bitOf l.mask o && hit l.sched) then
      ((s.setCmp u { r with sched := told r.sched, left := r.left.map fun l => { l with sched := told l.sched } }).inc P.CmpLate u).raise
        E.compareLate u []
    else s) s

/-! ### Encoder emulation -/

/-- The edges of a cycle: line time and levels A, B, Z (bits 0 to 2), 9 bytes each. -/
def emuEdges (base T k : Nat) (sg : Int) (z : Int → Bool) : Nat → Nat → Int → List Byte
  | 0, _, _ => []
  | f + 1, j, c =>
    let c' := c + sg
    let ab := [0, 1, 3, 2].getD (c' % 4).toNat 0
    leBytes 8 (base + j * T / k / 10 * 10) ++ leBytes 1 (ab + if z c' then 4 else 0) ++ emuEdges base T k sg z f (j + 1) c'

/-- Z of a counter (R125). -/
def State.emuZ (s : State) (e : Nat) (c : Int) : Bool :=
  s.rb P.EmuZMode e && decide (c % (s.rd P.EmuZPeriod e : Int) = s.rd P.EmuZPhase e)

/-- EMULATION_OUTPUT_UPDATE: at S(n + 1), from sample n (R122 to R126). At the first update after EmuEnable q(n - 1) is q(n), so that nothing is
put out, and the counter of Z starts at 0 (DESIGN CHOICE, notes/assumptions/107.md). -/
def State.emuUpdate (s : State) (e : Nat) : State :=
  if !s.rb P.EmuEnable e then s else
  let r := s.emuU e
  let prev := (s.time.cycle + 2 ^ 32 - 1) % 2 ^ 32
  let st := s.rd P.EmuState e
  match (s.history (s.rd P.EmuSource e)).find? (fun h => h.cycle == prev) with
  | none => (s.wr P.EmuBacklog e 0).wr P.EmuState e (setBit (setBit st 2 true) 1 false)
  | some h =>
    if !h.valid then (s.wr P.EmuBacklog e 0).wr P.EmuState e (setBit (setBit st 2 true) 1 false)
    else
      let sg : Int := if s.rb P.EmuInvert e then -1 else 1
      let q : Int := (sg * h.pos * s.rd P.EmuNumerator e) / ((s.rd P.EmuDenominator e : Int) * 65536)
      let lost := bitOf st 2
      let s := if lost then (s.wr P.EmuState e (setBit st 2 false)).raise E.emulationResync e [] else s
      let q0 := if lost ∨ !r.started then q else r.q
      let kmax := (s.rf P.EmuMaxRate e * s.cycleNs / 1000000000).floor.toNat
      let b0 := s.ri P.EmuBacklog e
      let pend := b0 + (q - q0)
      let k := min pend.natAbs kmax
      let sn : Int := if pend < 0 then -1 else 1
      let b := pend - sn * k
      let bl := sat (-65535) 65535 b
      let ovf := (b - bl).natAbs
      let s := if k = 0 then s else s.frame .edges e (emuEdges s.time.lastS s.cycleNs k sn (s.emuZ e) k 0 r.count)
      let c := r.count + sn * k
      let s := (s.setEmu e { q := q, started := true, count := c, z := s.emuZ e c }).wr P.EmuBacklog e (uNat 32 bl)
      let s := s.raiseIf (decide (b0 = 0 ∧ b ≠ 0)) E.emulationOverspeed e []
      let s := s.wrBit P.EmuState e 1 (decide (bl ≠ 0))
      if ovf = 0 then s else
        (s.wr P.EmuLost e ((s.rd P.EmuLost e + ovf) % 2 ^ 32)).raise E.emulationOverflow e []

/-- EmuEnable written: while disabled A, B and Z are low (R126). -/
def State.emuSwitch (s : State) (e : Nat) : State :=
  if s.rb P.EmuEnable e then (if bitOf (s.rd P.EmuState e) 0 then s else s.wr P.EmuState e 1)
  else ((s.setEmu e EmuRec.init).wr P.EmuState e 0).wr P.EmuBacklog e 0

/-! ### Write rules -/

/-- A position source names an axis or port without feedback. -/
def State.srcEmpty (s : State) (src : Nat) : Bool := decide (src < 256) && s.rdShadow P.FbType src == 0

/-- Refusals of a write to a parameter of Table 4.5 (R105, R109, R115, R119, R122, R127, R290). -/
def State.latWriteBad (s : State) (idx i v : Nat) : List (Bool × Rsn) :=
  let sh (p : Nat) : Nat := if p = idx then v else s.rdShadow p i
  let arm := decide (idx = P.LatArm ∧ v = 1)
  let carm := decide (idx = P.CmpArm ∧ v = 1) && !(s.cmpU i).armed
  let src := sh P.LatPosSource
  [(decide (idx = P.LatPosSource ∨ idx = P.CmpSource ∨ idx = P.EmuSource) && !srcCodeOk v, ⟨0x0318, 0, 0, 0⟩),
   (arm && sh P.LatSource == 2 && src != sh P.LatInput, ⟨0x0319, 0, 0, 0⟩),
   (carm && sh P.CmpDirection == 3 && sh P.CmpSpacing != 0, ⟨0x031A, 0, 0, 0⟩),
   (carm && sh P.CmpMode == 2 && (sh P.CmpDirection == 3 || decide (sInt 64 (sh P.CmpSpacing) < sInt 64 (sh P.CmpWindowWidth))),
     ⟨0x031A, 0, 0, 0⟩),
   (decide (idx = P.EmuNumerator ∨ idx = P.EmuDenominator) && decide (sh P.EmuDenominator < sh P.EmuNumerator), ⟨0x031A, 0, 0, 0⟩),
   (arm && (sh P.LatSource == 0 || s.srcEmpty src ||
      (sh P.LatSource == 2 && s.rdShadow P.FbType (sh P.LatInput) != 1)), ⟨0x0318, 0, 0, 0⟩),
   (carm && s.srcEmpty (sh P.CmpSource), ⟨0x0318, 0, 0, 0⟩),
   (decide (idx = P.LatInput) && (match s.rdShadow P.LatSource i with
      | 1 => decide (15 < v) | 2 => decide (135 < v) | 3 => decide (v - v.land 0x3F07 ≠ 0) | _ => false), ⟨0x0304, 0, 0, 0⟩),
   (decide (idx = P.EmuZPhase ∧ sh P.EmuZPeriod ≤ v), ⟨0x0304, 0, 0, 0⟩),
   (decide (idx = P.EmuZPeriod ∧ v ≤ sh P.EmuZPhase), ⟨0x0304, 0, 0, 0⟩),
   (decide (P.LatSource ≤ idx ∧ idx ≤ P.LatWindowPeriod) && (s.latch i).armed, ⟨0x0219, 0, 0, 0⟩),
   ([P.CmpSource, P.CmpDirection, P.CmpMode, P.CmpWindowWidth, P.CmpCountLimit, P.CmpTarget].contains idx && (s.cmpU i).armed,
     ⟨0x0219, 0, 0, 0⟩),
   ((decide (P.EmuSource ≤ idx ∧ idx ≤ P.EmuInvert) || [P.EmuZMode, P.EmuZPeriod, P.EmuZPhase].contains idx) && s.rb P.EmuEnable i,
     ⟨0x0219, 0, 0, 0⟩),
   (carm && (bitList 16 (sh P.CmpTarget)).any (fun o => s.dqOwner o == 2), ⟨0x022D, 0, 0, 0⟩)]

/-- Before a commit changes a window limit: the old limits stay for earlier stamps (Table 4.3). -/
def State.latBefore (s : State) (idx i : Nat) : State :=
  if idx = P.LatWindowLo ∨ idx = P.LatWindowHi then
    let r := s.latch i
    if r.armed then
      s.setLatch i { r with wins := ((s.time.lastS * 65536, s.rp P.LatWindowLo i, s.rp P.LatWindowHi i) :: r.wins).take 8 }
    else s
  else s

/-- What a write of a parameter of Table 4.5 brings once it is active. -/
def State.latChanged (s : State) (idx i : Nat) : State :=
  if idx = P.CmpArm then (if s.rb P.CmpArm i then s.cmpArm i else if (s.cmpU i).armed then s.cmpDisarm i s.time.lastS else s)
  else if idx = P.CmpPosition then s.cmpNewC i
  else if idx = P.EmuEnable then s.emuSwitch i
  else s

end Sys2Proof.Machine
end

