-- ==== Sys2Proof/Machine/Modulation.lean ====
section
/-!
DEFINITION. Modulation and gate outputs (chapter 09): edge records, load-all, local pairs, trips, delay lines, microstep tables.
-/
namespace Sys2Proof.Machine

def State.setMod (s : State) (m : ModState) : State := { s with mod := m }
def State.gp (s : State) (n : Nat) : GpRec := tabGet s.mod.gp GpRec.init n
def State.setGp (s : State) (n : Nat) (r : GpRec) : State :=
  s.setMod { s.mod with gp := tabSet s.mod.gp GpRec.init n r }

/-! ### Records (R242 to R244) -/

/-- KIND of a record. -/
inductive EKind where
  | pulse | high | low | off
  deriving DecidableEq, Repr

/-- An edge record. Instants in units u. -/
structure EdgeRec where
  kind : EKind
  dt : Nat
  on : Nat
  off : Nat
  deriving DecidableEq, Repr

def EdgeRec.none_ : EdgeRec := { kind := .off, dt := 0, on := 0, off := 0 }

def EKind.code : EKind → Nat
  | .pulse => 0
  | .high => 1
  | .low => 2
  | .off => 3

/-- The 48-bit form (Table 9.1). -/
def EdgeRec.enc48 (r : EdgeRec) : Nat := r.kind.code * 2 ^ 46 + r.dt * 2 ^ 38 + r.on * 2 ^ 19 + r.off

/-- The 56-bit form of a local record. -/
def EdgeRec.enc56 (r : EdgeRec) : Nat := r.kind.code * 2 ^ 54 + r.dt * 2 ^ 46 + r.on * 2 ^ 23 + r.off

/-- Start level (R244): 0 low, 1 high, 2 off. `n` is T/u. -/
def EdgeRec.startLv (r : EdgeRec) : Nat :=
  match r.kind with
  | .pulse => if r.on = 0 then 1 else 0
  | .high => 1
  | .low => 0
  | .off => 2

/-- End level (R244). -/
def EdgeRec.endLv (r : EdgeRec) (n : Nat) : Nat :=
  match r.kind with
  | .pulse => if r.off = n then 1 else 0
  | .high => 1
  | .low => 0
  | .off => 2

/-- Commutation low to high at `x`: low side off, high side on after the dead time. Codes: 0 low off, 1 high on, 2 high off, 3 low on. -/
def commUp (x d : Nat) : List (Nat × Nat) := [(x, 0), (x + d, 1)]

/-- Commutation high to low. -/
def commDown (x d : Nat) : List (Nat × Nat) := [(x, 2), (x + d, 3)]

/-- The switchings of a period, offsets in units u from U (R243, R244); `d` is the dead time in units. -/
def periodEdges (prev : Nat) (r : EdgeRec) (n d : Nat) : List (Nat × Nat) :=
  let b := match prev, r.startLv with
    | 0, 1 => commUp 0 d
    | 1, 0 => commDown 0 d
    | 0, 2 => [(0, 0)]
    | 1, 2 => [(0, 2)]
    | 2, 1 => [(d, 1)]
    | 2, 0 => [(d, 3)]
    | _, _ => []
  b ++ (if r.kind = .pulse then
    (if 0 < r.on then commUp r.on d else []) ++ (if r.off < n then commDown r.off d else []) else [])

/-- Flags of Table 9.11 that a formation sets. -/
structure ModFlags where
  overmod : Bool
  minPulse : Bool
  clamp : Bool

/-- A duty to a record (R248 to R251): alignment, T in ns, minimum pulse, dead time (12.5 ns units), compensation and its k, T/u. -/
def dutyRecord (d0 T P : Rat) (align dt : Nat) (comp : Bool) (k : Rat) (n : Nat) : EdgeRec × Bool × Bool :=
  let lo := d0 * T
  let hi := (1 - d0) * T
  let (d, mp) : Rat × Bool :=
    if lo < P / 2 then (0, decide (d0 ≠ 0)) else if lo < P then (P / T, true)
    else if hi < P / 2 then (1, decide (d0 ≠ 1)) else if hi < P then (1 - P / T, true) else (d0, false)
  if d ≤ 0 then ({ kind := .low, dt := dt, on := 0, off := 0 }, mp, false)
  else if 1 ≤ d then ({ kind := .high, dt := dt, on := 0, off := 0 }, mp, false)
  else
    let (on, off) : Rat × Rat := match align with
      | 1 => (0, d * T)
      | 2 => ((1 - d) * T, T)
      | _ => ((1 - d) * T / 2, (1 + d) * T / 2)
    let dtn : Rat := mkRat dt 2 * 25
    let on' := if comp then on - dtn * (1 + k) / 2 else on
    let off' := if comp then off - dtn * (1 - k) / 2 else off
    let cl := decide (on' < 0) || decide (T < off')
    let on'' := satR 0 T on'
    let off'' := satR 0 T off'
    ({ kind := .pulse, dt := dt, on := (roundHE (on'' * n / T)).toNat, off := (roundHE (off'' * n / T)).toNat }, mp, cl)

/-! ### Remote axes -/

/-- A load-all setting as it governs records of the present samples (R256). -/
def State.modVal (s : State) (idx i : Nat) : Nat := (tabGet s.mod.prev none (pkey idx i)).getD (s.rd idx i)

/-- Dead time in 12.5 ns units. -/
def State.modDt (s : State) (i : Nat) : Nat := (roundHE (f32ToRat (s.modVal P.ModDeadTime i) / (25 / 2))).toNat

def largest3 (a b c : Rat) : Rat := max a (max b c)
def smallest3 (a b c : Rat) : Rat := min a (min b c)

/-- √3/2. -/
def halfRoot3 : Rat := sqrtR 3 / 2

/-- Duties of the three phases (R246, R247): method, command. -/
def duties3 (method : Nat) (mA mB : Rat) : List Rat × Bool :=
  let a := mA
  let b := -mA / 2 + halfRoot3 * mB
  let c := -mA / 2 - halfRoot3 * mB
  let span := largest3 a b c - smallest3 a b c
  let big := largest3 (absR a) (absR b) (absR c)
  let (f, ov) : Rat × Bool :=
    if method = 1 then (if 1 / 2 < big then (1 / (2 * big), true) else (1, false))
    else if 1 < span then (1 / span, true) else (1, false)
  let (a, b, c) := (f * a, f * b, f * c)
  let mx := largest3 a b c
  let mn := smallest3 a b c
  let z : Rat := match method with
    | 1 => 0
    | 2 => if 0 ≤ mx + mn then 1 / 2 - mx else -1 / 2 - mn
    | _ => -(mx + mn) / 2
  ([1 / 2 + a + z, 1 / 2 + b + z, 1 / 2 + c + z].map (satR 0 1), ov)

/-- Duties of the two legs of a winding (R246, R247). -/
def duties2 (method : Nat) (m0 : Rat) : List Rat × Bool :=
  let m := satR (-1) 1 m0
  (if method = 3 then [max m 0, max (-m) 0] else [(1 + m) / 2, (1 - m) / 2], decide (1 < absR m0))

def exch {α : Type} (l : List α) (i j : Nat) : List α :=
  match l[i]?, l[j]? with
  | some x, some y => (l.set i y).set j x
  | _, _ => l

/-- ModPhaseSwap on a list of the three phases (R252). -/
def swapPhases {α : Type} (sw : Nat) (l : List α) : List α :=
  match sw with
  | 1 => exch l 1 2
  | 2 => exch l 0 1
  | 3 => exch l 0 2
  | _ => l

/-- Duties per pair in the order of the cell (R245, R252, R253). -/
def State.axisDuties (s : State) (a : Nat) (mA mB : Rat) : List Rat × Bool :=
  let meth := s.modVal P.ModMethod a
  let inv := s.modVal P.ModInvert a
  let leg (b : Bool) (l : List Rat) := if b then l.reverse else l
  match s.rd P.LoopMotorType a with
  | 1 => let (d, ov) := duties3 meth mA mB; (swapPhases (s.modVal P.ModPhaseSwap a) d, ov)
  | 2 =>
    let (da, oa) := duties2 meth mA
    let (db, ob) := duties2 meth mB
    (leg (bitOf inv 0) da ++ leg (bitOf inv 1) db, oa || ob)
  | 3 => let (d, ov) := duties2 meth mA; (leg (bitOf inv 0) d, ov)
  | _ => ([], false)

/-- Full scales of the cell of an axis; 0 without a cell. -/
def State.curFs (s : State) (a : Nat) : Rat := identCurFs (s.ident (s.axisNode a))
def State.voltFs (s : State) (a : Nat) : Rat := identVoltFs (s.ident (s.axisNode a))

/-- Currents of the pairs in amperes, from the samples of S(n) (R250). -/
def State.pairCurrents (s : State) (a : Nat) : List Rat :=
  let r := s.axis a
  let f (x : Int) : Rat := mkRat x 32768 * s.curFs a
  match s.rd P.LoopMotorType a with
  | 1 => [f r.ia, f r.ib, f r.ic]
  | 2 => [f r.ia, -(f r.ia), f r.ib, -(f r.ib)]
  | _ => [f r.ia, -(f r.ia)]

/-- The measured currents as delivered to the engine: exchanged and negated as R252 and R253 say; fraction 2^-15. -/
def State.engCurrents (s : State) (a : Nat) : Int × Int × Int :=
  let r := s.axis a
  if s.rd P.LoopMotorType a = 1 then
    match swapPhases (s.modVal P.ModPhaseSwap a) [r.ia, r.ib, r.ic] with
    | [x, y, z] => (x, y, z)
    | _ => (r.ia, r.ib, r.ic)
  else
    let inv := s.modVal P.ModInvert a
    (if bitOf inv 0 then -r.ia else r.ia, if bitOf inv 1 then -r.ib else r.ib, r.ic)

/-- The pairs of an axis at its cell. -/
def State.axisPairs (s : State) (a : Nat) : Nat := identPairs (s.ident (s.axisNode a)) (s.cellAxis a)

/-- The 24 bytes of ModEdgeRecords for remote records. -/
def recBytes (rs : List EdgeRec) : List Byte := padTo 24 ((rs.map fun r => beBytes 6 r.enc48).flatten)

/-- An all-off edge set (R18, R150). -/
def State.offSet (s : State) (a : Nat) : State :=
  (s.wr P.ModEdgeRecords a (leNat (recBytes (List.replicate (s.axisPairs a) EdgeRec.none_)))).wr P.ModStatus a 1

/-- EDGE_SET_FORMED: the records of an axis from its voltage command (R246 to R251). -/
def State.formEdges (s : State) (a : Nat) : State :=
  if !s.axisRuns a then s.offSet a else
  let r := s.axis a
  let (ds, ov) := s.axisDuties a (mkRat r.cmdA (2 ^ 31)) (mkRat r.cmdB (2 ^ 31))
  let T : Rat := s.cycleNs
  let band := f32ToRat (s.modVal P.ModDtCompBand a)
  let comp := s.modVal P.ModDtComp a = 1
  let out := (ds.zip (s.pairCurrents a)).map fun x =>
    dutyRecord x.1 T (f32ToRat (s.modVal P.ModMinPulse a)) (s.modVal P.ModAlign a) (s.modDt a) comp (satR (-1) 1 (x.2 / band)) 400000
  let was := bitOf (s.rd P.ModStatus a) 1
  let st := (if ov then 2 else 0) + (if out.any (·.2.1) then 4 else 0) + (if out.any (·.2.2) then 8 else 0) +
    (if out.all (fun x => decide (x.1.kind = .off)) then 1 else 0)
  ((s.wr P.ModEdgeRecords a (leNat (recBytes (out.map (·.1))))).wr P.ModStatus a st).raiseIf (ov && !was) E.overmodulation a (leBytes 4 a)

/-! ### Load-all (R254 to R257) -/

/-- The load-all set: parameters of axes and of local pairs. -/
def loadSet : List Nat :=
  [P.ModMethod, P.ModAlign, P.ModDeadTime, P.ModMinPulse, P.ModDtComp, P.ModDtCompBand, P.ModPhaseSwap, P.ModInvert, P.GpMode,
   P.GpTestDuty, P.GpTripEnable, P.GpTripFilter, P.GpTripScope]

/-- Writes of a member take effect at once (R254). -/
def State.modAtOnce (s : State) (i : Nat) : Bool :=
  if i < 128 then !s.rb P.AxisState i else s.rd P.GpMode i == 0

/-- A load-all that names the member's group is set and not yet taken. -/
def State.modLocked (s : State) (i : Nat) : Bool :=
  s.mod.loads.any fun l => bitOf l.groups (s.rd P.ModLoadGroup i)

/-- A key belongs to a staged set. -/
def State.inStaged (s : State) (k : Nat) : Bool := s.par.staged.any fun g => g.keys.contains k

/-- Take the load-all set of a member: shadow copies become active; the old values govern until the next sample instant. -/
def State.takeMember (s : State) (i : Nat) : State :=
  loadSet.foldl (fun s p =>
    let k := pkey p i
    match tabGet s.par.shadow none k with
    | some v =>
      if s.inStaged k then s else
        let s := s.setMod { s.mod with prev := tabSet s.mod.prev none k (some (s.modVal p i)) }
        (s.wr p i v).dropShadow k
    | none => s) s

/-- Members of the groups of a mask. -/
def State.members (s : State) (mask : Nat) : List Nat :=
  (List.range 140).filter fun i => bitOf mask (s.rd P.ModLoadGroup i)

/-- Load-alls due at R(n) are taken (R255, R257, R261, R264, R265). -/
def State.loadAllReload (s : State) : State :=
    let due := s.mod.loads.filter fun l => decide (cycDiff l.cycle s.time.cycle ≥ 0)
    due.foldl (fun s l =>
      let s := s.setMod { s.mod with loads := s.mod.loads.filter (fun x => decide (x ≠ l)) }
      let s := (s.members l.groups).foldl (fun s i =>
        let s := s.takeMember i
        if i < 128 then
          if s.mod.axWait.contains i && decide (s.mod.clrTick < l.tick) && !s.mod.blocked then
            (s.setMod { s.mod with axWait := s.mod.axWait.erase i }).unhold i holdISLAND
          else s
        else
          let n := i - 128
          let g := s.gp n
          let s := if bitOf (s.rd P.GpTripState i) 5 && decide (g.clear < l.tick) then s.wrBit P.GpTripState i 5 false else s
          if g.wait && decide (s.mod.relTick < l.tick ∧ s.mod.clrTick < l.tick) && s.mod.halted == 0 && !s.mod.blocked then s.setGp n { s.gp n with wait := false }
          else s) s
      let s := (bitList 16 l.groups).foldl (fun s g => (s.wr P.ModLastReload g s.time.cycle).wr P.ModLoadAllState g
        (if s.mod.loads.any (fun x => bitOf x.groups g) then 1 else 0)) s
      let s := s.raise E.loadAllTaken 0 (leBytes 4 l.groups ++ leBytes 4 s.time.cycle)
      s.complete l.req l.id s.time.cycle 0 0 0 0) s

/-- The line time of R(n) of the present cycle. -/
def State.reloadNs (s : State) : Nat := s.time.lastS + s.cycleNs / 2

/-- A load-all set now is in time for the reload of the present cycle: at least one modulation clock (10 ns) before its clock (R37, R255). The
edges of the modulation clock lie at whole multiples of 10 ns of line time (DESIGN CHOICE, notes/assumptions/97.md). -/
def State.loadInTime (s : State) : Bool := decide (s.lineNs / 10 + 1 ≤ s.reloadNs / 10)

/-- LOAD_ALL (R257). -/
def execLoadAll (t : Nat) (q : Req) (s : State) : Res :=
  runReq 0x0801 t q s fun s =>
    let mask := fld q.body 0 2
    let tg := bitOf (fld q.body 8 1) 0
    let c0 := if s.loadInTime then s.time.cycle else (s.time.cycle + 1) % 2 ^ 32
    let c := if tg then fld q.body 4 4 else c0
    let late := tg && decide (cycDiff c0 c < 0)
    let stagedHit := s.par.staged.any fun g => g.pending.isSome && g.keys.any fun k =>
      loadSet.contains (k / 65536) && bitOf mask (s.rd P.ModLoadGroup (k % 65536))
    guarded [(stagedHit, ⟨0x0210, 0, 0, 0⟩), (late, ⟨0x0211, 0, 0, 0⟩),
        (s.mod.loads.any (fun l => decide (l.groups.land mask ≠ 0)), ⟨0x0210, 0, 0, 0⟩)] <|
      let (id, s1) := s.takeId
      let s1 := s1.setMod { s1.mod with loads := s1.mod.loads ++ [{ groups := mask, cycle := c, tick := s1.time.tick, id := id, req := q }] }
      .ok 0x0102 (crBytes c id) ((bitList 16 mask).foldl (fun s g => s.wr P.ModLoadAllState g 1) s1)

/-! ### Local pairs -/

/-- A local pair may switch: no latch, no scope, no wait, no halt (R259, R261, R264). -/
def State.gpFree (s : State) (n : Nat) : Bool :=
  (s.rd P.GpTripState (128 + n)).land 0x3C == 0 && !(s.gp n).wait && s.mod.halted == 0 && !s.mod.blocked

/-- The exchange of an output's lines at a reload without an edge within 20 ns (R268). -/
def OutCal.swap (c : OutCal) : OutCal := { c with serv := 1 - c.serv, now := c.coarse }

/-- The output that an edge acts on: 0 low side, 1 high side. -/
def edgeOutput (code : Nat) : Nat := if code = 1 ∨ code = 2 then 1 else 0

/-- An edge `e` units after U (line time `u` in ns) as its output places it: whole modulation clocks of line time, and a tap (R268). In coarse
placement a turn-on is rounded up and a turn-off down to the clock (R270). The clock edges lie at whole multiples of 10 ns of line time; a
tap half way between two is the even one (DESIGN CHOICE, notes/assumptions/97.md). -/
def OutCal.place (c : OutCal) (u : Nat) (e : Nat × Nat) : Nat × Nat :=
  let x : Rat := mkRat (64 * u + 5 * e.1) 640
  if c.now then ((if e.2 = 1 ∨ e.2 = 3 then x.ceil else x.floor).toNat, 0)
  else (x.floor.toNat, (roundHE ((x - x.floor) * (c.n.getD c.serv 0 : Nat))).toNat)

/-- The edges of a period on an output (R268): the lines exchange roles where none lies within 20 ns of the reload. -/
def OutCal.period (c : OutCal) (j N : Nat) (es : List (Nat × Nat)) : OutCal :=
  let own := (es.filter fun e => edgeOutput e.2 == j).map (·.1)
  let c := if c.near || own.any (fun e => decide (e ≤ 256)) then c else c.swap
  { c with near := own.any fun e => decide (N ≤ e + 256 ∧ e ≤ N + 256) }

/-- An edge as placed: clock, tap, what switches; and its bytes. -/
def placedEdge (cal : List OutCal) (u : Nat) (e : Nat × Nat) : Nat × Nat × Nat :=
  let p := (cal.getD (edgeOutput e.2) OutCal.init).place u e
  (p.1, p.2, e.2)
def edgeBytes (e : Nat × Nat × Nat) : List Byte := leBytes 8 e.1 ++ leBytes 1 e.2.1 ++ leBytes 1 e.2.2

/-- One local pair at its update instant (R244, R266 to R268). `cur` is the front end's current of the pair in amperes. -/
def State.gpUpdate (s : State) (n : Nat) (cur : Rat) : State :=
  let i := 128 + n
  let g := s.gp n
  let N := 400000 * 2 ^ s.rd P.SysCycleLength 0
  let T : Rat := s.cycleNs
  let k := satR (-1) 1 (cur / f32ToRat (s.modVal P.ModDtCompBand i))
  let mk (d : Rat) := dutyRecord d T (f32ToRat (s.modVal P.ModMinPulse i)) (s.modVal P.ModAlign i) (s.modDt i)
    (s.modVal P.ModDtComp i == 1) k N
  let x : EdgeRec × Bool × Bool :=
    if !s.gpFree n ∨ g.missed then (EdgeRec.none_, false, false)
    else match s.modVal P.GpMode i, g.duty with
      | 2, _ => mk (f32ToRat (s.modVal P.GpTestDuty i))
      | 1, some d => mk (satR 0 1 d)
      | _, _ => (EdgeRec.none_, false, false)
  let isOver := g.scaled && x.1.kind != .off && s.modVal P.GpMode i == 1
  let es := periodEdges g.endLv x.1 N (160 * x.1.dt)
  let cal := [0, 1].map fun j => (g.cal.getD j OutCal.init).period j N es
  let placed := es.map (placedEdge cal s.reloadNs)
  let s := s.setGp n { g with duty := none, missed := false, endLv := x.1.endLv N, cal := cal, edges := placed }
  let st := (if x.1.kind = .off then 1 else 0) + (if x.2.1 then 4 else 0) + (if x.2.2 then 8 else 0) +
    (if isOver then 2 else 0) + (if cal.any (·.coarse) then 16 else 0)
  let was := bitOf (s.rd P.ModStatus i) 1
  let s := (s.wr P.ModEdgeRecords i (leNat (padTo 24 (beBytes 7 x.1.enc56)))).wr P.ModStatus i st
  let s := s.raiseIf (isOver && !was) E.overmodulation i (leBytes 4 i)
  if es = [] then s else s.frame .edges i (placed.map edgeBytes).flatten

/-- DELAY_LINE_CALIBRATION: a line of an output is measured (R268, R270). -/
def execDelayLineCalibration (t pair : Nat) (high : Bool) (n : Nat) (s : State) : Res :=
  onUnit t s (decide (pair < 12)) fun s =>
    let g := s.gp pair
    let j := if high then 1 else 0
    let c := g.cal.getD j OutCal.init
    let ok := decide (100 ≤ n ∧ n ≤ 250)
    let bad := if ok then 0 else min 4 (c.bad + 1)
    let good := if ok then min 16 (c.good + 1) else 0
    let co := if bad = 4 then true else if good = 16 then false else c.coarse
    let c' := { c with n := c.n.set (1 - c.serv) n, bad := bad, good := good, coarse := co }
    let i := 128 + pair
    let was := g.cal.any (·.coarse)
    let cal := g.cal.set j c'
    let any := cal.any (·.coarse)
    let s := s.setGp pair { g with cal := cal }
    let s := s.wr P.GpCalState i (n % 65536 * 65536 + (if any then 2 else 0) + (if ok then 1 else 0))
    let s := s.wrBit P.ModStatus i 4 any
    if any && !was then s.raise E.delayLineCalibrationFailed i (leBytes 4 pair ++ leBytes 4 n)
    else if !any && was then s.raise E.delayLineCalibrationRestored i (leBytes 4 pair ++ leBytes 4 n)
    else s

/-- The front-end section's duties for R(n) were ready 100 ns before it: FJ8 of this cycle had ended (R266). -/
def State.dutiesReady (s : State) : Bool :=
  s.fe.made == s.time.cycle + 1 && s.fe.done == s.fe.made && decide (s.fe.doneAt + (s.lineNs + 100 - s.reloadNs) ≤ s.time.tick)

/-- LOCAL_DATA_NOT_READY: 100 ns before the reload, the front-end section's duty for a pair that has one, by its GpMode and FePairRole, is not
ready (R266). A row before that instant has no effect. -/
def execLocalDataNotReady (t pair : Nat) (s : State) : Res :=
  onUnit t s (decide (pair < 12)) fun s =>
    let i := 128 + pair
    let g := s.gp pair
    if s.modVal P.GpMode i = 1 ∧ s.rb P.FePairRole i ∧ s.reloadNs ≤ s.lineNs + 100 ∧ !s.dutiesReady ∧ !g.missed then
      ((s.setGp pair { g with missed := true }).inc P.GpNotReady i).raise E.localDataNotReady i (leBytes 4 pair ++ leBytes 4 s.time.cycle)
    else s

/-- TRIP_INPUT_INACTIVE (R261): an input returns to inactive, whether or not its level had been active for its filter time. -/
def execTripInputInactive (t pair input : Nat) (s : State) : Res :=
  onUnit t s (decide (pair < 12 ∧ input < 2)) fun s =>
    let g := s.gp pair
    (s.setGp pair { g with inact := g.inact.set input s.time.tick }).wrBit P.GpTripState (128 + pair) input false

/-- Pairs that a trip turns off besides its own (R259). -/
def State.tripScope (s : State) (pair : Nat) : List Nat :=
  let i := 128 + pair
  match s.rd P.GpTripScope i with
  | 1 => (List.range 12).filter fun n => n != pair && s.rd P.ModLoadGroup (128 + n) == s.rd P.ModLoadGroup i
  | 2 => (List.range 12).filter (· ≠ pair)
  | _ => []

/-- Both outputs of a pair go off at once, through the output-enable stage (R259, R263, R264): code 4 with the present modulation clock. A
turn-on already sent for that clock or a later one is suppressed (R260). -/
def State.gpOff (s : State) (n : Nat) : State :=
  let c := s.lineNs / 10
  let g := s.gp n
  (s.setGp n { g with edges := g.edges.filter fun e => decide (e.1 < c) || (e.2.2 != 1 && e.2.2 != 3) }).frame .edges (128 + n)
    (leBytes 8 c ++ leBytes 1 0 ++ leBytes 1 4)

/-- An active filtered trip level trips where it is enabled (R258 to R260). Answers true where a trip latches. -/
def State.tripLatch (s : State) (pair input edge : Nat) : Bool × State :=
  let i := 128 + pair
  if bitOf (s.rd P.GpTripEnable i) input && !bitOf (s.rd P.GpTripState i) (2 + input) then
    let sc := s.tripScope pair
    let s := (s.wrBit P.GpTripState i (2 + input) true).wr P.GpTripTime i edge
    let s := s.setGp pair { s.gp pair with endLv := 2 }
    let s := sc.foldl (fun s n => (s.wrBit P.GpTripState (128 + n) 4 true).setGp n
      { s.gp n with endLv := 2, offBy := pair :: (s.gp n).offBy.erase pair }) s
    let s := (pair :: sc).foldl State.gpOff s
    (true, s.raise E.gateTrip i (leBytes 4 pair ++ leBytes 4 input ++ leBytes 10 edge ++ leBytes 1 sc.length ++
      (sc.map (leBytes 4)).flatten))
  else (false, s)

/-- TRIP_CLEAR (R261). -/
def execTripClear (t : Nat) (q : Req) (s : State) : Res :=
  runReq 0x0802 t q s fun s =>
    let ps := bitList 12 (fld q.body 0 2)
    let still (n : Nat) : Bool := (List.range 2).any fun k =>
      bitOf (s.rd P.GpTripEnable (128 + n)) k && (bitOf (s.rd P.GpTripState (128 + n)) k ||
        decide (((s.time.tick : Int) - (s.gp n).inact.getD k 0 : Int) < (s.rf P.GpTripFilter (128 + n)).ceil))
    guarded [(decide (4096 ≤ fld q.body 0 2), ⟨0x0304, 0, 0, 0⟩), (ps.any still, ⟨0x022B, 0, 0, 0⟩)] <|
      -- AWAITLOAD for every named pair, a latch or not (DEDUCED, notes/assumptions/96.md)
      let s1 := ps.foldl (fun s n =>
        let i := 128 + n
        let s := s.wr P.GpTripState i ((s.rd P.GpTripState i).land 0x13 + 32)
        let s := s.setGp n { s.gp n with clear := s.time.tick, endLv := 2 }
        (List.range 12).foldl (fun s m =>
          let g := s.gp m
          if g.offBy.contains n then
            let l := g.offBy.erase n
            (s.setGp m { g with offBy := l }).wrBit P.GpTripState (128 + m) 4 (decide (l ≠ []))
          else s) s) s
      .ok 0 [] s1

/-! ### Microstep tables (R271 to R273) -/

/-- One entry as an integer rounded from a rational in units of 32,767. -/
def mstPair (a b : Rat) : List Byte := leBytes 2 (uNat 16 (roundHE (32767 * a))) ++ leBytes 2 (uNat 16 (roundHE (32767 * b)))

/-- Entry `i` of table 0. -/
def mstFixed (i : Nat) : List Byte := mstPair (cosTurn (mkRat i 1024)) (sinTurn (mkRat i 1024))

/-- The entry bytes of a table; tables 1 to 31 hold zeros after reset (notes/assumptions/21.md). -/
def State.mstEntry (s : State) (tab i : Nat) : Int × Int :=
  let b := if tab = 0 then mstFixed i else slice (tabGet s.mod.mst [] tab) (4 * i) 4
  (fldI b 0 2, fldI b 2 2)

/-- All 4,096 entry bytes. -/
def State.mstBytes (s : State) (tab : Nat) : List Byte :=
  if tab = 0 then (List.range 1024).flatMap mstFixed else padTo 4096 (tabGet s.mod.mst [] tab)

/-- An enabled axis selects the table. -/
def State.mstInUse (s : State) (tab : Nat) : Bool :=
  (List.range 128).any fun a => s.axisOn a && s.rd P.ModStepTable a == tab

/-- A block of Table 9.7 is valid. -/
def mstValid (b : List Byte) : Bool :=
  fld b 0 2 == 1 && fld b 2 2 == 1024 && fld b 4 12 == 0 && (List.range 2048).all fun i => fld b (16 + 2 * i) 2 != 0x8000

/-- MICROSTEP_LOAD. Table 0 lies outside the instance range of the opcode (Table 13.6, R511): 0x0302. -/
def execMicrostepLoad (t : Nat) (q : Req) (s : State) : Res :=
  runReq 0x0803 t q s fun s =>
    if q.body.length ≠ 4112 then .no ⟨0x0303, 0, 0, 0⟩ else
    guarded [(!mstValid q.body, ⟨0x0327, 0, 0, 0⟩), (s.mstInUse q.inst, ⟨0x0227, 0, 0, 0⟩)]
      (.ok 0 [] (s.setMod { s.mod with mst := tabSet s.mod.mst [] q.inst (slice q.body 16 4096) }))

/-- The wave of a shape block, 1,024 values: the cosine with its third and fifth harmonics (R272). -/
def mstWave (b : List Byte) : List Rat :=
  let k (o : Nat) : Rat := f32ToRat (fld b o 4)
  (List.range 1024).map fun i =>
    let x : Rat := mkRat (i % 1024) 1024
    cosTurn x + k 0 * cosTurn (3 * x + k 4 / 360) + k 8 * cosTurn (5 * x + k 12 / 360)

/-- MICROSTEP_SHAPE. -/
def execMicrostepShape (t : Nat) (q : Req) (s : State) : Res :=
  runReq 0x0804 t q s fun s =>
    let k (o : Nat) : Rat := f32ToRat (fld q.body o 4)
    let okF (o : Nat) (lo hi : Rat) : Bool := f32Finite (fld q.body o 4) && decide (lo ≤ k o ∧ k o ≤ hi)
    guarded [(!(okF 0 (-3 / 10) (3 / 10) && okF 4 0 360 && okF 8 (-3 / 10) (3 / 10) && okF 12 0 360), ⟨0x0304, 0, 0, 0⟩),
        (s.mstInUse q.inst, ⟨0x0227, 0, 0, 0⟩)] <|
      let vals := mstWave q.body
      let big := vals.foldl (fun m x => max m (absR x)) 0
      let ent := (List.range 1024).flatMap fun i => mstPair (vals.getD i 0 / big) (vals.getD ((i + 768) % 1024) 0 / big)
      .ok 0 [] (s.setMod { s.mod with mst := tabSet s.mod.mst [] q.inst ent })

/-- MICROSTEP_READ. -/
def execMicrostepRead (t : Nat) (q : Req) (s : State) : Res :=
  runReq 0x0805 t q s fun s =>
    .ok 0 (leBytes 2 1 ++ leBytes 2 1024 ++ List.replicate 12 0 ++ s.mstBytes q.inst) s

/-! ### Write rules -/

/-- Parameters whose range is stated in steps are converted to the nearest step (R14); filter times are rounded up (R258, R337). -/
def stepValue (idx v : Nat) : Nat :=
  if idx = P.ModDeadTime then ratToF32 (25 / 2 * roundHE (f32ToRat v / (25 / 2)))
  else if idx = P.GpTripFilter ∨ idx = P.LiFilter then ratToF32 (10 * (f32ToRat v / 10).ceil) else v

/-- Refusals of a write to a modulation parameter (R246, R248, R252, R253, R257, R267, R276), against the active and the shadow value of what it
goes with. R248 holds for the values as stored. -/
def State.modWriteBad (s : State) (idx i v : Nat) : List (Bool × Rsn) :=
  let ty (bad : Nat → Bool) := (s.copies P.LoopMotorType i).any bad
  [(decide (idx = P.ModMethod) && (((v == 1 || v == 2) && ty (· != 1)) || (v == 3 && ty (fun y => y != 2 && y != 3))), ⟨0x0326, 0, 0, 0⟩),
   (decide (idx = P.ModMinPulse ∨ idx = P.ModDeadTime) && s.breaks idx i (stepValue idx v) [P.ModMinPulse, P.ModDeadTime]
      (fun f => decide (f32ToRat (f P.ModMinPulse) < 2 * f32ToRat (f P.ModDeadTime) + 100)), ⟨0x0326, 0, 0, 0⟩),
   (decide (idx = P.ModPhaseSwap ∧ v ≠ 0) && ty (fun y => y == 2 || y == 3), ⟨0x0326, 0, 0, 0⟩),
   (decide (idx = P.ModInvert ∧ v % 4 ≠ 0) && ty (· == 1), ⟨0x0326, 0, 0, 0⟩),
   (loadSet.contains idx && s.modLocked i, ⟨0x0210, 0, 0, 0⟩),
   (decide (idx = P.ModLoadGroup ∧ 128 ≤ i) && s.rd P.GpMode i != 0, ⟨0x022C, 0, 0, 0⟩),
   (decide (idx = P.ModLoadGroup ∧ i < 128) && s.axisOn i, ⟨0x0217, 0, 0, 0⟩)]

end Sys2Proof.Machine
end

