-- ==== Sys2Proof/Machine/Gains.lean ====
section
/-!
DEFINITION. Gain scheduling (chapter 06): map blocks, keys, evaluation, blends, and the delay limits of R155 and R173.
-/
namespace Sys2Proof.Machine

def State.gmap (s : State) (a : Nat) : GmRec := tabGet s.gm GmRec.init a
def State.setGm (s : State) (a : Nat) (r : GmRec) : State := { s with gm := tabSet s.gm GmRec.init a r }

/-- The parameters of Table 6.1, in slot order. -/
def slotParams : List Nat :=
  [P.LoopCurGain, P.LoopCurIntTime, P.LoopVelGain, P.LoopVelIntTime, P.LoopPosGain, P.LoopVelFF, P.LoopAccFF, P.LoopDobInertia]

/-- LoopDelay in ns (R39, R155): T/2 or T, 0 while the axis has no node. -/
def State.loopDelay (s : State) (a : Nat) : Nat :=
  if s.axisNode a = 0 then 0 else if s.rb P.ElkAxisTurnaround a then s.cycleNs / 2 else s.cycleNs

/-- The dead time of the current loop, ns. -/
def State.tauI (s : State) (a : Nat) : Rat := s.loopDelay a + (s.cycleNs : Rat) / 2

/-- LoopCurGainMax (R155), V/A; 0 without motor data or node. -/
def State.curGainMax (s : State) (a : Nat) : Rat :=
  if s.loopDelay a = 0 then 0 else s.rf P.MotLq a * 1000000 / s.tauI a

/-! ### Map blocks (R163, R164) -/

def mapN1 (b : List Byte) : Nat := fld b 4 1
def mapN2 (b : List Byte) : Nat := fld b 5 1
def mapKey1 (b : List Byte) : Nat := fld b 2 1
def mapKey2 (b : List Byte) : Nat := fld b 3 1
def mapMask (b : List Byte) : Nat := fld b 8 2
def mapBlend (b : List Byte) : Nat := fld b 10 2
def mapPlanes (b : List Byte) : Nat := if bitOf (fld b 7 1) 0 then 2 else 1
def mapN2' (b : List Byte) : Nat := if mapKey2 b = 0 then 0 else mapN2 b

/-- Breakpoint pattern `i` of key 1 or 2. -/
def mapBreakRaw (b : List Byte) (key i : Nat) : Nat := fld b (32 + 4 * (if key = 1 then i else mapN1 b + i)) 4
def mapBreak (b : List Byte) (key i : Nat) : Rat := f32ToRat (mapBreakRaw b key i)

/-- Value pattern of a slot at a point. -/
def mapRaw (b : List Byte) (plane i1 i2 slot : Nat) : Nat :=
  fld b (32 + 4 * (mapN1 b + mapN2' b) + 32 * ((plane * mapN2 b + i2) * mapN1 b + i1) + 4 * slot) 4

def mapSize (b : List Byte) : Nat := 32 + 4 * (mapN1 b + mapN2' b) + 32 * (mapN1 b * mapN2 b * mapPlanes b)

/-- A value lies in the float range of a parameter. -/
def fltInRange (idx v : Nat) : Bool :=
  f32Finite v && match paramRow idx with
    | some r => match r.range with
      | .flt lo hi => decide (f32ToRat lo ≤ f32ToRat v ∧ f32ToRat v ≤ f32ToRat hi)
      | _ => true
    | none => true

/-- The breakpoints of a key are valid (check 4). -/
def breaksOk (b : List Byte) (key n code : Nat) (abs : Bool) : Bool :=
  (List.range n).all (fun i => f32Finite (mapBreakRaw b key i) &&
    (decide (i + 1 = n) || decide (mapBreak b key i < mapBreak b key (i + 1))) &&
    (code != 3 || decide (0 ≤ mapBreak b key i ∧ mapBreak b key i < 1)) && (!abs || decide (0 ≤ mapBreak b key i)))

/-- The hysteresis of a key is valid (check 8); the circle of key 3 has a spacing across the wrap. -/
def hystOk (b : List Byte) (key n off code : Nat) : Bool :=
  let h := fld b off 4
  f32Finite h && (if fld b 6 1 = 0 then f32ToRat h == 0 else if fld b 6 1 ≠ 1 then true else
    decide (0 ≤ f32ToRat h) && (List.range (n - 1)).all (fun i => decide (2 * f32ToRat h < mapBreak b key (i + 1) - mapBreak b key i)) &&
      (code != 3 || decide (2 * f32ToRat h < 1 + mapBreak b key 0 - mapBreak b key (n - 1))))

/-- The number of the first check of R164 that fails; 0 = valid. MODE and BLEND are no part of them: R367 gives their range. -/
def mapCheck (b : List Byte) : Nat :=
  let n1 := mapN1 b
  let n2 := mapN2 b
  let k1 := mapKey1 b
  let k2 := mapKey2 b
  let fl := fld b 7 1
  let pts := (List.range (mapPlanes b)).flatMap fun p => (List.range n2).flatMap fun i2 => (List.range n1).map fun i1 => (p, i1, i2)
  let slots := bitList 8 (mapMask b)
  if b.length < 32 ∨ fld b 0 2 ≠ 1 ∨ fld b 20 12 ≠ 0 ∨ fl / 8 ≠ 0 ∨ mapMask b / 256 ≠ 0 ∨ b.length ≠ mapSize b then 1
  else if k1 < 1 ∨ 6 < k1 ∨ 6 < k2 ∨ k1 = k2 then 2
  else if n1 < 2 ∨ 16 < n1 ∨ (if k2 = 0 then n2 ≠ 1 else n2 < 2 ∨ 16 < n2) ∨ 64 < n1 * n2 then 3
  else if !(breaksOk b 1 n1 k1 (bitOf fl 1) && (k2 == 0 || breaksOk b 2 n2 k2 (bitOf fl 2))) then 4
  else if mapMask b = 0 then 5
  else if !(slots.all fun j => pts.all fun x => fltInRange (slotParams.getD j 0) (mapRaw b x.1 x.2.1 x.2.2 j)) then 6
  else if !((slots.filter fun j => j == 1 || j == 3).all fun j =>
      pts.all (fun x => f32ToRat (mapRaw b x.1 x.2.1 x.2.2 j) == 0) || pts.all (fun x => f32ToRat (mapRaw b x.1 x.2.1 x.2.2 j) != 0)) then 7
  else if !(hystOk b 1 n1 12 k1 && hystOk b 2 (if k2 = 0 then 1 else n2) 16 k2) then 8
  else 0

/-! ### Applied values -/

/-- The applied value of a slot (R158), as a binary32 pattern. -/
def State.applied (s : State) (a j : Nat) : Nat :=
  let r := s.gmap a
  if (r.act ≠ [] ∧ bitOf (mapMask r.act) j) ∨ (0 < r.blendLeft ∧ bitOf r.slots j) then r.app.getD j (s.rd (slotParams.getD j 0) a)
  else s.rd (slotParams.getD j 0) a

def State.gain (s : State) (a j : Nat) : Rat := f32ToRat (s.applied a j)

/-- A key of a map for S(n) (Table 6.2, R161): the value and whether it is held. -/
def State.keyRaw (s : State) (a code : Nat) : Option Rat :=
  let age := s.rd P.GmKeyAge a
  let ks := (s.gmap a).keys.find? fun k => decide (cycDiff k.cycle s.time.cycle = age)
  match code with
  | 1 => some (mkRat (s.axis a).vsp 65536)
  | 2 => (ks.bind (·.speed)).map fun v => mkRat v 65536
  | 3 => if s.rd P.CplKind a = 2 ∧ bitOf (s.rd P.CplState a) 0 then some (s.rf P.CplCamPhase a) else none
  | 4 => some (mkRat (s.axis a).asp 65536)
  | 5 => (ks.bind (·.inertia)).map f32ToRat
  | 6 => (ks.bind (·.ubus)).map fun u => mkRat u 32768 * s.voltFs a
  | _ => none

/-- The key value used: magnitude, low-pass for measured keys, held where there is none (R159, R161). A key never used before reads 0 while it
has no value, and its low-pass begins at its first value. -/
def State.keyValue (s : State) (a code : Nat) (abs : Bool) : Nat × Bool :=
  let old := (s.gmap a).held.getD (code - 1) none
  match s.keyRaw a code with
  | none => (old.getD 0, true)
  | some x =>
    let x := if abs ∧ (code = 1 ∨ code = 2 ∨ code = 4) then absR x else x
    let tau := s.rf P.GmKeyFilter a
    let y := match old with
      | some o => if tau ≠ 0 ∧ (code = 2 ∨ code = 5 ∨ code = 6) then
          x + (f32ToRat o - x) * expNeg ((s.cycleNs : Rat) / (tau * 1000000)) else x
      | none => x
    (ratToF32 y, false)

/-- Segment index, weight, clamp of a key value (Evaluation). -/
def keySegment (b : List Byte) (key n code : Nat) (x : Rat) : Nat × Rat × Bool :=
  let br := mapBreak b key
  let lastB := br (n - 1)
  let mid (i : Nat) : Nat × Rat × Bool := (i, (x - br i) / (br (i + 1) - br i), false)
  let go := (List.range (n - 1)).find? fun i => decide (br i ≤ x ∧ x < br (i + 1))
  if code = 3 then
    if lastB ≤ x then (n - 1, (x - lastB) / (1 + br 0 - lastB), false)
    else if x < br 0 then (n - 1, (x + 1 - lastB) / (1 + br 0 - lastB), false)
    else match go with | some i => mid i | none => (n - 1, 0, false)
  else if x ≤ br 0 then (0, 0, decide (x < br 0))
  else if lastB ≤ x then (n - 2, 1, decide (lastB < x))
  else match go with | some i => mid i | none => (0, 0, false)

/-- The region that contains a key value. -/
def keyRegion (b : List Byte) (key n code : Nat) (x : Rat) : Nat :=
  let inR := (List.range n).filter fun i => decide (mapBreak b key i ≤ x)
  match inR.getLast? with
  | some i => i
  | none => if code = 3 then n - 1 else 0

/-- Region moves with hysteresis (R166): up where x ≥ b(r+1) + HYST, down where x < b(r) - HYST; around the circle for key 3, where x outside
the region and its hysteresis is taken to have left it by the nearer end (DESIGN CHOICE, notes/assumptions/87.md). -/
def regionMove (b : List Byte) (key n code : Nat) (h x : Rat) : Nat → Nat → Nat
  | 0, r => r
  | f + 1, r =>
    let br := mapBreak b key
    if code = 3 then
      -- `u`: x from the lower breakpoint, `l`: length of the region, both forward on the circle
      let frac (d : Rat) : Rat := d - (d.floor : Rat)
      let u := frac (x - br r)
      let l := frac (br ((r + 1) % n) - br r)
      if u < l + h ∨ 1 - h ≤ u then r
      else if u - l ≤ 1 - u then regionMove b key n code h x f ((r + 1) % n)
      else regionMove b key n code h x f ((r + n - 1) % n)
    else if r + 1 < n ∧ br (r + 1) + h ≤ x then regionMove b key n code h x f (r + 1)
    else if 0 < r ∧ x < br r - h then regionMove b key n code h x f (r - 1)
    else r

/-- The check of R155. -/
def State.delayGain (s : State) (a : Nat) : State :=
  let mx := s.curGainMax a
  s.raiseIf (decide (mx ≠ 0) && decide (mx < s.rf P.LoopCurGain a)) E.currentGainAboveDelayLimit a []

/-- The check of R173. -/
def State.delayMap (s : State) (a : Nat) : State :=
  let mx := s.curGainMax a
  let lq := s.rf P.MotLq a
  if mx = 0 then s else
    let b := (s.gmap a).act
    if b = [] ∨ !bitOf (mapMask b) 0 then s else
      let T : Rat := s.cycleNs
      let lim (p : Nat) : Rat := if mapPlanes b = 1 then mx else if p = 0 then lq * 1000000 / T else lq * 1000000 / (T * 3 / 2)
      (List.range (mapPlanes b)).foldl (fun s p => (List.range (mapN1 b * mapN2 b)).foldl (fun s i =>
        s.raiseIf (decide (lim p < f32ToRat (mapRaw b p (i % mapN1 b) (i / mapN1 b) 0))) E.currentGainAboveDelayLimit a
          (leBytes 4 a ++ leBytes 4 (p + 1) ++ leBytes 4 i)) s) s

/-- A check is due at this S(c): bit 0 that of R155 (a commit of LoopCurGain or MotLq), bit 1 that of R173 (a map commit), both at a change of
LoopDelay. -/
def State.checkDue (s : State) (a m : Nat) : State := s.setGm a { s.gmap a with chk := (s.gmap a).chk.lor m }

/-- A change of LoopDelay (R155, R173). -/
def State.delayCheck (s : State) (a : Nat) : State := s.checkDue a 3

/-- The checks that are due, against the LoopDelay of this cycle. -/
def State.delayChecks (s : State) (a : Nat) : State :=
  let c := (s.gmap a).chk
  if c = 0 then s else
    let s := s.setGm a { s.gmap a with chk := 0 }
    let s := if bitOf c 0 then s.delayGain a else s
    if bitOf c 1 then s.delayMap a else s

/-- GmState [1]: the shadow map differs from the active one. -/
def State.gmStaged (s : State) (a : Nat) : State :=
  let r := s.gmap a
  s.wrBit P.GmState a 1 (decide (r.shadow ≠ r.act))

/-- Start a blend from the present applied values over the slots of a mask, and of the blend it replaces (R158, R169). -/
def GmRec.blend (r : GmRec) (cur : List Nat) (B mask : Nat) : GmRec :=
  { r with g0 := cur, blendB := B, blendLeft := B, slots := mask.lor (if r.blendLeft = 0 then 0 else r.slots) }

/-- The present applied values of all slots. -/
def State.appliedAll (s : State) (a : Nat) : List Nat := (List.range 8).map (s.applied a)

/-- Before a commit writes a parameter of Table 6.1 at S(c): the applied values of S(c - 1) are kept (R169). -/
def State.gmKeep (s : State) (idx a : Nat) : State :=
  let r := s.gmap a
  if slotParams.contains idx && decide (r.shadow ≠ [] ∨ r.act ≠ []) && !(r.pre.elim false fun x => x.1 == s.time.cycle) then
    s.setGm a { r with pre := some (s.time.cycle, s.appliedAll a) }
  else s

/-- The applied values of S(c - 1), at S(c). -/
def State.appliedBefore (s : State) (a : Nat) : List Nat :=
  match (s.gmap a).pre with
  | some (c, l) => if c = s.time.cycle then l else s.appliedAll a
  | none => s.appliedAll a

/-- The map commit at S(c) (R169, R170, R172). -/
def State.gmCommit (s : State) (a : Nat) : State :=
  let r := s.gmap a
  let cur := s.appliedBefore a
  let held := s.rd P.AxisState a ≠ 2 ∨ r.relAt = s.time.cycle + 1
  let r' := { r with act := r.shadow, loaded := false, fresh := true, app := cur, plane2 := decide (s.loopDelay a = s.cycleNs) }
  let r' := if held then { r' with blendLeft := 0 } else r'.blend cur (mapBlend r.shadow) ((mapMask r.act).lor (mapMask r.shadow))
  let s := (s.setGm a r').wr P.GmMapChecksum a (if r.shadow = [] then 0 else crc32 r.shadow)
  ((s.wrBit P.GmState a 0 (decide (r.shadow ≠ []))).gmStaged a).checkDue a 2

/-- GainMapOff at S(c) (R169, R175). Without an active map a running blend goes on. The shadow map follows the active one unless a map has been
loaded into it (R35). -/
def State.gmOff (s : State) (a : Nat) : State :=
  let r := s.gmap a
  let cur := s.appliedBefore a
  let r' := if s.rd P.AxisState a ≠ 2 ∨ r.relAt = s.time.cycle + 1 then { r with blendLeft := 0, app := cur }
    else if r.act = [] then r else { r.blend cur (mapBlend r.act) (mapMask r.act) with app := cur }
  let r' := { r' with act := [], shadow := if r.loaded then r.shadow else [] }
  (((s.setGm a r').wr P.GmMapChecksum a 0).clrBits P.GmState a 0xFD).wr P.GmBlendRemaining a 0 |>.gmStaged a

/-- The release of an axis: targets apply at once at the next evaluation (R170). -/
def State.gmRelease (s : State) (a : Nat) : State :=
  let r := s.gmap a
  s.setGm a { r with blendLeft := 0, fresh := true, relAt := s.time.cycle + 1 }

/-- The interpolation of a slot (R165, R166). -/
def mapTarget (b : List Byte) (plane slot : Nat) (sw : Bool) (s1 s2 : Nat × Rat) : Rat :=
  let g (i1 i2 : Nat) : Rat := f32ToRat (mapRaw b plane (i1 % mapN1 b) (i2 % mapN2 b) slot)
  let (i1, w1) := s1
  let (i2, w2) := s2
  if sw then g i1 i2
  else if mapKey2 b = 0 then (1 - w1) * g i1 0 + w1 * g (i1 + 1) 0
  else (1 - w1) * (1 - w2) * g i1 i2 + w1 * (1 - w2) * g (i1 + 1) i2 + (1 - w1) * w2 * g i1 (i2 + 1) + w1 * w2 * g (i1 + 1) (i2 + 1)

/-- Keys whose value a sample gives keep it for a map committed later (R161): the cam phase while the axis follows a cam, the measured keys
of an axis with samples, where the active map does not use them. -/
def State.keysHold (s : State) (a : Nat) : State :=
  let r := s.gmap a
  let used (c : Nat) : Bool := r.act != [] && (mapKey1 r.act == c || mapKey2 r.act == c)
  let cs := [2, 3, 5, 6].filter fun c => !used c && (s.keyRaw a c).isSome
  if cs = [] then s else s.setGm a { r with held := cs.foldl (fun l c => l.set (c - 1) (some (s.keyValue a c false).1)) r.held }

/-- GAIN_MAP_EVALUATE: the applied values of an axis for S(n) (R165 to R170). A blend of an axis that does not run is abandoned (Table 6.4);
`plane2` of the record notes whether LoopDelay was T. -/
def State.gmEvaluate (s : State) (a : Nat) : State :=
  let s := (s.delayChecks a).keysHold a
  let r := s.gmap a
  let runs := s.rd P.AxisState a = 2
  if r.act = [] ∧ r.blendLeft = 0 then s
  else if r.act = [] then
    -- GainMapOff: the parameters are the targets
    let f : Rat := mkRat (r.blendB - r.blendLeft + 1 : Nat) r.blendB
    let app := (List.range 8).map fun j =>
      let g0 := f32ToRat (r.g0.getD j 0)
      let t := s.rf (slotParams.getD j 0) a
      ratToF32 (if bitOf r.slots j then g0 + (t - g0) * f else t)
    let r := { r with app := app, blendLeft := if runs then r.blendLeft - 1 else 0 }
    ((s.setGm a r).wrBit P.GmState a 2 (decide (0 < r.blendLeft))).wr P.GmBlendRemaining a r.blendLeft
  else
    let b := r.act
    let fl := fld b 7 1
    let sw := fld b 6 1 = 1
    let (x1, h1) := s.keyValue a (mapKey1 b) (bitOf fl 1)
    let (x2, h2) := if mapKey2 b = 0 then (0, false) else s.keyValue a (mapKey2 b) (bitOf fl 2)
    let hl := if h1 then r.held else r.held.set (mapKey1 b - 1) (some x1)
    let hl := if mapKey2 b = 0 || h2 then hl else hl.set (mapKey2 b - 1) (some x2)
    let q1 := f32ToRat x1
    let q2 := f32ToRat x2
    let n1 := mapN1 b
    let n2 := mapN2 b
    let (i1, w1, c1) := keySegment b 1 n1 (mapKey1 b) q1
    let (i2, w2, c2) := if mapKey2 b = 0 then (0, 0, false) else keySegment b 2 n2 (mapKey2 b) q2
    let r1 := if r.fresh then keyRegion b 1 n1 (mapKey1 b) q1 else regionMove b 1 n1 (mapKey1 b) (f32ToRat (fld b 12 4)) q1 (2 * n1) r.r1
    let r2 := if mapKey2 b = 0 then 0 else
      if r.fresh then keyRegion b 2 n2 (mapKey2 b) q2 else regionMove b 2 n2 (mapKey2 b) (f32ToRat (fld b 16 4)) q2 (2 * n2) r.r2
    let long := decide (s.loopDelay a = s.cycleNs)
    let two := mapPlanes b == 2
    let p2 := two && long
    let cur := s.appliedAll a
    let moved := sw && !r.fresh && (r1 != r.r1 || r2 != r.r2)
    let r := if !runs ∨ r.relAt = s.time.cycle + 1 ∨ (p2 && (!r.plane2 || r.longAt == s.time.cycle + 1)) then { r with blendLeft := 0 }
      else if (moved || (two && r.plane2 && !long)) && !r.fresh then r.blend cur (mapBlend b) (mapMask b) else r
    let f : Rat := if r.blendLeft = 0 then 1 else mkRat (r.blendB - r.blendLeft + 1 : Nat) r.blendB
    let app := (List.range 8).map fun j =>
      let t := if bitOf (mapMask b) j then
          mapTarget b (if p2 then 1 else 0) j sw (if sw then (r1, 0) else (i1, w1)) (if sw then (r2, 0) else (i2, w2))
        else s.rf (slotParams.getD j 0) a
      let g0 := f32ToRat (r.g0.getD j 0)
      ratToF32 (if r.blendLeft = 0 || !bitOf r.slots j then t else g0 + (t - g0) * f)
    let left := r.blendLeft - 1
    let s := s.setGm a { r with r1 := r1, r2 := r2, fresh := false, plane2 := long, app := app, blendLeft := left, held := hl }
    let st := s.rd P.GmState a
    let bits := st.land 3 + (if 0 < left then 4 else 0) + (if p2 then 8 else 0) + (if h1 then 16 else 0) + (if h2 then 32 else 0) +
      (if c1 then 64 else 0) + (if c2 then 128 else 0)
    let s := (s.wr P.GmState a bits).wr P.GmBlendRemaining a left
    (s.wr P.GmKeyValue a (x1 + x2 * 2 ^ 32)).wr P.GmRegion a (if sw then r1 + 256 * r2 else i1 + 256 * i2)

/-- Record what a sample gives the keys (R159, R161). -/
def State.keySample (s : State) (a : Nat) (speed : Option Int) (ubus : Option Nat) : State :=
  let r := s.gmap a
  s.setGm a { r with keys := ({ cycle := s.time.cycle, speed := speed, ubus := ubus, inertia := none } :: r.keys).take 3 }

/-- The velocity computation of a sample has updated the estimate. -/
def State.keyInertia (s : State) (a v : Nat) : State :=
  let r := s.gmap a
  match r.keys with
  | k :: ks => if k.cycle = s.time.cycle then s.setGm a { r with keys := { k with inertia := some v } :: ks } else s
  | [] => s

/-! ### Opcodes -/

/-- The open or pending staged set that covers an axis (R36, R172): scope axis, else scope group. -/
def State.axisStage (s : State) (a : Nat) : Option Staged :=
  match s.par.staged.find? (fun g => g.scope == 0 && g.inst == a) with
  | some g => some g
  | none => s.par.staged.find? (fun g => g.scope == 1 && g.inst == s.rd P.AxisGroup a)

/-- Key under which the shadow map of an axis stands in a staged set. -/
def mapKey (a : Nat) : Nat := pkey 0x0510 a

/-- The shadow map is locked (R34, R172): a GainMapCommit, or the commit of a staged set that holds it, is pending. -/
def State.mapLocked (s : State) (a : Nat) : Bool :=
  s.hasCommit 0x0511 a || s.par.staged.any fun g => g.pending.isSome && g.keys.contains (mapKey a)

/-- GAIN_MAP_LOAD. -/
def execGainMapLoad (t : Nat) (q : Req) (s : State) : Res :=
  runReq 0x0510 t q s fun s =>
    let a := q.inst
    let c := mapCheck q.body
    let st := s.axisStage a
    guarded [(decide (c ≠ 0), ⟨0x031F, c, 0, 0⟩), (decide (1 < fld q.body 6 1 ∨ 4096 < mapBlend q.body), ⟨0x0304, 0, 0, 0⟩),
        (s.mapLocked a || (match st with | some g => g.pending.isSome | none => false), ⟨0x0210, 0, 0, 0⟩)] <|
      let s1 := s.setGm a { s.gmap a with shadow := q.body, loaded := true }
      let s1 := match st with
        | some g => s1.joinSet g (mapKey a)
        | none => s1
      .ok 0 [] (s1.gmStaged a)

/-- GAIN_MAP_COMMIT. -/
def execGainMapCommit (t : Nat) (q : Req) (s : State) : Res :=
  runReq 0x0511 t q s fun s =>
    let a := q.inst
    s.commitReq q 0 [] [(s.mapLocked a, ⟨0x0210, 0, 0, 0⟩), (!(s.gmap a).loaded, ⟨0x021D, 0, 0, 0⟩)]

/-- GAIN_MAP_OFF. -/
def execGainMapOff (t : Nat) (q : Req) (s : State) : Res :=
  runReq 0x0512 t q s fun s => s.commitReq q 0 [] []

/-- GAIN_MAP_READ. -/
def execGainMapRead (t : Nat) (q : Req) (s : State) : Res :=
  runReq 0x0513 t q s fun s =>
    .ok 0 (if bitOf (fld q.body 0 1) 0 then (s.gmap q.inst).shadow else (s.gmap q.inst).act) s

end Sys2Proof.Machine
end

