-- ==== Sys2Proof/Machine/Engine.lean ====
section
/-!
DEFINITION. The control engine (chapter 05): formats, loops, jobs and lanes, AxisEnable and AxisDisable. Formulas are evaluated on
rationals; what Table 5.3 stores is rounded to its format (R136).
-/
namespace Sys2Proof.Machine

/-! ### Formats (R136) -/

/-- Round to a 32-bit signed value, saturating; true where it saturated. -/
def q32 (x : Rat) : Int × Bool :=
  let r := roundHE x
  let y := sat (-2147483648) 2147483647 r
  (y, decide (y ≠ r))

/-- Q1.31 of a fraction. -/
def q31 (x : Rat) : Int := (q32 (x * 2147483648)).1

def ofQ31 (x : Int) : Rat := mkRat x 2147483648

/-- A 2^-16 position or velocity in engine velocity units of 2^-4. -/
def engVel (v : Int) : Int := (q32 (mkRat v 4096)).1

/-- A 2^-16 acceleration in engine units of 4 counts/s². -/
def engAcc (x : Int) : Int := (q32 (mkRat x 262144)).1

/-- The limits of 64 bits. -/
def sat64 (x : Int) : Int := sat (-(2 ^ 63)) (2 ^ 63 - 1) x

/-- Integrator, filter and observer states: 2^-40, 64 bits. -/
def toState (x : Rat) : Int := sat64 (roundHE (x * 1099511627776))
def ofState (x : Int) : Rat := mkRat x 1099511627776

/-- Limit a rational to ±m; true where it acted. -/
def clampR (m x : Rat) : Rat × Bool := if m < x then (m, true) else if x < -m then (-m, true) else (x, false)

/-! ### Filters (R141) -/

structure Coefs where
  b0 : Rat
  b1 : Rat
  b2 : Rat
  a1 : Rat
  a2 : Rat

/-- Coefficients of F1 (`k` = axis) or F2 (`k` = axis + 128). -/
def State.filtCoefs (s : State) (a k : Nat) : Coefs :=
  let tv : Rat := mkRat (s.rd P.LoopVelDivider a * s.cycleNs) 1000000000
  let z := s.rf P.LoopFiltDamping k
  let h := s.rf P.LoopFiltFreq k * tv / 2
  let tt := cut80 (sinTurn h / cosTurn h)
  let d := 1 + 2 * z * tt + tt * tt
  match s.rd P.LoopFiltType k with
  | 1 => { b0 := engGain (tt * tt / d), b1 := engGain (2 * tt * tt / d), b2 := engGain (tt * tt / d)
           a1 := engGain (2 * (tt * tt - 1) / d), a2 := engGain ((1 - 2 * z * tt + tt * tt) / d) }
  | 2 =>
    let dp := s.rf P.LoopFiltDepth k
    { b0 := engGain ((1 + 2 * z * dp * tt + tt * tt) / d), b1 := engGain (2 * (tt * tt - 1) / d)
      b2 := engGain ((1 - 2 * z * dp * tt + tt * tt) / d)
      a1 := engGain (2 * (tt * tt - 1) / d), a2 := engGain ((1 - 2 * z * tt + tt * tt) / d) }
  | 3 =>
    let c := s.rd P.LoopFiltCoef k
    let g (i : Nat) : Rat := engGain (f32ToRat (c / 2 ^ (32 * i) % 2 ^ 32))
    { b0 := g 0, b1 := g 1, b2 := g 2, a1 := g 3, a2 := g 4 }
  | _ => { b0 := 1, b1 := 0, b2 := 0, a1 := 0, a2 := 0 }

/-- One step of a biquad; `fresh` puts it into the steady state of its input first (R153). -/
def biquadStep (off fresh : Bool) (c : Coefs) (f : Biquad) (x : Int) : Int × Biquad :=
  if off then (x, { x1 := x, x2 := x, y1 := x, y2 := x }) else
  let f := if fresh then
      let den := 1 + c.a1 + c.a2
      let y := if den = 0 then 0 else sat64 (roundHE (x * (c.b0 + c.b1 + c.b2) / den))
      { x1 := x, x2 := x, y1 := y, y2 := y }
    else f
  let y := sat64 <| roundHE (c.b0 * x + c.b1 * f.x1 + c.b2 * f.x2 - c.a1 * f.y1 - c.a2 * f.y2)
  (y, { x1 := x, x2 := f.x1, y1 := y, y2 := f.y1 })

/-! ### Loops -/

/-- A loop with divider `d` is due in the present cycle (R134). -/
def State.loopDue (s : State) (a d : Nat) : Bool := (s.time.cycle + 2 ^ 32 - s.rd P.LoopPhase a) % d == 0

/-- The mode in effect (R135). -/
def State.effMode (s : State) (a : Nat) : Nat := if (s.axis a).openLoop then 4 else s.rd P.LoopMode a

/-- Note engine internals (Table 15.1): numbers from 1 and their values. -/
def monPut (l : List Nat) (xs : List (Nat × Rat)) : List Nat := xs.foldl (fun l x => l.set (x.1 - 1) (ratToF32 x.2)) l

/-- Pass 1: the position loop (R138). -/
def State.passPos (s : State) (a : Nat) : State :=
  let r := s.axis a
  let (e, ps) := q32 (mkRat (r.psp - s.rp P.FbPosition a) 256)
  let lim := s.rf P.LoopPosOutLimit a * 16
  let (v, pl) := clampR lim (engGain (s.gain a 4) * e / 16)
  ((s.wrBit P.LoopStatus a 5 ps).wrBit P.LoopStatus a 4 pl).setAxis a
    { r with vPos := (q32 v).1, mon := monPut r.mon [(1, mkRat e 256)] }

/-- The load inertia estimate (R162). -/
def State.inertiaStep (s : State) (a : Nat) (am iqPrev : Rat) : State :=
  let g := s.gmap a
  let tv : Rat := mkRat (s.rd P.LoopVelDivider a * s.cycleNs) 1000000
  let k := 1 - expNeg (tv / s.rf P.GmInertiaTime a)
  let je := mkRat g.jest (2 ^ 60)
  let dc := ofState g.dc
  let (je, dc) : Rat × Rat :=
    if s.rf P.GmInertiaAccMin a ≤ absR am then
      let jr := (iqPrev - dc) / am
      (if 0 < jr then je + k * (jr - je) else je, dc)
    else (je, dc + k * (iqPrev - dc))
  let je := satR 0 1 je
  let s := s.setGm a { g with jest := roundHE (je * mkRat (2 ^ 60) 1), dc := toState dc }
  (s.wrF P.GmInertiaEstimate a je).keyInertia a (ratToF32 je)

/-- v(n - Nv) of R143; v(n) while no sample of that cycle is held. -/
def State.velBefore (s : State) (a nv : Nat) (v : Int) : Int :=
  (((s.axis a).vHist.find? fun x => decide (cycDiff x.1 s.time.cycle = nv)).map Prod.snd).getD v

/-- Pass 2: the velocity loop (R139, R140, R143). -/
def State.passVel (s : State) (a : Nat) : State :=
  let r := s.axis a
  let fs := s.curFs a
  let nv := s.rd P.LoopVelDivider a
  let tv : Rat := mkRat (nv * s.cycleNs) 1000000000
  let v := engVel (s.rp P.FbSpeed a)
  let vsp : Rat := mkRat (engVel r.vsp) 16
  let asp : Rat := engAcc r.asp * 4
  let ref : Rat := if s.effMode a = 2 then vsp else mkRat r.vPos 16 + engGain (s.gain a 5) * vsp
  let (ref, vs) := clampR (s.rf P.LoopVelLimit a) ref
  let refQ := (q32 (ref * 16)).1
  let ev : Rat := mkRat (q32 ((refQ - v : Int) : Rat)).1 16
  let lim := s.rf P.LoopCurLimit a
  let iqPrev := ofQ31 r.iqRef * fs
  let am : Rat := ((q32 (mkRat (v - s.velBefore a nv v) 16 / tv / 4)).1 : Rat) * 4
  let s := s.inertiaStep a am iqPrev
  -- observer, before step 5
  let dobOn := s.rb P.LoopDobEnable a
  let al := 1 - expNeg (2 * piR * s.rf P.LoopDobBandwidth a * tv)
  let d0 := ofState r.dhat
  let draw := iqPrev - engGain (s.gain a 7) * am
  let (d1, ds) := if dobOn then clampR lim (d0 + al * (draw - d0)) else (d0, false)
  let dhat := toState d1
  let kv := engGain (s.gain a 2)
  let tn := s.gain a 3 / 1000
  let ff := engGain (s.gain a 6) * asp + s.rf P.LoopFrictionFF a * satR (-1) 1 (vsp / s.rf P.LoopFrictionBand a)
  let dob := if dobOn then s.rf P.LoopDobGain a * ofState dhat else 0
  let x := toState (kv * ev + (if tn = 0 then 0 else ofState r.iv) + ff + dob)
  -- R140: the integrator keeps its value where the part cut off last time has the sign of the error
  let stay := bitOf (s.rd P.LoopStatus a) 2 && decide (sgnR ev = (r.cut : Rat) ∧ r.cut ≠ 0)
  let iv : Int := if tn = 0 then 0 else if stay then toState (satR (-lim) lim (ofState r.iv)) else
    toState (satR (-lim) lim (ofState r.iv + kv * (tv / tn) * ev))
  let (y1, f1) := biquadStep (s.rd P.LoopFiltType a == 0) r.fInit (s.filtCoefs a a) r.f1 x
  let (y2, f2) := biquadStep (s.rd P.LoopFiltType (a + 128) == 0) r.fInit (s.filtCoefs a (a + 128)) r.f2 y1
  let idr := if s.rd P.LoopMotorType a = 3 then 0 else s.rf P.LoopIdRef a
  let iqMax := sqrtR (lim * lim - idr * idr)
  let u := ofState y2
  let (iq, is) := clampR iqMax u
  let s := ((s.wrBit P.LoopStatus a 3 vs).wrBit P.LoopStatus a 2 is).wrBit P.LoopStatus a 6 ds
  let s := (s.wrF P.LoopVelRef a (mkRat refQ 16)).wrF P.LoopDobEstimate a (ofState dhat)
  s.setAxis a { r with
    iv := iv, f1 := f1, f2 := f2, fInit := false, dhat := dhat
    mon := monPut r.mon [(2, ev), (3, kv * ev + (if tn = 0 then 0 else ofState r.iv)), (4, ff), (5, ofState iv), (6, u), (7, draw)]
    iqRef := if fs = 0 then 0 else q31 (iq / fs)
    cut := if is then (if iqMax < u then 1 else -1) else 0 }

/-- Electrical angle as a fraction of a period, from a position in counts (R144). -/
def State.elAngle (s : State) (a : Nat) (p : Rat) (c : Rat) : Rat :=
  let x := (p - mkRat (s.rp P.MotCommOffset a) 65536) * s.rd P.MotPolePairs a / c
  let f := x - x.floor
  mkRat (roundHE (f * 4294967296) % 4294967296) 4294967296

/-- The position pass 3 uses: for Hall feedback the centre of the present count, moved on by the speed (R144). -/
def State.anglePos (s : State) (a : Nat) : Rat :=
  let p : Rat := mkRat (s.rp P.FbPosition a) 65536
  if s.rd P.FbType a = 3 then
    let f := s.fbk a
    let dt : Rat := mkRat ((s.time.lastS : Int) - f.tRef) 1000000000
    let mv : Rat := if bitOf (s.rd P.FbState a) fbSPEEDVALID then satR (-1 / 2) (1 / 2) (mkRat (engVel (s.rp P.FbSpeed a)) 16 * dt) else 0
    p + 1 / 2 + mv
  else p

/-- Electrical speed in rad/s from a speed in counts/s. -/
def State.elSpeed (s : State) (a : Nat) (v c : Rat) : Rat := v * 2 * piR * s.rd P.MotPolePairs a / c

/-- Counts per revolution as the engine takes it (R144, R147). -/
def State.engCounts (s : State) (a : Nat) : Rat :=
  if s.effMode a = 4 ∧ s.rd P.FbType a = 0 then 1024 * s.rd P.MotPolePairs a else s.rd P.FbCountsPerRev a

/-- Measured currents of pass 3 in Q1.31 and the angle (R144, R146 to R148): id (or iA), iq (or iB). -/
def State.passMeas (s : State) (a : Nat) : Rat × Int × Int :=
  let (ia, ib, ic) := s.engCurrents a
  let f (x : Int) : Rat := mkRat x 32768
  let m4 := s.effMode a = 4
  let th := s.elAngle a (if m4 then mkRat (s.axis a).psp 65536 else s.anglePos a) (s.engCounts a)
  let c := cosTurn th
  let sn := sinTurn th
  match s.rd P.LoopMotorType a with
  | 1 =>
    let al := (2 * f ia - f ib - f ic) / 3
    let be := (f ib - f ic) / sqrtR 3
    (th, q31 (al * c + be * sn), q31 (-al * sn + be * c))
  | 2 => (th, q31 (f ia * c + f ib * sn), q31 (-(f ia) * sn + f ib * c))
  | _ => (th, 0, q31 (f ia))

/-- Report the measured currents. -/
def State.measReport (s : State) (a : Nat) (d q : Int) : State :=
  (s.wrF P.LoopIdMeas a (ofQ31 d * s.curFs a)).wrF P.LoopIqMeas a (ofQ31 q * s.curFs a)

/-- A voltage in engine format: Q1.31 of the full scale (R136). -/
def engVolt (fs x : Rat) : Rat := ofQ31 (q31 (x / fs)) * fs

/-- Bus voltage (R145); true where LoopUbusMin is taken. -/
def State.engUb (s : State) (a : Nat) : Rat × Bool :=
  let u := mkRat (s.node (s.axisNode a)).ubus 32768 * s.voltFs a
  let m := engVolt (s.voltFs a) (s.rf P.LoopUbusMin a)
  if u < m then (m, true) else (u, false)

/-- One PI with its limit and anti-windup (R144, R145), voltages of full scale `fs` in engine format (R136): answers limited voltage,
integrator, limited. The integrator never exceeds `um`. -/
def piVolt (fs kc ti T e ff um ulim : Rat) (i : Int) : Rat × Int × Bool :=
  let x := kc * e + (if ti = 0 then 0 else ofState i) + ff
  let u := engVolt fs x
  let (ul, cl) := clampR (engVolt fs ulim) x
  let ul := if cl then ul else u
  let keep := cl && decide (sgnR e = sgnR (x - ul))
  let i' : Int := if ti = 0 then 0 else if keep then toState (satR (-um) um (ofState i)) else toState (satR (-um) um (ofState i + kc * (T / ti) * e))
  (ul, i', cl)

/-- Interpolated entries of the axis's microstep table at an angle (R147, R271). -/
def State.stepRefs (s : State) (a : Nat) (th : Rat) : Rat × Rat :=
  let x := (th * 4294967296).floor.toNat % 4294967296
  let i := x / 4194304
  let w : Rat := mkRat (x % 4194304) 4194304
  let tb := s.rd P.ModStepTable a
  let (a0, b0) := s.mstEntry tb i
  let (a1, b1) := s.mstEntry tb ((i + 1) % 1024)
  (((1 - w) * a0 + w * a1) / 32767, ((1 - w) * b0 + w * b1) / 32767)

/-- Hand a voltage command to the modulation section. -/
def State.voltCmd (s : State) (a : Nat) (r : AxisRec) (mA mB : Rat) (us um : Bool) (pw : Rat) : State :=
  let cA := q31 mA
  let cB := q31 mB
  let s := (s.wrBit P.LoopStatus a 1 us).wrBit P.LoopStatus a 7 um
  (s.wr P.LoopVoltCmd a (ratToF32 (ofQ31 cA) + ratToF32 (ofQ31 cB) * 2 ^ 32)).setAxis a
    { r with cmdA := cA, cmdB := cB, pw := toState pw }

/-- Passes 3 and 4 of a running axis (R144 to R148). -/
def State.passCur (s : State) (a : Nat) : State :=
  let (th, dq, qq) := s.passMeas a
  let s := s.measReport a dq qq
  let r := s.axis a
  let fs := s.curFs a
  let vs := s.voltFs a
  let T : Rat := mkRat s.cycleNs 1000000000
  let kc := engGain (s.gain a 0)
  let ti := s.gain a 1 / 1000
  let (ub, um) := s.engUb a
  let vl := s.rf P.LoopVoltLimit a
  let iD := ofQ31 dq * fs
  let iQ := ofQ31 qq * fs
  let C := s.engCounts a
  let ke := s.rf P.MotKe a
  let dec := s.rb P.LoopCurDecouple a
  let iqr := ofQ31 r.iqRef * fs
  let speed : Rat := mkRat (engVel (s.rp P.FbSpeed a)) 16
  if s.effMode a = 4 then
    let I := if r.stepHold then s.rf P.StepHoldCurrent a else s.rf P.StepRunCurrent a
    let (ta, tb) := s.stepRefs a th
    let (ia, ib, _) := s.engCurrents a
    let we := s.elSpeed a (mkRat (engVel r.vsp) 16) C
    let ref (x : Rat) : Rat := if fs = 0 then 0 else ofQ31 (q31 (I * x / fs)) * fs
    let um' := vl * ub
    let (ua, xa, ca) := piVolt vs kc ti T (ref ta - mkRat ia 32768 * fs) (-(ke * we) * sinTurn th) um' um' r.iId
    let (uv, xb, cb) := piVolt vs kc ti T (ref tb - mkRat ib 32768 * fs) (ke * we * cosTurn th) um' um' r.iIq
    s.voltCmd a { r with iId := xa, iIq := xb, mon := monPut r.mon [(8, ua), (9, uv), (10, ofState xa), (11, ofState xb)] } (ua / ub) (uv / ub) (ca || cb) um
      (ua * (mkRat ia 32768 * fs) + uv * (mkRat ib 32768 * fs))
  else if s.rd P.LoopMotorType a = 3 then
    let wm := speed * 2 * piR / C
    let um' := vl * ub
    let (u, x, c) := piVolt vs kc ti T (iqr - iQ) (if dec then ke * wm else 0) um' um' r.iIq
    s.voltCmd a { r with iIq := x, mon := monPut r.mon [(9, u), (11, ofState x)] } (u / ub) 0 c um (u * iQ)
  else
    let we := s.elSpeed a speed C
    let umax := if s.rd P.LoopMotorType a = 1 then vl * ub / sqrtR 3 else vl * ub
    let ffd := if dec then -(we * s.rf P.MotLq a / 1000 * iQ) else 0
    let ffq := if dec then we * (s.rf P.MotLd a / 1000 * iD + ke) else 0
    let (ud, xd, cd) := piVolt vs kc ti T (s.rf P.LoopIdRef a - iD) ffd umax umax r.iId
    let (uq, xq, cq) := piVolt vs kc ti T (iqr - iQ) ffq umax (sqrtR (umax * umax - ud * ud)) r.iIq
    let adv : Rat := if s.rb P.LoopAngleAdvance a then we * ((s.loopDelay a : Rat) / 1000000000 + T / 2) / (2 * piR) else 0
    let c := cosTurn (th + adv)
    let sn := sinTurn (th + adv)
    s.voltCmd a { r with iId := xd, iIq := xq, mon := monPut r.mon [(8, ud), (9, uq), (10, ofState xd), (11, ofState xq)] } ((ud * c - uq * sn) / ub) ((ud * sn + uq * c) / ub) (cd || cq) um
      (if s.rd P.LoopMotorType a = 1 then 3 / 2 * (ud * iD + uq * iQ)
        else (ud * c - uq * sn) * (mkRat (s.engCurrents a).1 32768 * fs) + (ud * sn + uq * c) * (mkRat (s.engCurrents a).2.1 32768 * fs))

/-- Time towards StepHoldDelay (R147, R151). -/
def State.stepTime (s : State) (a : Nat) : State :=
  let r := s.axis a
  if r.vsp ≠ 0 then s.setAxis a { r with stepTicks := 0, stepHold := false }
  else s.setAxis a { r with stepTicks := r.stepTicks + s.cycleNs }

/-- The passes of an axis job that are due (R131). -/
def State.jobPasses (s : State) (a : Nat) : Nat :=
  if !s.axisRuns a then 1 else
    let m := s.effMode a
    (if m = 3 ∧ s.loopDue a (s.rd P.LoopPosDivider a) then 1 else 0) +
      (if (m = 2 ∨ m = 3) ∧ s.loopDue a (s.rd P.LoopVelDivider a) then 1 else 0) + 2

/-- An axis job (R129, R131, R151), and the edge set formed from it (R246). -/
def State.axisJob (s : State) (a : Nat) : State :=
  if !s.axisOn a then s
  else if !s.axisRuns a then
    let (_, d, q) := s.passMeas a
    let s := ((s.measReport a d q).wr P.LoopIqRef a 0).wr P.LoopVoltCmd a 0
    (s.offSet a).setAxis a { s.axis a with cmdCycle := s.time.cycle + 1, pw := 0 }
  else
    let m := s.effMode a
    let s := s.stepTime a
    let s := if m = 3 ∧ s.loopDue a (s.rd P.LoopPosDivider a) then s.passPos a else s
    let s := if (m = 2 ∨ m = 3) ∧ s.loopDue a (s.rd P.LoopVelDivider a) then s.passVel a else s
    let fs := s.curFs a
    let s := if m = 1 then s.setAxis a { s.axis a with iqRef := if fs = 0 then 0 else q31 (s.rf P.LoopCurRef a / fs) } else s
    let s := s.wrF P.LoopIqRef a (ofQ31 (s.axis a).iqRef * fs)
    let s := (s.passCur a).formEdges a
    s.setAxis a { s.axis a with cmdCycle := s.time.cycle + 1 }

/-! ### Jobs and lanes (R130 to R132) -/

/-- A job becomes ready. -/
def State.jobReady (s : State) (j : Job) : State := { s with eng := { s.eng with ready := s.eng.ready ++ [j] } }

/-- The order of ready jobs: ready tick, then front-end jobs, then ascending axis number. -/
def Job.before (x y : Job) : Bool :=
  decide (x.tick < y.tick) || (x.tick == y.tick && ((x.fe && !y.fe) || (x.fe == y.fe && decide (x.id < y.id))))

def firstJob : List Job → Option Job
  | [] => none
  | j :: r => match firstJob r with
    | none => some j
    | some k => some (if k.before j then k else j)

/-- The engine clock of a tick, at the nominal 800 MHz (Table 1.3), and the tick at which a clock begins. -/
def engClock (t : Nat) : Nat := (4 * t + 4) / 5
def clockTick (c : Nat) : Nat := (5 * c + 3) / 4

/-- The clock after a job's last pass. -/
def LaneJob.fin (j : LaneJob) : Nat := j.start + 16 * j.passes

/-- The job takes stage 0 of its lane in a clock: with its first or a returning pass (R130). -/
def LaneJob.takes (j : LaneJob) (c : Nat) : Bool := (List.range j.passes).any fun k => j.start + 16 * k == c

/-- The first clock from `c` on in which stage 0 of a lane is free (R130). -/
def laneEntry (l : List LaneJob) : Nat → Nat → Nat
  | 0, c => c
  | f + 1, c => if l.any (·.takes c) then laneEntry l f (c + 1) else c

/-- The lane with the fewest jobs in flight, the lowest of several. -/
def bestLane (ls : List Nat) : Nat :=
  (List.range ls.length).foldl (fun b i => if ls.getD i 0 < ls.getD b 0 then i else b) 0

/-- Passes of the front-end jobs FJ1 to FJ8 (Table 10.2). -/
def fePasses : List Nat := [2, 3, 2, 3, 4, 4, 4, 3]

/-- A front-end job that begins makes the next one ready at its end (R283). -/
def feNext (j : Job) (fin : Nat) : List Job :=
  if j.fe && decide (j.id < 8) then [{ tick := fin, fe := true, id := j.id + 1, passes := fePasses.getD j.id 0 }] else []

/-- ENGINE_JOB_DISPATCH: the first ready job enters a lane (R130); while 16 axis jobs or 8 front-end jobs are in flight, one of that kind
waits (R132). -/
def execEngineJobDispatch (t : Nat) (s : State) : Res :=
  onEvent t s fun s =>
    match if bitOf s.mod.halted 1 then none else firstJob (s.eng.ready.filter fun j => decide (j.tick ≤ s.time.tick)) with
    | none => s
    | some j =>
      let now := engClock s.time.tick
      let lanes := s.eng.lanes.map fun l => l.filter (fun x => decide (now < x.fin))
      if (if j.fe then 8 else 16) ≤ (lanes.flatten.filter (·.fe == j.fe)).length then s else
      let k := bestLane (lanes.map List.length)
      let l := lanes.getD k []
      let job : LaneJob := { start := laneEntry l 96 now, passes := if j.fe then j.passes else s.jobPasses j.id, fe := j.fe }
      let fin := clockTick job.fin
      let lanes := lanes.set k (l ++ [job])
      let flying := (lanes.map List.length).sum
      let s := { s with eng := { ready := s.eng.ready.erase j ++ feNext j fin, lanes := lanes } }
      let s := s.wr P.EngPeakInFlight 0 (max (s.rd P.EngPeakInFlight 0) flying)
      let tm : Rat := ((fin - j.tick : Nat) : Rat)
      let s := if s.rf P.EngPeakJobTime 0 < tm then s.wrF P.EngPeakJobTime 0 tm else s
      if !j.fe then s.axisJob j.id
      else if j.id = 8 then { s with fe := { s.fe with done := s.fe.made, doneAt := fin } } else s

/-- STEP_HOLD_DELAY (R147). -/
def execStepHoldDelay (t axis : Nat) (s : State) : Res :=
  onUnit t s (decide (axis < 128)) fun s =>
    let r := s.axis axis
    if s.axisRuns axis && s.effMode axis == 4 && r.vsp == 0 && decide (s.rf P.StepHoldDelay axis * 1000000 ≤ r.stepTicks) then
      s.setAxis axis { r with stepHold := true }
    else s

/-! ### Release and disable (R149, R152 to R154) -/

/-- Parameters in amperes and volts that R137 checks. -/
def ampParams : List Nat :=
  [P.LoopIdRef, P.LoopCurRef, P.LoopCurLimit, P.LoopFrictionFF, P.StepRunCurrent, P.StepHoldCurrent, P.ModDtCompBand]
def voltParams : List Nat := [P.LoopUbusMin]

/-- A value is above the full scale of the axis's cell (R137); not checked while the identity is unknown. -/
def State.aboveFs (s : State) (idx a v : Nat) : Bool :=
  if s.ident (s.axisNode a) = [] then false
  else if ampParams.contains idx then decide (s.curFs a < absR (f32ToRat v))
  else if voltParams.contains idx then decide (s.voltFs a < absR (f32ToRat v))
  else false

/-- The value that is held for a parameter in amperes or volts: Q1.31 of the cell's full scale (R14, R137). While the identity is unknown, and
where it lies above the full scale of a cell named later, it stays as written: AxisEnable checks it. -/
def State.cellForm (s : State) (idx a v : Nat) : Nat :=
  let fs := if ampParams.contains idx then s.curFs a else if voltParams.contains idx then s.voltFs a else 0
  if s.ident (s.axisNode a) = [] ∨ fs = 0 ∨ fs < absR (f32ToRat v) then v else ratToF32 (engVolt fs (f32ToRat v))

/-- The values of R137 are converted again: a change of ElkAxisNode, and the release of an axis whose cell was not known as they were written. -/
def State.cellForms (s : State) (a : Nat) : State :=
  (ampParams ++ voltParams).foldl (fun s p => if s.rd p a = 0 then s else s.wr p a (s.cellForm p a (s.rd p a))) s

/-- Pairs that suit a motor type (R149). -/
def motorPairs (ty : Nat) : Nat := [0, 3, 4, 2].getD ty 0

/-- A node is present and not retired: by the active mode, or, in the phases before one is active, addressed by the cold start. -/
def State.nodeThere (s : State) (k : Nat) : Bool :=
  !s.retired k && (modePresent s.activeMode k ||
    decide (4 ≤ s.rd P.ElkState 0 ∧ s.rd P.ElkState 0 ≤ 6 ∧ 1 ≤ k ∧ s.ident k ≠ []))

/-- The first condition of R153 that fails; 0 = ready. -/
def State.notReady (s : State) (a : Nat) : Nat :=
  let k := s.axisNode a
  if s.rd P.LoopMotorType a = 0 then 1
  else if !s.nodeThere k then 2
  else if s.rd P.FbType a = 0 ∧ s.rd P.LoopMode a ≠ 4 then 3
  else if !bitOf (identFbTypes (s.ident k)) (s.rd P.FbType a) then 4
  else if (ampParams ++ voltParams).any (fun p => s.aboveFs p a (s.rd p a)) then 5
  else 0

/-- AXIS_ENABLE. -/
def execAxisEnable (t : Nat) (q : Req) (s : State) : Res :=
  runReq 0x0501 t q s fun s =>
    let a := q.inst
    let ty := s.rd P.LoopMotorType a
    let nr := s.notReady a
    s.commitReq q 0 [(decide (ty ≠ 0 ∧ s.ident (s.axisNode a) ≠ [] ∧ s.axisPairs a ≠ motorPairs ty), ⟨0x031B, 0, 0, 0⟩)]
      [(s.rb P.AxisHoldReason a, ⟨0x021C, 0, 0, s.rd P.AxisHoldReason a⟩), (decide (nr ≠ 0), ⟨0x021B, nr, 0, 0⟩),
       (decide (s.rd P.ElkState 0 ≠ elkRun), ⟨0x0214, 0, 0, 0⟩)]

/-- AXIS_DISABLE. -/
def execAxisDisable (t : Nat) (q : Req) (s : State) : Res :=
  runReq 0x0502 t q s fun s => s.commitReq q 0 [] []

/-- An axis that runs open-loop and whose fault has been cleared (R97, R99): AxisEnable closes its loops again. -/
def State.openEnds (s : State) (a : Nat) : Bool := (s.axis a).openLoop && decide ((s.rd P.FbLatched a).land 0x300 = 0)

/-- MonVerdict 4 ends with the open-loop operation (DEDUCED, notes/assumptions/85.md). -/
def State.endOpen (s : State) (a : Nat) : State := if s.rd P.MonVerdict a = 4 then s.wr P.MonVerdict a 0 else s

/-- The engine's part of a release at S(c) (R153, R162, R170). -/
def State.engRelease (s : State) (a : Nat) : State :=
  let s := s.cellForms a
  let r := s.axis a
  let fromOff := s.rd P.AxisState a = 0
  let keep := s.rb P.LoopReleaseIntegrator a && !decide fromOff
  let s := if fromOff then
      (s.setGm a { s.gmap a with jest := roundHE (s.rf P.LoopDobInertia a * mkRat (2 ^ 60) 1), dc := 0 }).wr
        P.GmInertiaEstimate a (s.rd P.LoopDobInertia a)
    else s
  let s := s.setAxis a { r with
    iId := 0, iIq := 0, iv := if keep then r.iv else 0, dhat := 0, fInit := true, iqRef := 0, vPos := 0, cut := 0
    openLoop := false, monStop := false
    relink := (s.node (s.axisNode a)).lsafe }
  (((s.wr P.AxisState a 2).wr P.LoopStatus a 1).endOpen a).gmRelease a

/-- The engine's part of AxisDisable at S(c) (R154). -/
def State.engDisable (s : State) (a : Nat) : State :=
  let r := s.axis a
  let s := s.setAxis a { r with
    iv := 0, iId := 0, iIq := 0, dhat := 0, f1 := Biquad.zero, f2 := Biquad.zero, iqRef := 0, vPos := 0, cut := 0, cmdA := 0, cmdB := 0, pw := 0
    relink := false, openLoop := false, monStop := false }
  (((s.wr P.AxisState a 0).wrBit P.LoopStatus a 0 false).endOpen a).offSet a

/-! ### Write rules -/

/-- Limits of a filter frequency for a divider and cycle (R142). -/
def filtFreqOk (nv T : Nat) (f : Rat) : Bool := decide (10 ≤ f) && decide (f * (nv * T : Nat) ≤ 400000000)

/-- Limits of the observer bandwidth (R143). -/
def dobBandOk (nv T : Nat) (f : Rat) : Bool := decide (10 ≤ f) && decide (f ≤ 2000) && decide (f * (nv * T : Nat) ≤ 100000000)

/-- An axis keeps R142 and R143 with a divider and cycle. -/
def State.filtersFit (s : State) (a nv T : Nat) : Bool :=
  [a, a + 128].all (fun k => (s.copies P.LoopFiltFreq k).all fun f => filtFreqOk nv T (f32ToRat f)) &&
    (s.copies P.LoopDobBandwidth a).all fun f => dobBandOk nv T (f32ToRat f)

/-- General coefficients are stable (R142). -/
def coefOk (v : Nat) : Bool :=
  let a1 := f32ToRat (v / 2 ^ 96 % 2 ^ 32)
  let a2 := f32ToRat (v / 2 ^ 128 % 2 ^ 32)
  decide (absR a2 < 1) && decide (absR a1 < 1 + a2)

/-- Refusals of a write to a loop parameter (R134, R137, R142, R143, R156). -/
def State.loopWriteBad (s : State) (idx i v : Nat) : List (Bool × Rsn) :=
  let a := i % 128
  -- the divider and the cycle as they are, and as written and not yet active (R142, R143)
  let nvs := s.copies P.LoopVelDivider a
  let Ts := s.cycleLens
  let all (f : Nat → Nat → Bool) : Bool := nvs.all fun n => Ts.all (f n)
  [([P.LoopVelDivider, P.LoopPosDivider, P.LoopPhase].contains idx &&
      s.breaks idx i v [P.LoopVelDivider, P.LoopPosDivider, P.LoopPhase] (fun x =>
        decide (x P.LoopPosDivider < x P.LoopVelDivider ∨ x P.LoopPosDivider ≤ x P.LoopPhase)), ⟨0x031C, 0, 0, 0⟩),
   (s.aboveFs idx i v, ⟨0x031D, 0, 0, 0⟩),
   (decide (idx = P.LoopFiltFreq) && !all (fun n T => filtFreqOk n T (f32ToRat v)), ⟨0x031E, 0, 0, 0⟩),
   (decide (idx = P.LoopFiltCoef) && !coefOk v, ⟨0x031E, 0, 0, 0⟩),
   (decide (idx = P.LoopVelDivider) && !Ts.all (s.filtersFit i v), ⟨0x031E, 0, 0, 0⟩),
   (decide (idx = P.SysCycleLength) && (List.range 128).any (fun b => (s.copies P.LoopVelDivider b).any fun n => !s.filtersFit b n (31250 * 2 ^ v)),
     ⟨0x031E, 0, 0, 0⟩),
   (decide (idx = P.LoopDobBandwidth) && !all (fun n T => dobBandOk n T (f32ToRat v)), ⟨0x031E, 0, 0, 0⟩),
   (decide (idx = P.StepHoldCurrent) && (s.copies P.StepRunCurrent i).any (fun x => decide (f32ToRat x < f32ToRat v)), ⟨0x0304, 0, 0, 0⟩),
   ((decide (idx = P.LoopMotorType ∨ idx = P.MotPolePairs) || (decide (idx = P.LoopMode) && (v == 4) != (s.rdShadow P.LoopMode i == 4))) &&
      s.axisOn i, ⟨0x0217, 0, 0, 0⟩)]

/-- What a change of a loop parameter brings once it is active (R155, R246, Table 5.6). -/
def State.loopChanged (s : State) (idx i : Nat) : State :=
  if idx = P.LoopCurGain ∨ idx = P.MotLq then s.checkDue i 1
  else if idx = P.LoopCurLimit then
    let m := s.rf P.LoopCurLimit i
    let x := toState (satR (-m) m (ofState (s.axis i).iv))
    if x = (s.axis i).iv then s else s.setAxis i { s.axis i with iv := x }
  else if idx = P.LoopMotorType then (s.wr P.ModMethod i 0).dropShadow (pkey P.ModMethod i)
  else if idx = P.LoopMode ∧ s.rd P.LoopMode i = 2 then s.setAxis i { s.axis i with vPos := 0 }
  else s

end Sys2Proof.Machine
end

