-- ==== Sys2Proof/Machine/Plan.lean ====
section
/-!
DEFINITION. Jerk-limited motion (R178, R184 to R187): the shortest change of velocity in whole steps, the way to a target, and one step of
a generator. States are whole numbers of 2^-64; times are whole numbers of 2^-40 ns. In a step the acceleration goes linearly from the
value before to the value after it, so the jerk is constant in every step (R178). The plan is made again in every cycle from the state
reached (notes/assumptions/30.md).
-/
namespace Sys2Proof.Machine

/-- 2^64. -/
abbrev two64 : Int := 18446744073709551616
/-- Time units per second. -/
abbrev tUnit : Int := 1099511627776000000000

/-- Division rounded to nearest. -/
def rdiv (x y : Int) : Int := if y = 0 then 0 else (2 * x + y) / (2 * y)

/-- A binary32 value in 2^-64. -/
def fix64 (x : Rat) : Int := roundHE (x * 18446744073709551616)

/-- A 2^-64 value rounded to 2^-16, ties to even (R178). -/
def out16 (x : Int) : Int := roundHE (mkRat x 281474976710656)

/-- A 2^-16 value in 2^-64. -/
def in16 (x : Int) : Int := x * 281474976710656

/-- The time units of a number of ns. -/
def tNs (n : Nat) : Int := (n : Int) * 1099511627776

/-- The state after one step, or several of one jerk, of length `t` in all, in which the acceleration goes linearly to `a1`: the formulas of
R178 with j = (a1 - a) / t. -/
def Kin.ramp (k : Kin) (t a1 : Int) : Kin :=
  { p := k.p + rdiv (6 * tUnit * k.v * t + (2 * k.a + a1) * t * t) (6 * tUnit * tUnit)
    v := k.v + rdiv ((k.a + a1) * t) (2 * tUnit)
    a := a1 }

/-- Speed times time. -/
def vt (v t : Int) : Int := rdiv (v * t) tUnit

/-- The largest value from `lo` on that is `ok`, by bisection: `lo` is taken to be ok and `hi` not. -/
def bisectT (ok : Int → Bool) : Nat → Int → Int → Int
  | 0, lo, _ => lo
  | n + 1, lo, hi => if hi ≤ lo + 1 then lo else let m := (lo + hi) / 2; if ok m then bisectT ok n m hi else bisectT ok n lo m

/-! ### Accelerations of a change of velocity

The change is mirrored so that it adds velocity. From acceleration `x`, with at most `h` more or less in a step and at most `am`, the
acceleration of step number `k` is as large as it may be while it can still be 0 at step `n`; where nothing is to be added, it returns to
0 at once. A larger `n` adds more. -/

/-- The acceleration after `k` steps. -/
def shape (x h am n k : Int) : Int :=
  let r := if 0 ≤ x then max 0 (x - k * h) else min 0 (x + k * h)
  let u := if x ≤ am then min am (x + k * h) else max am (x - k * h)
  max r (min u (max 0 ((n - k) * h)))

/-- Steps until the acceleration is 0. -/
def shapeEnd (x h n : Int) : Int := max n (((x.natAbs : Int) + h - 1) / h)

/-- Sort into a rising list without repeats. -/
def insUp (x : Int) : List Int → List Int
  | [] => [x]
  | y :: r => if x < y then x :: y :: r else if x = y then y :: r else y :: insUp x r

/-- Step numbers between which the acceleration is linear, up to `e`. -/
def shapePts (x h am n e : Int) : List Int :=
  let c : List Int := [(x.natAbs : Int) / h, ((am - x).natAbs : Int) / h, (n * h - am) / h, (n * h - x) / (2 * h), n]
  ((c.flatMap fun y => [y, y + 1]) ++ [e]).foldl (fun l y => if 0 < y ∧ y ≤ e then insUp y l else l) []

/-- Twice the sum of the mean accelerations of the steps. -/
def shapeSum (x h am n : Int) : Int :=
  ((shapePts x h am n (shapeEnd x h n)).foldl (fun (z : Int × Int × Int) y =>
    let b := shape x h am n y
    (y, b, z.2.2 + (z.2.1 + b) * (y - z.1))) (0, x, 0)).2.2

/-- What a plan says of the coming step: the acceleration at its end, the distance to the end of the plan, the number of its steps, and the
velocity at its end. -/
structure Plan where
  a1 : Int
  dist : Int
  steps : Int
  u : Int

/-- Velocities within 2^-52 count/s count as equal where a plan ends: the sum of accelerations this is. -/
def grain (t : Int) : Int := 8192 * tUnit / t

/-- A change that adds velocity, `W` being twice the sum of the mean accelerations to reach: between two numbers `n` the accelerations are
mixed, so that the sum is exact. `sg` mirrors back. -/
def planUp (t h am v x sg W u : Int) : Plan :=
  let hi := 4 * (((x.natAbs : Int) + am) / h + W / am + 2 * ((isqrt (2 * W.natAbs / h.toNat) : Nat) : Int) + 8)
  let near := grain t
  let n := bisectT (fun n => decide (shapeSum x h am n ≤ W + near)) 256 0 hi
  let w0 := shapeSum x h am n
  let w1 := shapeSum x h am (n + 1)
  let one := decide (W ≤ w0 + near ∨ w1 ≤ w0)
  let e := if one then shapeEnd x h n else shapeEnd x h (n + 1)
  let at_ (k : Int) : Int := if one then shape x h am n k
    else rdiv (shape x h am n k * (w1 - W) + shape x h am (n + 1) k * (W - w0)) (w1 - w0)
  let pts := if one then shapePts x h am n e else (shapePts x h am n e).foldl (fun l y => insUp y l) (shapePts x h am (n + 1) e)
  let f := pts.foldl (fun (z : Int × Kin) y => (y, z.2.ramp ((y - z.1) * t) (sg * at_ y))) ((0 : Int), ({ p := 0, v := v, a := sg * x } : Kin))
  { a1 := sg * at_ 1, dist := f.2.p, steps := e, u := u }

/-- A velocity that the return of the acceleration to 0 would carry through standstill: velocity and acceleration end together at standstill,
with the jerk this takes; where a single step is too long for that, the acceleration ends in it and the velocity as R178 has it (DESIGN
CHOICE, notes/assumptions/90.md). -/
def planEase (t v a W0 : Int) : Plan :=
  let m := W0 / a
  if m ≤ 0 then
    let e := ({ p := 0, v := v, a := a } : Kin).ramp t 0
    { a1 := 0, dist := e.p, steps := 1, u := e.v }
  else
  let x (n : Int) : Kin := ((({ p := 0, v := v, a := a } : Kin).ramp (n * t) 0).ramp ((m + 1 - n) * t) 0)
  let mix (y0 y1 : Int) : Int := rdiv (y0 * (a * (m + 1) - W0) + y1 * (W0 - a * m)) a
  if W0 = a * m then { a1 := a * (m - 1) / m, dist := (x m).p, steps := m, u := 0 }
  else { a1 := mix (a * (m - 1) / m) (a * m / (m + 1)), dist := mix (x m).p (x (m + 1)).p, steps := m + 1, u := 0 }

/-- Limits of a generator: V, A, D, J in 2^-64. `through`: the velocity may pass 0 with an acceleration, as that of a relative motion may. -/
structure Lim where
  v : Int
  a : Int
  d : Int
  j : Int
  through : Bool := false
  deriving DecidableEq, Repr

/-- Largest change of the acceleration in a step of length `t`. -/
def Lim.h (L : Lim) (t : Int) : Int := max 1 (L.j * t / tUnit)

/-- The shortest change, in steps of length `t`, from velocity `v` and acceleration `a` to velocity `u` at acceleration 0: accelerations up to A,
decelerations up to D, jerk up to J. An acceleration beyond its bound first returns to it. -/
def Lim.plan (L : Lim) (t v a u : Int) : Plan :=
  let t := max 1 t
  let h := L.h t
  let W := rdiv (2 * tUnit * (u - v)) t
  let wr := shapeSum a h (max 1 L.a) 0
  let w0 := rdiv (-(2 * tUnit * v)) t
  if !L.through ∧ a < 0 ∧ 0 ≤ v ∧ 0 ≤ u ∧ wr + grain t < w0 then planEase t v a w0
  else if wr ≤ W + grain t then planUp t h (max 1 L.a) v a 1 W u
  else planUp t h (max 1 L.d) v (-a) (-1) (-W) u

/-- Distance of the shortest change to velocity `w` ahead. -/
def Lim.dist (L : Lim) (t v a w : Int) : Int := (L.plan t v a w).dist

/-- The velocity at which the acceleration has returned to 0 at once. -/
def Lim.peak (L : Lim) (t v a : Int) : Int := v + rdiv (shapeSum a (L.h t) (max 1 L.a) 0 * t) (2 * tUnit)

/-- The coming step of a plan. -/
def Kin.take (k : Kin) (t : Int) (pl : Plan) : Kin :=
  if pl.steps = 1 then { p := k.p + pl.dist, v := pl.u, a := 0 } else k.ramp t pl.a1

/-- A state mirrored. -/
def Kin.neg (k : Kin) : Kin := { p := -k.p, v := -k.v, a := -k.a }

/-- The direction of motion, else of the way. -/
def dirOf (v a d : Int) : Int := if 0 < v then 1 else if v < 0 then -1 else if 0 < a then 1 else if a < 0 then -1 else if 0 < d then 1 else if d < 0 then -1 else 0

/-- One step of a change to a velocity; ends exactly on it. An opposite velocity is reached through standstill (R186). -/
def stepVel (L : Lim) (t : Int) (k : Kin) (w : Int) : Kin :=
  if t ≤ 0 then k else
  let sg : Int := dirOf k.v k.a w
  let f := if sg < 0 then k.neg else k
  let e := f.take t (L.plan t f.v f.a (max 0 (sg * w)))
  if sg < 0 then e.neg else e

/-! ### Ways ahead -/

/-- Distances of 2^-36 count count as nothing: a generator at standstill so close to its target is at it. -/
abbrev slack : Int := 268435456

/-- A braking that ends within 2^-44 count before its target is left as it is. -/
abbrev fine : Int := 1048576

/-- A part of the way ahead: its length, its limits, and the speed allowed at its end (0: standstill there). -/
structure Leg where
  len : Int
  lim : Lim
  w : Int
  deriving DecidableEq, Repr

/-- The smaller of each limit (R200). -/
def Lim.meet (L M : Lim) : Lim := { v := min L.v M.v, a := min L.a M.a, d := min L.d M.d, j := min L.j M.j }

/-- The acceleration is back within the limits `M` of the next part before the joint, at the jerk of `L`. -/
def Lim.eases (L M : Lim) (t len : Int) (k : Kin) : Bool :=
  let b := if 0 ≤ k.a then M.a else -M.d
  let x : Int := (k.a - b).natAbs
  if (0 ≤ k.a ∧ k.a ≤ b) ∨ (k.a < 0 ∧ b ≤ k.a) then true
  else decide ((k.ramp ((x + L.h t - 1) / L.h t * t) b).p ≤ len)

/-- From a state `k.p` into the way, entered from velocity `v0`, every speed and stop ahead can still be kept (R185, R202). -/
def safeAhead (t v0 : Int) : List Leg → Kin → Bool
  | [], _ => false
  | g :: r, k =>
    if g.w ≤ 0 then decide (k.p + g.lim.dist t k.v k.a 0 ≤ g.len)
    else if k.p < g.len then
      (decide (g.lim.peak t k.v k.a ≤ g.w) || decide (k.p + g.lim.dist t k.v k.a g.w ≤ g.len)) &&
        (match r with | n :: _ => g.lim.eases n.lim t g.len k | [] => true)
    else decide (max v0 k.v ≤ g.w) && safeAhead t v0 r { k with p := k.p - g.len }

/-- Parts of the way that a state has left behind. -/
def passed : List Leg → Int → Nat
  | [], _ => 0
  | g :: r, p => if 0 < g.w ∧ g.len ≤ p then 1 + passed r (p - g.len) else 0

/-- The coming step under limits `L`: as fast as the way allows, so that the plan after it ends exactly (R185). -/
def stepUnder (L : Lim) (t : Int) (legs : List Leg) (f : Kin) : Kin :=
  let hi := L.plan t f.v f.a L.v
  let e := f.take t hi
  if safeAhead t f.v legs e then e else
  let w := legs.headD { len := 0, lim := L, w := 0 }
  let lo := L.plan t f.v f.a w.w
  if w.len - f.p - lo.dist ≤ fine then f.take t lo else
  let a := bisectT (fun x => safeAhead t f.v legs (f.ramp t x)) 64 lo.a1 hi.a1
  if a = lo.a1 then f.take t lo else f.ramp t a

/-- One step ahead along a way. The step that contains a joint, or ends at it, keeps the smaller limits of both parts (R200, R204). -/
def stepAhead (t : Int) (legs : List Leg) (f : Kin) : Kin :=
  match legs with
  | [] => f
  | g :: r =>
    let e := stepUnder g.lim t legs f
    match passed legs e.p with
    | 0 => e
    | n => stepUnder ((r.take n).foldl (fun L x => L.meet x.lim) g.lim) t legs f

/-- One step towards a position, at standstill there (R178, R185, R186). -/
def stepPos (L : Lim) (t : Int) (k : Kin) (target : Int) : Kin :=
  if t ≤ 0 then k else
  let d := target - k.p
  let sg := dirOf k.v k.a d
  if k.v = 0 ∧ k.a = 0 ∧ d.natAbs ≤ slack.toNat then { p := target, v := 0, a := 0 } else
  let f : Kin := { p := 0, v := sg * k.v, a := sg * k.a }
  let e := stepAhead t [{ len := sg * d, lim := L, w := 0 }] f
  let p := k.p + sg * e.p
  if e.v = 0 ∧ e.a = 0 ∧ (target - p).natAbs ≤ slack.toNat then { p := target, v := 0, a := 0 } else { p := p, v := sg * e.v, a := sg * e.a }

/-- One step of a relative motion towards 0, at relative standstill there (R181). It may turn round without standing still. -/
def stepMeet (L : Lim) (t : Int) (r : Kin) : Kin :=
  let L := { L with through := true }
  if r.v = 0 ∧ r.a = 0 ∧ r.p.natAbs ≤ slack.toNat then Kin.zero else
  let sg : Int := if r.p + L.dist t r.v r.a 0 ≤ 0 then 1 else -1
  let e := stepAhead t [{ len := -(sg * r.p), lim := L, w := 0 }] { p := 0, v := sg * r.v, a := sg * r.a }
  { p := r.p + sg * e.p, v := sg * e.v, a := sg * e.a }

/-- The highest speed, from `lo` to `cap`, from which the change to `fin` fits into a way, less one step at that speed. -/
def Lim.enter (L : Lim) (t len fin cap : Int) : Int :=
  let ok (x : Int) : Bool := decide (L.dist t x 0 fin + vt x t ≤ len)
  if cap ≤ fin then cap else if ok cap then cap else if !ok fin then 0 else bisectT ok 64 fin cap

/-! ### Generators -/

/-- The smaller of a move's own limit and the axis limit; patterns, 0 = the axis limit. -/
def limOf (own ax : Nat) : Rat := if own = 0 then f32ToRat ax else min (f32ToRat own) (f32ToRat ax)

/-- The value in force for deferred value `i`: the one kept where it is larger. -/
def Gen.kept (g : Gen) (i y : Nat) : Nat := if f32ToRat y < f32ToRat (g.keep.getD i 0) then g.keep.getD i 0 else y

/-- The limits a generator runs under: `ax` holds V, A, D, J of its axis as patterns. A larger value than the one kept applies at once
(R189). -/
def Gen.lim (g : Gen) (ax : List Nat) : Lim :=
  let x (i y : Nat) : Rat := limOf (g.own.getD i 0) y
  { v := fix64 (x 0 (ax.getD 0 0)), a := fix64 (x 1 (ax.getD 1 0)), d := fix64 (x 2 (g.kept 0 (ax.getD 2 0))), j := fix64 (x 3 (g.kept 1 (ax.getD 3 0))) }

/-- The limits of a stop: quick stops run under the stop values `st` (D, J). -/
def Gen.stopLim (g : Gen) (ax st : List Nat) : Lim :=
  let L := g.lim ax
  if g.quick then { L with d := fix64 (f32ToRat (g.kept 2 (st.getD 0 0))), j := fix64 (f32ToRat (g.kept 3 (st.getD 1 0))) } else L

/-- A jog's velocity within V (R187); true where it was cut. -/
def velWithin (V w : Int) : Int × Bool := if V < w then (V, true) else if w < -V then (-V, true) else (w, false)

/-- One step of a jerk-limited generator over time `t`. A stop that has come to standstill leaves the generator idle. -/
def Gen.step (g : Gen) (ax st : List Nat) (t : Int) : Gen :=
  match g.mode with
  | .idle => g
  | .pos =>
    let k := stepPos (g.lim ax) t g.k (in16 g.target)
    { g with k := k }
  | .vel =>
    let L := g.lim ax
    { g with k := stepVel L t g.k (velWithin L.v g.vel).1 }
  | .stop =>
    let k := stepVel (g.stopLim ax st) t g.k 0
    if k.v = 0 ∧ k.a = 0 then { g with k := k, mode := .idle, target := out16 k.p } else { g with k := k }

/-- At its position target, at standstill. -/
def Gen.there (g : Gen) : Bool := decide (g.k.v = 0 ∧ g.k.a = 0 ∧ g.k.p = in16 g.target)

/-- Stop. What is deferred stays so until the next motion starts (R189). -/
def Gen.stop (g : Gen) (quick : Bool) : Gen :=
  if g.k.v = 0 ∧ g.k.a = 0 then { g with mode := .idle, quick := false, target := out16 g.k.p, own := [0, 0, 0, 0] }
  else { g with mode := .stop, quick := quick, own := [0, 0, 0, 0] }

/-- Distance the generator needs to come to standstill from its state, in steps of length `t`. -/
def Gen.stopDist (g : Gen) (t : Int) (L : Lim) : Int :=
  let sg := dirOf g.k.v g.k.a 0
  L.dist t (sg * g.k.v) (sg * g.k.a) 0

/-- The distance a generator needs to come to standstill, a quick stop's under the stop values. -/
def Gen.brakeDist (g : Gen) (ax st : List Nat) (t : Int) : Int := g.stopDist t (if g.mode = .stop then g.stopLim ax st else g.lim ax)

/-- A commit has lowered deferred value `i` from the pattern `old`: the running move keeps the value in use where it cannot stop at its target
`x`, or a stop where it cannot stop as soon, with the new one (R189). `dist` is the distance to standstill. True where it is deferred. -/
def Gen.lower (g : Gen) (dist : Gen → Int) (x : Int) (i old : Nat) : Gen × Bool :=
  let free := { g with keep := g.keep.set i 0 }
  let kept := { g with keep := g.keep.set i (g.kept i old) }
  if g.k.v = 0 ∧ g.k.a = 0 then (free, false)
  else
    match g.mode with
    | .pos => if 2 ≤ i ∨ dist free ≤ dirOf g.k.v g.k.a 0 * (in16 x - g.k.p) + slack then (free, false) else (kept, true)
    | .stop => if decide (2 ≤ i) != g.quick || decide (dist free ≤ dist kept + slack) then (free, false) else (kept, true)
    | _ => (free, false)

end Sys2Proof.Machine
end

