-- ==== Sys2Proof/Machine/Traj.lean ====
section
/-!
DEFINITION. The set-point chain, the axis generator and its tasks: moves, jog, stops, homing, test moves, the stepper ramp and the move
queue (chapter 07).
-/
namespace Sys2Proof.Machine

def State.traj (s : State) (a : Nat) : TrjRec := tabGet s.trj TrjRec.init a
def State.setTraj (s : State) (a : Nat) (r : TrjRec) : State := { s with trj := tabSet s.trj TrjRec.init a r }

/-- Bits of TrjState (Table 7.13). -/
abbrev tJOG : Nat := 0
abbrev tMOVING : Nat := 1
abbrev tINPOS : Nat := 2
abbrev tRESUMABLE : Nat := 3
abbrev tLIMITED : Nat := 4
abbrev tDEFERRED : Nat := 5
abbrev tSTOPPING : Nat := 6
abbrev tQRUN : Nat := 7
abbrev tQPAUSED : Nat := 8
abbrev tHOMING : Nat := 9
abbrev tHOMEFAIL : Nat := 10
abbrev tATLIMIT : Nat := 11

def State.tBit (s : State) (a k : Nat) : Bool := bitOf (s.rd P.TrjState a) k

/-- Set a bit of TrjState; bits 4, 5 and 10 are latched when they become set (Table 7.12). -/
def State.tSet (s : State) (a k : Nat) (b : Bool) : State :=
  let s' := s.wrBit P.TrjState a k b
  if b && !s.tBit a k && (k == tLIMITED || k == tDEFERRED || k == tHOMEFAIL) then s'.wrBit P.TrjLatched a k true else s'

/-- The limits of the axis: V, A, D, J as patterns. -/
def State.axLims (s : State) (a : Nat) : List Nat :=
  [s.rd P.TrjVelMax a, s.rd P.TrjAccMax a, s.rd P.TrjDecMax a, s.rd P.TrjJerkMax a]

/-- The stop limits: D, J. -/
def State.axStops (s : State) (a : Nat) : List Nat := [s.rd P.TrjStopDec a, s.rd P.TrjStopJerk a]

/-- TrjTarget. -/
def State.setTarget (s : State) (a : Nat) (x : Int) : State := s.wrP P.TrjTarget a x

/-! ### Stepper ramp (R196) -/

/-- The ramp's speeds and rates, 2^-64. -/
structure Ramp where
  va : Int
  vz : Int
  vk : Int
  top : Int
  a1 : Int
  a2 : Int
  d1 : Int
  d2 : Int

/-- The ramp an axis runs under, with a move's own V, A, D and the deferred values of StpDec1 and StpDec2. -/
def State.ramp (s : State) (a : Nat) (g : Gen) : Ramp :=
  let o (i : Nat) : Nat := g.own.getD i 0
  let q := g.mode = .stop ∧ g.quick
  let qd := g.kept 2 (s.rd P.TrjStopDec a)
  { va := fix64 (s.rf P.StpStartSpeed a), vz := fix64 (s.rf P.StpStopSpeed a), vk := fix64 (s.rf P.StpCornerSpeed a)
    top := fix64 (limOf (o 0) (s.rd P.TrjVelMax a)), a1 := fix64 (limOf (o 1) (s.rd P.StpAcc1 a)), a2 := fix64 (limOf (o 1) (s.rd P.StpAcc2 a))
    d1 := fix64 (if q then f32ToRat qd else limOf (o 2) (g.kept 0 (s.rd P.StpDec1 a)))
    d2 := fix64 (if q then f32ToRat qd else limOf (o 2) (g.kept 1 (s.rd P.StpDec2 a))) }

/-- The stopping distance s(v). -/
def Ramp.dist (R : Ramp) (v : Int) : Int :=
  let d1 := max 1 R.d1
  if R.vk < v then rdiv (v * v - R.vk * R.vk) (2 * max 1 R.d2) + rdiv (R.vk * R.vk - R.vz * R.vz) (2 * d1)
  else max 0 (rdiv (v * v - R.vz * R.vz) (2 * d1))

/-- A step ahead from speed `v` to `v1` at rate `acc`, on a way of `rem`: it lands on the target where that lies within the step. -/
def rampGo (k : Kin) (v1 acc t : Int) (rem : Option Int) : Kin :=
  let x := vt ((k.v + v1) / 2) t
  match rem with
  | some d => if d ≤ x then { p := k.p + d, v := 0, a := 0 } else { p := k.p + x, v := v1, a := acc }
  | none => { p := k.p + x, v := v1, a := acc }

/-- Braking: down to v_z, then on at v_z; a stop ends with the step from v_z to 0. With v_z = 0 the last step to the target is that of a
speed of StpDec1 × T at most. -/
def Ramp.brake (R : Ramp) (t : Int) (k : Kin) (rem : Option Int) : Kin :=
  let vz := if 0 < R.vz then R.vz else vt R.d1 t
  if k.v ≤ vz then
    let x := vt k.v t
    match rem with
    | some d => if d ≤ x then { p := k.p + d, v := 0, a := 0 } else { p := k.p + x, v := k.v, a := 0 }
    | none => { p := k.p + x, v := 0, a := 0 }
  else
    let dec := if R.vk < k.v then R.d2 else R.d1
    rampGo k (max vz (k.v - vt dec t)) (-dec) t rem

/-- Speeding up towards `w`. -/
def Ramp.speed (R : Ramp) (t : Int) (k : Kin) (w : Int) (rem : Option Int) : Kin :=
  if k.v = 0 ∧ 0 < R.va then
    let u := min R.va w
    rampGo { k with v := u } u 0 t rem
  else if k.v < w then
    let acc := if k.v < R.vk then R.a1 else R.a2
    rampGo k (min w (k.v + vt acc t)) acc t rem
  else rampGo k k.v 0 t rem

/-- One step of the ramp, in the direction of motion. -/
def Ramp.ahead (R : Ramp) (t : Int) (k : Kin) (g : GenMode) (rem w : Int) : Kin :=
  match g with
  | .idle => k
  | .stop => R.brake t k none
  | .vel => if w < 0 then R.brake t k none
      else if w < k.v then
        let dec := if R.vk < k.v then R.d2 else R.d1
        rampGo k (max w (k.v - vt dec t)) (-dec) t none
      else R.speed t k w none
  | .pos =>
    -- braking starts up to one step late, and may change its rate within a step, so a shortfall within two steps is still a way ahead
    if rem ≤ 0 ∨ rem + 2 * vt (max R.top k.v) t < R.dist k.v then R.brake t k none
    else if k.v ≠ 0 ∧ rem ≤ R.dist k.v then R.brake t k (some rem)
    else if R.top < k.v then
      let dec := if R.vk < k.v then R.d2 else R.d1
      rampGo k (max R.top (k.v - vt dec t)) (-dec) t (some rem)
    else
      -- no step of acceleration after which it could no longer stop at the target (DEDUCED, notes/assumptions/31.md)
      let e := R.speed t k R.top (some rem)
      if k.v ≠ 0 ∧ k.v < e.v ∧ rem - (e.p - k.p) < R.dist e.v then rampGo k k.v 0 t (some rem) else e

/-- The distance of braking from speed `v` to `w`. -/
def Ramp.distTo (R : Ramp) (v w : Int) : Int :=
  if v ≤ w then 0
  else if R.vk ≤ w then rdiv (v * v - w * w) (2 * max 1 R.d2)
  else if R.vk < v then rdiv (v * v - R.vk * R.vk) (2 * max 1 R.d2) + rdiv (R.vk * R.vk - w * w) (2 * max 1 R.d1)
  else rdiv (v * v - w * w) (2 * max 1 R.d1)

/-- The smaller of each limit of two ramps (R200). -/
def Ramp.meet (R M : Ramp) : Ramp :=
  { R with top := min R.top M.top, a1 := min R.a1 M.a1, a2 := min R.a2 M.a2, d1 := min R.d1 M.d1, d2 := min R.d2 M.d2 }

/-- The ramp reaches `w` within a way `rem` after a step at speed `v`, or passes the joint at `w` at most. -/
def Ramp.fits (R : Ramp) (t v rem w : Int) : Bool := decide (v ≤ w) || decide (R.distTo v w + vt v t ≤ rem)

/-- One step ahead to a joint at `rem`, passed at `w` at most; `M` keeps the limits of the next entry as well, for the step that contains the
joint. -/
def Ramp.join (R M : Ramp) (t : Int) (k : Kin) (rem w : Int) : Kin :=
  let go (R : Ramp) : Kin :=
    let up := R.speed t k R.top none
    let high := decide (R.top < k.v)
    if !high && R.fits t up.v (rem - (up.p - k.p)) w && (decide (up.p - k.p < rem) || decide (max k.v up.v ≤ w)) then up
    else if !high && decide (0 < k.v) && R.fits t k.v (rem - vt k.v t) w then rampGo k k.v 0 t none
    else if k.v = 0 then R.speed t k (min w R.top) none
    else
      let dec := if R.vk < k.v then R.d2 else R.d1
      rampGo k (max (min w R.top) (k.v - vt dec t)) (-dec) t none
  let e := go R
  if rem ≤ e.p - k.p then go (R.meet M) else e

/-- One step of the stepper ramp. -/
def Gen.rampStep (g : Gen) (R : Ramp) (t : Int) : Gen :=
  let w := (velWithin R.top g.vel).1
  let d := in16 g.target - g.k.p
  let sg := dirOf g.k.v 0 (if g.mode = .vel then w else d)
  if g.mode = .idle then g
  else if sg = 0 then { g with k := { g.k with v := 0, a := 0 }, mode := if g.mode = .stop then .idle else g.mode }
  else
    let f := if sg < 0 then g.k.neg else g.k
    let e := R.ahead t f g.mode (sg * d) (sg * w)
    let k := if sg < 0 then e.neg else e
    if g.mode = .stop ∧ k.v = 0 then { g with k := k, mode := .idle, target := out16 k.p } else { g with k := k }

/-! ### The generator of an axis -/

/-- The monitor limit the generator never plans past in a direction (R190). -/
def State.monBound (s : State) (a : Nat) (up : Bool) : Option Int :=
  if s.rb P.MonLimitEnable a && bitOf (s.rd P.FbState a) fbREF then
    some (if up then s.rp P.MonLimitPos a else s.rp P.MonLimitNeg a)
  else none

/-- The position a plan to `x` goes to: `x`, or the monitor limit before it (R190; DEDUCED, notes/assumptions/91.md). -/
def State.clip (s : State) (a : Nat) (x : Int) : Int :=
  let x := (s.monBound a true).elim x (min x)
  (s.monBound a false).elim x (max x)

/-- One step of an axis's generator over a cycle. A target beyond a monitor limit is planned for as far as the limit. -/
def State.genNext (s : State) (a : Nat) (g : Gen) : Gen :=
  let t := tNs s.cycleNs
  let go (g : Gen) : Gen := if s.rd P.TrjProfile a = 1 then g.rampStep (s.ramp a g) t else g.step (s.axLims a) (s.axStops a) t
  let b := s.clip a g.target
  if g.mode = .pos ∧ b ≠ g.target then { g with k := (go { g with target := b }).k } else go g

/-- A target lies beyond the monitor limits (R190). -/
def State.beyond (s : State) (a : Nat) (x : Int) : Bool :=
  (s.monBound a true).elim false (fun l => decide (l < x)) || (s.monBound a false).elim false (fun l => decide (x < l))

/-- One step of a jog: a position plan to the monitor limit where one lies ahead (R190). Answers ATLIMIT. -/
def State.jogNext (s : State) (a : Nat) (g : Gen) : Gen × Bool :=
  let up := decide (0 < g.vel)
  match if g.vel = 0 then none else s.monBound a up with
  | none => (s.genNext a g, false)
  | some l =>
    let w := (velWithin (fix64 (limOf (g.own.getD 0 0) (s.rd P.TrjVelMax a))) g.vel).1
    let back := if up then decide (g.k.v < 0) else decide (0 < g.k.v)
    let past := if up then decide (in16 l ≤ g.k.p) else decide (g.k.p ≤ in16 l)
    if back then (s.genNext a g, false)
    else if past then
      if g.k.v = 0 ∧ g.k.a = 0 then (g, true) else
        let h := s.genNext a { g with mode := .stop }
        ({ g with k := h.k }, false)
    else
      -- the jog's speed as the cruising speed of a move to the limit
      let wr : Nat := ratToF32 (mkRat (if w < 0 then -w else w) 18446744073709551616)
      let h := s.genNext a { g with mode := .pos, target := l, own := g.own.set 0 wr }
      ({ g with k := h.k }, decide (h.k.v = 0 ∧ h.k.a = 0 ∧ h.k.p = in16 l))

/-! ### Move queue (R198 to R203) -/

def qREL (e : QEntry) : Bool := bitOf (fld e.bytes 28 1) 0
def qBLEND (e : QEntry) : Bool := bitOf (fld e.bytes 28 1) 1
def qEVENT (e : QEntry) : Bool := bitOf (fld e.bytes 28 1) 2
def qTag (e : QEntry) : Nat := fld e.bytes 30 2
def qOwn (e : QEntry) : List Nat := [fld e.bytes 8 4, fld e.bytes 12 4, fld e.bytes 16 4, fld e.bytes 20 4]
def qBlendVel (e : QEntry) : Int := fix64 (f32ToRat (fld e.bytes 24 4))
/-- The target of an entry after a previous target. -/
def qTarget (e : QEntry) (prev : Int) : Int := if qREL e then prev + fldI e.bytes 0 8 else fldI e.bytes 0 8

/-- Entries in a queue. -/
def TrjRec.fill (r : TrjRec) : Nat := r.sec.length + r.spill.length

/-- Report the fill and the executing entry's tag. -/
def State.queueReport (s : State) (a : Nat) : State :=
  let r := s.traj a
  (s.wr P.TrjQueueFill a r.fill).wr P.TrjQueueTag a
    (if r.exec_ then (match r.sec with | e :: _ => qTag e | [] => 0xFFFFFFFF) else 0xFFFFFFFF)

/-- Available entries of the section, up to the lookahead (R198, R202). -/
def State.lookahead (s : State) (a : Nat) : List QEntry :=
  ((s.traj a).sec.takeWhile fun e => decide (0 ≤ cycDiff e.avail s.time.cycle)).take (s.rd P.TrjQueueLookahead a)

/-- The limits of an entry, with the deferred values `keep` of R189. -/
def State.entryLim (s : State) (a : Nat) (keep : List Nat) (e : QEntry) : Lim :=
  ({ Gen.init with own := qOwn e, keep := keep } : Gen).lim (s.axLims a)

/-- The stepper ramp of an entry. -/
def State.entryRamp (s : State) (a : Nat) (keep : List Nat) (e : QEntry) : Ramp := s.ramp a { Gen.init with own := qOwn e, keep := keep }

/-- The way after the joint at the end of entry `e` (previous target `t0`, direction `sg`): the speed allowed at the joint, from which the
entries after it can still be kept (R200 to R202), and their parts of the way. The speed is 0 where the joint is not blended. -/
def State.wayAfter (s : State) (a : Nat) (keep : List Nat) (t0 sg : Int) (e : QEntry) : List QEntry → Int × List Leg
  | [] => (0, [])
  | n :: r =>
    let t1 := qTarget n t0
    if t1 = t0 then s.wayAfter a keep t0 sg e r
    else if !qBLEND e || decide ((t1 - t0) * sg < 0) then (0, [])
    else
      let b := s.clip a t1
      let len := in16 ((b - t0) * sg)
      if len ≤ 0 then (0, []) else
      let t := tNs s.cycleNs
      let L := s.entryLim a keep n
      let cap := min (qBlendVel e) (min (s.entryLim a noKeep e).v L.v)
      let (fin, more) := if b = t1 then s.wayAfter a keep t1 sg n r else (0, [])
      let w := if s.rd P.TrjProfile a = 1 then
          let R := s.entryRamp a keep n
          let ok (x : Int) : Bool := decide (vt x t + (if fin ≤ 0 then R.dist x else R.distTo x fin) ≤ len)
          if ok cap then cap else if !ok fin then 0 else bisectT ok 64 fin cap
        else L.enter t len fin cap
      if w ≤ 0 then (0, []) else (w, { len := len, lim := L, w := fin } :: more)

/-- The way of the running queue, ahead in the direction `sg` of the executing entry, under the deferred values `k1` for this entry and `k2`
for the ones after it. -/
def State.queueWay (s : State) (a : Nat) (g : Gen) (k1 k2 : List Nat) : List Leg :=
  let r := s.traj a
  match s.lookahead a with
  | [] => []
  | e :: rest =>
    let sg := dirOf 0 0 (r.curT - r.prev)
    let b := s.clip a r.curT
    let (w, more) := if b = r.curT then s.wayAfter a k2 r.curT sg e rest else (0, [])
    { len := sg * (in16 b - g.k.p), lim := { g with keep := k1 }.lim (s.axLims a), w := w } :: more

/-- The generator can keep a way from its present state. -/
def State.wayOk (s : State) (a : Nat) (g : Gen) (sg : Int) (l : List Leg) : Bool :=
  match l with
  | [] => true
  | x :: r =>
    if s.rd P.TrjProfile a = 1 then
      let R := s.ramp a g
      decide ((if x.w ≤ 0 then R.dist (sg * g.k.v) else R.distTo (sg * g.k.v) x.w) ≤ x.len + slack)
    else safeAhead (tNs s.cycleNs) (sg * g.k.v) ({ x with len := x.len + slack } :: r) { p := 0, v := sg * g.k.v, a := sg * g.k.a }

/-- Start the oldest entry where it is available. Deferred values `keep` go on where the way could not be kept without them. -/
def State.entryStart (s : State) (a : Nat) (prev : Int) (keep : List Nat) : State :=
  let r := s.traj a
  match s.lookahead a with
  | [] => s.setTraj a { r with exec_ := false, prev := prev, gen := { r.gen with keep := keep } }
  | e :: _ =>
    let x := qTarget e prev
    let g := { r.gen with mode := .pos, target := x, own := qOwn e, keep := noKeep }
    let s := (s.setTraj a { r with exec_ := true, prev := prev, curT := x, gen := g }).setTarget a x
    if keep = noKeep ∨ s.wayOk a g (dirOf 0 0 (x - prev)) (s.queueWay a g noKeep noKeep) then s.tSet a tDEFERRED false
    else s.setTraj a { s.traj a with gen := { g with keep := keep } }

/-- The executing entry ends: its event, and the next one. -/
def State.entryEnd (s : State) (a : Nat) : State :=
  let r := s.traj a
  match r.sec with
  | [] => s
  | e :: q =>
    let s := s.raiseIf (qEVENT e) E.moveDone a (leBytes 4 (qTag e))
    let s := s.setTraj a { r with sec := q, exec_ := false, prev := r.curT }
    if q = [] ∧ r.spill = [] then
      (((s.setTraj a { s.traj a with task := .none, gen := { r.gen with mode := .idle } }).tSet a tQRUN false).tSet a tINPOS true).raise
        E.queueEmpty a []
    else s.entryStart a r.curT r.gen.keep

/-- Entries that end where they start complete on arrival (R199). -/
def State.skipSame (s : State) (a : Nat) : Nat → State
  | 0 => s
  | n + 1 =>
    let r := s.traj a
    if r.exec_ && r.task == .queue && decide (r.curT = r.prev) then (s.entryEnd a).skipSame a n else s

/-- Joints and ends that the generator has reached. -/
def State.queuePass (s : State) (a : Nat) : Nat → State
  | 0 => s
  | n + 1 =>
    let r := s.traj a
    let sg := dirOf 0 0 (r.curT - r.prev)
    let joint := decide (0 < sg * r.gen.k.v) && decide (0 ≤ sg * (r.gen.k.p - in16 r.curT)) &&
      ((s.queueWay a r.gen r.gen.keep r.gen.keep).head?.elim false fun x => decide (0 < x.w))
    if r.exec_ && r.task == .queue && (r.gen.there || joint) then ((s.entryEnd a).skipSame a 16).queuePass a n else s

/-- One step of the running queue (R200 to R203): joints may be passed within it. -/
def State.queueRun (s : State) (a : Nat) : State :=
  let r := s.traj a
  if !r.exec_ then s else
  let g := r.gen
  let sg := dirOf 0 0 (r.curT - r.prev)
  let mv := dirOf g.k.v g.k.a (in16 r.curT - g.k.p)
  let l0 := s.queueWay a g g.keep noKeep
  -- deferred values hold for the next entries too, where the way cannot be kept otherwise
  let k2 := if g.keep = noKeep ∨ s.wayOk a g sg l0 then noKeep else g.keep
  let l := s.queueWay a g g.keep k2
  match l, (s.lookahead a).tail with
  | x :: n :: more, e :: _ =>
    if mv ≠ sg then (s.setTraj a { r with gen := s.genNext a g }).queuePass a 17 else
    let t := tNs s.cycleNs
    let f : Kin := { p := 0, v := sg * g.k.v, a := sg * g.k.a }
    let f := if s.rd P.TrjProfile a = 1 then (s.ramp a g).join (s.entryRamp a k2 e) t f x.len x.w else stepAhead t (x :: n :: more) f
    let k : Kin := { p := g.k.p + sg * f.p, v := sg * f.v, a := sg * f.a }
    (s.setTraj a { r with gen := { g with k := k }, vj := x.w }).queuePass a 17
  | _, _ => (s.setTraj a { r with gen := s.genNext a g, vj := 0 }).queuePass a 17

/-- The queue's part of a cycle: an entry that waited starts as soon as it is available. -/
def State.queueStep (s : State) (a : Nat) : State :=
  let r := s.traj a
  let s := if r.exec_ then s else (s.entryStart a r.prev r.gen.keep).skipSame a 16
  (s.queueRun a).queueReport a

/-! ### Homing (R193, R194) -/

/-- Homing ends without having reached HomeFinal (R194). -/
def State.homeFail (s : State) (a : Nat) : State :=
  let r := s.traj a
  ((((s.setTraj a { r with task := .none, hPhase := 0, hEdge := none, hIdx := [], gen := r.gen.stop r.gen.quick }).tSet a tHOMING false).tSet a tJOG
    false).tSet a tHOMEFAIL true).raise E.homingFailed a []

/-- The reference event at `pe`: the coordinate shifts by Δ (R193). FbPosition takes the new offset rounded down to a whole count (R89). -/
def State.homeRef (s : State) (a : Nat) (pe : Int) : State :=
  let r := s.traj a
  let old := s.fbOffset a
  let sh := s.rp P.HomePosition a - pe
  let s := s.wrP P.FbPositionOffset a (s.rp P.FbPositionOffset a + sh)
  let whole := (s.fbOffset a - old) * 65536
  let s := (s.wrP P.FbPosition a (s.rp P.FbPosition a + whole)).wrBit P.FbState a fbREF true
  let s := { s with hist := tabMod s.hist [] a fun l => l.map fun (e : HistEntry) => { e with pos := e.pos + sh } }
  let s := s.setFb a { s.fbk a with pPrev := (s.fbk a).pPrev + whole }
  let ax := s.axis a
  let s := (s.setAxis a { ax with psp := ax.psp + sh }).wrP P.TrjSetPos a (s.rp P.TrjSetPos a + sh)
  let m := s.rd P.HomeMethod a
  let s := s.wr P.FbIndexExpected a
    (if m = 1 ∨ m = 3 then (s.rp P.HomePosition a / 65536 % (s.rd P.FbCountsPerRev a : Int)).toNat else 0xFFFFFFFF)
  let mv (k : Kin) : Kin := { k with p := k.p + in16 sh }
  let g := { r.gen with k := mv r.gen.k, target := r.gen.target + sh }
  (s.setTraj a { r with gen := g.stop false, c := mv r.c, src := mv r.src, was := r.was.map fun x => (mv x.1, mv x.2), hPhase := 3
                        hEdge := none, hIdx := [] }).tSet a tJOG false

/-- Homing's part of a sample (after the feedback section): the reference event. -/
def State.homeSample (s : State) (a : Nat) : State :=
  let r := s.traj a
  if r.task ≠ .home ∨ r.hPhase = 0 ∨ 3 ≤ r.hPhase then s else
  let m := s.rd P.HomeMethod a
  let idx := (s.fbk a).idxC
  let none' := decide (s.rd P.FbType a = 0)
  if m = 0 then
    if none' then s.homeRef a (s.axis a).psp
    else if bitOf (s.rd P.FbState a) fbVALID then s.homeRef a (s.rp P.FbPosition a) else s
  else if m = 1 ∨ (m = 3 ∧ r.hPhase = 2) then
    match idx with
    | some ci => s.homeRef a ci
    | none => s
  else
    -- the index events seen: one of them may prove to lie after an edge whose record is still to come (R193)
    let seen := if m = 3 then (r.hIdx ++ (idx.map fun ci => (s.indexStamp a ci, ci)).toList) else []
    let seen := seen.drop (seen.length - 64)
    let s := if seen = r.hIdx then s else s.setTraj a { r with hIdx := seen }
    let r := s.traj a
    match r.hEdge with
    | none => s
    | some x =>
      match samplePair (x * 65536) none (s.history a) with
      | some (e0, some e1) =>
        -- an edge between samples without a valid position gives no reference; the next one may
        if !none' && (!e0.valid || !e1.valid) then s.setTraj a { r with hEdge := none }
        else if m = 3 then
          let d : Int := if s.rd P.HomeDirection a = 1 then 1 else -1
          let s := s.setTraj a { r with hPhase := 2, hEdge := none, hIdx := [], gen := { r.gen with vel := d * fix64 (s.rf P.HomeCreepSpeed a) } }
          match seen.find? fun y => decide (x * 65536 ≤ y.1) with
          | some y => s.homeRef a y.2
          | none => s
        else
          s.homeRef a (if e1.sNs = e0.sNs then e0.pos else
            roundHE (e0.pos + mkRat ((e1.pos - e0.pos) * ((x : Int) - e0.sNs)) (e1.sNs - e0.sNs)))
      | some (_, none) => s
      -- older than every sample kept: no reference
      | none => s.setTraj a { r with hEdge := none }

/-- A stamped edge of a fast input, for homing's own capture. -/
def State.homeEdge (s : State) (inp stamp : Nat) (rising : Bool) : State :=
  (List.range 128).foldl (fun s a =>
    let r := s.traj a
    let m := s.rd P.HomeMethod a
    if r.task = .home ∧ r.hPhase = 1 ∧ (m = 2 ∨ m = 3) ∧ s.rd P.HomeInput a = inp ∧ r.hEdge = none ∧
        s.rd P.HomeEdge a = (if rising then 1 else 2) then s.setTraj a { r with hEdge := some stamp }
    else s) s

/-! ### One cycle of the generator -/

/-- The end of a move at its target. -/
def State.moveDone (s : State) (a : Nat) : State :=
  let r := s.traj a
  ((s.setTraj a { r with task := .none, gen := { r.gen with mode := .idle, own := [0, 0, 0, 0] } }).tSet a tINPOS
    true).raise E.moveDone a (leBytes 4 r.tag)

/-- A jog runs whose target lies above V (R187). -/
def State.jogCut (s : State) (a : Nat) : Bool :=
  let r := s.traj a
  r.task == .jog && s.rd P.TrjSource a == 0 && (velWithin (fix64 (limOf (r.gen.own.getD 0 0) (s.rd P.TrjVelMax a))) r.gen.vel).2

/-- The generator's set-point for the coming sample, and what it brings. -/
def State.taskStep (s : State) (a : Nat) : State :=
  let r := s.traj a
  match r.task with
  | .none =>
    let g := s.genNext a r.gen
    let s := s.setTraj a { r with gen := g }
    if r.gen.mode = .stop ∧ g.mode = .idle then s.setTarget a g.target else s
  | .move =>
    let g := s.genNext a r.gen
    let s := s.setTraj a { r with gen := g }
    if g.there then s.moveDone a else s
  | .jog =>
    let (g, atL) := s.jogNext a r.gen
    let s := (s.setTraj a { r with gen := g }).tSet a tATLIMIT atL
    -- in Chase, LIMITED clears at capture only (R182)
    s.tSet a tLIMITED (s.jogCut a || (s.rd P.TrjChain a == 1 && s.tBit a tLIMITED))
  | .home =>
    if r.hPhase ≤ 2 then
      if s.rd P.HomeMethod a = 0 then s.setTraj a { r with gen := s.genNext a r.gen } else
        let (g, atL) := s.jogNext a r.gen
        (s.setTraj a { r with gen := g }).tSet a tATLIMIT atL
    else if r.hPhase = 3 then
      let g := s.genNext a r.gen
      if g.mode = .idle then
        let x := s.rp P.HomeFinal a
        (s.setTraj a { r with gen := { g with mode := .pos, target := x, own := [0, 0, 0, 0] }, hPhase := 4 }).setTarget a x
      else s.setTraj a { r with gen := g }
    else
      let g := s.genNext a r.gen
      if g.there then
        (((s.setTraj a { r with gen := { g with mode := .idle }, task := .none, hPhase := 0 }).tSet a tHOMING false).tSet a tINPOS
          true).raise E.homingDone a []
      else s.setTraj a { r with gen := g }
  | .test =>
    match r.tWait with
    | some y =>
      if s.time.tick < y then s else
        let at_ := 1 - r.tAt
        let x := r.tPos.getD at_ 0
        (s.setTraj a { r with tWait := none, tAt := at_, gen := { r.gen with mode := .pos, target := x } }).setTarget a x
    | none =>
      let g := s.genNext a r.gen
      let r := { r with gen := g }
      if !g.there then s.setTraj a r
      else if r.tAt = 0 ∧ r.tLeft = 1 then (s.setTraj a { r with tag := 0 }).moveDone a
      else
        let left := if r.tAt = 0 ∧ 1 < r.tLeft then r.tLeft - 1 else r.tLeft
        s.setTraj a { r with tWait := some (s.time.tick + r.tDwell), tLeft := left }
  | .queue => s.queueStep a

/-- Report INPOS and STOPPING. -/
def State.genFlags (s : State) (a : Nat) : State :=
  let r := s.traj a
  let g := r.gen
  let still := decide (g.k.v = 0 ∧ g.k.a = 0)
  let inpos := still && (match g.mode with | .idle => s.tBit a tINPOS | .pos => decide (g.k.p = in16 g.target) | _ => false)
  let s := (s.tSet a tINPOS inpos).tSet a tSTOPPING (g.mode == .stop)
  -- a plan that ends at a monitor limit before its target holds there (R190)
  if g.mode = .pos then s.tSet a tATLIMIT (still && decide (s.clip a g.target ≠ g.target ∧ g.k.p = in16 (s.clip a g.target))) else s

/-! ### The chain (R176 to R183) -/

/-- The accelerations (where |v| rises, where it falls) that R183 allows a source. Of the axis's own generator these are the ones in force for
it: the stop values in a quick stop, deferred values, the rates of the stepper ramp (DEDUCED, notes/assumptions/31.md). -/
def State.srcAcc (s : State) (a : Nat) : Int × Int :=
  let g := (s.traj a).gen
  if s.rd P.TrjSource a ≠ 0 then (fix64 (s.rf P.TrjAccMax a), fix64 (s.rf P.TrjDecMax a))
  else if s.rd P.TrjProfile a = 1 then
    let R := s.ramp a { g with own := [0, 0, 0, 0] }
    (max R.a1 R.a2, max R.d1 R.d2)
  else
    let g0 : Gen := { g with own := [0, 0, 0, 0] }
    let L := g0.stopLim (s.axLims a) (s.axStops a)
    (L.a, L.d)

/-- The source state is within the axis limits (R183). -/
def State.srcFits (s : State) (a : Nat) (k : Kin) : Bool :=
  let (up, dn) := s.srcAcc a
  decide ((k.v.natAbs : Int) ≤ fix64 (s.rf P.TrjVelMax a)) && decide ((k.a.natAbs : Int) ≤ if 0 ≤ k.v * k.a then up else dn)

/-- Form the set-point from a state: rounded to the formats of R13. The set-point is the position of an axis without feedback: its history keeps
it (R106). -/
def State.setPoint (s : State) (a : Nat) (k : Kin) : State :=
  let r := s.axis a
  let (p, v, x) := (out16 k.p, out16 k.v, out16 k.a)
  let s := s.setAxis a { r with psp := p, vsp := v, asp := x }
  let s := ((s.wrP P.TrjSetPos a p).wrP P.TrjSetVel a v).wrP P.TrjSetAcc a x
  let s := if s.rd P.FbType a = 0 ∧ a < 128 then s.addHist a p (bitOf (s.rd P.FbState a) fbVALID) (bitOf (s.rd P.FbState a) fbSUBST) else s
  (s.setTraj a { s.traj a with c := k }).tSet a tMOVING (decide (v ≠ 0 ∨ x ≠ 0))

/-- The axis's position; that of an axis without feedback is its last p_sp (R177). -/
def State.axPos (s : State) (a : Nat) : Int := if s.rd P.FbType a = 0 then (s.axis a).psp else s.rp P.FbPosition a

/-- The measured state the chase starts from (R180). -/
def State.measured (s : State) (a : Nat) : Kin :=
  if s.rd P.FbType a = 0 then { p := in16 (s.axis a).psp, v := 0, a := 0 }
  else { p := in16 (s.rp P.FbPosition a), v := if bitOf (s.rd P.FbState a) fbSPEEDVALID then in16 (s.rp P.FbSpeed a) else 0, a := 0 }

/-- A set-point state with its next acceleration keeps the axis limits upwards (R181): TrjVelMax, also when the acceleration returns to 0 at
once; TrjAccMax for an acceleration of the sign of the velocity, TrjDecMax for one of the other sign that has fallen to TrjAccMax by
standstill. -/
def keepsUp (L : Lim) (t : Int) (k : Kin) : Bool :=
  decide (k.a ≤ 0) || (decide (L.peak t k.v k.a ≤ L.v) &&
    (if 0 ≤ k.v then decide (k.a ≤ L.a)
     else decide (k.a ≤ L.d) && (decide (k.a ≤ L.a) || decide (2 * L.j * k.v + (k.a * k.a - L.a * L.a) ≤ 0))))

/-- The next acceleration of a set-point that would go to `x`: held at an axis limit where one binds (R181). -/
def boundAcc (L : Lim) (t : Int) (c : Kin) (x : Int) : Int :=
  let h := L.h t
  let top (c : Kin) (x : Int) : Int :=
    let x := min x (c.a + h)
    if L.v < c.v then min x (L.plan t c.v c.a L.v).a1
    else if keepsUp L t (c.ramp t x) then x else bisectT (fun y => keepsUp L t (c.ramp t y)) 64 (c.a - h) x
  -- the lower limits are the upper ones of the mirrored state
  let y := top c.neg (-(top c x))
  0 - y

/-- One step of the soft-start ramp from the set-point `c` and the source state `b` of the present sample towards the source state `q` of the
coming one (R181): answers the state, and whether an axis limit binds. The relative motion is planned in the source's frame. -/
def State.chase (s : State) (a : Nat) (c b q : Kin) : Kin × Bool :=
  let t := tNs s.cycleNs
  let sl : Lim := let x := fix64 (s.rf P.TrjSoftAcc a)
    { v := fix64 (s.rf P.TrjSoftVel a), a := x, d := x, j := fix64 (s.rf P.TrjSoftJerk a) }
  let e := stepMeet sl t { p := c.p - b.p, v := c.v - b.v, a := c.a - b.a }
  let L : Lim := Gen.init.lim (s.axLims a)
  let x := q.a + e.a
  let y := boundAcc L t c x
  (c.ramp t y, decide (x ≠ y))

/-- The set-point in Chase, formed from `c` and the source states `b` and `q`; capture (R181, R182). -/
def State.chaseTo (s : State) (a : Nat) (c b q : Kin) : State :=
  let s := s.setTraj a { s.traj a with src := q, was := some (c, b) }
  let (n, lim) := s.chase a c b q
  let near := decide (absR (mkRat (q.p - n.p) 18446744073709551616) ≤ s.rf P.TrjCaptureBand a) &&
    decide (absR (mkRat (q.v - n.v) 18446744073709551616) ≤ s.rf P.TrjCaptureVel a)
  if near && s.srcFits a q then ((s.wr P.TrjChain a 2).tSet a tLIMITED (s.jogCut a)).setPoint a q
  else (if lim then s.tSet a tLIMITED true else s).setPoint a n

/-- The chain turns the source state into the set-point for the coming sample (R176). -/
def State.chainStep (s : State) (a : Nat) (q : Kin) : State :=
  let r := s.traj a
  let s := s.setTraj a { r with src := q, was := none }
  match s.rd P.TrjChain a with
  | 0 =>
    s.setPoint a { p := in16 (s.axPos a), v := 0, a := 0 }
  | 1 =>
    s.chaseTo a r.c r.src q
  | _ =>
    if !s.srcFits a q then
      let s := ((s.wr P.TrjChain a 1).tSet a tLIMITED true).raise E.setPointLimited a []
      let (n, _) := s.chase a r.c r.src q
      (s.setTraj a { s.traj a with was := some (r.c, r.src) }).setPoint a n
    else s.setPoint a q

/-- The axes the trajectory section works for (R176: every configured axis). -/
def State.trjOn (s : State) (a : Nat) : Bool :=
  decide (s.rd P.LoopMotorType a ≠ 0 ∨ s.rd P.FbType a ≠ 0 ∨ s.rd P.AxisState a ≠ 0 ∨ s.rd P.TrjSource a ≠ 0)

/-! ### Hand-offs (Table 7.2) -/

/-- Make the generator run for nothing; what it did ends. -/
def TrjRec.quit (r : TrjRec) : TrjRec := { r with task := .none, hPhase := 0, hEdge := none, hIdx := [], tWait := none }

/-- What the generator did ends before its own end: a running queue pauses, a homing has failed (R192, R194). -/
def State.endTask (s : State) (a : Nat) : State :=
  let r := s.traj a
  let s := s.setTraj a r.quit
  let s := match r.task with
    | .queue => (s.tSet a tQRUN false).tSet a tQPAUSED true
    | .home => (s.tSet a tHOMEFAIL true).raise E.homingFailed a []
    | _ => s
  ((s.tSet a tHOMING false).tSet a tJOG false).tSet a tATLIMIT false

/-- The axis becomes held or disabled. -/
def State.trjTrack (s : State) (a : Nat) : State :=
  if s.rd P.TrjChain a = 0 ∧ (s.traj a).task = .none ∧ (s.traj a).gen.mode = .idle then s else
  let r := s.traj a
  let s := s.endTask a
  let s := s.raiseIf (r.task != .none && r.task != .queue) E.moveAborted a []
  let r := s.traj a
  let k : Kin := { r.gen.k with v := 0, a := 0 }
  let s := (s.setTraj a { r with gen := { Gen.init with k := k, target := out16 k.p, keep := r.gen.keep } }).setTarget a (out16 k.p)
  (((s.wr P.TrjChain a 0).tSet a tLIMITED false).tSet a tINPOS false).genFlags a

/-- Release (R153): the generator stands at the measured position, the chain chases from the measured state. A motion that an axis running
open-loop still carried out ends with it, as at a hold (DEDUCED, notes/assumptions/31.md). -/
def State.trjRelease (s : State) (a : Nat) : State :=
  let m := s.measured a
  let r := s.traj a
  let s := (s.endTask a).raiseIf (r.task != .none && r.task != .queue) E.moveAborted a []
  let r := s.traj a
  let g : Gen := { Gen.init with k := { p := m.p, v := 0, a := 0 }, target := out16 m.p, keep := r.gen.keep }
  let s := s.setTraj a { r with gen := g, c := m, was := none, src := if s.rd P.TrjSource a = 0 then g.k else r.src }
  let s := if s.rd P.TrjSource a = 0 then s.setTarget a (out16 m.p) else s
  ((s.wr P.TrjChain a 1).genFlags a).setPoint a m

/-- LoopMode changed from 2 to 3. -/
def State.trjModeChange (s : State) (a : Nat) : State :=
  if s.rd P.TrjChain a = 0 then s else
    let m := s.measured a
    ((s.setTraj a { s.traj a with was := none }).wr P.TrjChain a 1).setPoint a m

/-- An engage onto a source in state `q`: the generator idles, the chain chases from the present set-point state. LIMITED of a jog ends with
it. -/
def State.trjEngage (s : State) (a src : Nat) (q : Kin) : State :=
  let s := if s.jogCut a || s.rd P.TrjChain a != 1 then s.tSet a tLIMITED false else s
  let s := s.endTask a
  let r := s.traj a
  let s := s.setTraj a { r with
    gen := { Gen.init with k := { r.c with v := 0, a := 0 }, target := out16 r.c.p, keep := r.gen.keep }, src := q, was := none }
  let s := (s.wr P.TrjSource a src).tSet a tRESUMABLE false
  (if s.rd P.TrjChain a = 0 then s else s.wr P.TrjChain a 1).genFlags a

/-- The generator takes over the present set-point state and stops it. -/
def State.trjTakeOver (s : State) (a : Nat) (quick : Bool) : State :=
  let s := s.endTask a
  let r := s.traj a
  let held := decide (s.rd P.TrjChain a = 0)
  let k := if held then { r.c with v := 0, a := 0 } else r.c
  let g : Gen := ({ Gen.init with k := k, target := out16 k.p, keep := r.gen.keep } : Gen).stop quick
  let s := s.setTraj a { r with gen := g, was := none }
  let s := s.wr P.TrjSource a 0
  let s := if g.mode = .idle then s.setTarget a g.target else s
  (if held then s else (s.wr P.TrjChain a 2).tSet a tLIMITED false).genFlags a

/-- A stop of an axis on its own generator (R191, R192, R194). -/
def State.trjStop (s : State) (a : Nat) (quick : Bool) : State :=
  let r := s.traj a
  if s.rd P.TrjChain a = 0 then s else
  -- in Chase, the set-point is what moves: the generator takes it over
  let g := (if s.rd P.TrjChain a = 1 then { r.gen with k := r.c } else r.gen).stop quick
  let s := if s.rd P.TrjChain a = 1 then (s.setTraj a { r with was := none }).wr P.TrjChain a 2 else s
  let s := (s.endTask a).tSet a tLIMITED false
  let q := s.traj a
  let s := match r.task with
    | .move => (s.setTraj a { q with gen := g, res := some (r.gen.target, r.gen.own, r.tag) }).tSet a tRESUMABLE true
    | .queue => (s.setTraj a { q with gen := g, res := none }).tSet a tRESUMABLE true
    | _ => s.setTraj a { q with gen := g }
  (if g.mode = .idle then s.setTarget a g.target else s).genFlags a

end Sys2Proof.Machine
end

