-- ==== Sys2Proof/Machine/Masters.lean ====
section
/-!
DEFINITION. Virtual masters, their scale, and the line master (chapter 08, R207 to R213, R226 to R231).
-/
namespace Sys2Proof.Machine

def State.vmr (s : State) (m : Nat) : VmRec := tabGet s.vm VmRec.init m
def State.setVm (s : State) (m : Nat) (r : VmRec) : State := { s with vm := tabSet s.vm VmRec.init m r }

def State.vmLims (s : State) (m : Nat) : List Nat :=
  [s.rd P.VmVelMax m, s.rd P.VmAccMax m, s.rd P.VmDecMax m, s.rd P.VmJerkMax m]
def State.vmStops (s : State) (m : Nat) : List Nat := [s.rd P.VmStopDec m, s.rd P.VmStopJerk m]

/-- Bits of VmState. -/
abbrev vINPOS : Nat := 0
abbrev vMOVING : Nat := 1
abbrev vSRCLOST : Nat := 2
abbrev vSCALING : Nat := 3
abbrev vLINE : Nat := 4
abbrev vLINELOST : Nat := 5
abbrev vDIVERGED : Nat := 6

/-- The ride-through demand that reaches a master (R297): rank 2 only while RESERVE or EXHAUSTED is set, or
since a front-end fault (R301). -/
def State.rideDemand (s : State) (m : Nat) : Rat :=
  if s.rd P.FeRideRank m = 1 ∨ bitOf (s.rd P.FeFlags 0) 9 ∨ bitOf (s.rd P.FeFlags 0) 10 ∨ s.fe.all_ then s.rf P.FeRideDemand 0 else 1

/-- A master's own scale demand: the smaller of VmScaleSet and, while VmRideThrough is 1, the ride-through demand (R211, Table 8.5). -/
def State.ownDemand (s : State) (m : Nat) : Rat :=
  let x := s.rf P.VmScaleSet m
  if s.rb P.VmRideThrough m then
    min x (if s.rd P.VmSource m = 2 then s.rf P.FeRideDemand 0 else s.rideDemand m)
  else x

/-- σ_d of a master (R211). -/
def State.scaleDemand (s : State) (m : Nat) : Rat := if s.rd P.VmSource m = 2 then s.rf P.LineScale 0 else s.ownDemand m

/-- One step of the scale over a cycle (R211): σ and its rate step as a velocity and an acceleration, by the formulas of R178. -/
def State.scaleStep (s : State) (m : Nat) (sg sd want : Int) : Int × Int :=
  let t := tNs s.cycleNs
  let r := fix64 (s.rf P.VmScaleRate m)
  let L : Lim := { v := two64, a := r, d := r, j := fix64 (s.rf P.VmScaleAcc m) }
  let e := ({ p := 0, v := sg, a := sd } : Kin).take t (L.plan t sg sd want)
  (sat 0 two64 e.v, e.a)

/-- The master state of a profile state (R212), 2^-16. -/
def masterState (k : Kin) (sg sd : Int) : Kin :=
  { p := out16 k.p
    v := roundHE (mkRat (sg * k.v) (18446744073709551616 * 281474976710656))
    a := roundHE (mkRat (sg * sg * k.a + sd * k.v * two64) (18446744073709551616 * 18446744073709551616 * 281474976710656)) }

/-- One cycle of a master on its generator: the scale, virtual time, the profile. A line master that must stand keeps its scale
(R231). -/
def State.vmGen (s : State) (m : Nat) (r : VmRec) : VmRec :=
  let own := s.rd P.VmSource m = 1
  let hold := s.rd P.VmSource m = 2 ∧ s.line.still
  let (sg, sd) := if own then (two64, 0) else if hold then (r.sg, 0) else s.scaleStep m r.sg r.sd (fix64 (s.scaleDemand m))
  let dt := tNs s.cycleNs * (r.sg + sg) / (2 * two64)
  let g := r.gen.step (s.vmLims m) (s.vmStops m) dt
  { r with gen := g, sg := sg, sd := sd, dt := dt, next := masterState g.k sg sd, back := (r.gen, r.sg, r.sd) }

/-- The ratio of a followed source. -/
def State.vmRatio (s : State) (m : Nat) : Rat := mkRat (s.ri P.VmRatioNum m) (s.rd P.VmRatioDen m)

/-- A master follows its position source (R208). -/
def State.vmFollow (s : State) (m : Nat) (r : VmRec) : VmRec :=
  let src := s.rd P.VmSourceCode m
  let q := s.vmRatio m
  let t := tNs s.cycleNs
  let r := { r with was := (r.vPrev, r.af, r.first) }
  if 256 ≤ src then
    let k := (s.vmr (src - 256)).next
    { r with sg := two64, sd := 0, dt := t, first := true, next := { p := roundHE (k.p * q), v := roundHE (k.v * q), a := roundHE (k.a * q) } }
  else
    let v := roundHE (s.rp P.FbSpeed src * q)
    let T : Rat := mkRat s.cycleNs 1000000000
    let x : Rat := if r.first then 0 else ((v - r.vPrev : Int) : Rat) / T
    let tau := s.rf P.VmSourceFilter m / 1000
    let a : Int := if tau = 0 then roundHE x else roundHE (x + ((r.af : Rat) - x) * expNeg (T / tau))
    { r with sg := two64, sd := 0, dt := t, first := false, vPrev := v, af := a, next := { p := roundHE (s.rp P.FbPosition src * q), v := v, a := a } }

/-- The source of a master is lost (R209): its generator takes over the last state and stops it. -/
def State.vmLost (s : State) (m : Nat) : State :=
  let r := s.vmr m
  let k : Kin := { p := in16 r.cur.p, v := in16 r.cur.v, a := in16 r.cur.a }
  let g := ({ Gen.init with k := k } : Gen).stop true
  let r := s.vmGen m { r with gen := g, own := true, sg := two64, sd := 0 }
  ((s.setVm m r).wrBit P.VmState m vSRCLOST true).raise E.masterSourceLost m []

/-- A master's state for the next sample instant is computed (R207), and the predictions of the compare units on it are made (R116). -/
def State.vmMake (s : State) (m : Nat) : State :=
  let r := s.vmr m
  let follow := s.rd P.VmSource m = 1 ∧ !r.own
  let src := s.rd P.VmSourceCode m
  let lost := follow ∧ src < 256 ∧ !bitOf (s.rd P.FbState src) fbVALID
  let s := if lost then s.vmLost m else if follow then s.setVm m (s.vmFollow m r) else s.setVm m (s.vmGen m r)
  let s := s.setVm m { s.vmr m with made := s.time.cycle + 1 }
  let k := (s.vmr m).next
  (List.range 32).foldl (fun s u =>
    if (s.cmpU u).armed ∧ s.rd P.CmpSource u = 256 + m then s.cmpPredict u s.time.nextS k.p k.v true true else s) s

/-- The axis or port at the root of a master's source; none for a master on a generator. -/
def State.vmRoot (s : State) : Nat → Nat → Option Nat
  | 0, _ => none
  | f + 1, m =>
    if s.rd P.VmSource m ≠ 1 ∨ (s.vmr m).own then none
    else if s.rd P.VmSourceCode m < 256 then some (s.rd P.VmSourceCode m)
    else s.vmRoot f (s.rd P.VmSourceCode m - 256)

/-- The masters that do not follow an axis or port: computed from S(n) on. -/
def State.vmCompute (s : State) : State :=
  (List.range 16).foldl (fun s m => if (s.vmRoot 16 m).isNone then s.vmMake m else s) s

/-- The root of a master's source is a generator that takes the ride-through demand. -/
def State.vmRides (s : State) : Nat → Nat → Bool
  | 0, _ => false
  | f + 1, m =>
    if s.rd P.VmSource m = 0 then s.rb P.VmRideThrough m
    else decide (s.rd P.VmSource m = 1 ∧ 256 ≤ s.rd P.VmSourceCode m) && !(s.vmr m).own && s.vmRides f (s.rd P.VmSourceCode m - 256)

/-- A demand formed in this cycle reaches the masters that take it, and those behind them, for S(n + 1) (R297). The predictions that compare
units have made on them in this cycle stand (R116, R118; DEDUCED, notes/assumptions/113.md). -/
def State.vmRefresh (s : State) : State :=
  (List.range 16).foldl (fun s m =>
    let r := s.vmr m
    if r.made ≠ s.time.cycle + 1 ∨ !s.vmRides 16 m then s
    else if s.rd P.VmSource m = 1 then s.setVm m (s.vmFollow m r)
    else s.setVm m (s.vmGen m { r with gen := r.back.1, sg := r.back.2.1, sd := r.back.2.2 })) s

/-- The masters that follow an axis or port: computed when its sample n is decoded. -/
def State.vmSample (s : State) (src : Nat) : State :=
  (List.range 16).foldl (fun s m => if s.vmRoot 16 m = some src then s.vmMake m else s) s

/-- Reports of a master. -/
def State.vmReport (s : State) (m : Nat) : State :=
  let r := s.vmr m
  let g := r.gen
  let onGen := s.rd P.VmSource m ≠ 1 ∨ r.own
  let still := decide (g.k.v = 0 ∧ g.k.a = 0)
  let inpos := decide onGen && still && (g.mode == .idle || (g.mode == .pos && decide (g.k.p = in16 g.target)))
  let s := ((s.wrP P.VmPosition m r.cur.p).wrP P.VmVelocity m r.cur.v).wrP P.VmAcceleration m r.cur.a
  let s := s.wrF P.VmScale m (mkRat r.sg 18446744073709551616)
  let st := setBit (setBit (s.rd P.VmState m) vINPOS inpos) vMOVING (decide (r.cur.v ≠ 0 ∨ r.cur.a ≠ 0))
  let st := setBit st vSCALING (decide onGen && s.rd P.VmSource m != 1 && decide (r.sg ≠ fix64 (s.scaleDemand m)))
  s.wr P.VmState m (setBit st vLINE (s.rd P.VmSource m == 2 && s.rb P.LineEnable 0))

/-- The state a master published for the present sample instant is the line's history (R229). -/
def State.lineNote (s : State) (m : Nat) : State :=
  let r := s.vmr m
  let h : LineHist := { at_ := s.time.lastS, p := out16 r.gen.k.p, v := out16 r.gen.k.v, a := out16 r.gen.k.a, sg := r.sg, sd := r.sd }
  { s with line := { s.line with hist := (h :: s.line.hist).take 64 } }

/-- A master that follows a source is formed anew for the present sample instant S(c), once a value it depends on has changed at S(c), and so
is every master behind it (R31, R208). -/
def State.vmReform (s : State) : Nat → Nat → State
  | 0, _ => s
  | n + 1, m =>
    let r := s.vmr m
    let src := s.rd P.VmSourceCode m
    if s.rd P.VmSource m ≠ 1 ∨ r.own ∨ (src < 256 ∧ !bitOf (s.rd P.FbState src) fbVALID) then s else
    let x := s.vmFollow m { r with vPrev := r.was.1, af := r.was.2.1, first := r.was.2.2 }
    let s := (s.setVm m { x with cur := x.next }).vmReport m
    let s := { s with hist := tabMod s.hist [] (256 + m) fun l =>
      match l with
      | e :: q => { e with pos := x.next.p } :: q
      | [] => [] }
    (List.range 16).foldl (fun s j => if m < j ∧ s.rd P.VmSource j = 1 ∧ s.rd P.VmSourceCode j = 256 + m then s.vmReform n j else s) s

/-- The masters have a record worth stepping: at rest at 0 with nothing set, a master is as it was. -/
def State.vmAdopt (s : State) : State :=
  (List.range 16).foldl (fun s m =>
    let r := s.vmr m
    -- a followed axis or port whose sample did not arrive in the cycle
    let prev := (s.time.cycle + 2 ^ 32 - 1) % 2 ^ 32
    let s := if (s.vmRoot 16 m).isSome ∧ r.made ≠ prev + 1 then s.vmMake m else s
    let r := s.vmr m
    let s := (s.setVm m { r with cur := r.next }).vmReport m
    let s := s.addHist (256 + m) r.next.p true false
    if s.rd P.VmSource m = 2 then s.lineNote m else s) s

/-! ### Commands -/

/-- Limits of a move request at `off`: V, A, D, J. -/
def moveOwn (b : List Byte) (off : Nat) : List Nat := [fld b off 4, fld b (off + 4) 4, fld b (off + 8) 4, fld b (off + 12) 4]

/-- A limit of a request is not a number, negative, or above the one it lowers (0x0320, R184). -/
def ownBad (own ax : List Nat) : Bool :=
  (List.range 4).any fun i =>
    let x := own.getD i 0
    !f32Finite x || decide (f32ToRat x < 0) || decide (f32ToRat (ax.getD i 0) < f32ToRat x)

/-- VM_MOVE. -/
def execVmMove (t : Nat) (q : Req) (s : State) : Res :=
  runReq 0x0701 t q s fun s =>
    let m := q.inst
    s.commitReq q 28 [(ownBad (moveOwn q.body 12) (s.vmLims m), ⟨0x0320, 0, 0, 0⟩), (s.rd P.VmSource m == 2, ⟨0x0325, 0, 0, 0⟩)] []

/-- VM_STOP. -/
def execVmStop (t : Nat) (q : Req) (s : State) : Res :=
  runReq 0x0702 t q s fun s => s.commitReq q 4 [(s.rd P.VmSource q.inst == 2, ⟨0x0325, 0, 0, 0⟩)] []

/-- VmMove at S(c). A master on a position source has no generator in use. -/
def State.vmMoveApply (s : State) (q : Req) : State :=
  let m := q.inst
  let r := s.vmr m
  if s.rd P.VmSource m = 1 ∧ !r.own then s else
  let own := moveOwn q.body 12
  let x := fldI q.body 4 8
  let g := { r.gen with own := own, keep := noKeep, quick := false }
  s.setVm m { r with gen := if bitOf (fld q.body 0 1) 0 then { g with mode := .pos, target := x } else { g with mode := .vel, vel := in16 x } }

/-- VmStop at S(c). -/
def State.vmStopApply (s : State) (q : Req) : State :=
  let m := q.inst
  let r := s.vmr m
  s.setVm m { r with gen := r.gen.stop (bitOf (fld q.body 0 1) 0) }

/-! ### Line master -/

/-- The unit's line master. -/
def State.lineVm (s : State) : Option Nat := (List.range 16).find? fun m => s.rd P.VmSource m == 2

/-- The unit is the line owner. -/
def State.lineOwner (s : State) : Bool := s.rd P.LineAddress 0 == 1 && s.rb P.LineEnable 0

def State.setLine (s : State) (l : LineRec) : State := { s with line := l }

/-- The first sample instant at or after a line time (R228). -/
def State.sampleAt (s : State) (x : Nat) : Nat :=
  if x ≤ s.time.nextS then s.time.nextS else s.time.nextS + (x - s.time.nextS + s.cycleNs - 1) / s.cycleNs * s.cycleNs

/-- LineFramePeriod in ns. -/
def State.linePeriod (s : State) : Nat := max 1 (roundHE (s.rf P.LineFramePeriod 0 * 1000000)).toNat

/-- SENDTIME of the next frame. -/
def State.lineSend (s : State) : Nat := (s.lineNs + s.linePeriod - 1) / s.linePeriod * s.linePeriod

/-- The owner issues a command (R228). -/
def State.lineIssue (s : State) (sendAt kind value : Nat) (lims : List Nat) (q : Option Req) : LineCmd × State :=
  let no := (s.line.no + 1) % 2 ^ 32
  let c : LineCmd := { eff := s.sampleAt (sendAt + (roundHE (s.rf P.LineLead 0 * 1000000)).toNat), kind := kind, value := value, lims := lims
                       no := no, req := q.map fun x => (0, x) }
  (c, s.setLine { s.line with no := no, cmds := s.line.cmds ++ [c] })

/-- LineMove and LineStop: owner only; at most 4 commands pending. -/
def State.lineReq (s : State) (q : Req) (kind value : Nat) (lims : List Nat) (bad : List (Bool × Rsn)) : OpRes :=
  guarded (bad ++ [(!s.lineOwner, ⟨0x0228, 0, 0, 0⟩), (decide (4 ≤ s.line.cmds.length), ⟨0x0403, 0, 0, 0⟩)]) <|
    let (c, s) := s.lineIssue s.lineSend kind value lims (some q)
    .ok 0x0101 (leBytes 8 c.eff ++ leBytes 4 c.no ++ [0, 0, 0, 0]) s

/-- LINE_MOVE (R226, R228). -/
def execLineMove (t : Nat) (q : Req) (s : State) : Res :=
  runReq 0x070E t q s fun s =>
    let v := fld q.body 0 4
    let lims := [fld q.body 4 4, fld q.body 8 4, fld q.body 12 4]
    let ax := match s.lineVm with
      | some m => s.vmLims m
      | none => [0x7F7FFFFF, 0x7F7FFFFF, 0x7F7FFFFF, 0x7F7FFFFF]
    s.lineReq q 1 v lims [(!f32Finite v, ⟨0x0304, 0, 0, 0⟩), (ownBad (0 :: lims) ax, ⟨0x0320, 0, 0, 0⟩)]

/-- LINE_STOP (R226, R228). -/
def execLineStop (t : Nat) (q : Req) (s : State) : Res :=
  runReq 0x070F t q s fun s => s.lineReq q 3 0 [0, 0, 0] []

/-- A line command acts on a master record and the scale in force (Table 8.6). -/
def lineAct (r : VmRec) (c : LineCmd) : VmRec :=
  match c.kind with
  | 1 => { r with gen := { r.gen with mode := .vel, vel := fix64 (f32ToRat c.value), own := 0 :: c.lims, keep := noKeep, quick := false } }
  | 3 => { r with gen := r.gen.stop false }
  | _ => r

/-- The line commands due at the present sample instant take effect (R226). -/
def State.lineDue (s : State) : State :=
  let due := s.line.cmds.filter fun c => decide (c.eff ≤ s.time.lastS)
  if due = [] then s else
  let s := s.setLine { s.line with cmds := s.line.cmds.filter fun c => decide (s.time.lastS < c.eff) }
  due.foldl (fun s c =>
    let s := if s.line.still then s else
      match s.lineVm with
      | none => s
      | some m => s.setVm m (lineAct (s.vmr m) c)
    let s := if c.kind = 2 then s.wr P.LineScale 0 c.value
      else if c.kind = 1 then s.setLine { s.line with vtgt := c.value } else s.setLine { s.line with vtgt := 0 }
    match c.req with
    | some (_, q) => s.complete q 0 s.time.cycle 0 0 0 0
    | none => s) s

/-- The line master stops under VmStopDec and VmStopJerk (R229, R231). -/
def State.lineHalt (s : State) : State :=
  let s := s.setLine { s.line with still := true }
  match s.lineVm with
  | none => s
  | some m => let r := s.vmr m; s.setVm m { r with gen := r.gen.stop true }

/-- A flag of the line master's VmState. -/
def State.lineFlag (s : State) (k : Nat) (b : Bool) : State :=
  match s.lineVm with
  | none => s
  | some m => s.wrBit P.VmState m k b

/-- PARAMCRC (Table 8.5). -/
def State.lineCrc (s : State) : Nat :=
  match s.lineVm with
  | none => crc32 []
  | some m => crc32 ([P.VmVelMax, P.VmAccMax, P.VmDecMax, P.VmJerkMax, P.VmStopDec, P.VmStopJerk, P.VmScaleRate, P.VmScaleAcc].flatMap
      fun p => leBytes 4 (s.rd p m))

/-- This unit's SCALEDEM. -/
def State.lineDem (s : State) : Nat :=
  match s.lineVm with
  | none => 0x3F800000
  | some m => ratToF32 (s.ownDemand m)

/-- A line command's bytes (Table 8.6). -/
def LineCmd.bytes (c : LineCmd) : List Byte :=
  leBytes 8 c.eff ++ leBytes 1 c.kind ++ [0, 0, 0] ++ leBytes 4 c.value ++
    (if c.kind = 1 then (c.lims.map (leBytes 4)).flatten else List.replicate 12 0) ++ leBytes 4 c.no

def cmdOfBytes (b : List Byte) (off : Nat) : LineCmd :=
  { eff := fld b off 8, kind := fld b (off + 8) 1, value := fld b (off + 12) 4
    lims := [fld b (off + 16) 4, fld b (off + 20) 4, fld b (off + 24) 4], no := fld b (off + 28) 4, req := none }

/-- The line frame (Table 8.5). -/
def State.lineFrame (s : State) : List Byte :=
  let l := s.line
  let h : LineHist := match l.hist with
    | h :: _ => h
    | [] => { at_ := s.time.lastS, p := 0, v := 0, a := 0, sg := two64, sd := 0 }
  let cmds := if s.lineOwner then l.cmds.take 4 else []
  let st := match s.lineVm with
    | some m => s.rd P.VmState m
    | none => 0
  let fl := (if s.lineOwner then 1 else 0) + (if bitOf st vLINELOST then 2 else 0) + (if bitOf st vDIVERGED then 4 else 0)
  let b := leBytes 2 1 ++ leBytes 1 (s.rd P.LineAddress 0) ++ leBytes 1 fl ++ leBytes 4 l.seq ++ leBytes 8 s.lineNs ++
    leBytes 1 (s.rd P.SysCycleLength 0) ++ [0, 0, 0] ++ leBytes 4 (s.rd P.SysCyclePhase 0) ++ leBytes 4 s.lineCrc ++ leBytes 4 s.lineDem ++
    leBytes 8 h.at_ ++ leBytes 8 (uNat 64 h.p) ++ leBytes 8 (uNat 64 h.v) ++ leBytes 8 (uNat 64 h.a) ++
    leBytes 8 (ratToF64 (mkRat h.sg 18446744073709551616)) ++ leBytes 8 (ratToF64 (mkRat h.sd 18446744073709551616)) ++
    leBytes 4 l.vtgt ++ leBytes 4 (s.rd P.LineScale 0) ++ leBytes 1 cmds.length ++ List.replicate 7 0 ++ (cmds.map LineCmd.bytes).flatten
  b ++ leBytes 4 (crc32 b)

/-- The line-scale demand the owner forms (R228). -/
def State.lineWant (s : State) : Nat :=
  let to' := roundHE (s.rf P.LineTimeout 0 * 1000000)
  let l := s.line.demands.filter fun d => decide ((s.time.tick : Int) - d.2.2 ≤ to')
  l.foldl (fun m d => if f32ToRat d.2.1 < f32ToRat m then d.2.1 else m) s.lineDem

/-- The scale the last issued command asks for. -/
def State.lineAsked (s : State) : Nat :=
  match (s.line.cmds.filter fun c => c.kind == 2).reverse with
  | c :: _ => c.value
  | [] => s.rd P.LineScale 0

/-- Where a line frame goes: LineGroupAddress and LinePort in network order (R10, R227). -/
def State.lineDest (s : State) : List Byte := beBytes 4 (s.rd P.LineGroupAddress 0) ++ beBytes 2 (s.rd P.LinePort 0)

/-- This tick is the first one at or after a whole multiple of LineFramePeriod, and no frame has been sent for it (R227). -/
def State.lineFrameDue (s : State) : Bool :=
  let p := s.linePeriod * 2 ^ 24
  decide (s.time.lt % p < s.rd P.NtIncrement 0) && s.line.sent != s.time.lt / p + 1

/-- LINE_FRAME_SEND (R227, R228): the frame goes out on both Ethernet ports, behind its destination. -/
def execLineFrameSend (t : Nat) (s : State) : Res :=
  onEvent t s fun s =>
    if !s.rb P.LineEnable 0 || s.pr.restart || !s.lineFrameDue then s else
      let s := s.setLine { s.line with sent := s.time.lt / (s.linePeriod * 2 ^ 24) + 1 }
      let s := s.wr P.LineDemand 0 s.lineDem
      let w := s.lineWant
      let s := if s.lineOwner && decide (f32ToRat w ≠ f32ToRat s.lineAsked) && decide (s.line.cmds.length < 4) then
          (s.lineIssue s.lineNs 2 w [0, 0, 0] none).2 else s
      let b := s.lineFrame
      let s := s.setLine { s.line with seq := (s.line.seq + 1) % 2 ^ 32 }
      let b := s.lineDest ++ b
      (s.frame .line 0 b).frame .line 1 b

/-- One cycle of the line master while a joining unit catches up: commands due, then a step to the next sample instant. -/
def State.lineForward (s : State) (m : Nat) : Nat → Nat → State
  | 0, _ => s
  | n + 1, at_ =>
    if s.time.lastS ≤ at_ then s else
      let due := s.line.cmds.filter fun c => decide (c.eff ≤ at_)
      let s := s.setLine { s.line with cmds := s.line.cmds.filter fun c => decide (at_ < c.eff) }
      let s := due.foldl (fun s c =>
        let s := s.setVm m (lineAct (s.vmr m) c)
        if c.kind = 2 then s.wr P.LineScale 0 c.value else s) s
      (s.setVm m (s.vmGen m (s.vmr m))).lineForward m n (at_ + s.cycleNs)

/-- Take the owner's published state and step it forward to the present cycle (R230). -/
def State.lineAdopt (s : State) (b : List Byte) : State :=
  let s := s.setLine { s.line with still := false, vtgt := fld b 80 4 }
  let s := (s.wr P.LineScale 0 (fld b 84 4)).wr P.LineState 0 2
  match s.lineVm with
  | none => s
  | some m =>
    let k : Kin := { p := in16 (fldI b 40 8), v := in16 (fldI b 48 8), a := in16 (fldI b 56 8) }
    let vt' := fix64 (f32ToRat (fld b 80 4))
    let g : Gen := { Gen.init with k := k, mode := .vel, vel := vt' }
    let r := { s.vmr m with gen := g, sg := fix64 (f64ToRat (fld b 64 8)), sd := fix64 (f64ToRat (fld b 72 8)) }
    let s := (s.setVm m r).lineForward m 4096 (fld b 32 8)
    let r := s.vmr m
    let s := (s.setVm m { r with cur := masterState r.gen.k r.sg r.sd }).lineDue
    let s := (s.setLine { s.line with hist := [] }).lineNote m
    let s := (s.setVm m (s.vmGen m (s.vmr m))).vmReport m
    -- the couplings reach the adopted state through Chase
    (List.range 128).foldl (fun s a =>
      if (tabGet s.cpl CplRec.init a).engaged ∧ s.rd P.CplMaster a = m ∧ s.rd P.TrjSource a = 1 ∧ s.rd P.TrjChain a = 2 then s.wr P.TrjChain a 1
      else s) s

/-- The unit's state at STIME differs from the owner's (R229); false where it holds none for that instant. -/
def State.lineDiffers (s : State) (b : List Byte) : Bool :=
  match s.line.hist.find? fun h => h.at_ == fld b 32 8 with
  | none => false
  | some h => h.p != fldI b 40 8 || h.v != fldI b 48 8 || h.a != fldI b 56 8 ||
      ratToF64 (mkRat h.sg 18446744073709551616) != fld b 64 8 || ratToF64 (mkRat h.sd 18446744073709551616) != fld b 72 8

/-- Take the owner's commands not yet held. -/
def State.lineTake (s : State) (b : List Byte) : State :=
  (List.range (fld b 88 1)).foldl (fun s i =>
    let c := cmdOfBytes b (96 + 32 * i)
    if 0 < cycDiff s.line.no c.no ∨ s.line.heard = 0 then
      if s.line.cmds.any (fun x => x.no == c.no) then s
      else s.setLine { s.line with cmds := s.line.cmds ++ [c], no := c.no }
    else s) s

/-- A follower compares an owner frame with its own settings and state, and joins with it (R229 to R231). -/
def State.lineFollow (s : State) (bytes : List Byte) : State :=
    let st := s.rd P.LineState 0
    if st = 5 ∨ st = 6 then s.setLine { s.line with heard := s.time.tick + 1 } else
    let same := fld bytes 16 1 == s.rd P.SysCycleLength 0 && fld bytes 20 4 == s.rd P.SysCyclePhase 0 && fld bytes 24 4 == s.lineCrc
    if !same then
      (((s.setLine { s.line with heard := s.time.tick + 1 }).wr P.LineState 0 6).lineHalt).raise E.lineParametersDiffer 0 []
    else
      let join := s.line.still
      if !join && s.lineDiffers bytes then
        ((((s.setLine { s.line with heard := s.time.tick + 1 }).wr P.LineState 0 5).lineFlag vDIVERGED true).inc P.LineDivergences
          0).lineHalt.raise E.lineMasterDivergence 0 []
      else
        let s := (s.lineTake bytes).lineFlag vLINELOST false
        let s := s.setLine { s.line with heard := s.time.tick + 1 }
        if join then s.lineAdopt bytes else s.wr P.LineState 0 2

/-- LINE_FRAME_RECEIVED (R227, R229 to R231): a datagram to an address and port. A unit that does not take part keeps the last valid owner frame. -/
def execLineFrameReceived (t : Nat) (d : Datagram) (s : State) : Res :=
  onEvent t s fun s =>
    let bytes := d.bytes
    let n := bytes.length
    let ok := decide (100 ≤ n) && fld bytes 0 2 == 1 && decide (fld bytes 88 1 ≤ 4) && decide (n = 100 + 32 * fld bytes 88 1) &&
      fld bytes (n - 4) 4 == crc32 (bytes.take (n - 4))
    let from_ := fld bytes 2 1
    if !ok || d.ip != s.rd P.LineGroupAddress 0 || d.port != s.rd P.LinePort 0 || from_ == s.rd P.LineAddress 0 then s else
    let own := bitOf (fld bytes 3 1) 0
    let s := if own then s.setLine { s.line with owner := some (s.time.tick, bytes) } else s
    if !s.rb P.LineEnable 0 then s else
    let ds := (from_, fld bytes 28 4, s.time.tick) :: s.line.demands.filter fun d => d.1 != from_
    let s := s.setLine { s.line with demands := ds }
    if !own || s.lineOwner then s else s.lineFollow bytes

/-- The owner frame heard within LineTimeout. -/
def State.lineKnown (s : State) : Option (List Byte) :=
  match s.line.owner with
  | some (x, b) => if (s.time.tick : Int) - x ≤ roundHE (s.rf P.LineTimeout 0 * 1000000) then some b else none
  | none => none

/-- LINE_TIMEOUT (R230, R231). -/
def execLineTimeout (t : Nat) (s : State) : Res :=
  onEvent t s fun s =>
    let st := s.rd P.LineState 0
    let since := if s.line.heard = 0 then s.line.on_ else s.line.heard - 1
    if (st = 1 ∨ st = 2) ∧ roundHE (s.rf P.LineTimeout 0 * 1000000) ≤ (s.time.tick : Int) - since then
      ((s.wr P.LineState 0 4).lineFlag vLINELOST true).raise E.lineMasterLost 0 []
    else s

/-- LineEnable was written (R230, R231): a follower that has heard the owner adopts its state at once, any other joins. -/
def State.lineSwitch (s : State) : State :=
  if s.rb P.LineEnable 0 then
    let s := s.setLine { s.line with on_ := s.time.tick, heard := 0, demands := [] }
    if s.lineOwner then (s.setLine { s.line with still := false }).wr P.LineState 0 3
    else match s.lineKnown with
      | some b => ((s.setLine { s.line with still := true }).wr P.LineState 0 1).lineFollow b
      | none => (s.lineHalt).wr P.LineState 0 1
  else
    let s := (s.wr P.LineState 0 0).setLine { s.line with still := false, cmds := [], heard := 0 }
    (s.lineFlag vLINELOST false).lineFlag vDIVERGED false

/-- VmSource was written (R209): the generator goes on from the last master state. -/
def State.vmSwitch (s : State) (m : Nat) : State :=
  let r := s.vmr m
  let k : Kin := { p := in16 r.cur.p, v := in16 r.cur.v, a := in16 r.cur.a }
  let s := s.wrBit P.VmState m vSRCLOST false
  if s.rd P.VmSource m = 1 then (s.setVm m { r with own := false, first := true, af := 0, was := (0, 0, true) }).vmReform 16 m
  else s.setVm m { r with own := false, first := true, gen := ({ Gen.init with k := k, target := r.cur.p } : Gen).stop false, sg := r.sg }

end Sys2Proof.Machine
end

