-- ==== Sys2Proof/Machine/Coupling.lean ====
section
/-!
DEFINITION. Couplings, cam tables, changes at a master position and registration (chapter 08, R214 to R225).
-/
namespace Sys2Proof.Machine

def State.cplr (s : State) (a : Nat) : CplRec := tabGet s.cpl CplRec.init a
def State.setCpl (s : State) (a : Nat) (r : CplRec) : State := { s with cpl := tabSet s.cpl CplRec.init a r }

/-- Bits of CplState. -/
abbrev cENGAGED : Nat := 0
abbrev cENGPEND : Nat := 1
abbrev cCHGPEND : Nat := 2
abbrev cDISPEND : Nat := 3
abbrev cREGRUN : Nat := 4
abbrev cCAMEND : Nat := 5
abbrev cREGMISS : Nat := 6

/-! ### Cam tables (R216 to R218) -/

def camPts (b : List Byte) : Nat := fld b 2 2
def camPer (b : List Byte) : Bool := bitOf (fld b 4 1) 0
def camP (b : List Byte) : Int := fldI b 8 8
def camH (b : List Byte) : Int := fldI b 16 8
def camU (b : List Byte) (i : Nat) : Int := fldI b (32 + 32 * i) 8
def camS (b : List Byte) (i : Nat) : Int := fldI b (40 + 32 * i) 8
def camD1 (b : List Byte) (i : Nat) : Rat := f32ToRat (fld b (48 + 32 * i) 4)
def camD2 (b : List Byte) (i : Nat) : Rat := f32ToRat (fld b (52 + 32 * i) 4)
def camSeg (b : List Byte) (i : Nat) : Nat := fld b (56 + 32 * i) 1

/-- A polynomial's value, coefficients from the constant term up. -/
def polyAt (x : Rat) : List Rat → Rat
  | [] => 0
  | c :: r => c + x * polyAt x r

def polyDerivGo : Nat → List Rat → List Rat
  | _, [] => []
  | k, c :: r => (k : Rat) * c :: polyDerivGo (k + 1) r

/-- The derivative of a polynomial. -/
def polyDeriv (l : List Rat) : List Rat := polyDerivGo 1 l.tail

/-- Segment `i`: its length in counts and C as a polynomial of the local variable from 0 to 1 (R217). -/
def camPoly (b : List Byte) (i : Nat) : Rat × List Rat :=
  let n := camPts b
  let last := i + 1 = n
  let j := if last then 0 else i + 1
  let u1 := if last then camP b else camU b j
  let h : Rat := mkRat (u1 - camU b i) 65536
  let s0 : Rat := mkRat (camS b i) 65536
  let s1 : Rat := mkRat (camS b j + if last then camH b else 0) 65536
  let e := s1 - s0
  let d0 := camD1 b i * h
  let d1 := camD1 b j * h
  match camSeg b i with
  | 0 =>
    let a0 := camD2 b i * h * h
    let a1 := camD2 b j * h * h
    (h, [s0, d0, a0 / 2, 10 * e - 6 * d0 - 4 * d1 - 3 / 2 * a0 + a1 / 2, -15 * e + 8 * d0 + 7 * d1 + 3 / 2 * a0 - a1,
         6 * e - 3 * (d0 + d1) - a0 / 2 + a1 / 2])
  | 1 => (h, [s0, d0, 3 * e - 2 * d0 - d1, -2 * e + d0 + d1])
  | _ => (h, [s0, e])

/-- C, C' and C'' at u (2^-16 counts, within the table), in counts. -/
def camAt (b : List Byte) (u : Int) : Rat × Rat × Rat :=
  let i := ((List.range (camPts b)).filter fun i => decide (camU b i ≤ u)).length - 1
  let i := if !camPer b ∧ i + 1 = camPts b then i - 1 else i
  let (h, c) := camPoly b i
  let x := if h = 0 then 0 else mkRat (u - camU b i) 65536 / h
  let c1 := polyDeriv c
  (polyAt x c, polyAt x c1 / h, polyAt x (polyDeriv c1) / (h * h))

/-- The largest magnitude of a polynomial on [0, 1]: at the ends and where its derivative changes sign in one of 32 parts. -/
def polyMax (c : List Rat) : Rat :=
  let d := polyDeriv c
  let root (k : Nat) : Rat :=
    let lo : Rat := mkRat k 32
    let neg (x : Rat) : Bool := decide (polyAt x d < 0)
    if neg lo == neg (lo + 1 / 32) then lo else
      let go := (List.range 30).foldl (fun (p : Rat × Rat) _ =>
        let m := (p.1 + p.2) / 2
        if neg m == neg lo then (m, p.2) else (p.1, m)) (lo, lo + 1 / 32)
      go.1
  (List.range 33).foldl (fun m k => max m (absR (polyAt (if k = 32 then 1 else root k) c))) 0

/-- The largest |C'| and |C''| over all segments. -/
def camSlopes (b : List Byte) : Rat × Rat :=
  (List.range (if camPer b then camPts b else camPts b - 1)).foldl (fun m i =>
    let (h, c) := camPoly b i
    let c1 := polyDeriv c
    (max m.1 (polyMax c1 / h), max m.2 (polyMax (polyDeriv c1) / (h * h)))) (0, 0)

/-- Reserved fields of a cam block are 0. -/
def camReserved (b : List Byte) : Bool :=
  fld b 5 3 == 0 && fld b 24 8 == 0 && fld b 4 1 ≤ 1 && (List.range (camPts b)).all fun i => fld b (57 + 32 * i) 7 == 0

/-- The first failing check of R218; 0 = accepted. -/
def camCheck (b : List Byte) : Nat :=
  let n := camPts b
  if b.length < 32 ∨ fld b 0 2 ≠ 1 ∨ n < 2 ∨ 4096 < n ∨ b.length ≠ 32 + 32 * n ∨ !camReserved b then 1
  else if camU b 0 ≠ 0 ∨ !(List.range (n - 1)).all (fun i => decide (camU b i < camU b (i + 1))) ∨ camP b ≤ camU b (n - 1) then 2
  else if !(List.range (if camPer b then n else n - 1)).all (fun i => decide (camSeg b i ≤ 2)) then 3
  else if !(List.range n).all (fun i => f32Finite (fld b (48 + 32 * i) 4) && f32Finite (fld b (52 + 32 * i) 4) &&
      decide (absR (camD1 b i) ≤ 65536)) then 4
  else if camH b ≠ 0 ∧ !camPer b then 5
  else 0

def State.camTab (s : State) (n : Nat) : List Byte := tabGet s.cams [] n

/-- A table is loaded and not marked bad. -/
def State.camOk (s : State) (n : Nat) : Bool := decide (s.camTab n ≠ []) && s.rd P.CamChecksum n != 0xFFFFFFFF

/-- Whole 4 KB units of a table (R400). -/
def camUnits (b : List Byte) : Nat := (b.length + 4095) / 4096 * 4096

/-- The size of the cam store in force, bytes, less its retired pages (R404). -/
def State.camSize (s : State) : Nat := s.rd P.MemPartitionSize 1 * 1048576 - 4096 * s.rd P.MemRetiredPages 1

/-- Report the store. -/
def State.camReport (s : State) : State :=
  let used := (s.cams.map fun e => camUnits e.2).sum
  (s.wr P.CamStoreUsed 0 used).wr P.CamStoreFree 0 (s.camSize - used)

/-- The parameters of a CPL block with the values it gives. -/
def cplVals (b : List Byte) (off : Nat) : List (Nat × Nat) :=
  [(P.CplKind, fld b off 1), (P.CplMaster, fld b (off + 1) 1), (P.CplAnchor, fld b (off + 2) 1), (P.CplGearNum, fld b (off + 4) 4),
   (P.CplGearDen, fld b (off + 8) 4), (P.CplCamTable, fld b (off + 12) 2), (P.CplCamScale, fld b (off + 16) 4),
   (P.CplMasterOffset, fld b (off + 20) 8), (P.CplSlaveOffset, fld b (off + 28) 8)]

/-- The table number a pending engage or change names. -/
def CplPend.table (p : CplPend) : Option Nat := if p.kind ≠ 1 ∧ fld p.req.body 0 1 = 2 then some (fld p.req.body 12 2) else none

/-- The copies a coupling has (R219, R222). -/
abbrev cplCopies : List Nat :=
  [P.CplKind, P.CplMaster, P.CplAnchor, P.CplGearNum, P.CplGearDen, P.CplCamTable, P.CplCamScale, P.CplMasterOffset, P.CplSlaveOffset]

/-- Axes whose CouplingChange belongs to a set whose commit is pending (R481). -/
def State.cplStaged (s : State) : List Nat :=
  (s.par.staged.filter fun g => g.pending.isSome).flatMap fun g => (g.keys.filter fun k => k / 65536 == 0x0708).map fun k => k % 65536

/-- Copies of a coupling are locked by the commit of a staged set (R34). -/
def State.cplLocked (s : State) (a : Nat) : Bool :=
  s.par.staged.any fun g => g.pending.isSome && g.keys.any fun k => k % 65536 == a && (k / 65536 == 0x0708 || cplCopies.contains (k / 65536))

/-- A table is used by an engaged coupling, a pending engage or a pending change (R216). -/
def State.camUsed (s : State) (n : Nat) : Bool :=
  s.cplStaged.any (fun a => s.rdShadow P.CplKind a == 2 && s.rdShadow P.CplCamTable a == n) ||
  (List.range 128).any (fun a =>
    let r := s.cplr a
    (r.engaged && s.rd P.CplKind a == 2 && s.rd P.CplCamTable a == n) || r.pend.elim false (fun p => p.table == some n)) ||
    s.par.commits.any fun c => c.req.opcode == 0x0706 && fld c.req.body 0 1 == 2 && fld c.req.body 12 2 == n

/-- CAM_LOAD (R216, R218). -/
def execCamLoad (t : Nat) (q : Req) (s : State) : Res :=
  runReq 0x0703 t q s fun s =>
    let b := q.body
    let n := q.inst
    let bad := camCheck b
    let others := (s.cams.filter (fun e => e.1 ≠ n)).map fun e => camUnits e.2
    guarded [(decide (bad ≠ 0), ⟨0x0323, bad, 0, 0⟩), (s.camUsed n, ⟨0x0227, 0, 0, 0⟩),
        (decide (s.camSize < others.sum + camUnits b), ⟨0x0402, 0, 0, 0⟩)] <|
      let (m1, m2) := camSlopes b
      let s := { s with cams := tabSet s.cams [] n b, camHeld := tabSet s.camHeld [] n [] }
      .ok 0 [] ((s.wr P.CamChecksum n (crc32 b)).wr P.CamMaxSlope n (ratToF32 m1 + ratToF32 m2 * 2 ^ 32)).camReport

/-- CAM_DELETE (R216). -/
def execCamDelete (t : Nat) (q : Req) (s : State) : Res :=
  runReq 0x0704 t q s fun s =>
    let n := q.inst
    guarded [(s.camUsed n, ⟨0x0227, 0, 0, 0⟩)] <|
      let s := { s with cams := tabSet s.cams [] n [], camHeld := tabSet s.camHeld [] n [] }
      .ok 0 [] ((s.wr P.CamChecksum n 0).wr P.CamMaxSlope n 0).camReport

/-- CAM_READ. -/
def execCamRead (t : Nat) (q : Req) (s : State) : Res :=
  runReq 0x0705 t q s fun s => .ok 0 (s.camTab q.inst) s

/-- CAM_PREFETCH (R402): a segment is fetched onto the chip. -/
def execCamPrefetch (t table seg : Nat) (s : State) : Res :=
  onUnit t s (decide (table < 256)) fun s =>
    if seg < camPts (s.camTab table) ∧ !bitOf s.boot.offHalt 5 then { s with camHeld := tabMod s.camHeld [] table fun l => insNat seg l } else s

/-! ### Source state (R214, R215) -/

/-- h of R224 and its first two derivatives. -/
def regH (q : Rat) : Rat × Rat × Rat :=
  if 1 ≤ q then (1, 0, 0) else if q ≤ 0 then (0, 0, 6) else (3 * q * q - 2 * q * q * q, 6 * q - 6 * q * q, 6 - 12 * q)

/-- x and its time derivatives in counts, with the rates of a running correction. -/
def State.cplX (s : State) (a : Nat) : Rat × Rat × Rat :=
  let k := (s.vmr (s.rd P.CplMaster a)).cur
  let r := s.cplr a
  let c (x : Int) : Rat := mkRat x 65536
  let x := c (k.p - s.rp P.CplMasterOffset a)
  if r.delta = 0 then (x, c k.v, c k.a) else
    let sp := s.rf P.CplRegSpread a
    let (_, h1, h2) := regH (c r.travel / sp)
    let sgn : Rat := if k.v < 0 then -1 else 1
    let d := c r.delta
    (x, c k.v + d * h1 / sp * (sgn * c k.v), c k.a + d * h1 / sp * (sgn * c k.a) + d * h2 / (sp * sp) * (c k.v * c k.v))

/-- The source state of a coupling; CAMEND; the cam phase. -/
def State.cplSource (s : State) (a : Nat) : Kin × Bool × Rat :=
  let (x, v, ac) := s.cplX a
  let so := s.rp P.CplSlaveOffset a
  let out (p v ac : Rat) : Kin := { p := in16 (roundHE (so + p * 65536)), v := fix64 v, a := fix64 ac }
  match s.rd P.CplKind a with
  | 1 =>
    let q : Rat := mkRat (s.ri P.CplGearNum a) (s.rd P.CplGearDen a)
    (out (x * q) (v * q) (ac * q), false, 0)
  | 2 =>
    let b := s.camTab (s.rd P.CplCamTable a)
    let sc := s.rf P.CplCamScale a
    let xi := roundHE (x * 65536)
    let P' := camP b
    if P' ≤ 0 then (out 0 0 0, false, 0) else
    let k : Int := if camPer b then xi / P' else 0
    let ul := camU b (camPts b - 1)
    let u0 := xi - k * P'
    let u := if camPer b then u0 else sat 0 ul u0
    let (c0, c1, c2) := camAt b u
    let ended := !camPer b && decide (u ≠ u0)
    let p := sc * (c0 + k * mkRat (camH b) 65536)
    (if ended then out p 0 0 else out p (sc * c1 * v) (sc * (c2 * v * v + c1 * ac)), ended, mkRat u P'.toNat)
  | _ => ((s.traj a).src, false, 0)

/-- The source state of a coupled axis for the present sample instant, with its reports. -/
def State.cplStep (s : State) (a : Nat) : Kin × State :=
  let (k, e, ph) := s.cplSource a
  (k, (s.wrBit P.CplState a cCAMEND e).wrF P.CplCamPhase a ph)

/-! ### Engaging, disengaging, changing (R219 to R222) -/

/-- Take the shadow values of the coupling. -/
def State.cplTake (s : State) (a : Nat) : State :=
  cplCopies.foldl (fun s p => (s.wr p a (s.rdShadow p a)).dropShadow (pkey p a)) s

/-- Return them to the active values. -/
def State.cplDrop (s : State) (a : Nat) : State :=
  cplCopies.foldl (fun s p => s.dropShadow (pkey p a)) s

/-- Set CplSlaveOffset so that p_s equals a position (R219, R222). -/
def State.anchorAt (s : State) (a : Nat) (p : Int) : State :=
  let (k, _, _) := s.cplSource a
  s.wrP P.CplSlaveOffset a (s.rp P.CplSlaveOffset a + (p - out16 k.p))

/-- The engage at S(c), once its values are active (R219). A disengage at a master position that pends beside it goes on pending. -/
def State.cplEngage (s : State) (a : Nat) : State :=
  let s := if s.rd P.CplAnchor a = 1 then s.anchorAt a (s.axis a).psp else s
  let s := s.setCpl a { CplRec.init with engaged := true, pend := (s.cplr a).pend }
  let s := s.wr P.CplState a 1
  -- the cam phase is known from the engage on (key 3)
  let (k, s) := s.cplStep a
  s.trjEngage a 1 k

/-- The coupling ends: what belongs to it is cleared. -/
def State.cplClear (s : State) (a : Nat) : State := (s.setCpl a CplRec.init).clrBits P.CplState a 0x3F

/-- A pending change lapses (R221). -/
def State.cplLapse (s : State) (a : Nat) : State :=
  let r := s.cplr a
  match r.pend with
  | none => s
  | some p =>
    let s := s.setCpl a { r with pend := none }
    let s := if p.kind = 1 then s else s.cplDrop a
    (s.raise E.couplingChangeLapsed a []).complete p.req p.id 0xFFFFFFFF 0x0204 0 0 0

/-- The disengage at S(c) (R220): the generator takes over and stops under `quick`. A pending engage is given up. -/
def State.cplDisengage (s : State) (a : Nat) (quick : Bool) : State :=
  let s := if (s.cplr a).pend.isSome then s.cplLapse a else s
  if (s.cplr a).engaged then (s.cplClear a).trjTakeOver a quick else s

/-- A stop of a coupled axis (Table 7.2). -/
def State.cplStop (s : State) (a : Nat) (quick : Bool) : State := (s.cplDisengage a quick).raise E.disengagedByStop a []

/-- A CouplingChange at S(k) (R222), once the set-point of S(k) has been formed with the old values. -/
def State.cplChange (s : State) (a : Nat) : State :=
  let r := s.cplr a
  let (k0, _, _) := s.cplSource a
  let m0 := s.rd P.CplMaster a
  let s := s.cplTake a
  -- a running correction's remaining part goes on top of the new offset (Table 8.9)
  let (h, _, _) := regH (mkRat r.travel 65536 / s.rf P.CplRegSpread a)
  let pm := if s.rd P.CplMaster a = m0 then r.lastPm else none
  let s := s.setCpl a { r with off0 := s.rp P.CplMasterOffset a + roundHE (r.delta * h), lastMm := none, lastPm := pm }
  let s := if s.rd P.CplAnchor a = 1 then s.anchorAt a (out16 k0.p) else s
  -- the source state of S(k), with its reports, is formed with the new values
  let (k, s) := s.cplStep a
  let c := (s.traj a).c
  let near := decide (absR (mkRat (k.p - c.p) 18446744073709551616) ≤ s.rf P.TrjCaptureBand a) &&
    decide (absR (mkRat (k.v - c.v) 18446744073709551616) ≤ s.rf P.TrjCaptureVel a)
  if s.rd P.TrjChain a = 2 ∧ !near then (s.setTraj a { s.traj a with src := k, was := none }).wr P.TrjChain a 1 else s

/-- The changes at a master position that are due for the present sample instant (R221). -/
def State.cplDue (s : State) (a : Nat) : State :=
  match (s.cplr a).pend with
  | none => s
  | some p =>
    let mm := (s.vmr p.master).cur.p
    if !(if p.up then decide (p.psw ≤ mm) else decide (mm ≤ p.psw)) then s else
      let s := s.setCpl a { s.cplr a with pend := none }
      let s := match p.kind with
        | 0 => (s.cplTake a).cplEngage a
        | 1 => s.cplDisengage a false
        | _ => s.cplChange a
      s.complete p.req p.id s.time.cycle 0 0 0 0

/-- A CPL block holds values outside their ranges (R367, Table 8.10), or names a cam table that is not loaded. -/
def State.cplBlockBad (s : State) (b : List Byte) (off : Nat) : Bool :=
  let sc := fld b (off + 16) 4
  let kind := fld b off 1
  decide (kind < 1 ∨ 2 < kind ∨ 15 < fld b (off + 1) 1 ∨ 1 < fld b (off + 2) 1 ∨ fld b (off + 4) 4 = 0x80000000 ∨
    fld b (off + 8) 4 = 0 ∨ 0x7FFFFFFF < fld b (off + 8) 4 ∨ 255 < fld b (off + 12) 2) || !f32Finite sc ||
    decide (16 < absR (f32ToRat sc)) || (kind == 2 && !s.camOk (fld b (off + 12) 2))

/-- An ENG block holds values outside their ranges. -/
def engBad (b : List Byte) (off : Nat) : Bool :=
  let m := fld b off 1
  let l := fld b (off + 4) 4
  decide (1 < m) || decide (fld b (off + 1) 1 < 1 ∨ 2 < fld b (off + 1) 1) || !f32Finite l || decide (f32ToRat l < 1) ||
    decide (3600000 < f32ToRat l)

/-- The latest master position formed does not lie short of P_sw by more than 2 × |v_m| × T in the stated direction (0x0211, R221). -/
def State.swLate (s : State) (m : Nat) (b : List Byte) (off : Nat) : Bool :=
  let r := s.vmr m
  let k := if r.made = s.time.cycle + 1 then r.next else r.cur
  let psw := fldI b (off + 8) 8
  let gap := if fld b (off + 1) 1 = 1 then psw - k.p else k.p - psw
  decide ((gap : Rat) ≤ mkRat (2 * (k.v.natAbs : Int) * s.cycleNs) 1000000000)

/-- Accept a change at a master position: 0x0101 with a CR block (R221). -/
def State.cplAccept (s : State) (q : Req) (kind m off : Nat) : OpRes :=
  let a := q.inst
  let (id, s) := s.takeId
  let p : CplPend := { kind := kind, master := m, psw := fldI q.body (off + 8) 8, up := fld q.body (off + 1) 1 == 1
                       lapse := s.time.tick + (roundHE (f32ToRat (fld q.body (off + 4) 4) * 1000000)).toNat, id := id, req := q }
  let s := s.setCpl a { s.cplr a with pend := some p }
  let s := s.wr (if kind = 1 then P.CplDisengagePos else P.CplEngagePos) a (fld q.body (off + 8) 8)
  .ok 0x0101 (crBytes 0xFFFFFFFF id) s

/-- Write the shadow values of a coupling. -/
def State.cplShadow (s : State) (a : Nat) (b : List Byte) : State := (cplVals b 0).foldl (fun s e => s.wrShadow e.1 a e.2) s

/-- An axis is coupled, belongs to a path group or has an engage pending (0x0225). -/
def State.coupled (s : State) (a : Nat) : Bool :=
  (s.cplr a).engaged || s.rd P.TrjSource a == 2 || (s.cplr a).pend.elim false (fun p => p.kind == 0) || s.hasCommit 0x0706 a

/-- An axis's queue runs. -/
def State.queueRuns (s : State) (a : Nat) : Bool := s.tBit a tQRUN

/-- COUPLING_ENGAGE (R219, R221). -/
def execCouplingEngage (t : Nat) (q : Req) (s : State) : Res :=
  runReq 0x0706 t q s fun s =>
    let a := q.inst
    let b := q.body
    let at_ := fld b 40 1 == 1
    let bad := s.cplBlockBad b 0 || engBad b 40
    let pend := (s.cplr a).pend.isSome
    let c2 : List (Bool × Rsn) := [(s.cplLocked a, ⟨0x0210, 0, 0, 0⟩), (s.queueRuns a, ⟨0x021F, 0, 0, 0⟩), (s.coupled a, ⟨0x0225, 0, 0, 0⟩)]
    if at_ then
      guarded ((bad, ⟨0x0304, 0, 0, 0⟩) :: c2 ++ [(s.swLate (fld b 1 1) b 40, ⟨0x0211, 0, 0, 0⟩), (pend, ⟨0x022A, 0, 0, 0⟩)])
        ((s.cplShadow a b).cplAccept q 0 (fld b 1 1) 40)
    else guarded ([(bad, ⟨0x0304, 0, 0, 0⟩), (s.late b 56, ⟨0x0211, 0, 0, 0⟩)] ++ c2 ++ [(pend, ⟨0x022A, 0, 0, 0⟩)])
      ((s.cplShadow a b).accept q (s.tgt b 56))

/-- COUPLING_DISENGAGE (R220, R221). -/
def execCouplingDisengage (t : Nat) (q : Req) (s : State) : Res :=
  runReq 0x0707 t q s fun s =>
    let a := q.inst
    let b := q.body
    let r := s.cplr a
    let none' := !r.engaged && !(r.pend.elim false (fun p => p.kind == 0)) && !s.hasCommit 0x0706 a
    -- the master of the coupling, or of the engage that pends
    let m := if r.engaged then s.rd P.CplMaster a else s.rdShadow P.CplMaster a
    if fld b 0 1 = 1 then
      guarded [(engBad b 0, ⟨0x0304, 0, 0, 0⟩), (none', ⟨0x0226, 0, 0, 0⟩), (s.swLate m b 0, ⟨0x0211, 0, 0, 0⟩),
        (r.pend.isSome, ⟨0x022A, 0, 0, 0⟩)] (s.cplAccept q 1 m 0)
    else s.commitReq q 16 [(engBad b 0, ⟨0x0304, 0, 0, 0⟩)] [(none', ⟨0x0226, 0, 0, 0⟩)]

/-- COUPLING_CHANGE (R221, R222). -/
def execCouplingChange (t : Nat) (q : Req) (s : State) : Res :=
  runReq 0x0708 t q s fun s =>
    let a := q.inst
    let b := q.body
    let r := s.cplr a
    let axisSet := s.par.staged.any fun g => g.scope == 0 && g.inst == a
    match (if axisSet then none else s.par.staged.find? fun g => g.scope == 1 && g.inst == s.rd P.AxisGroup a) with
    | some g =>
      -- the change joins the group's staged set; P_sw, DIR and LAPSE are not used (R481)
      guarded [(s.cplBlockBad b 0 || fld b 40 1 != 1, ⟨0x0304, 0, 0, 0⟩), (g.pending.isSome, ⟨0x0210, 0, 0, 0⟩),
          (!r.engaged, ⟨0x0226, 0, 0, 0⟩), (r.pend.isSome, ⟨0x022A, 0, 0, 0⟩)]
        (.ok 0x0104 [] ((s.cplShadow a b).joinSet g (pkey 0x0708 a)))
    | none =>
    guarded [(s.cplBlockBad b 0 || engBad b 40 || fld b 40 1 != 1, ⟨0x0304, 0, 0, 0⟩),
        (s.cplLocked a, ⟨0x0210, 0, 0, 0⟩), (!r.engaged, ⟨0x0226, 0, 0, 0⟩), (s.swLate (s.rd P.CplMaster a) b 40, ⟨0x0211, 0, 0, 0⟩),
        (r.pend.isSome, ⟨0x022A, 0, 0, 0⟩)]
      ((s.cplShadow a b).cplAccept q 2 (s.rd P.CplMaster a) 40)

/-- COUPLING_CHANGE_LAPSED (R221). -/
def execCouplingChangeLapsed (t axis : Nat) (s : State) : Res :=
  onUnit t s (decide (axis < 128)) fun s =>
    match (s.cplr axis).pend with
    | none => s
    | some p => if p.lapse ≤ s.time.tick then s.cplLapse axis else s

/-- A cam table fails its couplings: quick stop and disengage; pending engages and changes that name it lapse (R403, R404). -/
def State.camFail (s : State) (n cause : Nat) : State :=
  let s := (List.range 128).foldl (fun s a =>
    let s := if (s.cplr a).pend.elim false (fun p => p.table == some n) then s.cplLapse a else s
    if (s.cplr a).engaged ∧ s.rd P.CplKind a = 2 ∧ s.rd P.CplCamTable a = n then s.cplStop a true else s) s
  s.raise E.camDataError n (leBytes 4 cause)

/-- CAM_FETCH_LATE (R403). -/
def execCamFetchLate (t table : Nat) (s : State) : Res :=
  onUnit t s (decide (table < 256)) fun s => s.camFail table 1

/-! ### Registration (R223 to R225) -/

/-- Master position at a stamp (2^-16 ns), interpolated as in R108. -/
def State.masterAt (s : State) (m stamp : Nat) : Option Int :=
  match samplePair stamp none (s.history (256 + m)) with
  | some (e0, some e1) =>
    some (if e1.sNs = e0.sNs then e0.pos else roundHE (e0.pos + mkRat ((e1.pos - e0.pos) * ((stamp : Int) - e0.sNs * 65536)) (65536 * (e1.sNs - e0.sNs))))
  | some (e0, none) => some e0.pos
  | none => none

/-- The cycle of the sample at or before a stamp. -/
def State.stampCycle (s : State) (m stamp : Nat) : Nat :=
  match samplePair stamp none (s.history (256 + m)) with
  | some (e0, _) => e0.cycle
  | none => s.time.cycle

/-- A record of the latch unit reaches a coupling. -/
def State.regRecord (s : State) (a stamp : Nat) : State :=
  let r := s.cplr a
  if !r.engaged then s
  else if r.delta ≠ 0 ∨ r.wait.isSome then s.inc P.CplRegSkipped a
  else
    let m := s.rd P.CplMaster a
    match s.masterAt m stamp with
    | none => s
    | some pm =>
      let per := s.rp P.CplRegPeriod a
      let x := (pm - s.rp P.CplRegNominal a) % per
      let e := if per - per / 2 ≤ x then x - per else x
      let lim := s.rf P.CplRegMax a * 65536
      let d := roundHE (satR (-lim) lim (s.rf P.CplRegGain a * e))
      let s := (s.wrP P.CplRegError a e).wrBit P.CplState a cREGMISS false
      let s := s.setCpl a { r with missed := 0, wait := if d = 0 then none else some (d, (s.stampCycle m stamp + 3) % 2 ^ 32) }
      if d = 0 then s else s.wrBit P.CplState a cREGRUN true

/-- The correction's part of a cycle: master travel, the offset. -/
def State.regStep (s : State) (a : Nat) : State :=
  let r := s.cplr a
  if !r.engaged then s else
  let pm := (s.vmr (s.rd P.CplMaster a)).cur.p
  let tr : Int := match r.lastPm with
    | some x => ((pm - x).natAbs : Int)
    | none => 0
  let watch := s.rd P.CplRegLatch a ≠ 0xFF
  let r := { r with lastPm := some pm, missed := if watch then r.missed + tr else 0, travel := if r.delta = 0 then 0 else r.travel + tr }
  let r := match r.wait with
    | some (d, c) => if 0 ≤ cycDiff c s.time.cycle then { r with wait := none, delta := d, travel := 0, off0 := s.rp P.CplMasterOffset a } else r
    | none => r
  if r.delta = 0 then s.setCpl a r else
    let q := mkRat r.travel 65536 / s.rf P.CplRegSpread a
    let (h, _, _) := regH q
    let s := s.wrP P.CplMasterOffset a (r.off0 - roundHE (r.delta * h))
    if 1 ≤ q then (s.setCpl a { r with delta := 0, travel := 0 }).wrBit P.CplState a cREGRUN false else s.setCpl a r

/-- REGISTRATION_MARK_MISSING (R225). -/
def execRegistrationMarkMissing (t axis : Nat) (s : State) : Res :=
  onUnit t s (decide (axis < 128)) fun s =>
    let r := s.cplr axis
    let lim := (s.rd P.CplRegMissLimit axis : Int) * s.rp P.CplRegPeriod axis
    if r.engaged ∧ s.rd P.CplRegLatch axis ≠ 0xFF ∧ lim ≤ r.missed then
      (((s.setCpl axis { r with missed := 0 }).wrBit P.CplState axis cREGMISS true).inc P.CplRegMissed axis).raise E.registrationMarkMissing axis []
    else s

/-- LATCH_RECORD_FORM (R107 to R114, R223): a unit that a coupling names stores no records. -/
def execLatchRecordForm (t unit : Nat) (s : State) : Res :=
  onUnit t s (decide (unit < 64)) fun s =>
    let axes := (List.range 128).filter fun a => s.rd P.CplRegLatch a == unit
    if axes = [] then (s.latForm unit).2 else
      let s := s.setLatch unit { s.latch unit with fifo := [] }
      let (x, s) := s.latForm unit
      let s := s.setLatch unit { s.latch unit with fifo := [] }
      match x with
      | none => s
      | some (stamp, _, _) => axes.foldl (fun s a => s.regRecord a stamp) s

end Sys2Proof.Machine
end

