-- ==== Sys2Proof/Machine/Paths.lean ====
section
/-!
DEFINITION. Path groups (chapter 08, R232 to R237): geometry, the path generator, its commands.
-/
namespace Sys2Proof.Machine

def State.pgr (s : State) (g : Nat) : PgRec := tabGet s.pg PgRec.init g
def State.setPg (s : State) (g : Nat) (r : PgRec) : State := { s with pg := tabSet s.pg PgRec.init g r }

/-- Bits of PgState. -/
abbrev pBOUND : Nat := 0
abbrev pRUN : Nat := 1
abbrev pPAUSED : Nat := 2
abbrev pSTOPPING : Nat := 3
abbrev pLIMITED : Nat := 4
abbrev pEMPTY : Nat := 5

/-- PgAxes: (member, axis) pairs. -/
def State.pgAxes (s : State) (g : Nat) : List (Nat × Nat) :=
  ((List.range 6).map fun i => (i, s.rd P.PgAxes g / 2 ^ (8 * i) % 256)).filter fun x => x.2 != 0xFF

/-- Six positions at an offset. -/
def pgPoint (b : List Byte) (off : Nat) : List Int := (List.range 6).map fun i => fldI b (off + 8 * i) 8

def peType (b : List Byte) : Nat := fld b 0 1
def peRel (b : List Byte) : Bool := bitOf (fld b 1 1) 0
def peEvent (b : List Byte) : Bool := bitOf (fld b 1 1) 1
def pePA (b : List Byte) : Nat := fld b 2 1
def pePB (b : List Byte) : Nat := fld b 3 1
def peTag (b : List Byte) : Nat := fld b 12 2

def addPt (x y : List Int) : List Int := (List.range 6).map fun i => x.getD i 0 + y.getD i 0

/-- END, AUX1 or AUX2 with REL resolved. -/
def pePoint (b : List Byte) (start : List Int) (off : Nat) : List Int :=
  if peRel b then addPt start (pgPoint b off) else pgPoint b off

/-- Counts of a 2^-16 value. -/
def cnt (x : Int) : Rat := mkRat x 65536

/-- An angle in turns from 0 to 1/2 with a given cosine. -/
def acosTurn (c : Rat) : Rat :=
  let p := (List.range 60).foldl (fun (p : Rat × Rat) _ =>
    let m := (p.1 + p.2) / 2
    if c < cosTurn m then (m, p.2) else (p.1, m)) ((0 : Rat), 1 / 2)
  p.1

/-- Radius vector at the start of an arc, direction (1 anticlockwise), total angle in turns. -/
def arcOf (b : List Byte) (start : List Int) : Rat × Rat × Rat × Rat :=
  let e := pePoint b start 16
  let c := pePoint b start 64
  let A := pePA b
  let B := pePB b
  let ra := cnt (start.getD A 0 - c.getD A 0)
  let rb := cnt (start.getD B 0 - c.getD B 0)
  let ea := cnt (e.getD A 0 - c.getD A 0)
  let eb := cnt (e.getD B 0 - c.getD B 0)
  let dir : Rat := if peType b = 3 then 1 else -1
  let rr := ra * ra + rb * rb
  let full := e.getD A 0 = start.getD A 0 ∧ e.getD B 0 = start.getD B 0
  let h := acosTurn (if rr = 0 then 1 else satR (-1) 1 (cut80 ((ra * ea + rb * eb) / rr)))
  let cr := dir * (ra * eb - rb * ea)
  (ra, rb, dir, if full then 1 else if cr < 0 then 1 - h else h)

/-- Rates per unit of the path variable that runs from 0 to 1. -/
structure PVal where
  x : Rat
  d : Rat
  dd : Rat

/-- A member's position and derivatives along the raw variable w in [0, 1] of an entry, in counts. -/
def peRaw (b : List Byte) (start : List Int) (w : Rat) (i : Nat) : PVal :=
  let p0 := cnt (start.getD i 0)
  let e := cnt ((pePoint b start 16).getD i 0)
  match peType b with
  | 1 => { x := p0 + (e - p0) * w, d := e - p0, dd := 0 }
  | 4 =>
    let p1 := cnt ((pePoint b start 64).getD i 0)
    let p2 := cnt ((pePoint b start 112).getD i 0)
    let u := 1 - w
    { x := u * u * u * p0 + 3 * u * u * w * p1 + 3 * u * w * w * p2 + w * w * w * e
      d := 3 * (u * u * (p1 - p0) + 2 * u * w * (p2 - p1) + w * w * (e - p2))
      dd := 6 * (u * (p2 - 2 * p1 + p0) + w * (e - 2 * p2 + p1)) }
  | _ =>
    let (ra, rb, dir, ph) := arcOf b start
    if i ≠ pePA b ∧ i ≠ pePB b then { x := p0 + (e - p0) * w, d := e - p0, dd := 0 } else
    let th := ph * w
    let c := cosTurn th
    let sn := dir * sinTurn th
    let om := 2 * piR * ph
    let ctr := cnt ((pePoint b start 64).getD i 0)
    -- rotate the radius vector; the derivative is the rotated vector turned by a quarter
    let (x, y) := if i = pePA b then (ra * c - rb * sn, -(ra * sn) - rb * c) else (ra * sn + rb * c, ra * c - rb * sn)
    { x := ctr + x, d := dir * om * y, dd := -(om * om * x) }

/-- Euclidean length of a vector of rationals. -/
def hypot (l : List Rat) : Rat := sqrtR ((l.map fun x => x * x).sum)

/-- The length of a Bézier entry between two values of its variable, by 8 chords. -/
def bezierWay (b : List Byte) (start : List Int) (u v : Rat) : Rat :=
  let pt (w : Rat) : List Rat := (List.range 6).map fun i => (peRaw b start w i).x
  ((List.range 8).foldl (fun (z : Rat × List Rat) k =>
    let q := pt (u + (v - u) * mkRat (k + 1) 8)
    (z.1 + hypot ((List.range 6).map fun i => q.getD i 0 - z.2.getD i 0), q)) (0, pt u)).1

/-- Arc lengths of a Bézier entry at k/64, 2^-64 count. -/
def bezierTable (b : List Byte) (start : List Int) : List Int :=
  ((List.range 64).foldl (fun (l : List Int) (k : Nat) => (l.headD 0 + fix64 (bezierWay b start (mkRat k 64) (mkRat (k + 1) 64))) :: l) [0]).reverse

/-- Length of an entry (R234), 2^-64 count. -/
def peLen (b : List Byte) (start : List Int) (table : List Int) : Int :=
  match peType b with
  | 4 => table.getLastD 0
  | _ => fix64 (hypot ((List.range 6).map fun i => (peRaw b start 0 i).d |> fun d =>
      if peType b = 1 ∨ (i ≠ pePA b ∧ i ≠ pePB b) then d else
        let (ra, rb, _, ph) := arcOf b start
        -- the two plane members share the arc's length
        if i = pePA b then 2 * piR * ph * sqrtR (ra * ra + rb * rb) else 0))

/-- The raw variable at a length. In a Bézier entry it is sought between two nodes of the table by the length of the curve itself, so that the
path speed follows the plan also where the curve's own speed changes fast (R234). -/
def PEntry.raw (e : PEntry) (x : Int) : Rat :=
  if e.len ≤ 0 then 0 else
  if peType e.bytes = 4 then
    let k := ((e.table.filter fun y => decide (y ≤ x)).length - 1)
    let k := if 64 ≤ k then 63 else k
    let u : Rat := mkRat k 64
    let d : Rat := mkRat (x - e.table.getD k 0) 18446744073709551616
    let way (w : Rat) : Rat := bezierWay e.bytes e.start u w
    let p := (List.range 24).foldl (fun (p : Rat × Rat) _ =>
      let m := (p.1 + p.2) / 2
      if way m ≤ d then (m, p.2) else (p.1, m)) (u, u + 1 / 64)
    let a := way p.1
    let c := way p.2
    if c ≤ a then p.1 else p.1 + (p.2 - p.1) * satR 0 1 (cut80 ((d - a) / (c - a)))
  else mkRat x 1 / (e.len : Rat)

/-- Position, X' and X'' with respect to s at a length, in counts (R234, R235). -/
def PEntry.at_ (e : PEntry) (x : Int) (i : Nat) : PVal :=
  let w := e.raw x
  let v := peRaw e.bytes e.start w i
  if peType e.bytes = 4 then
    let ds := (List.range 6).map fun j => (peRaw e.bytes e.start w j)
    let n2 := (ds.map fun y => y.d * y.d).sum
    if n2 = 0 then { x := v.x, d := 0, dd := 0 } else
    let n := sqrtR n2
    let dot := (ds.map fun y => y.d * y.dd).sum
    { x := v.x, d := cut80 (v.d / n), dd := cut80 ((v.dd - v.d * dot / n2) / n2) }
  else
    let L : Rat := mkRat e.len 18446744073709551616
    if L ≤ 0 then { x := v.x, d := 0, dd := 0 } else { x := v.x, d := cut80 (v.d / L), dd := cut80 (v.dd / (L * L)) }

/-- An entry is invalid (0x0324, R233). -/
def State.peBad (s : State) (g : Nat) (b : List Byte) (start : List Int) (len : Int) : Bool :=
  let ty := peType b
  let used (i : Nat) : Bool := (s.pgAxes g).any fun x => x.1 == i
  let fl (o : Nat) : Bool := !f32Finite (fld b o 4) || decide (f32ToRat (fld b o 4) < 0)
  if ty < 1 ∨ 4 < ty then true
  else if ty = 2 ∨ ty = 3 then
    if pePA b = pePB b ∨ !used (pePA b) ∨ !used (pePB b) then true
    else
      let (ra, rb, _, _) := arcOf b start
      let e := pePoint b start 16
      let c := pePoint b start 64
      let ea := cnt (e.getD (pePA b) 0 - c.getD (pePA b) 0)
      let eb := cnt (e.getD (pePB b) 0 - c.getD (pePB b) 0)
      let r := sqrtR (ra * ra + rb * rb)
      decide (r = 0) || decide (1 < absR (sqrtR (ea * ea + eb * eb) - r)) || decide (len ≤ 0) || fl 4 || fl 8
  else decide (len ≤ 0) || fl 4 || fl 8

/-! ### Limits and joints (R235) -/

/-- The parts of an entry over which the members' limits are taken: none for a line, else up to 16, none shorter than 8 steps at `V`. -/
def PEntry.parts (e : PEntry) (t V : Int) : Nat :=
  if peType e.bytes = 1 then 1 else max 1 (min 16 (e.len / max 1 (8 * vt V t))).toNat

/-- The limits along s of part `j` of `n` of an entry: the path's own, and those with the members' limits, which are taken at 5 points of the
part. Where the path bends, at least half of each member's acceleration is left to the bend, and what the bend does not need at the part's
speed is left to the path (DESIGN CHOICE, notes/assumptions/36.md). -/
def State.peLim (s : State) (g : Nat) (e : PEntry) (n j : Nat) : Lim × Lim :=
  let pts := (List.range 5).map fun (k : Nat) => e.len * ((4 * j + k : Nat) : Int) / (4 * n : Nat)
  let V := limOf (fld e.bytes 4 4) (s.rd P.PgVelMax g)
  let A := limOf (fld e.bytes 8 4) (s.rd P.PgAccMax g)
  let D := s.rf P.PgDecMax g
  let J := fix64 (s.rf P.PgJerkMax g)
  let ms := (s.pgAxes g).map fun x =>
    let vs := pts.map fun y => e.at_ y x.1
    (x.2, vs.foldl (fun z y => max z (absR y.d)) 0, vs.foldl (fun z y => max z (absR y.dd)) 0)
  let v := ms.foldl (fun m (x : Nat × Rat × Rat) =>
    let m := if x.2.1 = 0 then m else min m (s.rf P.TrjVelMax x.1 / x.2.1)
    if x.2.2 = 0 then m else min m (sqrtR (min (s.rf P.TrjAccMax x.1) (s.rf P.TrjDecMax x.1) / 2 / x.2.2))) V
  let free (y : Rat) (p : Nat) : Rat := ms.foldl (fun m (x : Nat × Rat × Rat) =>
    if x.2.1 = 0 then m else
      let lim := if x.2.2 = 0 then s.rf p x.1 else min (s.rf P.TrjAccMax x.1) (s.rf P.TrjDecMax x.1) - x.2.2 * v * v
      min m (lim / x.2.1)) y
  ({ v := fix64 V, a := fix64 A, d := fix64 D, j := J }, { v := fix64 v, a := fix64 (free A P.TrjAccMax), d := fix64 (free D P.TrjDecMax), j := J })

/-- A part of the way of a path: its length, its limits, and the speed allowed at a joint at its end (none: as planned). -/
structure PPart where
  len : Int
  lim : Lim
  cap : Option Int

/-- The parts of an entry from a position in it on, with the joint at its end. -/
def State.peParts (s : State) (g : Nat) (t : Int) (e : PEntry) (p : Int) (cap : Option Int) : List PPart :=
  let n := e.parts t (fix64 (s.rf P.PgVelMax g))
  let fin (j : Nat) : Int := if j + 1 = n then e.len else e.len * ((j + 1 : Nat) : Int) / n
  let j0 := min (n - 1) (p * n / max 1 e.len).toNat
  ((List.range n).drop j0).map fun j =>
    { len := fin j - (if j = j0 then p else fin (j - 1)), lim := (s.peLim g e n j).2, cap := if j + 1 = n then cap else none }

/-- The highest speed at a joint (R235): none = as planned. -/
def State.pgJoint (s : State) (g : Nat) (e n : PEntry) : Option Int :=
  let mem := s.pgAxes g
  let d := mem.map fun x => ((e.at_ e.len x.1).d, (n.at_ 0 x.1).d)
  let dot := (d.map fun y => y.1 * y.2).sum
  let n1 := hypot (d.map (·.1))
  let n2 := hypot (d.map (·.2))
  -- cos 0.5°
  if cosTurn (1 / 720) * n1 * n2 ≤ dot then none
  else
    let m := d.foldl (fun z y => max z (absR (y.2 - y.1))) 0
    some (if m = 0 then 0 else fix64 (s.rf P.PgJointJump g / m))

/-- Entries of the section available, up to the lookahead. -/
def State.pgLook (s : State) (g : Nat) : List PEntry :=
  ((s.pgr g).sec.takeWhile fun e => decide (0 ≤ cycDiff e.avail s.time.cycle)).take (s.rd P.PgLookahead g)

/-- The parts of entries that follow one another, the last ending at standstill. -/
def State.pgParts (s : State) (g : Nat) (t : Int) : List PEntry → Int → List PPart
  | [], _ => []
  | [e], p => s.peParts g t e p none
  | e :: n :: r, p => s.peParts g t e p (s.pgJoint g e n) ++ s.pgParts g t (n :: r) 0

/-- The way after a part, in steps of length `t`: the speed allowed at its end, from which the parts after it can be kept, and their ways. -/
def wayOf (t : Int) (c : PPart) : List PPart → Int × List Leg
  | [] => (0, [])
  | n :: r =>
    let cap := min c.lim.v n.lim.v
    let (fin, more) := wayOf t n r
    let w := n.lim.enter t n.len fin (c.cap.elim cap (min cap))
    if w ≤ 0 then (0, []) else (w, { len := n.len, lim := n.lim, w := fin } :: more)

/-- The way from a position in the executing entry on. -/
def State.pgWay (s : State) (g : Nat) (t p : Int) (l : List PEntry) : List Leg :=
  match s.pgParts g t l p with
  | [] => []
  | c :: r => let (w, more) := wayOf t c r; { len := c.len, lim := c.lim, w := w } :: more

/-- The speed allowed at the end of the executing entry. -/
def State.pgAfter (s : State) (g : Nat) (t : Int) (e : PEntry) (l : List PEntry) : Int :=
  match s.pgParts g t (e :: l) e.len with
  | [] => 0
  | c :: r => (wayOf t c r).1

/-- Report a group. -/
def State.pgReport (s : State) (g : Nat) : State :=
  let r := s.pgr g
  let n := r.sec.length + r.spill.length
  let s := ((s.wrP P.PgPathPos g (out16 r.k.p)).wrP P.PgPathVel g (out16 r.k.v)).wr P.PgQueueFill g n
  let s := s.wr P.PgTag g (if r.exec_ then (match r.sec with | e :: _ => peTag e.bytes | [] => 0xFFFFFFFF) else 0xFFFFFFFF)
  let st := s.rd P.PgState g
  let st := setBit (setBit (setBit st pBOUND r.bound) pRUN (r.mode == .pos)) pPAUSED r.paused
  s.wr P.PgState g (setBit (setBit st pSTOPPING (r.mode == .stop)) pEMPTY (r.bound && n == 0))

/-- The executing entry ends. -/
def State.pgEntryEnd (s : State) (g : Nat) : State :=
  let r := s.pgr g
  match r.sec with
  | [] => s
  | e :: q =>
    let s := s.raiseIf (peEvent e.bytes) E.moveDone g (leBytes 4 (peTag e.bytes))
    let rest := pePoint e.bytes e.start 16
    let s := s.setPg g { r with sec := q, exec_ := decide (q ≠ []) && r.exec_, rest := rest, k := if q = [] then Kin.zero else { r.k with p := 0 } }
    if q = [] ∧ r.spill = [] then
      let r := s.pgr g
      let s := s.setPg g { r with mode := .idle, exec_ := false, k := Kin.zero, paused := r.paused && r.mode == .pos }
      if r.mode = .pos then s.raise E.queueEmpty g [] else s
    else s

/-- Joints and ends that the path position has reached: it counts from the start of the executing entry. -/
def State.pgPass (s : State) (g : Nat) (t : Int) : Nat → State
  | 0 => s
  | n + 1 =>
    let r := s.pgr g
    match s.pgLook g with
    | [] => s
    | e :: rest =>
      if r.k.p < e.len then s
      else if r.k.v = 0 ∧ r.k.a = 0 then s.pgEntryEnd g
      else if s.pgAfter g t e rest ≤ 0 then s
      else
        let s := s.pgEntryEnd g
        (s.setPg g { s.pgr g with k := { r.k with p := r.k.p - e.len } }).pgPass g t n

/-- A member limit binds in a state of the path: own limits `o`, those with the members' `L` (R235). -/
def bindsAt (o L : Lim) (k : Kin) : Bool :=
  (decide (L.v < o.v) && decide (L.v ≤ k.v + slack)) || (decide (L.a < o.a) && decide (0 < k.a ∧ L.a ≤ k.a + slack)) ||
    (decide (L.d < o.d) && decide (k.a < 0 ∧ L.d ≤ slack - k.a))

/-- One step of length `t` on the path (R235): joints may be passed within it. A stop whose first step would pass a joint ends at it (R238;
DEDUCED, notes/assumptions/109.md). -/
def State.pgRun (s : State) (g : Nat) (t : Int) : State :=
    let r := s.pgr g
    match s.pgLook g with
    | [] => s
    | e :: rest =>
      let n := e.parts t (fix64 (s.rf P.PgVelMax g))
      let (o, L) := s.peLim g e n (min (n - 1) (r.k.p * n / max 1 e.len).toNat)
      if r.mode = .stop then
        let L := { L with d := if r.quick then fix64 (s.rf P.PgStopDec g) else L.d, j := if r.quick then fix64 (s.rf P.PgStopJerk g) else L.j }
        let k := stepVel L t r.k 0
        let s := s.wrBit P.PgState g pLIMITED (bindsAt o L k)
        if k.p ≤ e.len then
          let still := decide (k.v = 0 ∧ k.a = 0)
          s.setPg g { r with k := k, mode := if still then .idle else .stop, stopNew := false }
        else if r.stopNew then s.setPg g { r with k := { p := e.len, v := 0, a := 0 }, mode := .idle, stopNew := false }
        else
          let s := (s.setPg g { r with k := { k with p := k.p - e.len } })
          let left := k.p - e.len
          let s := s.pgEntryEnd g
          let r' := s.pgr g
          s.setPg g { r' with k := if r'.sec = [] then Kin.zero else { k with p := left } }
      else
        let k := match s.pgWay g t r.k.p (e :: rest) with
          | [] => r.k
          | x :: more =>
            if x.w ≤ 0 then stepPos x.lim t r.k (r.k.p + x.len) else
              let f := stepAhead t (x :: more) { r.k with p := 0 }
              { f with p := f.p + r.k.p }
        ((s.wrBit P.PgState g pLIMITED (bindsAt o L k)).setPg g { r with k := k, exec_ := true }).pgPass g t 17

/-- The scale of a group's time base and its rate (R236). -/
def State.pgScale (s : State) (g : Nat) : Int × Int × Int :=
  let m := s.rd P.PgTimeBase g
  if m = 0xFF then (tNs s.cycleNs, two64, 0) else let r := s.vmr m; (r.dt, r.sg, r.sd)

/-- One cycle of a group. -/
def State.pgStep (s : State) (g : Nat) : State :=
  let r := s.pgr g
  if !r.bound then s else
  let (dt, _, _) := s.pgScale g
  let s := if r.mode = .idle then s else if dt ≤ 0 then s else s.pgRun g dt
  s.pgReport g

/-- Source state of member `i` (R235). -/
def State.pgSource (s : State) (g i : Nat) : Kin :=
  let r := s.pgr g
  let (_, sg, sd) := s.pgScale g
  match if r.exec_ then r.sec.head? else none with
  | none => { p := in16 (r.rest.getD i 0), v := 0, a := 0 }
  | some e =>
    let y := e.at_ r.k.p i
    let sc : Rat := mkRat sg 18446744073709551616
    let v := sc * mkRat r.k.v 18446744073709551616
    let a := sc * sc * mkRat r.k.a 18446744073709551616 + mkRat sd 18446744073709551616 * mkRat r.k.v 18446744073709551616
    { p := in16 (roundHE (y.x * 65536)), v := fix64 (y.d * v), a := fix64 (y.dd * v * v + y.d * a) }

/-- The group and member number of an axis. -/
def State.pgOf (s : State) (a : Nat) : Option (Nat × Nat) :=
  (List.range 16).findSome? fun g =>
    if (s.pgr g).bound then (((s.pgr g).members.zip (List.range 6)).find? fun x => x.1 == a).map fun x => (g, x.2) else none

/-- Stop a path along its geometry (R237). -/
def State.pgStop (s : State) (g : Nat) (quick : Bool) : State :=
  let r := s.pgr g
  if r.mode = .pos ∨ r.mode = .stop then
    let still := r.k.v = 0 ∧ r.k.a = 0
    let q := quick || (r.mode == .stop && r.quick)
    let new := r.stopNew || r.mode == .pos
    (s.setPg g { r with mode := if still then .idle else .stop, quick := q, paused := true, stopNew := new }).pgReport g
  else s

/-- A damaged block of the queue (R405): the spilled entries from number `keep` on are discarded and the queue pauses; what is appended
next starts where the last entry kept ends. -/
def State.pgDiscard (s : State) (g keep : Nat) : State :=
  let r := s.pgr g
  let l := r.spill.take keep
  let last := ((r.sec ++ l).getLast?).elim r.rest fun e => pePoint e.bytes e.start 16
  ((s.setPg g { r with spill := l, paused := true, last := last }).pgReport g).raise E.queueDataError g []

/-! ### Commands -/

/-- The axes of a group's members; empty members removed. -/
def State.pgList (s : State) (g : Nat) : List Nat := (s.pgAxes g).map (·.2)

/-- PATH_BIND (R232). A group that names no axis, an axis above 127 or an axis twice forms no path (0x0324). -/
def execPathBind (t : Nat) (q : Req) (s : State) : Res :=
  runReq 0x0709 t q s fun s =>
    let l := s.pgList q.inst
    s.commitReq q 0 [(decide (l = []) || hasDup l || l.any (fun a => decide (127 < a)), ⟨0x0324, 0, 0, 0⟩)]
      [(l.any s.coupled, ⟨0x0225, 0, 0, 0⟩), (l.any (fun a => s.tBit a tMOVING), ⟨0x0222, 0, 0, 0⟩),
       (l.any s.queueRuns, ⟨0x021F, 0, 0, 0⟩)]

/-- PathBind at S(c). -/
def State.pgBind (s : State) (g : Nat) : State :=
  let mem := s.pgAxes g
  let rest := (List.range 6).map fun i => (mem.find? fun x => x.1 == i).elim 0 fun x => (s.axis x.2).psp
  let axs := (List.range 6).map fun i => (mem.find? fun x => x.1 == i).elim 0xFF fun x => x.2
  let s := s.setPg g { PgRec.init with bound := true, members := axs, rest := rest, last := rest }
  (mem.foldl (fun s x => s.trjEngage x.2 2 { p := in16 (rest.getD x.1 0), v := 0, a := 0 }) s).pgReport g

/-- Append entries whose start points follow one another; none where one is invalid. -/
def State.pgEntries (s : State) (g avail : Nat) (b : List Byte) : Nat → Nat → List Int → Option (List PEntry × List Int)
  | 0, _, last => some ([], last)
  | n + 1, off, last =>
    let e := slice b off 160
    let tab := if peType e = 4 then bezierTable e last else []
    let len := if 1 ≤ peType e ∧ peType e ≤ 4 then peLen e last tab else 0
    if s.peBad g e last len then none else
      match s.pgEntries g avail b n (off + 160) (pePoint e last 16) with
      | none => none
      | some (l, z) => some ({ bytes := e, start := last, avail := avail, len := len, table := tab } :: l, z)

/-- PATH_APPEND (R233). On a group that is not bound no entry has a start point, so none is valid. -/
def execPathAppend (t : Nat) (q : Req) (s : State) : Res :=
  runReq 0x070A t q s fun s =>
    let g := q.inst
    let r := s.pgr g
    let n := fld q.body 0 1
    let c := s.nextTarget
    let es := s.pgEntries g c q.body n 4 r.last
    let lims := (List.range n).any fun i => ownBad [fld q.body (8 + 160 * i) 4, fld q.body (12 + 160 * i) 4] [s.rd P.PgVelMax g, s.rd P.PgAccMax g]
    guarded [(decide (q.body.length ≠ 4 + 160 * n), ⟨0x0303, 0, 0, 0⟩), (decide (n < 1 ∨ 8 < n), ⟨0x0304, 0, 0, 0⟩),
        (lims, ⟨0x0320, 0, 0, 0⟩), (es.isNone || !r.bound, ⟨0x0324, 0, 0, 0⟩),
        (decide (s.rd P.PgQueueDepth g < r.sec.length + r.spill.length + n), ⟨0x0404, 0, 0, 0⟩)] <|
      let (l, last) := es.getD ([], r.last)
      let all := r.sec ++ l
      let r := if r.spill = [] then { r with sec := all.take 16, spill := all.drop 16 } else { r with spill := r.spill ++ l }
      ((s.setPg g { r with last := last }).pgReport g).accept q c

/-- A group is not bound: what needs a bound group is refused as not coupled. -/
def State.pgUnbound (s : State) (g : Nat) : Bool × Rsn := (!(s.pgr g).bound && !s.hasCommit 0x0709 g, ⟨0x0226, 0, 0, 0⟩)

/-- PATH_START (R237). -/
def execPathStart (t : Nat) (q : Req) (s : State) : Res :=
  runReq 0x070B t q s fun s =>
    let bad := (s.pgList q.inst).any fun a => !s.axisRuns a || s.rd P.TrjChain a != 2
    s.commitReq q 0 [] [(bad, ⟨0x021E, 0, 0, 0⟩), s.pgUnbound q.inst]

/-- PathStart at S(c). -/
def State.pgStart (s : State) (g : Nat) : State :=
  let r := s.pgr g
  if !r.bound then s else (s.setPg g { r with mode := .pos, paused := false, quick := false, stopNew := false }).pgReport g

/-- PATH_STOP (R237). -/
def execPathStop (t : Nat) (q : Req) (s : State) : Res :=
  runReq 0x070C t q s fun s => s.commitReq q 4 [] [s.pgUnbound q.inst]

/-- PATH_RELEASE (R232). -/
def execPathRelease (t : Nat) (q : Req) (s : State) : Res :=
  runReq 0x070D t q s fun s =>
    let r := s.pgr q.inst
    s.commitReq q 0 [] [(r.mode != .idle || decide (r.k.v ≠ 0 ∨ r.k.a ≠ 0), ⟨0x0222, 0, 0, 0⟩), s.pgUnbound q.inst]

/-- PathRelease at S(c): the members stand on their generators. -/
def State.pgRelease (s : State) (g : Nat) : State :=
  let r := s.pgr g
  let s := (r.members.filter (· != 0xFF)).foldl (fun s a =>
    let c := (s.traj a).c
    let s := s.setTraj a { s.traj a with gen := { Gen.init with k := { c with v := 0, a := 0 }, target := out16 c.p, keep := (s.traj a).gen.keep } }
    ((s.wr P.TrjSource a 0).setTarget a (out16 c.p)).genFlags a) s
  (s.setPg g PgRec.init).pgReport g

end Sys2Proof.Machine
end

