-- ==== Sys2Proof/Machine/Moves.lean ====
section
/-!
DEFINITION. Moves, stops, homing and queue commands (chapter 07, R188 to R206), the trajectory section's work for a sample instant
(R207), and the write rules of chapters 07 and 08.
-/
namespace Sys2Proof.Machine

/-- Refusals of a motion command (R188). -/
def State.moveBad (s : State) (a : Nat) : List (Bool × Rsn) :=
  [(!s.axisRuns a, ⟨0x021E, 0, 0, 0⟩), (s.rd P.TrjSource a != 0, ⟨0x0220, 0, 0, 0⟩), (s.queueRuns a, ⟨0x021F, 0, 0, 0⟩)]

/-- The limits a move's own ones are held against (R184): for the stepper ramp, the smaller of its two rates. -/
def State.moveAx (s : State) (a : Nat) : List Nat :=
  if s.rd P.TrjProfile a = 1 then
    let lo (p r : Nat) : Nat := if s.rf p a < s.rf r a then s.rd p a else s.rd r a
    [s.rd P.TrjVelMax a, lo P.StpAcc1 P.StpAcc2, lo P.StpDec1 P.StpDec2, 0x7F7FFFFF]
  else s.axLims a

/-- A move's limits are invalid (0x0320, R184). -/
def State.limsBad (s : State) (a : Nat) (own : List Nat) : Bool := ownBad own (s.moveAx a)

/-- MOVE_ABS (R188). -/
def execMoveAbs (t : Nat) (q : Req) (s : State) : Res :=
  runReq 0x0601 t q s fun s =>
    let a := q.inst
    s.commitReq q 28 [(s.limsBad a (moveOwn q.body 8), ⟨0x0320, 0, 0, 0⟩), (s.beyond a (fldI q.body 0 8), ⟨0x0322, 0, 0, 0⟩)] (s.moveBad a)

/-- MOVE_REL (R188): the target is resolved against the generator target at acceptance. -/
def execMoveRel (t : Nat) (q : Req) (s : State) : Res :=
  runReq 0x0602 t q s fun s =>
    let a := q.inst
    let x := s.rp P.TrjTarget a + fldI q.body 0 8
    guarded ([(s.limsBad a (moveOwn q.body 8), ⟨0x0320, 0, 0, 0⟩), (s.beyond a x, ⟨0x0322, 0, 0, 0⟩), (s.late q.body 28, ⟨0x0211, 0, 0, 0⟩)] ++
      s.moveBad a) (s.accept { q with body := patch q.body 0 (leBytes 8 (uNat 64 x)) } (s.tgt q.body 28))

/-- MOVE_JOG (R187, R188). -/
def execMoveJog (t : Nat) (q : Req) (s : State) : Res :=
  runReq 0x0603 t q s fun s =>
    let a := q.inst
    s.commitReq q 16 [(!f32Finite (fld q.body 0 4), ⟨0x0304, 0, 0, 0⟩), (s.limsBad a (0 :: (moveOwn q.body 0).tail), ⟨0x0320, 0, 0, 0⟩)]
      (s.moveBad a)

/-- MOVE_STOP (R191). -/
def execMoveStop (t : Nat) (q : Req) (s : State) : Res :=
  runReq 0x0604 t q s fun s => s.commitReq q 4 [] [(!s.axisRuns q.inst, ⟨0x021E, 0, 0, 0⟩)]

/-- An armed latch unit uses a fast input on an edge. -/
def State.latchUses (s : State) (inp edge : Nat) : Bool :=
  (List.range 64).any fun u => (s.latch u).armed && s.rd P.LatSource u == 1 && s.rd P.LatInput u == inp && edgeTaken (s.rd P.LatEdge u) (edge == 1)

/-- MOVE_HOME (R193). -/
def execMoveHome (t : Nat) (q : Req) (s : State) : Res :=
  runReq 0x0605 t q s fun s =>
    let a := q.inst
    let m := s.rd P.HomeMethod a
    let bad := ((m == 1 || m == 3) && s.rd P.FbType a != 1) || ((m == 2 || m == 3) && s.latchUses (s.rd P.HomeInput a) (s.rd P.HomeEdge a))
    s.commitReq q 0 [(bad, ⟨0x0320, 0, 0, 0⟩)] (s.moveBad a)

/-- MOVE_TEST (R195). -/
def execMoveTest (t : Nat) (q : Req) (s : State) : Res :=
  runReq 0x0606 t q s fun s =>
    let a := q.inst
    let d := fld q.body 20 4
    s.commitReq q 40 [(!f32Finite d || decide (f32ToRat d < 0), ⟨0x0304, 0, 0, 0⟩), (s.limsBad a (moveOwn q.body 24), ⟨0x0320, 0, 0, 0⟩),
      (s.beyond a (fldI q.body 0 8) || s.beyond a (fldI q.body 8 8), ⟨0x0322, 0, 0, 0⟩)] (s.moveBad a)

/-- MOVE_RESUME (R192). -/
def execMoveResume (t : Nat) (q : Req) (s : State) : Res :=
  runReq 0x0607 t q s fun s =>
    let a := q.inst
    s.commitReq q 0 [] (s.moveBad a ++ [(!s.tBit a tRESUMABLE, ⟨0x0223, 0, 0, 0⟩), (s.rd P.MonVerdict a == 1, ⟨0x021E, 0, 0, 0⟩)])

/-- Targets of entries appended after `prev` lie beyond the monitor limits. -/
def State.entriesBeyond (s : State) (a : Nat) : Int → List QEntry → Bool
  | _, [] => false
  | prev, e :: r => let x := qTarget e prev; s.beyond a x || s.entriesBeyond a x r

/-- The target after all entries now held. -/
def State.queueEnd (s : State) (a : Nat) : Int :=
  let r := s.traj a
  let l := r.sec ++ r.spill
  if r.exec_ then l.tail.foldl (fun p e => qTarget e p) r.curT else l.foldl (fun p e => qTarget e p) (s.rp P.TrjTarget a)

/-- QUEUE_APPEND (R198, R199). -/
def execQueueAppend (t : Nat) (q : Req) (s : State) : Res :=
  runReq 0x0608 t q s fun s =>
    let a := q.inst
    let r := s.traj a
    let n := fld q.body 0 1
    let c := s.nextTarget
    let es : List QEntry := (List.range n).map fun i => { bytes := slice q.body (4 + 32 * i) 32, avail := c }
    let vb (e : QEntry) : Bool := !f32Finite (fld e.bytes 24 4) || decide (f32ToRat (fld e.bytes 24 4) < 0)
    guarded [(decide (q.body.length ≠ 4 + 32 * n), ⟨0x0303, 0, 0, 0⟩), (decide (n < 1 ∨ 16 < n) || es.any vb, ⟨0x0304, 0, 0, 0⟩),
        (es.any (fun e => s.limsBad a (qOwn e)), ⟨0x0320, 0, 0, 0⟩), (s.entriesBeyond a (s.queueEnd a) es, ⟨0x0322, 0, 0, 0⟩),
        (decide (s.rd P.TrjQueueDepth a < r.fill + n), ⟨0x0401, 0, 0, 0⟩)] <|
      let all := r.sec ++ (if r.spill = [] then es else [])
      let r := if r.spill = [] then { r with sec := all.take 16, spill := all.drop 16 } else { r with spill := r.spill ++ es }
      ((s.setTraj a r).queueReport a).accept q c

/-- QUEUE_START (R200). -/
def execQueueStart (t : Nat) (q : Req) (s : State) : Res := runReq 0x0609 t q s fun s => s.commitReq q 0 [] (s.moveBad q.inst)

/-- QUEUE_CLEAR (R203). -/
def execQueueClear (t : Nat) (q : Req) (s : State) : Res :=
  runReq 0x060A t q s fun s =>
    let a := q.inst
    guarded [(s.queueRuns a, ⟨0x021F, 0, 0, 0⟩)] <|
      let r := s.traj a
      let s := s.setTraj a { r with sec := [], spill := [], exec_ := false }
      let s := if r.res = none then s.tSet a tRESUMABLE false else s
      .ok 0 [] ((s.tSet a tQPAUSED false).queueReport a)

/-- A damaged block of the queue (R405): the spilled entries from number `keep` on are discarded and the queue pauses. The axis runs to the
last target held. -/
def State.queueDiscard (s : State) (a keep : Nat) : State :=
  let r := s.traj a
  let s := s.setTraj a { r with spill := r.spill.take keep }
  let s := if s.tBit a tQRUN then (s.tSet a tQRUN false).tSet a tQPAUSED true else s
  (s.queueReport a).raise E.queueDataError a []

/-- QUEUE_REFILL (R198, R405): spilled entries are read back; a damaged block discards them and every later entry, and pauses the
queue. Numbers from 128 on name path groups. -/
def execQueueRefill (t axis : Nat) (bad : Bool) (s : State) : Res :=
  onUnit t s (decide (axis < 144)) fun s =>
    if bitOf s.boot.offHalt 5 then s
    else if axis < 128 then
      let r := s.traj axis
      if r.spill = [] then s
      else if bad then s.queueDiscard axis 0
      else
        let k := 16 - r.sec.length
        (s.setTraj axis { r with sec := r.sec ++ r.spill.take k, spill := r.spill.drop k }).queueReport axis
    else
      let g := axis - 128
      let r := s.pgr g
      if r.spill = [] then s
      else if bad then s.pgDiscard g 0
      else
        let k := 16 - r.sec.length
        (s.setPg g { r with sec := r.sec ++ r.spill.take k, spill := r.spill.drop k }).pgReport g

/-- HOMING_FAILED (R194): no reference within HomeMaxDistance, a monitor limit reached, or the axis held. A limit counts as reached where the
generator holds at it, and where the monitor reports it. -/
def execHomingFailed (t axis : Nat) (s : State) : Res :=
  onUnit t s (decide (axis < 128)) fun s =>
    let r := s.traj axis
    let far := decide (r.hPhase ≤ 2) && decide (s.rf P.HomeMaxDistance axis * 65536 ≤ absR ((s.axPos axis - r.hStart : Int) : Rat))
    let st := s.rd P.FbState axis
    if r.task = .home ∧ 0 < r.hPhase ∧ (far || s.tBit axis tATLIMIT || bitOf st fbLIMPOS || bitOf st fbLIMNEG || !s.axisRuns axis) then
      s.homeFail axis
    else s

/-! ### Motion commits at S(c) (Table 7.2, R204) -/

/-- The generator is given something new to do: what it did ends, and so do the deferred values kept (R188, R189). In Chase, LIMITED clears at
capture only (R182). -/
def State.fresh (s : State) (a : Nat) : State :=
  let s := s.endTask a
  let r := s.traj a
  let s := ((s.setTraj a { r with res := none, gen := { r.gen with keep := noKeep } }).tSet a tRESUMABLE false).tSet a tDEFERRED false
  if s.rd P.TrjChain a = 1 then s else s.tSet a tLIMITED false

/-- Start a single move. -/
def State.startMove (s : State) (a : Nat) (x : Int) (own : List Nat) (tag : Nat) : State :=
  let s := s.fresh a
  let r := s.traj a
  -- at standstill on the target already: the set-point is the target (R204)
  let k := if r.gen.k.v = 0 ∧ r.gen.k.a = 0 ∧ out16 r.gen.k.p = x then { r.gen.k with p := in16 x } else r.gen.k
  let g := { r.gen with k := k, mode := .pos, target := x, own := own, quick := false }
  let s := (s.setTraj a { r with gen := g, task := .move, tag := tag }).setTarget a x
  let s := if g.there then s.moveDone a else s
  s.genFlags a

/-- Start or restart the queue at its oldest entry. -/
def State.startQueue (s : State) (a : Nat) : State :=
  let s := s.fresh a
  let r := s.traj a
  let s := s.setTraj a { r with task := .queue, exec_ := false, prev := out16 r.gen.k.p }
  ((((s.tSet a tQRUN true).tSet a tQPAUSED false).entryStart a (out16 r.gen.k.p) noKeep).queueReport a).genFlags a

/-- A stop takes an axis off its path group: the group stops along its geometry, the axis's generator takes over the set-point and stops it
(Table 7.2, R191, R237; DEDUCED, notes/assumptions/92.md). -/
def State.pgLeave (s : State) (a : Nat) (quick : Bool) : State :=
  match s.pgOf a with
  | none => s
  | some (g, i) =>
    let s := s.pgStop g quick
    let r := s.pgr g
    let s := (s.setPg g { r with members := r.members.set i 0xFF }).pgReport g
    (s.trjTakeOver a quick).raise E.disengagedByStop a []

/-- A stop of an axis, whatever its source (R191, Table 7.2). -/
def State.stopAxis (s : State) (a : Nat) (quick : Bool) : State :=
  match s.rd P.TrjSource a with
  | 0 => s.trjStop a quick
  | 1 => s.cplStop a quick
  | _ => s.pgLeave a quick

/-- A motion commit at S(c). -/
def State.moveApply (s : State) (q : Req) : State :=
  let a := q.inst
  let b := q.body
  let op := q.opcode
  if op = 0x0604 then
    let quick := bitOf (fld b 0 1) 0
    if !s.axisRuns a then s else s.stopAxis a quick
  else if !s.axisRuns a ∨ s.rd P.TrjSource a ≠ 0 then
    (s.tSet a tRESUMABLE (s.tBit a tRESUMABLE && op == 0x0607)).raise E.moveAborted a []
  else match op with
    | 0x0601 => s.startMove a (fldI b 0 8) (moveOwn b 8) (fld b 24 2)
    | 0x0602 => s.startMove a (fldI b 0 8) (moveOwn b 8) (fld b 24 2)
    | 0x0603 =>
      let s := s.fresh a
      let r := s.traj a
      let own := [0, fld b 4 4, fld b 8 4, fld b 12 4]
      let g := { r.gen with mode := .vel, vel := fix64 (f32ToRat (fld b 0 4)), own := own, quick := false }
      let s := (s.setTraj a { r with gen := g, task := .jog }).tSet a tJOG true
      (if s.jogCut a then s.tSet a tLIMITED true else s).genFlags a
    | 0x0605 =>
      let s := s.fresh a
      let r := s.traj a
      let d : Int := if s.rd P.HomeDirection a = 1 then 1 else -1
      let g := if s.rd P.HomeMethod a = 0 then (r.gen.stop false) else
        { r.gen with mode := .vel, vel := d * fix64 (s.rf P.HomeSpeed a), own := [0, 0, 0, 0], quick := false }
      let s := s.setTraj a { r with gen := g, task := .home, hPhase := 1, hEdge := none, hIdx := [], hStart := s.axPos a }
      ((s.tSet a tHOMING true).tSet a tHOMEFAIL false).genFlags a
    | 0x0606 =>
      let s := s.fresh a
      let r := s.traj a
      let pa := fldI b 0 8
      let g := { r.gen with mode := .pos, target := pa, own := moveOwn b 24, quick := false }
      let n := fld b 16 4
      let s := s.setTraj a { r with gen := g, task := .test, tPos := [pa, fldI b 8 8], tLeft := if n = 0 then 0 else n + 1, tAt := 0, tWait := none
                                    tDwell := (msTicks (f32ToRat (fld b 20 4))).toNat }
      (s.setTarget a pa).genFlags a
    | 0x0607 =>
      let r := s.traj a
      match r.res with
      | some (x, own, tag) => s.startMove a x own tag
      | none =>
        let s := (((s.fresh a).tSet a tQRUN true).tSet a tQPAUSED false)
        let r := s.traj a
        match (if r.exec_ then r.sec.head? else none) with
        | some e =>
          let g := { r.gen with mode := .pos, target := r.curT, own := qOwn e, quick := false }
          ((s.setTraj a { r with gen := g, task := .queue, prev := out16 r.gen.k.p }).setTarget a r.curT).genFlags a
        | none => s.startQueue a
    | 0x0609 => s.startQueue a
    | _ => s

/-! ### The trajectory section at a sample instant (R176, R207) -/

/-- Verdicts of the axis monitor that wait: quick stops (R191). -/
def State.monStops (s : State) (a : Nat) : State :=
  let r := s.axis a
  if !r.monStop then s else
    let s := s.setAxis a { r with monStop := false }
    if !s.axisRuns a then s else s.stopAxis a true

/-- The set-point of an axis for the present sample instant. -/
def State.axisSet (s : State) (a : Nat) : State :=
  if !s.trjOn a then s else
  match s.rd P.TrjSource a with
  | 0 =>
    let s := if s.rd P.TrjChain a = 0 then s else (s.taskStep a).genFlags a
    s.chainStep a (s.traj a).gen.k
  | 1 =>
    let (k, s) := s.cplStep a
    s.chainStep a k
  | _ => match s.pgOf a with
    | some (g, i) => s.chainStep a (s.pgSource g i)
    | none => s

/-- The set-points for the present sample instant, in the order of R207; the changes at a master position follow once they are formed. -/
def State.trjSample (s : State) : State :=
  let s := s.vmAdopt
  let s := s.lineDue
  let s := (List.range 128).foldl (fun s a => if (s.axis a).monStop then s.monStops a else s) s
  let s := (List.range 128).foldl (fun s a => if (s.cplr a).engaged then s.regStep a else s) s
  let s := (List.range 16).foldl State.pgStep s
  (List.range 128).foldl State.axisSet s

/-- After the commits: axes that do not run go to Track; a held member stops its path (R237). -/
def State.trjHolds (s : State) : State :=
  (List.range 128).foldl (fun s a =>
    if s.axisRuns a ∨ s.rd P.TrjChain a = 0 then s else
      let s := s.trjTrack a
      if s.rd P.TrjSource a = 2 then
        match s.pgOf a with
        | some (g, _) => s.pgStop g true
        | none => s
      else s) s

/-! ### Write rules (R189, R197, R205, R210, R213, R226, R239) -/

/-- The settings of R197 hold for an axis with given values. -/
def stepperOk (va vz vk vmax : Rat) (T : Nat) (P' : Rat) (isStep : Bool) : Bool :=
  decide (va ≤ vk) && decide (vk ≤ vmax) && decide (vz ≤ vk) && (isStep || (decide (va = 0) && decide (vz = 0))) &&
    (!isStep || decide (vmax * (T : Rat) / 1000000000 ≤ P' / 8))

/-- R197 with one value replaced. -/
def State.stepFits (s : State) (a idx v : Nat) (T : Nat) : Bool :=
  !s.breaks idx a v [P.StpStartSpeed, P.StpStopSpeed, P.StpCornerSpeed, P.TrjVelMax, P.LoopMode, P.FbType, P.FbCountsPerRev, P.MotPolePairs] fun x =>
    let f (p : Nat) : Rat := f32ToRat (x p)
    let P' : Rat := if x P.FbType = 0 then 1024 else mkRat (x P.FbCountsPerRev) (x P.MotPolePairs)
    !stepperOk (f P.StpStartSpeed) (f P.StpStopSpeed) (f P.StpCornerSpeed) (f P.TrjVelMax) T P' (x P.LoopMode == 4)

/-- Refusals of a write to a parameter of chapter 07. -/
def State.trjWriteBad (s : State) (idx a v : Nat) : List (Bool × Rsn) :=
  let busy := s.tBit a tMOVING || s.tBit a tHOMING || s.tBit a tQRUN
  [([P.StpStartSpeed, P.StpStopSpeed, P.StpCornerSpeed, P.TrjVelMax, P.LoopMode, P.FbType, P.FbCountsPerRev, P.MotPolePairs].contains idx &&
      decide (a < 128) && s.cycleLens.any (fun T => !s.stepFits a idx v T),
     ⟨0x0320, 0, 0, 0⟩),
   (decide (idx = P.SysCycleLength) && (List.range 128).any (fun b => !s.stepFits b 0 0 (31250 * 2 ^ v)), ⟨0x0320, 0, 0, 0⟩),
   (decide (idx = P.HomeSpeed) && s.breaks idx a v [P.HomeSpeed, P.TrjVelMax] (fun x => decide (f32ToRat (x P.TrjVelMax) < f32ToRat (x P.HomeSpeed))),
     ⟨0x0304, 0, 0, 0⟩),
   (decide (idx = P.HomeCreepSpeed) && s.breaks idx a v [P.HomeCreepSpeed, P.HomeSpeed]
       (fun x => decide (f32ToRat (x P.HomeSpeed) < f32ToRat (x P.HomeCreepSpeed))), ⟨0x0304, 0, 0, 0⟩),
   ((decide (idx = P.TrjProfile ∨ idx = P.TrjQueueDepth) || (decide (P.HomeMethod ≤ idx) && decide (idx ≤ P.HomeMaxDistance))) && busy,
     ⟨0x0222, 0, 0, 0⟩)]

/-- A master is in use (R210). -/
def State.vmUsed (s : State) (m : Nat) : Bool :=
  (List.range 128).any (fun a =>
    let r := s.cplr a
    (r.engaged && s.rd P.CplMaster a == m) || r.pend.elim false (fun p => p.master == m || (p.kind == 2 && fld p.req.body 1 1 == m))) ||
    s.cplStaged.any (fun a => s.rdShadow P.CplMaster a == m) ||
    s.par.commits.any (fun c => c.req.opcode == 0x0706 && fld c.req.body 1 1 == m) ||
    (List.range 16).any fun g => (s.pgr g).bound && s.rd P.PgTimeBase g == m

/-- Refusals of a write to a parameter of chapter 08. -/
def State.gearWriteBad (s : State) (idx i v : Nat) : List (Bool × Rsn) :=
  let sh (p : Nat) : Nat := if p = idx then v else s.rdShadow p i
  let srcBad := (decide (idx = P.VmSource) && v == 1 || decide (idx = P.VmSourceCode)) && decide (256 + i ≤ sh P.VmSourceCode)
  let cplBusy := (s.cplr i).engaged || (s.cplr i).pend.isSome || s.hasCommit 0x0706 i || s.hasCommit 0x0707 i || s.cplStaged.contains i
  [(decide (idx = P.VmSourceCode) && !srcCodeOk v, ⟨0x0304, 0, 0, 0⟩),
   (decide (idx = P.VmRatioNum ∧ v = 0), ⟨0x0304, 0, 0, 0⟩),
   (decide (idx = P.CplRegNominal ∨ idx = P.CplRegPeriod) && s.breaks idx i v [P.CplRegNominal, P.CplRegPeriod]
       (fun x => decide (sInt 64 (x P.CplRegPeriod) ≤ sInt 64 (x P.CplRegNominal))), ⟨0x0304, 0, 0, 0⟩),
   (decide (idx = P.LinePort) && v == s.rdShadow P.HostUdpPort 0, ⟨0x0304, 0, 0, 0⟩),
   (srcBad || (decide (idx = P.VmSource) && v == 2 && (List.range 16).any (fun m => m != i && (s.rdShadow P.VmSource m == 2 || s.rd P.VmSource m == 2))), ⟨0x0325, 0, 0, 0⟩),
   (decide (idx = P.VmRideThrough ∧ v = 1) && (s.rd P.VmSource i == 1 || s.rdShadow P.VmSource i == 1), ⟨0x0325, 0, 0, 0⟩),
   (decide (idx = P.LineLead ∨ idx = P.LineFramePeriod) && s.breaks idx i v [P.LineLead, P.LineFramePeriod]
       (fun x => decide (f32ToRat (x P.LineLead) < 3 * f32ToRat (x P.LineFramePeriod))), ⟨0x0325, 0, 0, 0⟩),
   ([P.VmSource, P.VmSourceCode, P.VmRatioNum, P.VmRatioDen].contains idx && s.vmUsed i, ⟨0x0224, 0, 0, 0⟩),
   (decide (P.CplKind ≤ idx ∧ idx ≤ P.CplDisengagePos) && cplBusy, ⟨0x0225, 0, 0, 0⟩),
   (decide (idx = P.PgAxes) && (s.pgr i).bound, ⟨0x0225, 0, 0, 0⟩),
   (decide (idx = P.LineEnable ∧ v = 1) && s.rd P.LineAddress 0 == 0, ⟨0x0229, 0, 0, 0⟩),
   (decide (P.LineFramePeriod ≤ idx ∧ idx ≤ P.LinePort) && s.rb P.LineEnable 0, ⟨0x0229, 0, 0, 0⟩)]

/-- The distance the generator of an axis needs to come to standstill. -/
def State.stopWay (s : State) (a : Nat) (g : Gen) : Int :=
  if s.rd P.TrjProfile a = 1 then (s.ramp a g).dist (g.k.v.natAbs : Int) else g.brakeDist (s.axLims a) (s.axStops a) (tNs s.cycleNs)

/-- The position a running motion is to stop at: its target or a monitor limit before it, also that of a jog (R190). -/
def State.stopsAt (s : State) (a : Nat) (g : Gen) : Option Int :=
  if g.mode = .vel ∧ g.vel ≠ 0 then s.monBound a (decide (0 < g.vel)) else if g.mode = .pos then some (s.clip a g.target) else none

/-- A limit parameter has changed at S(c): deferral of D, J and the stop values (R189), of StpDec1, StpDec2 and TrjStopDec for the stepper
ramp (R196). `old` is the value before. -/
def State.trjLimit (s : State) (idx a old : Nat) : State :=
  let r := s.traj a
  let g := r.gen
  let step := decide (s.rd P.TrjProfile a = 1)
  let used := if step then [P.StpDec1, P.StpDec2, P.TrjStopDec] else [P.TrjDecMax, P.TrjJerkMax, P.TrjStopDec, P.TrjStopJerk]
  let lowered := f32ToRat (s.rd idx a) < f32ToRat old
  if !used.contains idx ∨ !lowered ∨ s.rd P.TrjChain a = 0 ∨ r.moveAt = s.time.cycle + 1 then s else
  let i := (if idx = P.TrjDecMax ∨ idx = P.TrjStopDec ∨ idx = P.StpDec1 then 0 else 1) +
    if idx = P.TrjStopDec ∨ idx = P.TrjStopJerk then 2 else 0
  let (h, d) :=
    if r.task = .queue ∧ r.exec_ ∧ g.mode = .pos ∧ i < 2 then
      -- the queue's present targets are those of its way ahead (R202)
      let free := { g with keep := g.keep.set i 0 }
      if s.wayOk a free (dirOf 0 0 (r.curT - r.prev)) (s.queueWay a free free.keep noKeep) then (free, false)
      else ({ g with keep := g.keep.set i (g.kept i old) }, true)
    else match s.stopsAt a g with
      | some x => { g with mode := .pos }.lower (s.stopWay a) x i old
      | none => g.lower (s.stopWay a) 0 i old
  let s := s.setTraj a { r with gen := { g with keep := h.keep } }
  if d then (s.tSet a tDEFERRED true).raise E.parameterDeferred a []
  else if h.keep = noKeep then s.tSet a tDEFERRED false else s

/-- What a change of a parameter of chapters 05, 07 and 08 brings to the trajectory section once it is active. -/
def State.trjChanged (s : State) (idx i old : Nat) : State :=
  if [P.TrjDecMax, P.TrjJerkMax, P.TrjStopDec, P.TrjStopJerk, P.StpDec1, P.StpDec2].contains idx then s.trjLimit idx i old
  else if idx = P.LoopMode ∧ old = 2 ∧ s.rd P.LoopMode i = 3 then s.trjModeChange i
  else if idx = P.VmSource then s.vmSwitch i
  else if idx = P.VmSourceCode ∨ idx = P.VmRatioNum ∨ idx = P.VmRatioDen ∨ idx = P.VmSourceFilter then s.vmReform 16 i
  else if idx = P.LineEnable then s.lineSwitch
  else if idx = P.VmDecMax ∨ idx = P.VmJerkMax ∨ idx = P.VmStopDec ∨ idx = P.VmStopJerk then
    let r := s.vmr i
    if f32ToRat old ≤ f32ToRat (s.rd idx i) then s else
      let (g, _) := r.gen.lower (fun g => g.brakeDist (s.vmLims i) (s.vmStops i) (max 1 r.dt)) r.gen.target
        ((if idx = P.VmDecMax ∨ idx = P.VmStopDec then 0 else 1) + if idx = P.VmStopDec ∨ idx = P.VmStopJerk then 2 else 0) old
      s.setVm i { r with gen := g }
  else s

end Sys2Proof.Machine
end

