-- ==== Sys2Proof/Machine/FieldIo.lean ====
section
/-!
DEFINITION. Isolated field I/O (chapter 12): Ferry frames, the field side of a group, inputs, outputs, release.
-/
namespace Sys2Proof.Machine

/-- Bits of FerryState. -/
abbrev fyREADY : Nat := 0
abbrev fyLOCKED : Nat := 1
abbrev fySTALE : Nat := 2
abbrev fyLPLUSLOW : Nat := 3
abbrev fyHELDOFF : Nat := 4

/-- Replace bits `[lo + n - 1 : lo]` of a word. -/
def putBits (v lo n x : Nat) : Nat := v - bitsOf v (lo + n - 1) lo * 2 ^ lo + x % 2 ^ n * 2 ^ lo

/-- Field-side line time of a group, ns. -/
def State.fieldNow (s : State) (g : Nat) : Nat := (s.group g).lt + (s.time.tick - (s.group g).ltTick)

/-- Driver levels of a group: off while held off and while an overload is latched (R345, R350). -/
def FerryRec.drive (r : FerryRec) : Nat := if r.held then 0 else r.lvl - r.lvl.land r.ovl

/-- A group's new record; driver levels that change leave the device. FEED ends where the owner's level is on (R345). -/
def State.putGroup (s : State) (g : Nat) (r : FerryRec) : State :=
  let old := (s.group g).drive
  let was := (s.group g).lvl
  let off := (List.range 4).map fun i => if bitOf was i && !bitOf r.lvl i then s.time.tick else r.offAt.getD i 0
  let r := { r with feed := r.feed - r.feed.land r.lvl, offAt := off }
  (List.range 4).foldl (fun s i =>
    if bitOf old i == bitOf r.drive i then s else s.frame .level (4 * g + i) [if bitOf r.drive i then 1 else 0]) (s.setGroup g r)

/-- Report READY (end of Table 12.8). -/
def State.ferryReady (s : State) (g : Nat) : State :=
  let r := s.group g
  let st := s.rd P.FerryState g
  s.wrBit P.FerryState g fyREADY (bitOf st fyLOCKED && !bitOf st fySTALE && !bitOf st fyHELDOFF && decide (16 ≤ r.downOk) && decide (16 ≤ r.upOk))

/-- The average link delay (R348) as FDELAY carries it, whole ns. -/
def FerryRec.delay (r : FerryRec) : Nat := if r.delays = [] then 0 else (r.delays.sum + r.delays.length) / (2 * r.delays.length)

/-! ### Frames (R347, Tables 12.4 and 12.5) -/

def entryBytes (e : FEntry) : List Byte := leBytes 5 (e.out * 2 ^ 38 + (if e.level then 2 ^ 37 else 0) + e.at_ % 2 ^ 32)

/-- New filtered levels at a field-side line time; what stood 2 µs before is kept. -/
def FerryRec.setLevels (r : FerryRec) (now di li : Nat) : FerryRec :=
  let old := r.levels.dropWhile fun x => decide (now < x.1 + 2000)
  { r with di := di, li := li, levels := (now, di, li) :: (r.levels.takeWhile (fun x => decide (now < x.1 + 2000)) ++ old.take 1) }

/-- The filtered levels at a field-side line time (R337). -/
def FerryRec.levelsAt (r : FerryRec) (G : Nat) : Nat × Nat :=
  match r.levels.find? fun x => decide (x.1 ≤ G) with
  | some x => x.2
  | none => (0, 0)

/-- A down frame starts now: line time is at a whole microsecond whose frame has not started (R347). -/
def State.downDue (s : State) (g : Nat) : Bool :=
  decide (s.lineNs % 1000 ≤ 1) && (s.group g).lastG != some (s.lineNs / 1000 * 1000)

/-- FERRY_DOWN_FRAME: frame with settings, release and up to 4 entries; a second unanswered frame counts as missed. -/
def execFerryDownFrame (t group : Nat) (s : State) : Res :=
  onUnit t s (decide (group < 4)) fun s =>
    if bitOf s.boot.offHalt 7 || !s.downDue group then s else
    let r := s.group group
    let G := s.lineNs / 1000 * 1000
    let missed := decide (2 ≤ r.downs.length)
    let s := if missed then s.inc P.FerryMissed group else s
    let n := min 4 (min r.free r.wait.length)
    let es := r.wait.take n
    let c := r.cfg.headD (0, 0)
    let seq := (r.seq + 1) % 256
    let b := leBytes 1 seq ++ leBytes 1 (n * 32 + if r.release then 16 else 0) ++ leBytes 8 G ++ leBytes 2 r.delay ++ leBytes 1 c.1 ++
      leBytes 4 c.2 ++ [0] ++ padTo 20 (es.map entryBytes).flatten
    let b := b ++ leBytes 2 (crc16 b)
    let s := s.setGroup group { r with
      seq := seq, lastG := some G, wait := r.wait.drop n, cfg := r.cfg.tail, free := r.free - n, release := false
      downs := (if missed then r.downs.tail else r.downs) ++ [(seq, G, s.time.tick, n)], upOk := if missed then 0 else r.upOk }
    (s.frame .ferryDown group b).ferryReady group

/-- The line time an instant field stands for: less than 2^31 ns ahead of G. -/
def instant32 (G x : Nat) : Nat :=
  let d := (x + 2 ^ 32 - G % 2 ^ 32) % 2 ^ 32
  if d < 2 ^ 31 then G + d else G + d - 2 ^ 32

/-- Store an entry (R342, R343): late ones are applied on arrival. -/
def State.storeEntry (s : State) (g : Nat) (e : FEntry) : State :=
  let r := s.group g
  let now := s.fieldNow g
  let r := { r with pend := r.pend.filter fun x => !(x.out == e.out && decide (e.at_ ≤ x.at_)) }
  if now ≤ e.at_ then s.setGroup g { r with pend := r.pend ++ [e] }
  else if r.held then s.setGroup g r
  else ((s.putGroup g { r with lvl := setBit r.lvl e.out e.level }).inc P.FerryLate g).cmpLateEntry (4 * g + e.out) e.at_

/-- FERRY_DOWN_FRAME_RECEIVED (R343, R348, R350). -/
def execFerryDownFrameReceived (t group : Nat) (bytes : List Byte) (s : State) : Res :=
  onUnit t s (decide (group < 4)) fun s =>
    let r := s.group group
    if bytes.length ≠ 40 ∨ fld bytes 38 2 ≠ crc16 (bytes.take 38) then
      ((s.inc P.FerryCheckErrors group).setGroup group { r with downOk := 0, lockRun := 0 }).ferryReady group
    else
      let G := fld bytes 2 8
      let fd := fld bytes 10 2
      let want := G + fd + 640
      let now := s.fieldNow group
      let c : Int := (want : Int) - now
      let lt := if r.set0 then ((now : Int) + sat (-2) 2 c).toNat else want
      let near := r.set0 && decide (c.natAbs < 5)
      let run := if near then r.lockRun + 1 else 0
      let bad := if near then 0 else r.badRun + 1
      let locked := if r.locked then decide (bad < 4) else decide (64 ≤ run)
      let addr := fld bytes 12 1
      let rel := bitOf (fld bytes 1 1) 4
      let r := { r with
        lt := lt, ltTick := s.time.tick, set0 := true, locked := locked, lockRun := run, badRun := bad, lastDown := s.time.tick
        downOk := min 16 (r.downOk + 1), answer := if fd ≤ 300 ∧ now ≤ G + 1000 then some (fld bytes 0 1, G) else none
        set_ := if addr = 0 then r.set_ else tabSet r.set_ 0 addr (fld bytes 13 4 + 1) }
      -- an input whose check goes off reports no break (R340)
      let r := if addr = 13 then { r with diWire := r.diWire.land (fld bytes 13 4 % 256), liWire := r.liWire.land (fld bytes 13 4 / 256) } else r
      let r := if rel ∧ r.held then { r with held := false, pend := r.pend.filter fun x => decide (lt ≤ x.at_) } else r
      let s := s.putGroup group r
      let n := min 4 (fld bytes 1 1 / 32)
      let s := (List.range n).foldl (fun s i =>
        let x := fld bytes (18 + 5 * i) 5
        s.storeEntry group { out := bitsOf x 39 38, level := bitOf x 37, at_ := instant32 G (x % 2 ^ 32) }) s
      s.ferryReady group

/-- FERRY_UP_FRAME: the answer to a valid down frame, from G + 1,000 ns of field-side line time on, with the levels at G, flags and the oldest
edges up to G. -/
def execFerryUpFrame (t group : Nat) (s : State) : Res :=
  onUnit t s (decide (group < 4)) fun s =>
    let r := s.group group
    match r.answer with
    | none => s
    | some (seq, G) =>
      if s.fieldNow group < G + 1000 then s else
      let es := (r.edges.filter fun e => decide (e.stamp ≤ G)).take 8
      let st := (if r.low then 128 else 0) + (if r.held then 64 else 0) + (if r.locked then 32 else 0)
      let high := (if r.low then 0 else r.drive).lor r.feed
      let ed (e : FEdge) : List Byte := leBytes 4 ((if e.rising then 2 ^ 31 else 0) + e.inp * 2 ^ 29 + e.stamp % 2 ^ 29)
      let lv := r.levelsAt G
      let di := lv.1 - lv.1.land r.diWire
      let li := lv.2 - lv.2.land r.liWire
      let now := s.fieldNow group
      let b := leBytes 1 seq ++ leBytes 1 st ++ leBytes 1 di ++ leBytes 1 (high * 16 + li) ++ leBytes 1 r.diWire ++
        leBytes 1 (r.liWire * 16 + r.ovl) ++ leBytes 1 r.feed ++ leBytes 1 (32 - r.pend.length) ++ leBytes 2 (now - r.lt) ++
        leBytes 1 es.length ++ [0] ++ padTo 32 (es.map ed).flatten
      let b := b ++ leBytes 2 (crc16 b)
      (s.setGroup group { r with answer := none, edges := r.edges.filter fun e => !es.contains e }).frame .ferryUp group b

/-- The line time of a stamp field: at or before G. -/
def stamp29 (G x : Nat) : Nat := G - (G + 2 ^ 29 - x) % 2 ^ 29

/-- An edge record reaches the chip side: counts, latch units, homing (R338, R348). -/
def State.edgeIn (s : State) (inp stamp : Nat) (rising locked : Bool) : State :=
  if locked then
    (((s.inc P.LiEdges inp).wr P.LiLastEdge inp stamp).latEdge inp stamp rising).homeEdge inp stamp rising
  else s.inc P.LiLost inp

/-- At S(n) the levels of every frame received so far are those for S(n) (R349). -/
def State.levelsTake (s : State) : State :=
  (List.range 4).foldl (fun s g => s.setGroup g { s.group g with diS := bitsOf (s.rd P.DiState 0) (8 * g + 7) (8 * g) }) s

/-- FERRY_UP_FRAME_RECEIVED (R347 to R350). -/
def execFerryUpFrameReceived (t group : Nat) (bytes : List Byte) (s : State) : Res :=
  onUnit t s (decide (group < 4)) fun s =>
    let r := s.group group
    if bytes.length ≠ 46 ∨ fld bytes 44 2 ≠ crc16 (bytes.take 44) then
      (((s.inc P.FerryCheckErrors group).inc P.FerryMissed group).setGroup group { r with upOk := 0, downs := r.downs.tail }).ferryReady group
    else
      match r.downs.find? fun d => d.1 == fld bytes 0 1 with
      | none => s
      | some (_, G, tk, _) =>
        -- the answer's first bit lies 46 bytes before its last
        let d := s.time.tick - 736 - tk - 640 - fld bytes 8 2
        let ds := (d :: r.delays).take 64
        let later := r.downs.filter fun x => decide (G < x.2.1)
        -- entries sent after the answered frame are not yet counted in FREE
        let free := fld bytes 7 1 % 64 - (later.map (·.2.2.2)).sum
        let r := { r with
          downs := later, delays := ds, free := free, upOk := min 16 (r.upOk + 1), upG := G
          upTick := s.time.tick, opened := r.opened || !bitOf (fld bytes 1 1) 6
          diS := if G ≤ s.time.lastS then fld bytes 2 1 else r.diS }
        let s := (s.setGroup group r).wrF P.FerryDelay group (mkRat ds.sum (2 * ds.length))
        let st := fld bytes 1 1
        let held := bitOf (s.rd P.FerryState group) fyHELDOFF
        let s := s.wr P.DiState 0 (putBits (s.rd P.DiState 0) (8 * group) 8 (fld bytes 2 1))
        let s := s.wr P.LiState 0 (putBits (s.rd P.LiState 0) (4 * group) 4 (fld bytes 3 1))
        let s := s.wr P.DqState 0 (putBits (s.rd P.DqState 0) (4 * group) 4 (fld bytes 3 1 / 16))
        let s := s.wr P.DiWireState 0 (putBits (s.rd P.DiWireState 0) (8 * group) 8 (fld bytes 4 1))
        let s := s.wr P.LiWireState 0 (putBits (s.rd P.LiWireState 0) (4 * group) 4 (fld bytes 5 1 / 16))
        let s := (List.range 4).foldl (fun s i =>
          (s.wrBit P.DqDiag (4 * group + i) 1 (bitOf (fld bytes 5 1) i)).wrBit P.DqDiag (4 * group + i) 2 (bitOf (fld bytes 6 1) i)) s
        let fs := setBit (setBit (setBit (setBit (s.rd P.FerryState group) fySTALE false) fyLPLUSLOW (bitOf st 7)) fyHELDOFF (bitOf st 6))
          fyLOCKED (bitOf st 5)
        let s := (s.wr P.FerryState group fs).raiseIf (bitOf st 6 && !held) E.fieldOutputsHeldOff group []
        let s := (List.range (min 8 (fld bytes 10 1 % 16))).foldl (fun s i =>
          let x := fld bytes (12 + 4 * i) 4
          s.edgeIn (4 * group + bitsOf x 30 29) (stamp29 G (x % 2 ^ 29)) (bitOf x 31) (bitOf st 5)) s
        s.ferryReady group

/-- FERRY_STALE (R349). -/
def execFerryStale (t group : Nat) (s : State) : Res :=
  onUnit t s (decide (group < 4)) fun s =>
    let lim := roundHE (s.rf P.FerryStaleTime group * 1000)
    if bitOf (s.rd P.FerryState group) fySTALE ∨ (s.time.tick : Int) - (s.group group).upTick < lim then s
    else (((s.wrBit P.FerryState group fySTALE true).setGroup group { s.group group with upOk := 0 }).ferryReady group).raise E.fieldDataStale group []

/-- A field-side setting in units of 10 ns: the last one received, else the value after reset. -/
def FerryRec.setting (r : FerryRec) (addr dflt : Nat) : Nat := match tabGet r.set_ 0 addr with
  | 0 => dflt
  | n + 1 => n

/-- FERRY_WATCHDOG (R350). -/
def execFerryWatchdog (t group : Nat) (s : State) : Res :=
  onUnit t s (decide (group < 4)) fun s =>
    let r := s.group group
    if s.time.tick - r.lastDown < 10 * r.setting 14 10000 then s
    else s.putGroup group { r with held := true, pend := [], lvl := 0, downOk := 0 }

/-- FIELD_ENTRY_APPLY (R342): the entries whose instant has come. -/
def execFieldEntryApply (t group : Nat) (s : State) : Res :=
  onUnit t s (decide (group < 4)) fun s =>
    let r := s.group group
    let now := s.fieldNow group
    let due := r.pend.filter fun e => decide (e.at_ ≤ now)
    let ts := sortNat (due.map (·.at_))
    let lvl := ts.foldl (fun l x => due.foldl (fun l e => if e.at_ = x then setBit l e.out e.level else l) l) r.lvl
    (s.putGroup group { r with pend := r.pend.filter (fun e => decide (now < e.at_)), lvl := if r.held then r.lvl else lvl }).cmpDueAll

/-! ### Inputs -/

/-- FAST_INPUT_EDGE (R338, R339). -/
def execFastInputEdge (t input : Nat) (rising : Bool) (s : State) : Res :=
  onUnit t s (decide (input < 16)) fun s =>
    let g := input / 4
    let r := s.group g
    let stamp := s.fieldNow g - 10 * r.setting (9 + input % 4) 20
    let r := r.setLevels (s.fieldNow g) r.di (setBit r.li (input % 4) rising)
    if 64 ≤ r.edges.length then ((s.setGroup g r).inc P.LiLost input).raise E.fastInputEdgesLost input []
    else s.setGroup g { r with edges := r.edges ++ [{ stamp := stamp, inp := input % 4, rising := rising }] }

/-- INPUT_FILTER_EXPIRY (R337): 0 to 31 standard inputs, 32 to 47 fast inputs; the level counts once it has been stable for the filter time
that the field side holds. -/
def execInputFilterExpiry (t input : Nat) (x : InputLevel) (s : State) : Res :=
  onUnit t s (decide (input < 48)) fun s =>
    if input < 32 then
      let r := s.group (input / 8)
      if s.time.tick < x.since + 10 * r.setting (1 + input % 8) 300000 then s
      else s.setGroup (input / 8) (r.setLevels (s.fieldNow (input / 8)) (setBit r.di (input % 8) x.level) r.li)
    else
      let i := input - 32
      let r := s.group (i / 4)
      if s.time.tick < x.since + 10 * r.setting (9 + i % 4) 20 then s
      else s.setGroup (i / 4) (r.setLevels (s.fieldNow (i / 4)) r.di (setBit r.li (i % 4) x.level))

/-- INPUT_WIRE_BREAK (R340): 0 to 31 standard inputs, 32 to 47 fast inputs; the check must be on. -/
def execInputWireBreak (t input : Nat) (broken : Bool) (s : State) : Res :=
  onUnit t s (decide (input < 48)) fun s =>
    let g := if input < 32 then input / 8 else (input - 32) / 4
    let r := s.group g
    let k := if input < 32 then input % 8 else 8 + (input - 32) % 4
    let on := bitOf (r.setting 13 0) k
    let was := if input < 32 then bitOf r.diWire (input % 8) else bitOf r.liWire ((input - 32) % 4)
    let b := broken && on
    let r := if input < 32 then { r with diWire := setBit r.diWire (input % 8) b } else { r with liWire := setBit r.liWire ((input - 32) % 4) b }
    (s.setGroup g r).raiseIf (b && !was) E.inputWireBreak input []

/-! ### Outputs -/

/-- OUTPUT_OVERLOAD (R345). -/
def execOutputOverload (t out : Nat) (s : State) : Res :=
  onUnit t s (decide (out < 16)) fun s =>
    let r := s.group (out / 4)
    if bitOf r.ovl (out % 4) then s else
      ((s.putGroup (out / 4) { r with ovl := setBit r.ovl (out % 4) true }).inc P.DqOverloads out).raise E.outputOverload out []

/-- OUTPUT_OVERLOAD_CLEAR (R345): the driver has cooled, and the owner's level has been off for 10 ms. -/
def execOutputOverloadClear (t out : Nat) (s : State) : Res :=
  onUnit t s (decide (out < 16)) fun s =>
    let r := s.group (out / 4)
    if bitOf r.lvl (out % 4) || decide (s.time.tick < r.offAt.getD (out % 4) 0 + 10000000) then s else s.putGroup (out / 4) { r with ovl := setBit r.ovl (out % 4) false }

/-- OUTPUT_FED_BACK (R345). -/
def execOutputFedBack (t out : Nat) (high : Bool) (s : State) : Res :=
  onUnit t s (decide (out < 16)) fun s =>
    let r := s.group (out / 4)
    let b := high && !bitOf r.lvl (out % 4)
    (s.setGroup (out / 4) { r with feed := setBit r.feed (out % 4) b }).raiseIf (b && !bitOf r.feed (out % 4)) E.outputFedBack out []

/-- FIELD_SUPPLY_LOW (R346). -/
def execFieldSupplyLow (t group : Nat) (s : State) : Res :=
  onUnit t s (decide (group < 4)) fun s =>
    let r := s.group group
    (s.setGroup group { r with low := true }).raiseIf (!r.low) E.fieldSupplyLow group []

/-- FIELD_SUPPLY_RESTORED (R346). -/
def execFieldSupplyRestored (t group : Nat) (s : State) : Res :=
  onUnit t s (decide (group < 4)) fun s => s.setGroup group { s.group group with low := false }

/-! ### Commands -/

/-- IO_SNAPSHOT (R354). -/
def execIoSnapshot (t : Nat) (q : Req) (s : State) : Res :=
  runReq 0x0A01 t q s fun s =>
    .ok 0 (leBytes 4 (s.rd P.DiState 0) ++ leBytes 4 (s.rd P.LiState 0) ++ leBytes 4 (s.rd P.DqState 0) ++
      ((List.range 4).flatMap fun g => leBytes 4 (s.rd P.FerryState g)) ++ ((List.range 4).flatMap fun g => leBytes 8 (s.group g).upG)) s

/-- A group may be released (R351). -/
def State.settled (s : State) (g : Nat) : Bool :=
  bitOf (s.rd P.FerryState g) fyLOCKED && !bitOf (s.rd P.FerryState g) fySTALE && decide (16 ≤ (s.group g).downOk) && decide (16 ≤ (s.group g).upOk)

/-- DQ_RELEASE (R351). -/
def execDqRelease (t : Nat) (q : Req) (s : State) : Res :=
  runReq 0x0A03 t q s fun s =>
    s.commitReq q 4 [] [((bitList 4 (fld q.body 0 1)).any (fun g => !s.settled g), ⟨0x0231, 0, 0, 0⟩)]

/-- DqRelease at S(c): RELEASE with one entry per output. -/
def State.dqReleaseApply (s : State) (q : Req) : State :=
  (bitList 4 (fld q.body 0 1)).foldl (fun s g =>
    let r := s.group g
    let x := s.time.lastS + 3000
    let es := (List.range 4).map fun i => ({ out := i, level := s.dqLevel (4 * g + i) x, at_ := x } : FEntry)
    s.setGroup g { r with release := true, wait := es ++ r.wait, line := es.map fun e => lineAdd (r.line.getD e.out []) e.at_ e.level }) s

/-! ### Write rules (R341, R353) -/

/-- Parameters whose value outside its range is refused with 0x032B (R353). -/
def fieldRange (idx : Nat) : Bool := [P.DiFilter, P.DiWireCheck, P.LiFilter, P.LiWireCheck, P.FerryWatchdog].contains idx

/-- Refusals of a write to a parameter of Table 12.8. -/
def State.fieldWriteBad (s : State) (idx i : Nat) : List (Bool × Rsn) :=
  [(decide (idx = P.DqCommand) && s.dqOwner i == 1, ⟨0x021A, 0, 0, 0⟩), (decide (idx = P.DqCommand) && s.dqOwner i == 2, ⟨0x022D, 0, 0, 0⟩)]

/-- A setting goes out in a down frame. -/
def State.sendCfg (s : State) (g addr v : Nat) : State :=
  let r := s.group g
  s.setGroup g { r with cfg := r.cfg.filter (fun x => x.1 != addr) ++ [(addr, v)] }

/-- The wire-check mask of a group: standard inputs [7:0], fast inputs [11:8]. -/
def State.wireMask (s : State) (g : Nat) : Nat :=
  ((List.range 8).map fun i => if s.rb P.DiWireCheck (8 * g + i) then 2 ^ i else 0).sum +
    ((List.range 4).map fun i => if s.rb P.LiWireCheck (4 * g + i) then 2 ^ (8 + i) else 0).sum

/-- What a change of a parameter of Table 12.8 brings at S(c) (R342, R353). -/
def State.fieldChanged (s : State) (idx i : Nat) : State :=
  if idx = P.DqCommand then s.pushLine (2 ^ i) (s.time.lastS + 3000)
  else if idx = P.DiFilter then s.sendCfg (i / 8) (1 + i % 8) (s.rf P.DiFilter i * 100000).ceil.toNat
  else if idx = P.LiFilter then s.sendCfg (i / 4) (9 + i % 4) (s.rf P.LiFilter i / 10).ceil.toNat
  else if idx = P.DiWireCheck then s.sendCfg (i / 8) 13 (s.wireMask (i / 8))
  else if idx = P.LiWireCheck then s.sendCfg (i / 4) 13 (s.wireMask (i / 4))
  else if idx = P.FerryWatchdog then s.sendCfg i 14 (s.rf P.FerryWatchdog i * 100).ceil.toNat
  else s

end Sys2Proof.Machine
end

