-- ==== Sys2Proof/Machine/FrontEnd.lean ====
section
/-!
DEFINITION. Mains front end and DC bus (chapter 10): sigma-delta inputs, grid monitor, loops, start and stop, chopper, ride-through,
faults.
-/
namespace Sys2Proof.Machine

def State.setFe (s : State) (r : FeRec) : State := { s with fe := r }

/-- Bits of FeFlags. -/
abbrev feLOCKED : Nat := 0
abbrev feDIP : Nat := 1
abbrev feINTERRUPT : Nat := 2
abbrev fePHASELOSS : Nat := 3
abbrev feUNBAL : Nat := 4
abbrev feCURLIM : Nat := 5
abbrev feCHOPPER : Nat := 6
abbrev feBRAKEOVL : Nat := 7
abbrev feRECOVER : Nat := 8
abbrev feRESERVE : Nat := 9
abbrev feEXHAUSTED : Nat := 10

def State.feFlag (s : State) (k : Nat) : Bool := bitOf (s.rd P.FeFlags 0) k
def State.feBit (s : State) (k : Nat) (b : Bool) : State := s.wrBit P.FeFlags 0 k b
def State.feState (s : State) : Nat := s.rd P.FeState 0

/-- An event of the section: line time and FeFlags (R304), then what the event names. -/
def State.feRaise (s : State) (code inst : Nat) (more : List Byte) : State :=
  s.raise code inst (stampBytes s.lineNs s.lineFrac ++ leBytes 4 (s.rd P.FeFlags 0) ++ more)

/-! ### Pairs, outputs and load-all -/

/-- A local pair has a role (R278): GpMode 1 only. -/
def State.feRole (s : State) (n : Nat) : Nat := if s.rd P.GpMode (128 + n) = 1 then s.rd P.FePairRole (128 + n) else 0

def State.rolePairs (s : State) (r : Nat) : List Nat := (List.range 12).filter fun n => s.feRole n == r

/-- The pairs of a role by the GpMode that governs the records of the present samples (R256), in mode 1, or in mode 1 or 2. -/
def State.dutyPairs (s : State) (r : Nat) : List Nat :=
  (List.range 12).filter fun n => s.modVal P.GpMode (128 + n) == 1 && s.rd P.FePairRole (128 + n) == r
def State.currentPairs (s : State) (r : Nat) : List Nat :=
  (List.range 12).filter fun n => s.modVal P.GpMode (128 + n) != 0 && s.rd P.FePairRole (128 + n) == r

def State.bridgePairs (s : State) : List Nat := (List.range 12).filter fun n => decide (1 ≤ s.feRole n ∧ s.feRole n ≤ 3)

/-- A standard input's level for the present sample, as the front end reads it (R349); none named reads open. -/
def State.diLevel (s : State) (i : Nat) : Bool := decide (i < 32) && bitOf (s.group (i / 8)).diS (i % 8)

/-- Drive a contactor output: an entry at S(n) + 3,000 ns (R342). Answers whether it changed. -/
def State.feOutput (s : State) (p : Nat) (on : Bool) : Bool × State :=
  let o := s.rd p 0
  if 16 ≤ o ∨ bitOf s.dqFe o = on then (false, s)
  else (true, { s.entry o on (s.time.lastS + 3000) with dqFe := setBit s.dqFe o on })

/-- Both contactor outputs go off; their feedbacks are expected to follow. -/
def State.feOpen (s : State) : State :=
  let (a, s) := s.feOutput P.FePreOutput false
  let (b, s) := s.feOutput P.FeMainOutput false
  s.setFe { s.fe with preWait := s.fe.preWait || a, mainWait := s.fe.mainWait || b }

/-- The sender of the section's own load-all: no completion event leaves. -/
def Req.own : Req :=
  { dest := ⟨.usb, 0⟩, arrival := 0, gen := 2, more := false, noEvent := true, flow := 0, seq := 0, opcode := 0x0801, inst := 0,
    timeout := 0, crc := 0, body := [] }

/-- FeStart's load-all of the bridge group (R291). -/
def State.feLoadAll (s : State) : State :=
  match s.bridgePairs with
  | [] => s
  | n :: _ =>
    let g := s.rd P.ModLoadGroup (128 + n)
    let c := if s.loadInTime then s.time.cycle else (s.time.cycle + 1) % 2 ^ 32
    (s.setMod { s.mod with loads := s.mod.loads ++ [{ groups := 2 ^ g, cycle := c, tick := s.time.tick, id := 0, req := Req.own }] }).wr
      P.ModLoadAllState g 1

/-- No front-end duty to the bridge pairs: KIND OFF from the next reload. -/
def State.bridgeOff (s : State) : State :=
  (List.range 12).foldl (fun s n => if s.rd P.FePairRole (128 + n) = 4 then s else s.setGp n { s.gp n with duty := none }) s

/-! ### Faults (R301) -/

/-- The completion of the FeStart that waits (R371). -/
def State.feEndStart (s : State) (status : Nat) : State :=
  match s.fe.start with
  | none => s
  | some q => (s.setFe { s.fe with start := none }).complete q 0 s.time.cycle status 0 0 (s.rd P.FeFaultCause 0)

/-- FRONT_END_FAULT (R301). The first cause stands until it is cleared. -/
def State.feFault (s : State) (cause : Nat) : State :=
  if s.feState = 7 then s else
    let s := (s.wr P.FeFaultCause 0 cause).bridgeOff.feOpen
    let s := (s.wr P.FeState 0 7).wrF P.FeRideDemand 0 0
    let s := s.setFe { s.fe with all_ := true, step := 0, bridge := false }
    let s := ((s.feBit feRECOVER false).feRaise E.frontEndFault 0 (leBytes 4 cause)).feEndStart 0x0503
    (s.fe.stops.foldl (fun s q => s.complete q 0 s.time.cycle 0x0503 0 0 cause) (s.setFe { s.fe with stops := [] })).vmRefresh

/-- A cause is present (R302). -/
def State.fePresent (s : State) (cause : Nat) : Bool :=
  match cause with
  | 1 => s.bridgePairs.any fun n => (s.rd P.GpTripState (128 + n)).land 12 != 0
  | 2 => decide (s.rf P.FeBusMax 0 < ofState s.fe.bus)
  | 4 => (List.range 12).any fun i => s.rb P.FeSdFunction i && bitOf (s.rd P.FeSdState i) 1
  | 5 => s.fe.preFb || s.fe.mainFb
  | 7 => s.fe.f == toState 45 || s.fe.f == toState 65
  | 8 => s.feFlag fePHASELOSS
  | _ => false

/-- A trip input whose filtered level is active trips where it is enabled; a latched trip on a bridge pair is a front-end fault. -/
def State.tripNow (s : State) (pair input : Nat) : State :=
  let (latched, s) := s.tripLatch pair input ((s.gp pair).since.getD input 0)
  if latched ∧ 1 ≤ s.feRole pair ∧ s.feRole pair ≤ 3 then s.feFault 1 else s

/-- Inputs already active trip once GpTripEnable names them (R258). -/
def State.tripsNow (s : State) : State :=
  (List.range 12).foldl (fun s n => (bitList 2 (s.rd P.GpTripState (128 + n))).foldl (fun s k => s.tripNow n k) s) s

/-- An input whose level has been active since a line time (R13 as a number) has been so for the filter time: in units of 2^-24 ns. -/
def State.tripDue (s : State) (pair edge : Nat) : Bool :=
  decide (((edge % 2 ^ 64 * 2 ^ 24 + edge / 2 ^ 64 * 2 ^ 8 : Nat) : Rat) + s.rf P.GpTripFilter (128 + pair) * 2 ^ 24 ≤ (s.time.lt : Rat))

/-- GATE_TRIP (R258 to R260): an input has been active since `edge`. Before its filter time has passed, nothing happens. -/
def execGateTrip (t pair input edge : Nat) (s : State) : Res :=
  onUnit t s (decide (pair < 12 ∧ input < 2)) fun s =>
    if !s.tripDue pair edge then s else
    let s := s.setGp pair { s.gp pair with since := (s.gp pair).since.set input edge }
    (s.wrBit P.GpTripState (128 + pair) input true).tripNow pair input

/-- LOAD_ALL_RELOAD. -/
def execLoadAllReload (t : Nat) (s : State) : Res := onEvent t s fun s => s.loadAllReload.tripsNow

/-- SIGMA_DELTA_FAULT (R282). -/
def execSigmaDeltaFault (t input : Nat) (s : State) : Res :=
  onUnit t s (decide (input < 12)) fun s =>
    if bitOf (s.rd P.FeSdState input) 1 then s else
      let s := (s.wr P.FeSdState input 2).feRaise E.sigmaDeltaInputFault input []
      if s.rb P.FeSdFunction input then s.feFault 4 else s

/-- SIGMA_DELTA_STREAM_RESUMED (R282). -/
def execSigmaDeltaStreamResumed (t input : Nat) (s : State) : Res :=
  onUnit t s (decide (input < 12)) fun s => s.wrBit P.FeSdState input 1 false

/-! ### Sigma-delta results (R280, R281) -/

/-- Group delay τ_sd in seconds. -/
def tauSd (clk : Rat) (m : Nat) : Rat := if clk = 0 then 0 else (3 * (m : Rat) - 3) / (2 * clk * 1000000)

def State.tauSd (s : State) : Rat := Machine.tauSd (s.rf P.FeSdClock 0) (s.rd P.FeSdDecimation 0)

/-- Pairs out of `n` things. -/
def pairsOf (n : Nat) : Nat := n * (n - 1) / 2

/-- Weight of bit `k` of a sinc³ window with decimation `m`: coefficient k of (1 + x + … + x^(m-1))³. -/
def sincWeight (m k : Nat) : Nat := pairsOf (k + 2) + 3 * pairsOf (k + 2 - 2 * m) - 3 * pairsOf (k + 2 - m)

/-- The ones density of a complete window of 3m − 2 bits, newest first: the sinc³ result divided by m³ (R280). -/
def onesDensity (m : Nat) (bits : List Bool) : Rat :=
  let w := ((List.range (3 * m - 2)).map fun k => if bits.getD k false then sincWeight m k else 0).sum
  mkRat w (m * m * m)

/-- The value of an input with a ones density (R280). -/
def State.sdScaled (s : State) (i : Nat) (rho : Rat) : Rat := s.rf P.FeSdScale i * (2 * rho - 1) + s.rf P.FeSdOffset i

/-- The results for S(n) from the bits taken at or before it, newest first: the last 3M − 2 of them (R280). An input
of which so many bits have not been taken yet forms none (DEDUCED, notes/assumptions/94.md). -/
def State.sdTake (s : State) (sd : List (List Bool)) : State :=
  let m := s.rd P.FeSdDecimation 0
  (List.range 12).foldl (fun s i =>
    let bits := sd.getD i []
    if bits.length < 3 * m - 2 then s else
      (s.wrF P.FeSdValue i (s.sdScaled i (onesDensity m bits))).wrBit P.FeSdState i 0 true) s

/-- The input with a function. -/
def State.sdInput (s : State) (f : Nat) : Option Nat := (List.range 12).find? fun i => s.rd P.FeSdFunction i == f

/-- The value of a function; 0 where no input has it. -/
def State.sdVal (s : State) (f : Nat) : Rat :=
  match s.sdInput f with
  | some i => s.rf P.FeSdValue i
  | none => 0

/-- Leg currents (R281): without function 5, ic = -ia - ib. -/
def State.legCurrent (s : State) (leg : Nat) : Rat :=
  if leg = 3 ∧ s.sdInput 5 = none then -(s.sdVal 3) - s.sdVal 4 else s.sdVal (2 + leg)

/-- The current of a local pair for dead-time compensation (R267, R288): its role's current shared by the pairs of the role that run. -/
def State.feCurrent (s : State) (n : Nat) : Rat :=
  let r := s.rd P.FePairRole (128 + n)
  let k := (s.currentPairs r).length
  if r = 0 ∨ !(s.currentPairs r).contains n then 0 else (if r = 4 then s.sdVal 7 else s.legCurrent r) / k

/-! ### Grid monitor (R284, R285) -/

/-- Û_nom. -/
def State.uNom (s : State) : Rat := sqrtR 2 * s.rf P.FeMainsNominal 0 / sqrtR 3

def turns (x : Int) : Rat := mkRat x (2 ^ 64)
def toTurns (x : Rat) : Int := roundHE (x * mkRat (2 ^ 64) 1) % 2 ^ 64
def radius (x y : Rat) : Rat := sqrtR (x * x + y * y)

/-- Angle of a vector in turns, -1/2 to 1/2, by 40 bisections of a quarter turn around its quadrant. -/
def angleGo (x y : Rat) : Nat → Rat → Rat → Rat
  | 0, lo, _ => lo
  | n + 1, lo, w =>
    let mid := lo + w / 2
    if 0 ≤ y * cosTurn mid - x * sinTurn mid then angleGo x y n mid (w / 2) else angleGo x y n lo (w / 2)

def angleOf (x y : Rat) : Rat :=
  let lo : Rat := if 0 ≤ y then (if 0 < x then 0 else 1 / 4) else if x < 0 then -1 / 2 else -1 / 4
  angleGo x y 40 lo (1 / 4)

/-- A vector lies within an angle (degrees, up to 90) of the d axis. -/
def nearAxis (d q deg : Rat) : Bool := decide (0 < d) && decide (absR q * cosTurn (deg / 360) < d * sinTurn (deg / 360))

/-- Consecutive samples that span at least a time in ns. -/
def State.spans (s : State) (n : Nat) (ns : Rat) : Bool := decide (ns ≤ ((n * s.cycleNs : Nat) : Rat))

/-- A run of samples that meet a condition. -/
def runOf (c : Bool) (n : Nat) : Nat := if c then n + 1 else 0

/-- Phase voltages in α and β (FJ1). -/
def State.feAlBe (s : State) : Rat × Rat :=
  let uv := s.sdVal 1
  let vw := s.sdVal 2
  let ua := (2 * uv + vw) / 3
  let ub := (vw - uv) / 3
  (ua, (ub - (-ua - ub)) / sqrtR 3)

/-- Mains currents in α and β: minus the leg currents (R279). -/
def State.feIAlBe (s : State) : Rat × Rat :=
  let a := -(s.legCurrent 1)
  let b := -(s.legCurrent 2)
  let c := -(s.legCurrent 3)
  ((2 * a - b - c) / 3, (b - c) / sqrtR 3)

/-- FJ2: one step of the integrators; positive and negative sequence in α and β. -/
def State.sequences (s : State) : (Rat × Rat) × (Rat × Rat) × State :=
  let r := s.fe
  let (ua, ub) := s.feAlBe
  let T : Int := s.cycleNs
  let a0 := r.sogi.getD 0 (0, 0)
  let b0 := r.sogi.getD 1 (0, 0)
  let a := Config.sogiStep r.f T a0.1 a0.2 (toState ua)
  let b := Config.sogiStep r.f T b0.1 b0.2 (toState ub)
  let p := (ofState (a.1 - b.2) / 2, ofState (a.2 + b.1) / 2)
  let n := (ofState (a.1 + b.2) / 2, ofState (b.1 - a.2) / 2)
  (p, n, s.setFe { r with sogi := [a, b] })

/-- FJ3, PLL on the positive sequence; `up` is its peak. -/
def State.pll (s : State) (p : Rat × Rat) (up : Rat) : State :=
  let r := s.fe
  let T : Rat := mkRat s.cycleNs 1000000000
  let ph := (r.ph + toTurns (ofState r.f * T)) % 2 ^ 64
  let c := cosTurn (turns ph)
  let sn := sinTurn (turns ph)
  let d := p.1 * c + p.2 * sn
  let q := -(p.1 * sn) + p.2 * c
  let weak := decide (up < s.uNom / 5)
  let jump := !weak && !nearAxis d q (s.rf P.FePhaseJump 0)
  let nLock := runOf (!jump && nearAxis d q 2) r.nLock
  let e : Rat := if weak ∨ jump ∨ up = 0 then 0 else q / up
  let w := 2 * piR * s.rf P.FePllBandwidth 0
  let lim (x : Rat) := satR 45 65 x
  let fi := if weak then lim (ofState r.fi) else lim (ofState r.fi + w * w * e * T / (2 * piR))
  let f := if weak then lim (ofState r.f) else lim (fi + 2 * (707 / 1000) * w * e / (2 * piR))
  let ph' := if jump then toTurns (angleOf p.1 p.2) else ph
  let fS := toState f
  let s := s.setFe { r with ph := ph', f := fS, fi := toState fi, nLock := nLock, uPos := toState up
                            nFreq := runOf (fS == toState 45 || fS == toState 65) r.nFreq }
  let s := s.feBit feLOCKED (s.spans nLock 20000000)
  if jump then s.feRaise E.phaseJump 0 (leBytes 4 (ratToF32 (360 * angleOf d q))) else s

/-- FJ3, conditions of Table 10.3; `m` in pu, `un` the negative-sequence peak. DIP is set and cleared by its own events. -/
def State.gridFlags (s : State) (m un : Rat) : State :=
  let up := ofState s.fe.uPos
  let (u, s) : Rat × State := if up = 0 then let (x, s) := s.takeFree 5; (absR (ofState x), s) else (un / up, s)
  let pu := up / s.uNom
  let dip := s.rf P.FeDipLevel 0
  let um := s.rf P.FeUnbalanceMax 0
  let lock := s.feFlag feLOCKED
  let r := s.fe
  let r := { r with
    nDip := runOf (decide (m < dip)) r.nDip
    nRec := runOf (decide (dip + 5 / 100 ≤ m)) r.nRec
    nUnbal := runOf (decide (um < u)) r.nUnbal
    nBal := runOf (decide (u ≤ um)) r.nBal
    nLoss := runOf (decide (35 / 100 ≤ u)) r.nLoss
    nWhole := runOf (decide (u < 35 / 100)) r.nWhole
    nReady := runOf (lock && decide (85 / 100 ≤ pu) && decide (pu ≤ 110 / 100)) r.nReady }
  let s := s.setFe r
  let s := (s.wr P.FeGridState 0 (ratToF32 (ofState r.f) + ratToF32 pu * 2 ^ 32 + ratToF32 u * 2 ^ 64))
  let s := if pu < 1 / 5 then s.feBit feINTERRUPT true else if 1 / 4 ≤ pu ∧ lock then s.feBit feINTERRUPT false else s
  let s := if !s.feFlag feUNBAL && s.spans r.nUnbal 20000000 then (s.feBit feUNBAL true).feRaise E.mainsUnbalance 0 []
    else if s.spans r.nBal 20000000 then s.feBit feUNBAL false else s
  if !s.feFlag fePHASELOSS && s.spans r.nLoss 20000000 then
    ((s.feBit fePHASELOSS true).setFe { s.fe with lossAt := s.time.tick }).feRaise E.phaseLoss 0 []
  else if s.spans r.nWhole 100000000 then s.feBit fePHASELOSS false else s

/-! ### Ride-through (R296 to R299) -/

def State.pAvail (s : State) : Rat :=
  if s.feFlag feINTERRUPT then 0 else 3 / 2 * ofState s.fe.uPos * s.rf P.FeCurLimit 0

/-- P1. -/
def State.rideLoad (s : State) : Rat :=
  if s.rb P.FeRideLoadPower 0 then s.rf P.FeRideLoadPower 0 else s.rf P.FeRideLoadLearned 0

/-- σ_t; with P1 = 0 the quotient is a free value. -/
def State.rideTarget (s : State) : Rat × State :=
  let p1 := s.rideLoad
  let (x, s) : Rat × State := if p1 = 0 then let (v, s) := s.takeFree 6; (ofState v, s)
    else ((s.pAvail - s.rf P.FeAuxPower 0 - s.rf P.FeRideReserve 0) / p1, s)
  let st := s.rf P.FeScaleStep 0
  (satR (s.rf P.FeRideScaleMin 0) 1 (if st = 0 then x else (x / st).floor * st), s)

/-- Write σ_r; it reaches the masters in this cycle (R297). -/
def State.setDemand (s : State) (x : Rat) : State := (s.wrF P.FeRideDemand 0 x).vmRefresh

/-- Ride-through begins at a demand. -/
def State.rideBegin (s : State) (sg : Rat) : State :=
  let s := ((s.wr P.FeState 0 5).feBit feRECOVER false).setDemand (min sg (s.rf P.FeRideDemand 0))
  (s.setFe { s.fe with rideAt := s.time.tick }).feRaise E.rideThroughStarted 0 []

/-- RIDE_THROUGH_START (R296): the first case, while DIP or INTERRUPT is set; or PHASELOSS, for which Table 10.5 names ride-through as well
(R295; by the same target, DEDUCED, notes/assumptions/111.md). -/
def State.rideOnDip (s : State) : State :=
  if s.feState = 4 ∧ (s.feFlag feDIP ∨ s.feFlag feINTERRUPT ∨ s.feFlag fePHASELOSS) then
    let (sg, s) := s.rideTarget
    if sg < s.rf P.FeRideDemand 0 then s.rideBegin sg else s
  else s

/-- Bus below FeRideFloor in a ride, or in the recovery after FeStart: rank 2 joins (R297, R303). -/
def State.rideFloor (s : State) (u : Rat) : State :=
  if (s.feState = 5 ∨ (s.feState = 4 ∧ s.feFlag feRECOVER)) ∧ u < s.rf P.FeRideFloor 0 then
    (s.feBit feRESERVE true).setDemand (min (s.rf P.FeRideDemand 0) (s.rf P.FeRideScaleMin 0)) else s

/-- Recovery starts (R298): in a ride, or after FeStart with σ_r below 1 (R302). -/
def State.rideRecover (s : State) : State :=
  if (s.feState = 5 ∨ (s.feState = 4 ∧ s.rf P.FeRideDemand 0 < 1)) ∧ !s.feFlag feDIP ∧ !s.feFlag feINTERRUPT ∧ s.rf P.FeRideLevel 0 ≤ ofState s.fe.bus then s.feBit feRECOVER true else s

/-- Ride-through in FJ4. -/
def State.rideStep (s : State) (u : Rat) : State :=
  let r := s.fe
  let s := s.setFe { r with nLow := runOf (decide (u < s.rf P.FeRideLevel 0) && s.feFlag feCURLIM) r.nLow }
  if s.feState = 5 then
    let s := if s.feFlag feRECOVER && (s.feFlag feDIP || s.feFlag feINTERRUPT) then s.feBit feRECOVER false else s
    let s := if s.feFlag feRECOVER then s else
      let (sg, s) := s.rideTarget
      s.setDemand (min sg (s.rf P.FeRideDemand 0))
    (s.rideFloor u).rideRecover
  else if s.feState = 4 then
    let s := s.rideOnDip
    -- a dip that asks for no less: recovery starts again when it clears
    let s := if s.feState = 4 ∧ s.feFlag feRECOVER ∧ (s.feFlag feDIP ∨ s.feFlag feINTERRUPT) then s.feBit feRECOVER false else s
    if s.feState = 4 ∧ s.spans s.fe.nLow (s.rf P.FeDipDetectTime 0 * 1000000) then
      let (sg, s) := s.rideTarget
      (s.rideBegin (min sg (s.rf P.FeRideDemand 0 - s.rf P.FeScaleStep 0))).rideFloor u
    else (s.rideFloor u).rideRecover
  else s

/-- The present σ of the machine for the learned load: that of the lowest-numbered master with VmRideThrough = 1, else 1. -/
def State.rideSigma (s : State) : Int :=
  match (List.range 16).find? fun m => s.rb P.VmRideThrough m with
  | some m => (s.vmr m).sg
  | none => 2 ^ 64

/-- FeRideLoadLearned (R296): the mean over the last second of constant σ above 0.5, outside ride-through. -/
def State.learnLoad (s : State) (pax : Rat) : State :=
  let sg := s.rideSigma
  let r := s.fe
  if s.feState = 5 ∨ sg ≤ 2 ^ 63 then s.setFe { r with learn := [], learnSg := sg } else
    let n := 1000000000 / s.cycleNs
    let l := ((if sg = r.learnSg then r.learn else []).take (n - 1))
    let l := toState (pax * mkRat (2 ^ 64) 1 / (sg : Rat)) :: l
    let s := s.setFe { r with learn := l, learnSg := sg }
    if l.length = n then s.wrF P.FeRideLoadLearned 0 (ofState l.sum / (n : Rat)) else s

/-! ### Loops (R286 to R288) -/

/-- P_ax (R286). -/
def State.axisPower (s : State) : Rat :=
  ofState (((List.range 128).filter fun a => s.rd P.FeBusMember a == 1 && s.axisRuns a).map fun a => (s.axis a).pw).sum

/-- FJ4, bus-voltage loop: id* and iq*. In state 6 the active reference follows the stop ramp (R292). -/
def State.busLoop (s : State) (u pax : Rat) : Rat × Rat × State :=
  let r := s.fe
  let T : Rat := mkRat s.cycleNs 1000000000
  let cl := s.rf P.FeCurLimit 0
  let iq0 := s.rf P.FeIqRef 0
  if s.feState = 6 then
    let left : Rat := 1 - mkRat (s.time.tick - r.stopAt : Nat) 10000000
    let idr := if left ≤ 0 then 0 else ofState r.stopId * left
    let (iqr, b) := clampR (sqrtR (cl * cl - idr * idr)) iq0
    (idr, iqr, (s.setFe { r with id_ := toState idr }).feBit feCURLIM b)
  else
    let stp := s.rf P.FeBusRamp 0 * T
    let ur := ofState r.uRef + satR (-stp) stp (s.rf P.FeBusSet 0 - ofState r.uRef)
    let kg := s.rf P.FeBusGain 0
    let e := ur - u
    let ti := s.rf P.FeBusIntTime 0 / 1000
    let iB0 : Rat := if ti = 0 then 0 else ofState r.iB
    let x := kg * e + iB0 + (pax + s.rf P.FeAuxPower 0) / (3 / 2 * max (ofState r.uPos) (s.uNom / 5))
    let idr := satR (-(s.rf P.FeRegenLimit 0 * cl)) cl x
    let (iqr, b) := clampR (sqrtR (cl * cl - idr * idr)) iq0
    let keep := decide (r.cut ≠ 0) && decide (sgnR e = (r.cut : Rat))
    let iB : Rat := if ti = 0 then 0 else satR (-cl) cl (if keep then iB0 else iB0 + kg * (T / ti) * e)
    let cutd : Int := if idr < x then 1 else if x < idr then -1 else 0
    (idr, iqr, (s.setFe { r with uRef := toState ur, iB := toState iB, cut := cutd, id_ := toState idr }).feBit feCURLIM
      (decide (cutd ≠ 0) || b))

/-- Rotate a vector by minus an angle given by its cosine and sine. -/
def rotInto (c sn : Rat) (x : Rat × Rat) : Rat × Rat := (x.1 * c + x.2 * sn, -(x.1 * sn) + x.2 * c)
def rotOut (c sn : Rat) (x : Rat × Rat) : Rat × Rat := (x.1 * c - x.2 * sn, x.1 * sn + x.2 * c)

/-- FJ7: the resonant terms of one axis; `j` is 0 for d, 4 for q. -/
def State.resonate (s : State) (kc e : Rat) (j : Nat) (res : List (Int × Int)) : Rat × List (Int × Int) :=
  (List.range 4).foldl (fun (acc : Rat × List (Int × Int)) k =>
    if bitOf (s.rd P.FeHarmMask 0) k then
      let x := acc.2.getD (j + k) (0, 0)
      let y := Config.resonatorStep (6 * (k + 1)) s.fe.f s.cycleNs (toState (kc / 4)) x.1 x.2 (toState e)
      (acc.1 + ofState y.1, acc.2.set (j + k) y.2)
    else acc) (0, res)

/-- One integrator under R145: kept where its component was cut on the side of its error. -/
def feInt (ti T kc um i e cutv : Rat) : Rat :=
  if ti = 0 then 0 else satR (-um) um (if cutv ≠ 0 ∧ sgnR e = sgnR cutv then i else i + kc * (T / ti) * e)

/-- FJ5 to FJ7: current loops; answers the bridge voltage in the frame of θ₊. `idq` are the references. -/
def State.curLoops (s : State) (th u : Rat) (idq : Rat × Rat) : (Rat × Rat) × State :=
  let r := s.fe
  let T : Rat := mkRat s.cycleNs 1000000000
  let kc := s.rf P.FeCurGain 0
  let ti := s.rf P.FeCurIntTime 0 / 1000
  let c := cosTurn th
  let sn := sinTurn th
  let i := rotInto c sn s.feIAlBe
  let ug := rotInto c sn s.feAlBe
  let wl := 2 * piR * ofState r.f * s.rf P.FeLineInductance 0 / 1000
  let ed := idq.1 - i.1
  let eq := idq.2 - i.2
  let (yd, res) := s.resonate kc ed 0 r.res
  let (yq, res) := s.resonate kc eq 4 res
  let g (k : Nat) : Rat := ofState (r.pi_.getD k 0)
  let vd := kc * ed + g 0 + yd
  let vq := kc * eq + g 1 + yq
  let neg := s.rb P.FeNegSeqEnable 0
  let n := rotInto c (-sn) s.feIAlBe
  let vn : Rat × Rat := if neg then (kc * -n.1 + g 2, kc * -n.2 + g 3) else (0, 0)
  let vnp := rotInto c sn (rotOut c (-sn) vn)
  let bd := ug.1 + wl * i.2 - vd - vnp.1
  let bq := ug.2 - wl * i.1 - vq - vnp.2
  let um := u / sqrtR 3
  let (bd', _) := clampR um bd
  let (bq', _) := clampR (sqrtR (um * um - bd' * bd')) bq
  let cut := (bd' - bd, bq' - bq)   -- part of v that was cut off
  let cutn := rotInto c (-sn) (rotOut c sn cut)
  let pi' := [feInt ti T kc um (g 0) ed cut.1, feInt ti T kc um (g 1) eq cut.2] ++
    (if neg then [feInt ti T kc um (g 2) (-n.1) cutn.1, feInt ti T kc um (g 3) (-n.2) cutn.2] else [0, 0])
  ((bd', bq'), (s.setFe { r with pi_ := pi'.map toState, res := res }).wr P.FeLineCurrent 0
    (ratToF32 i.1 + ratToF32 i.2 * 2 ^ 32))

/-- FJ8, bridge: duties of the legs from the bridge voltage at θ₊ + ω × T. -/
def State.bridgeDuties (s : State) (th u : Rat) (b : Rat × Rat) : State :=
  let T : Rat := mkRat s.cycleNs 1000000000
  let x := th + ofState s.fe.f * T
  let ab := rotOut (cosTurn x) (sinTurn x) b
  let (d, ov) := duties3 (s.rd P.FeModMethod 0) (ab.1 / u) (ab.2 / u)
  [1, 2, 3].foldl (fun s r => (s.dutyPairs r).foldl (fun s n => s.setGp n { s.gp n with duty := some (d.getD (r - 1) 0), scaled := ov }) s) s

/-- Chopper (R293, R294): the duty, the resistor energy and their flags. -/
def State.chopper (s : State) (u : Rat) : State :=
  let P0 := s.rf P.FeBrakeRatedPower 0
  let R := s.rf P.FeBrakeResistance 0
  let d0 := satR 0 1 ((u - s.rf P.FeChopperOn 0) / s.rf P.FeChopperBand 0)
  let ovl := s.feFlag feBRAKEOVL
  let d := if s.rf P.FeBusMax 0 < u then 1 else if ovl then (if u = 0 then d0 else min d0 (P0 * R / (u * u))) else d0
  let T : Rat := mkRat s.cycleNs 1000000000
  let e := max 0 (ofState s.fe.energy + (d * u * u / R - P0) * T)
  let lim := s.rf P.FeBrakeEnergy 0
  let ovl' := if lim ≤ e then true else if e < lim / 2 then false else ovl
  let s := (s.setFe { s.fe with energy := toState e }).feBit feCHOPPER (decide (0 < d))
  let s := (s.feBit feBRAKEOVL ovl')
  let s := if ovl' && !ovl then s.feRaise E.brakeResistorOverload 0 [] else s
  (s.dutyPairs 4).foldl (fun s n => s.setGp n { s.gp n with duty := some d }) s

/-- No bus voltage to act on: d = 0, the resistor cools, the limit may lift (R293, R294). -/
def State.chopperRest (s : State) : State :=
  let T : Rat := mkRat s.cycleNs 1000000000
  let e := max 0 (ofState s.fe.energy - s.rf P.FeBrakeRatedPower 0 * T)
  let s := (s.setFe { s.fe with energy := toState e }).feBit feCHOPPER false
  if e < s.rf P.FeBrakeEnergy 0 / 2 then s.feBit feBRAKEOVL false else s

/-- No duties before the jobs have formed them. -/
def State.clearDuties (s : State) : State :=
  (List.range 12).foldl (fun s n => s.setGp n { s.gp n with duty := none, scaled := false }) s

/-- FRONT_END_JOBS (R283 to R288, R293 to R301); `sd` holds the bits taken from each input at or before S(n), newest first. -/
def execFrontEndJobs (t : Nat) (sd : List (List Bool)) (s : State) : Res :=
  onEvent t s fun s =>
    let s := (s.jobReady { tick := s.time.tick, fe := true, id := 1, passes := fePasses.getD 0 0 }).sdTake sd
    let u := s.sdVal 6
    let s := ((s.wrF P.FeBusVoltage 0 u).setFe { s.fe with made := s.time.cycle + 1, bus := toState u }).clearDuties
    let (p, n, s) := s.sequences
    let s := s.pll p (radius p.1 p.2)
    let (ua, ub) := s.feAlBe
    let s := s.gridFlags (radius ua ub / s.uNom) (radius n.1 n.2)
    let pax := s.axisPower
    let s := (s.wrF P.FeAxisPower 0 pax).learnLoad pax
    let busIn := s.sdInput 6
    let s := if s.fePresent 1 then s.feFault 1 else if s.fePresent 4 then s.feFault 4 else s
    let s := if busIn ≠ none ∧ s.rf P.FeBusMax 0 < u then s.feFault 2
      else if 3 ≤ s.feState ∧ s.feState ≤ 5 ∧ u < s.rf P.FeBusMinFault 0 then s.feFault 3 else s
    let st := s.feState
    let runs := decide (3 ≤ st ∧ st ≤ 5) || (st == 6 && s.fe.bridge)
    let th := turns (s.fe.ph + toTurns (ofState s.fe.f * s.tauSd))
    let i := rotInto (cosTurn th) (sinTurn th) s.feIAlBe
    let s := s.wr P.FeLineCurrent 0 (ratToF32 i.1 + ratToF32 i.2 * 2 ^ 32)
    let s := if runs then
        let (idr, iqr, s) := s.busLoop u pax
        let s := s.rideStep u
        if s.feFlag feINTERRUPT then s.setFe { s.fe with pi_ := [0, 0, 0, 0], res := List.replicate 8 (0, 0) }
        else if u ≤ 0 then s
        else
          let (b, s) := s.curLoops th u (idr, iqr)
          s.bridgeDuties th u b
      else s
    match busIn with
    | some k => if bitOf (s.rd P.FeSdState k) 1 then s.chopperRest else s.chopper u
    | none => s.chopperRest

/-- DIP_DETECTED (R285, R295, R296). -/
def execDipDetected (t : Nat) (s : State) : Res :=
  onEvent t s fun s =>
    if !s.feFlag feDIP && decide (0 < s.fe.nDip) && s.spans s.fe.nDip (s.rf P.FeDipDetectTime 0 * 1000000) then
      let s := s.feBit feDIP true
      let s := if s.feState = 5 ∧ s.feFlag feRECOVER then
          let (sg, s) := (s.feBit feRECOVER false).rideTarget
          s.setDemand (min sg (s.rf P.FeRideDemand 0))
        else s
      let s := s.rideOnDip
      if s.feState = 4 then s.feBit feRECOVER false else s
    else s

/-- DIP_CLEARED (R285, R298). -/
def execDipCleared (t : Nat) (s : State) : Res :=
  onEvent t s fun s =>
    if s.feFlag feDIP && decide (0 < s.fe.nRec) && s.spans s.fe.nRec (s.rf P.FeRecoverTime 0 * 1000000) then
      (s.feBit feDIP false).rideRecover
    else s

/-- PHASE_LOSS_TIMEOUT (R301). -/
def execPhaseLossTimeout (t : Nat) (s : State) : Res :=
  onEvent t s fun s =>
    if s.feFlag fePHASELOSS ∧ s.rf P.FePhaseLossTime 0 * 1000000000 ≤ ((s.time.tick - s.fe.lossAt : Nat) : Rat) then s.feFault 8 else s

/-- FREQUENCY_FAULT (R285). -/
def execFrequencyFault (t : Nat) (s : State) : Res :=
  onEvent t s fun s => if s.spans s.fe.nFreq 100000000 then s.feFault 7 else s

/-- A rank-1 master has reached the present demand (R298). -/
def State.rideReached (s : State) (m : Nat) : Bool :=
  let d := s.rf P.FeRideDemand 0
  let d := if s.rd P.VmSource m = 2 then d else min d (s.rf P.VmScaleSet m)
  !bitOf (s.rd P.VmState m) vSCALING && decide ((s.vmr m).sg = fix64 d)

/-- RIDE_RECOVERY_STEP (R298, R303). -/
def execRideRecoveryStep (t : Nat) (s : State) : Res :=
  onEvent t s fun s =>
    let u := ofState s.fe.bus
    let rank1 := (List.range 16).filter fun m => s.rb P.VmRideThrough m && s.rd P.FeRideRank m == 1
    if s.feFlag feRECOVER ∧ 4 ≤ s.feState ∧ s.feState ≤ 5 ∧ rank1.all s.rideReached ∧ s.rf P.FeRideLevel 0 ≤ u ∧
        absR (ofState s.fe.id_) ≤ 4 / 5 * s.rf P.FeCurLimit 0 then
      let s := s.setDemand (min 1 (s.rf P.FeRideDemand 0 + s.rf P.FeScaleStep 0))
      if s.rf P.FeRideDemand 0 = 1 then
        let s := ((s.wr P.FeState 0 4).clrBits P.FeFlags 0 0x7FE).setFe { s.fe with all_ := false }
        s.feRaise E.rideThroughEnded 0 []
      else s
    else s

/-- RIDE_THROUGH_EXHAUSTED (R299, R303). -/
def execRideThroughExhausted (t : Nat) (s : State) : Res :=
  onEvent t s fun s =>
    if s.feState = 5 ∧ !s.feFlag feRECOVER ∧ !s.feFlag feEXHAUSTED ∧
        s.rf P.FeRideMax 0 * 1000000000 ≤ ((s.time.tick - s.fe.rideAt : Nat) : Rat) then
      ((s.feBit feEXHAUSTED true).setDemand 0).feRaise E.rideThroughExhausted 0 []
    else s

/-- FeRideMinBus (R300). -/
def State.rideMinBus (s : State) : Rat :=
  let p1 := s.rideLoad
  let e1 := s.rf P.FeRideKinetic 0
  let c := s.rf P.FeBusCapacitance 0 / 1000
  let rank1 := (List.range 16).filter fun m => s.rb P.VmRideThrough m && s.rd P.FeRideRank m == 1
  match rank1 with
  | [] => 0
  | m :: r =>
    if p1 = 0 ∨ e1 = 0 ∨ c = 0 then 0 else
      let a := r.foldl (fun x k => min x (s.rf P.VmScaleAcc k)) (s.rf P.VmScaleAcc m)
      let T := s.cycleNs
      let td0 : Rat := (((s.rf P.FeDipDetectTime 0 * 1000000 / T).ceil * T : Int) : Rat) / 1000000000
      let td := if rank1.any (fun k => s.rd P.VmSource k == 2) then
          td0 + (2 * s.rf P.LineFramePeriod 0 + s.rf P.LineLead 0 + 1 / 2) / 1000 else td0
      let dp := p1 + s.rf P.FeAuxPower 0
      let us := s.rf P.FeBusSet 0
      if a = 0 then 0 else sqrtR (us * us - 2 * (dp * td + dp * dp / (4 * e1 * a)) / c)

/-! ### Start and stop (R290 to R292) -/

/-- The levels that R291 orders. -/
def feLevels : List Nat := [P.FeBusMinFault, P.FeRideFloor, P.FeRideLevel, P.FeBusSet, P.FeChopperOn, P.FeBusMax]

/-- The level order of R291 for a choice of values. -/
def levelOrder (f : Nat → Rat) : Bool :=
  decide (f P.FeBusMinFault < f P.FeRideFloor) && decide (f P.FeRideFloor < f P.FeRideLevel) && decide (f P.FeRideLevel < f P.FeBusSet) &&
    decide (f P.FeBusSet < f P.FeChopperOn) && decide (f P.FeChopperOn < f P.FeBusMax)

/-- R278, R281 and the assignments FeStart needs. -/
def State.feSettings (s : State) : Bool :=
  let cnt (f : Nat) := ((List.range 12).filter fun i => s.rd P.FeSdFunction i == f).length
  let gs := s.bridgePairs.map fun n => s.rd P.ModLoadGroup (128 + n)
  [1, 2, 3].all (fun r => decide (1 ≤ (s.rolePairs r).length ∧ (s.rolePairs r).length ≤ 3)) && decide ((s.rolePairs 4).length ≤ 3) &&
    gs.all (· == gs.headD 0) && [1, 2, 3, 4, 6].all (fun f => cnt f == 1) && decide (cnt 5 ≤ 1 ∧ cnt 7 ≤ 1) &&
    levelOrder (fun p => s.rf p 0) && s.rb P.FeCurLimit 0 && s.rb P.FeCurGain 0 &&
    decide (s.rd P.FePreOutput 0 ≠ 0xFF ∧ s.rd P.FeMainOutput 0 ≠ 0xFF ∧ s.rd P.FePreFeedback 0 ≠ 0xFF ∧ s.rd P.FeMainFeedback 0 ≠ 0xFF)

/-- FE_START (R291). -/
def execFeStart (t : Nat) (q : Req) (s : State) : Res :=
  runReq 0x0901 t q s fun s =>
    guarded [(!s.feSettings, ⟨0x0328, 0, 0, 0⟩), (s.rb P.FeState 0, ⟨0x022F, 0, 0, 0⟩), (s.rb P.FeFaultCause 0, ⟨0x0230, 0, 0, 0⟩),
        (!s.spans s.fe.nReady 100000000 || s.fe.nReady == 0, ⟨0x022E, 0, 0, 0⟩)] <|
      let (ch, s) := s.feOutput P.FePreOutput true
      -- a feedback that already reads closed completes its step at once
      .ok 0x0101 [] ((s.wr P.FeState 0 1).setFe { s.fe with
        step := if s.fe.preFb then 2 else 1, t0 := s.time.tick, tStep := s.time.tick, start := some q, preWait := s.fe.preWait || ch
        pi_ := [0, 0, 0, 0], res := List.replicate 8 (0, 0), iB := 0, cut := 0, nLow := 0 })

/-- FePreFeedback reads open at the end of the sequence: bridge load-all, FeState 3 (Table 10.4). -/
def State.feSync (s : State) : State :=
  (s.feLoadAll.wr P.FeState 0 3).setFe { s.fe with step := 6, tStep := s.time.tick, uRef := s.fe.bus }

/-- CONTACTOR_FEEDBACK_CHANGE (R290, R291, R349): `main` says which feedback, `closed` what it reads now. The row has no effect where the input
that the parameter names does not read so. -/
def execContactorFeedbackChange (t : Nat) (main closed : Bool) (s : State) : Res :=
  onEvent t s fun s =>
    let r := s.fe
    let inp := s.rd (if main then P.FeMainFeedback else P.FePreFeedback) 0
    if inp = 0xFF ∨ s.diLevel inp ≠ closed ∨ (if main then r.mainFb else r.preFb) = closed then s else
      let o := s.rd (if main then P.FeMainOutput else P.FePreOutput) 0
      let right := (if main then r.mainWait else r.preWait) && (bitOf s.dqFe o == closed)
      let s := s.setFe (if main then { r with mainFb := closed, mainWait := r.mainWait && !right }
        else { r with preFb := closed, preWait := r.preWait && !right })
      if !right then s.feFault 5
      else match r.step, main with
        | 1, false => s.setFe { s.fe with step := 2, tStep := s.time.tick }
        | 3, true => s.setFe { s.fe with step := 4, tStep := s.time.tick }
        | 5, false => s.feSync
        | _, _ => s

/-- Elapsed ticks of the present step. -/
def State.feElapsed (s : State) : Rat := ((s.time.tick - s.fe.tStep : Nat) : Rat)

/-- PRECHARGE_LEVEL_REACHED (R291). -/
def execPrechargeLevelReached (t : Nat) (s : State) : Res :=
  onEvent t s fun s =>
    if s.fe.step = 2 ∧ s.rf P.FePrechargeLevel 0 * sqrtR 2 * s.rf P.FeMainsNominal 0 ≤ ofState s.fe.bus then
      let (ch, s) := s.feOutput P.FeMainOutput true
      (s.wr P.FeState 0 2).setFe { s.fe with
        step := if s.fe.mainFb then 4 else 3, tStep := s.time.tick, mainWait := s.fe.mainWait || ch }
    else s

/-- PRE_OPEN_DELAY_EXPIRY (R291). -/
def execPreOpenDelayExpiry (t : Nat) (s : State) : Res :=
  onEvent t s fun s =>
    if s.fe.step = 4 ∧ s.rf P.FePreOpenDelay 0 * 1000000 ≤ s.feElapsed then
      let (ch, s) := s.feOutput P.FePreOutput false
      let s := s.setFe { s.fe with step := 5, tStep := s.time.tick, preWait := s.fe.preWait || ch }
      if s.fe.preFb then s else s.feSync
    else s

/-- FE_SEQUENCE_TIMEOUT (R291, R301). -/
def execFeSequenceTimeout (t : Nat) (s : State) : Res :=
  onEvent t s fun s =>
    let ct := s.rf P.FeContactorTime 0 * 1000000
    let st := s.fe.step
    if (st = 1 ∨ st = 3 ∨ st = 5) ∧ ct ≤ s.feElapsed then s.feFault 5
    else if st = 2 ∧ s.rf P.FePrechargeTime 0 * 1000000000 ≤ ((s.time.tick - s.fe.t0 : Nat) : Rat) then s.feFault 6
    else s

/-- BUS_SETTLED (R291); σ_r below 1 then recovers under R298 (R302). -/
def execBusSettled (t : Nat) (s : State) : Res :=
  onEvent t s fun s =>
    let set := s.rf P.FeBusSet 0
    if s.feState = 3 ∧ absR (ofState s.fe.bus - set) ≤ set / 50 then
      let s := (s.wr P.FeState 0 4).setFe { s.fe with step := 0 }
      let s := s.rideRecover
      (s.feRaise E.frontEndRunning 0 []).feEndStart 0
    else s

/-- FE_STOP (R292, R303). -/
def execFeStop (t : Nat) (q : Req) (s : State) : Res :=
  runReq 0x0902 t q s fun s =>
    let st := s.feState
    let r := s.fe
    if st = 6 then .ok 0x0101 [] (s.setFe { r with stops := r.stops ++ [q] }) else
      let s := s.feEndStart 0x0503
      let s := (s.feBit feRECOVER false).feBit feRESERVE false
      .ok 0x0101 [] ((s.wr P.FeState 0 6).setFe { s.fe with
        stops := r.stops ++ [q], stopAt := s.time.tick, stopId := r.id_, bridge := decide (3 ≤ st ∧ st ≤ 5), step := 0 })

/-- A stop that still waits ends. -/
def State.feStopped (s : State) (status : Nat) : State :=
  s.fe.stops.foldl (fun s q => s.complete q 0 s.time.cycle status 0 0 0) (s.setFe { s.fe with stops := [], bridge := false, id_ := 0 })

/-- FE_STOP_RAMP_END (R292). -/
def execFeStopRampEnd (t : Nat) (s : State) : Res :=
  onEvent t s fun s =>
    if s.feState = 6 ∧ s.fe.stopAt + 10000000 ≤ s.time.tick then
      ((s.bridgeOff.feOpen).wr P.FeState 0 0).feStopped 0
    else s

/-- FE_FAULT_CLEAR (R302): FeState becomes 0, a FeStop given in the fault state ends with it. Without a fault there is nothing to clear. -/
def execFeFaultClear (t : Nat) (q : Req) (s : State) : Res :=
  runReq 0x0903 t q s fun s =>
    let c := s.rd P.FeFaultCause 0
    guarded [(decide (c ≠ 0) && s.fePresent c, ⟨0x0230, 0, 0, 0⟩)] <|
      .ok 0 [] (if c = 0 then s else ((s.wr P.FeFaultCause 0 0).wr P.FeState 0 0).feStopped 0)

/-! ### Write rules (R282, R290, R304) -/

/-- Refusals of a write to a front-end parameter, or to SysCycleLength (R282). -/
def State.feWriteBad (s : State) (idx i v : Nat) : List (Bool × Rsn) :=
  let run := decide (s.feState ≠ 0 ∧ s.feState ≠ 7)
  [([P.FeSdClock, P.FeSdDecimation, P.SysCycleLength].contains idx &&
      s.breaks idx 0 v [P.FeSdClock, P.FeSdDecimation, P.SysCycleLength] (fun f =>
        decide (mkRat (31250 * 2 ^ f P.SysCycleLength) 4000000000 < Machine.tauSd (f32ToRat (f P.FeSdClock)) (f P.FeSdDecimation))), ⟨0x0329, 0, 0, 0⟩),
   (feLevels.contains idx &&
      s.breaks idx 0 v feLevels (fun f => !levelOrder (fun p => f32ToRat (f p))), ⟨0x0328, 0, 0, 0⟩),
   (decide (idx = P.FeSdOffset) && decide (s.rf P.FeSdScale i < absR (f32ToRat v)), ⟨0x0304, 0, 0, 0⟩),
   (decide (idx = P.FeIqRef) && decide (s.rf P.FeCurLimit 0 < absR (f32ToRat v)), ⟨0x0304, 0, 0, 0⟩),
   (decide (idx = P.FeRideScaleMin) && (let st := s.rf P.FeScaleStep 0
      decide (ratToF32 ((roundHE (f32ToRat v / st) : Rat) * st) ≠ v)), ⟨0x0304, 0, 0, 0⟩),
   ([P.FePreOutput, P.FeMainOutput].contains idx && s.dqOwner v == 1, ⟨0x021A, 0, 0, 0⟩),
   ([P.FePairRole, P.FeModMethod, P.FeSdFunction, P.FeSdClock, P.FeSdDecimation, P.FePreOutput, P.FeMainOutput, P.FePreFeedback,
      P.FeMainFeedback].contains idx && run, ⟨0x022F, 0, 0, 0⟩)]

/-- What a change brings: the event of R289; a contactor output just named is off. -/
def State.feChanged (s : State) (idx old : Nat) : State :=
  if [P.FeCurGain, P.FeLineInductance, P.FeSdClock, P.FeSdDecimation, P.SysCycleLength].contains idx then
    let tf : Rat := mkRat s.cycleNs 1000000000 + s.tauSd
    s.raiseIf (decide (s.rf P.FeLineInductance 0 / 1000 < s.rf P.FeCurGain 0 * tf)) E.frontEndCurrentGainAboveDelayLimit 0
      (stampBytes s.lineNs s.lineFrac ++ leBytes 4 (s.rd P.FeFlags 0))
  else if (idx = P.FePreOutput ∨ idx = P.FeMainOutput) then
    let v := s.rd idx 0
    -- ownership of the old and the new output changes: their level goes out (R341)
    let s := if old < 16 then ({ s with dqFe := setBit s.dqFe old false }).pushLine (2 ^ old) (s.time.lastS + 3000) else s
    if v < 16 then { s.pushNew v [(s.time.lastS + 3000, false)] with dqFe := setBit s.dqFe v false } else s
  -- a feedback just named reads what its input reads
  else if idx = P.FePreFeedback then s.setFe { s.fe with preFb := s.diLevel (s.rd idx 0) }
  else if idx = P.FeMainFeedback then s.setFe { s.fe with mainFb := s.diLevel (s.rd idx 0) }
  else s

end Sys2Proof.Machine
end

