-- ==== Sys2Proof/Machine/Lockkeeper.lean ====
section
/-!
DEFINITION. Lockkeeper safety section (chapter 11): inputs, groups, resets, internal faults, status lines and frames, the axis map.
-/
namespace Sys2Proof.Machine

def State.safIn (s : State) (i : Nat) : SafIn := tabGet s.saf.ins SafIn.init i
def State.setSaf (s : State) (r : SafRec) : State := { s with saf := r }
def State.setSafIn (s : State) (i : Nat) (x : SafIn) : State := s.setSaf { s.saf with ins := tabSet s.saf.ins SafIn.init i x }

/-- A processor's own state. -/
def State.proc (s : State) (p : Nat) : SafProc := s.saf.prs.getD p SafProc.init
def State.setProc (s : State) (p : Nat) (x : SafProc) : State := s.setSaf { s.saf with prs := s.saf.prs.set p x }

/-- An input pair as a processor knows it: its own channel as filtered, the other's as last exchanged (R308). -/
def State.safV (s : State) (p i : Nat) : SafIn :=
  { s.safIn i with closed := (s.safIn i).closed.set (1 - p) (bitOf (s.proc p).peer i) }

def SafIn.open_ (x : SafIn) : Bool := !(x.closed.all id)
def SafIn.bothOpen (x : SafIn) : Bool := x.closed.all (!·)

/-- The filtered levels of one channel of SI00 to SI11. -/
def State.chanWord (s : State) (ch : Nat) : Nat :=
  ((List.range 12).map fun i => if (s.safIn i).closed.getD ch false then 2 ^ i else 0).sum

/-- The processors exchange their levels. -/
def State.safExchange (s : State) : State :=
  [0, 1].foldl (fun s p => s.setProc p { s.proc p with peer := s.chanWord (1 - p) }) s

/-- Switch `k` of the bank in force (Table 11.3). -/
def SafRec.sw (r : SafRec) (k : Nat) : Bool := bitOf r.bank (k - 1)

/-- t_disc in ns. -/
def discNs (bank : Nat) : Nat := [50000000, 100000000, 500000000, 2000000000].getD (bitsOf bank 7 6) 0

/-- The SS1-t delay in ns. -/
def ss1Ns (bank : Nat) : Nat :=
  [0, 100000000, 200000000, 500000000, 1000000000, 2000000000, 5000000000, 10000000000].getD (bitsOf bank 10 8) 0

/-! ### Outputs and lines (R323, R326) -/

/-- A group's state in a processor. -/
def State.gState (s : State) (p g : Nat) : Nat := (s.proc p).gs.getD g 0

/-- A processor's output of a group is on: STOnA is processor A's, STOnB processor B's. -/
def State.stoOn (s : State) (p g : Nat) : Bool := s.saf.powered && (s.gState p g == 3 || s.gState p g == 4)

/-- A processor's two lines of a group. They are supplied from X1 with the chip (R497), so none is unpowered while the chip runs. -/
def State.stoLineOf (s : State) (p g : Nat) : Bool := [0, 1, 2, 5].contains (s.gState p g)
def State.ss1LineOf (s : State) (p g : Nat) : Bool := s.gState p g == 3

/-- A group's lines as the chip reads them: active where either processor's is. -/
def State.stoLine (s : State) (g : Nat) : Bool := s.stoLineOf 0 g || s.stoLineOf 1 g
def State.ss1Line (s : State) (g : Nat) : Bool := s.ss1LineOf 0 g || s.ss1LineOf 1 g

/-- SS1 lines [15:8], STO lines [7:0]. -/
def State.safLineWord (s : State) : Nat :=
  ((List.range 8).map fun g => (if s.stoLine g then 2 ^ g else 0) + (if s.ss1Line g then 2 ^ (8 + g) else 0)).sum

/-- Report the lines. -/
def State.safLines (s : State) : State := s.wr P.SafLines 0 s.safLineWord

/-- A group takes a state in a processor; that both have it in 4 is reported. -/
def State.setGroupState (s : State) (p g v : Nat) : State :=
  if s.gState p g = v then s else
    let s := (s.setProc p { s.proc p with gs := (s.proc p).gs.set g v }).safLines
    s.raiseIf (v == 4 && s.gState (1 - p) g == 4) E.groupEnabled g (leBytes 4 g)

/-- SAFETY_INTERNAL_FAULT (R331): every group in state 5 in both processors; the first code stands until a power-up. -/
def State.safFault (s : State) (code : Nat) : State :=
  if s.saf.fault ≠ 0 then s else
    let off (x : SafProc) : SafProc := { x with gs := List.replicate 8 5, auto := 0, rst := 0 }
    ((s.setSaf { s.saf with fault := code, prs := s.saf.prs.map off, rstDue := false }).safLines).raise E.safetyFault 0 (leBytes 4 code)

/-! ### Demands (R310, R314, R320), as a processor sees them -/

/-- Setup mode is active; the enabling device reads enabled. -/
def State.setupMode (s : State) (p : Nat) : Bool := s.saf.sw 14 && !(s.safV p 10).open_ && (s.safIn 10).code == 0
def State.enabling (s : State) (p : Nat) : Bool := !(s.safV p 11).open_ && (s.safIn 11).code == 0

/-- Inputs that act as emergency stops. -/
def State.estops (s : State) : List Nat := if s.saf.sw 14 then [0, 1] else [0, 1, 10, 11]

/-- Inputs demanding on a group, one bit each; an input fault demands too, and faults of SI10 and SI11 act on all groups (R314, DEDUCED). -/
def State.demands (s : State) (p g : Nat) : Nat :=
  (([0, 1, 10, 11, 2 + g].filter fun i => (s.safIn i).code != 0 || (s.estops.contains i && (s.safV p i).open_) ||
    (i == 2 + g && (s.safV p i).open_ && !(s.setupMode p && s.enabling p))).map (2 ^ ·)).sum

/-- An input that acts on the group is in fault. -/
def State.inputFault (s : State) (g : Nat) : Bool := [0, 1, 10, 11, 2 + g].any fun i => (s.safIn i).code != 0

/-- Guards [7:0], SI10 [8] and SI11 [9] that read open. -/
def State.openWord (s : State) (p : Nat) : Nat :=
  (((List.range 8).filter fun g => (s.safV p (2 + g)).open_).map (2 ^ ·)).sum +
    (if (s.safV p 10).open_ then 256 else 0) + (if (s.safV p 11).open_ then 512 else 0)

/-- A change of the setup inputs that switches off groups with an open guard, with STO (R320). -/
def State.setupOff (s : State) (p : Nat) : Bool :=
  let w := s.openWord p
  let o := (s.proc p).gWas
  s.saf.sw 14 && ((bitOf w 9 && !bitOf o 9) || (bitOf w 8 && !bitOf o 8) || (bitOf o 8 && !bitOf w 8 && bitOf w 9))

/-- A new demand asks for STO, not SS1-t. `moved` is true where the guard itself has just opened. -/
def State.asksSto (s : State) (i : Nat) (moved : Bool) : Bool :=
  if s.estops.contains i then ss1Ns s.saf.bank == 0 else !(s.saf.sw 15 && ss1Ns s.saf.bank != 0 && moved)

/-- SAFETY_DEMAND: reports of new demands on a group. -/
def State.demandReport (s : State) (g new : Nat) : State :=
  (bitList 12 new).foldl (fun s i =>
    ((s.inc P.SafDemands g).wr P.SafLastCause g i).raise E.safetyDemand g (leBytes 4 g ++ leBytes 4 i)) s

/-- The guard test of a group (R322). -/
def State.guardTest (s : State) (p g : Nat) : State :=
  let r := s.proc p
  let x := s.safV p (2 + g)
  if !bitOf r.pend g then s
  else if x.bothOpen then s.setProc p { r with gOpen := setBit r.gOpen g true }
  else if bitOf r.gOpen g && !x.open_ && x.code == 0 then s.setProc p { r with pend := setBit r.pend g false }
  else s

/-- Where a group that is off settles (Table 11.4); with switch 13 on, one off only by its guard is enabled once that reads closed (R319). -/
def State.groupSettle (s : State) (p g : Nat) : State :=
  let dm := s.demands p g
  let s := if s.gState p g = 5 ∧ !s.inputFault g then s.setGroupState p g 0 else s
  let s := if s.gState p g = 0 ∧ dm = 0 then s.setGroupState p g (if bitOf (s.proc p).pend g then 1 else 2) else s
  let s := if s.gState p g = 1 ∧ !bitOf (s.proc p).pend g then s.setGroupState p g 2 else s
  if s.gState p g = 2 ∧ dm = 0 ∧ bitOf (s.proc p).auto g ∧ s.saf.sw 13 ∧ !(s.safV p (2 + g)).open_ then
    (s.setProc p { s.proc p with auto := setBit (s.proc p).auto g false }).setGroupState p g 4
  else s

/-- The tick from which a group's SS1-t delay runs: the other processor's, where its delay runs already. -/
def State.ss1From (s : State) (p g : Nat) : Nat := if s.gState (1 - p) g = 3 then (s.proc (1 - p)).ss1At.getD g 0 else s.time.tick

/-- One group of a processor after its inputs have been evaluated (R314, R317 to R320). -/
def State.groupEval (s : State) (p g : Nat) : State :=
  let r := s.proc p
  let dm := s.demands p g
  let new := dm - dm.land (r.dem.getD g 0)
  let s := (s.demandReport g (new - new.land ((s.proc (1 - p)).dem.getD g 0))).guardTest p g
  let moved := !bitOf r.gWas g
  let forced := s.setupOff p && (s.safV p (2 + g)).open_
  let guardOnly := decide (dm = 2 ^ (2 + g)) && moved && !forced
  let auto := bitOf r.auto g && !s.inputFault g && !forced && decide (dm = 0 ∨ dm = 2 ^ (2 + g)) && !(s.gState p g == 3 && dm == 0)
  let r := s.proc p
  let s := s.setProc p { r with
    dem := r.dem.set g dm, auto := setBit r.auto g auto, rst := if dm = 0 ∧ !forced then r.rst else setBit r.rst g false }
  if s.inputFault g then s.setGroupState p g 5
  else
    let sto := forced || (bitList 12 new).any fun i => s.asksSto i moved
    let s := if new = 0 ∧ !forced then s
      else if s.gState p g = 4 then
        let s := s.setProc p { s.proc p with auto := setBit (s.proc p).auto g guardOnly }
        if sto then s.setGroupState p g 0
        else (s.setProc p { s.proc p with ss1At := (s.proc p).ss1At.set g (s.ss1From p g) }).setGroupState p g 3
      else if s.gState p g = 3 ∧ sto then s.setGroupState p g 0
      else if s.gState p g = 2 then s.setGroupState p g 0
      else s
    s.groupSettle p g

/-- All groups of a processor; none acts before start-up has completed or with an internal fault. -/
def State.safEval (s : State) (p : Nat) : State :=
  if s.saf.started && s.saf.fault == 0 then
    let s := (List.range 8).foldl (fun s g => s.groupEval p g) s
    s.setProc p { s.proc p with gWas := s.openWord p }
  else s

/-- Both processors. -/
def State.safEvals (s : State) : State := (s.safEval 0).safEval 1

/-! ### Inputs (R311 to R313) -/

/-- The opening filter of an input in ns. -/
def State.openFilter (s : State) (i : Nat) : Nat := if s.saf.sw (i / 2 + 1) then 1500000 else 1000000

/-- The test pulse output of a channel is off now: 300 µs from the row of its pulse on (R311; DEDUCED, notes/assumptions/114.md). -/
def State.tpOff (s : State) (ch : Nat) : Bool :=
  match s.saf.tpAt.getD ch none with
  | some x => decide (s.time.tick ≤ x + 300000)
  | none => false

/-- One channel with a new sample. An OSSD device's low pulses of up to 1 ms do not interrupt the high level it has to close on (R311). -/
def SafIn.sample (x : SafIn) (ch now filt : Nat) (ossd lv : Bool) : SafIn :=
  let low := x.since.getD ch 0
  let since := if x.lvl.getD ch false == lv then low else now
  let hi := if lv && !x.lvl.getD ch false && !(ossd && decide (now ≤ low + 1000000)) then now else x.hi.getD ch 0
  let was := x.closed.getD ch false
  let cl := if lv then was || decide (hi + 20000000 ≤ now) else was && decide (now < since + filt)
  { x with lvl := x.lvl.set ch lv, since := x.since.set ch since, hi := x.hi.set ch hi, closed := x.closed.set ch cl }

/-- Discrepancy and the clearing of a fault after the channels have moved from `old` (R313, Table 11.2). -/
def SafIn.moved (x old : SafIn) (now : Nat) : SafIn :=
  let eq (y : SafIn) : Bool := y.closed.getD 0 false == y.closed.getD 1 false
  let x := if eq x then
      (if old.dis = 1 ∧ !x.open_ then { x with dis := 0, code := 1, stage := 0 } else { x with dis := 0 })
    else if eq old then { x with dis := if old.open_ then 2 else 1, disAt := now } else x
  if x.code = 0 then x
  else if x.bothOpen then { x with stage := 1 }
  else if x.stage = 1 ∧ !x.open_ then { x with stage := 2 }
  else if x.stage = 2 ∧ x.open_ then { x with stage := 0 } else x

/-- An input with a sample of one channel: a contact input does not count its channel's own test pulse (R312). -/
def State.sampled (s : State) (ch i : Nat) (lv : Bool) : SafIn :=
  let x := s.safIn i
  let ossd := s.saf.sw (i / 2 + 1)
  if !ossd && s.tpOff ch then x else (x.sample ch s.time.tick (s.openFilter i) ossd lv).moved x s.time.tick

/-- SAFETY_INPUT_SAMPLE: a processor samples its channel of SI00 to SI11 and evaluates its groups. -/
def execSafetyInputSample (t proc levels : Nat) (s : State) : Res :=
  onUnit t s (decide (proc < 2)) fun s =>
    ((List.range 12).foldl (fun s i => s.setSafIn i (s.sampled proc i (bitOf levels i))) s).safEval proc

/-- DISCREPANCY_TIMEOUT. -/
def execDiscrepancyTimeout (t input : Nat) (s : State) : Res :=
  onUnit t s (decide (input < 12)) fun s =>
    let x := s.safIn input
    if x.dis ≠ 0 ∧ x.disAt + discNs s.saf.bank < s.time.tick then
      (s.setSafIn input { x with code := x.dis, stage := 0, dis := 0 }).safEvals
    else s

/-- TEST_PULSE of TPA or TPB: the output goes off for 300 µs. `shorts` is what the pulse shows: [11:0] contact inputs of the channel that stay
high in their own pulse, [23:12] contact inputs that go low in the other channel's pulse, [24] readback that differs from the pulse pattern. -/
def execTestPulse (t : Nat) (b : Bool) (shorts : Nat) (s : State) : Res :=
  onEvent t s fun s =>
    let s := (s.setSaf { s.saf with tpAt := s.saf.tpAt.set b.toNat (some s.time.tick) }).frame .safety (2 + b.toNat) [0]
    if bitOf shorts 24 then s.safFault 8 else
      let s := (List.range 12).foldl (fun s i =>
        let x := s.safIn i
        let own := bitOf shorts i
        let cross := bitOf shorts (12 + i)
        if s.saf.sw (i / 2 + 1) then s
        else s.setSafIn i { x with code := if own then 3 else if cross then 4 else x.code, stage := if own || cross then 0 else x.stage
                                   short := x.short.set b.toNat (own || cross) }) s
      s.safEvals

/-! ### Processors (R308, R309, R315, R316, R322, R323) -/

/-- The configuration checksum (R316). -/
def safChecksum (bank : Nat) : Nat := crc32 (leBytes 2 bank ++ leBytes 4 Config.safFirmware.toNat) % 65536

/-- A status frame of a processor (Table 11.7). -/
def State.safFrame (s : State) (proc : Nat) : List Byte :=
  let r := s.saf
  let chan (ch : Nat) : Nat := if ch = proc then s.chanWord ch else (s.proc proc).peer
  let st := ((List.range 8).map fun g => s.gState proc g * 16 ^ g).sum
  let inf := ((List.range 12).map fun i => (s.safIn i).code * 16 ^ i).sum
  let mode := (if s.setupMode proc then 16 else 0) + 4 * r.srst + (if r.started then 2 else 0) + (if r.bankOk then 1 else 0)
  let b := leBytes 1 (128 * proc + 1) ++ leBytes 1 r.seq ++ leBytes 4 st ++ leBytes 2 (chan 0) ++ leBytes 2 (chan 1) ++ leBytes 2 r.outRb ++
    leBytes 2 r.bank ++ leBytes 2 (safChecksum r.bank) ++ leBytes 1 r.fault ++ leBytes 1 mode ++ leBytes 6 inf ++
    leBytes 4 ((s.time.tick - r.up) / 1000000)
  b ++ leBytes 4 (crc32 b)

/-- A valid reset takes effect at the end of its cycle, since a demand that begins in the cycle of the release wins (R321, R332): groups ready at
the release and without demand since are enabled, faults ready for it are cleared. -/
def State.safReset (s : State) : State :=
  let s := [0, 1].foldl (fun s p =>
    let m := (s.proc p).rst
    let s := s.setProc p { s.proc p with rst := 0 }
    (bitList 8 m).foldl (fun s g =>
      if s.gState p g = 2 then (s.setProc p { s.proc p with auto := setBit (s.proc p).auto g false }).setGroupState p g 4 else s) s) s
  let s := (List.range 12).foldl (fun s i =>
    let x := s.safIn i
    if x.code ≠ 0 ∧ x.stage = 2 ∧ !x.short.any id then s.setSafIn i { x with code := 0, stage := 0 } else s) s
  (s.setSaf { s.saf with rstDue := false }).safEvals

/-- The checks of a safety cycle: banks, link and states, supply, temperature, outputs that are on where their group is off. -/
def State.safChecks (s : State) (i : SafetyObs) : State :=
  let r := s.saf
  let s := if r.started && (i.bankA != r.bank || i.bankB != r.bank) then s.safFault 1 else s
  let s := if 2 ≤ r.linkBad ∨ 2 ≤ r.differ then s.safFault 3 else s
  let s := if i.supplyOk then s else s.safFault 5
  let s := if i.tempOk then s else s.safFault 9
  let stuck := (List.range 8).any fun g => (!s.stoOn 0 g && bitOf i.readA g) || (!s.stoOn 1 g && bitOf i.readB g)
  if stuck then s.safFault 6 else s

/-- SAFETY_CYCLE: the processors compare their group states, exchange levels and evaluate; a reset of the cycle acts; the status frames of the
period go out. -/
def execSafetyCycle (t : Nat) (i : SafetyObs) (s : State) : Res :=
  onEvent t s fun s =>
    let r := s.saf
    let s := s.setSaf { r with
      linkBad := if i.linkOk then 0 else r.linkBad + 1
      differ := if !i.linkOk then r.differ else if (s.proc 0).gs = (s.proc 1).gs then 0 else r.differ + 1
      outRb := i.readA % 256 + 256 * (i.readB % 256), seq := (r.seq + 1) % 256 }
    let s := s.safChecks i
    let s := if i.linkOk then s.safExchange.safEvals else s
    let s := if s.saf.rstDue then s.safReset else s
    (s.frame .safety 0 (s.safFrame 0)).frame .safety 1 (s.safFrame 1)

/-- STO_TEST_PULSE: `off` the pulsed output reaches the off level, `quiet` no other output follows. -/
def execStoTestPulse (t out : Nat) (_second off quiet : Bool) (s : State) : Res :=
  onUnit t s (decide (out < 8)) fun s => if !off then s.safFault 6 else if !quiet then s.safFault 7 else s

/-- SAFETY_SELF_TEST. -/
def execSafetySelfTest (t proc : Nat) (passed : Bool) (s : State) : Res :=
  onUnit t s (decide (proc < 2)) fun s => if passed then s else s.safFault 4

/-- SAFETY_SUPPLY_LOSS: L+S is lost; the outputs are off through loss of drive, while the processors run on from X1 (R309, R497, R504). -/
def execSafetySupplyLoss (t : Nat) (s : State) : Res :=
  onEvent t s fun s => ((s.setSaf { s.saf with powered := false }).safFault 5).safLines

/-- Parity of R315: an odd number of switches on. -/
def bankParity (b : Nat) : Bool := popcount 16 b % 2 == 1

/-- The groups as start-up leaves them: nothing demanded before counts, the guard test pends where switch 12 asks for it (R322). -/
def State.safBegin (s : State) : State :=
  [0, 1].foldl (fun s p =>
    s.setProc p { s.proc p with
      gOpen := 0, auto := 0, rst := 0, pend := if s.saf.sw 12 then 255 else 0, dem := (List.range 8).map (s.demands p), gWas := s.openWord p }) s

/-- SAFETY_STARTUP_COMPLETE: tests passed, banks SWA and SWB as read, both processors' readings equal. CONFIG shows the bank read whatever
comes of it; SWA's, where the two differ (R316, R327; DEDUCED, notes/assumptions/114.md). -/
def execSafetyStartupComplete (t : Nat) (passed : Bool) (bankA bankB : Nat) (same : Bool) (s : State) : Res :=
  onEvent t s fun s =>
    if s.saf.started || s.saf.fault != 0 then s
    else
      let s := s.setSaf { s.saf with bank := bankA % 65536 }
      if !passed then s.safFault 4
      else if bankA ≠ bankB ∨ !same then s.safFault 1
      else if !bankParity bankA then s.safFault 2
      else
        let s := s.setSaf { s.saf with started := true, bankOk := true, up := s.time.tick }
        let s := if s.saf.srst = 0 then s else (s.setSaf { s.saf with srst := 2 }).raise E.resetHeld 0 []
        s.safExchange.safBegin.safEvals

/-- SS1_DELAY_EXPIRY (R318). -/
def execSs1DelayExpiry (t group : Nat) (s : State) : Res :=
  onUnit t s (decide (group < 8)) fun s =>
    [0, 1].foldl (fun s p =>
      if s.gState p group = 3 ∧ (s.proc p).ss1At.getD group 0 + ss1Ns s.saf.bank ≤ s.time.tick then (s.setGroupState p group 0).groupSettle p group
      else s) s

/-! ### Reset (R319 to R321) -/

/-- SRST_PRESS. -/
def execSrstPress (t : Nat) (s : State) : Res :=
  onEvent t s fun s =>
    let r := s.saf
    if r.srst ≠ 0 then s else
      let ok := match r.relAt with
        | some x => decide (x + 50000000 ≤ s.time.tick)
        | none => true
      s.setSaf { r with srst := 1, srstAt := s.time.tick, srstOk := ok, relAt := if ok then none else r.relAt }

/-- A valid reset: the groups that are ready at the release are noted. -/
def State.safAsk (s : State) : State :=
  let ready (p : Nat) : Nat := (((List.range 8).filter fun g => s.gState p g == 2 && s.demands p g == 0 && !s.inputFault g).map (2 ^ ·)).sum
  [0, 1].foldl (fun s p => s.setProc p { s.proc p with rst := ready p }) (s.setSaf { s.saf with rstDue := true })

/-- SRST_RELEASE. -/
def execSrstRelease (t : Nat) (s : State) : Res :=
  onEvent t s fun s =>
    let r := s.saf
    let dt := s.time.tick - r.srstAt
    let s0 := s.setSaf { r with srst := 0 }
    if r.srst = 0 then s
    else if r.srst = 2 ∨ 3000000000 < dt then
      (s.setSaf { r with srst := 0, relAt := some s.time.tick }).raiseIf (r.srst == 1) E.resetHeld 0 []
    else if !r.srstOk then s.setSaf { r with srst := 0, relAt := some s.time.tick }
    else if dt < 50000000 then s0.raise E.resetTooShort 0 []
    else if r.started && r.fault == 0 then s0.safAsk else s0

/-- RESET_HELD. -/
def execResetHeld (t : Nat) (s : State) : Res :=
  onEvent t s fun s =>
    let r := s.saf
    if r.srst = 1 ∧ r.srstAt + 3000000000 < s.time.tick then (s.setSaf { r with srst := 2 }).raise E.resetHeld 0 [] else s

/-! ### The chip's side (R326 to R330, R333, R334) -/

/-- The parameters of Table 11.11 that a frame carries. -/
def State.safShow (s : State) (f : List Byte) : State :=
  let s := (List.range 8).foldl (fun s g => s.wr P.SafGroupState g (bitsOf (fld f 2 4) (4 * g + 3) (4 * g))) s
  let s := (List.range 12).foldl (fun s i => s.wr P.SafInputFault i (bitsOf (fld f 18 6) (4 * i + 3) (4 * i))) s
  let s := s.wr P.SafInputLevels 0 (fld f 8 2 % 4096 * 65536 + fld f 6 2 % 4096)
  let s := (s.wr P.SafOutputs 0 (fld f 10 2)).wr P.SafFault 0 (fld f 16 1)
  let s := (s.wr P.SafConfig 0 (fld f 12 2)).wr P.SafConfigChecksum 0 (fld f 14 2)
  let s := s.wrF P.SafSs1Delay 0 (mkRat (ss1Ns (fld f 12 2)) 1000000)
  let s := s.wrF P.SafDiscrepancyTime 0 (mkRat (discNs (fld f 12 2)) 1000000)
  let m := fld f 17 1
  let s := (s.wr P.SafReset 0 (bitsOf m 3 2)).wr P.SafMode 0 (m % 4 + (if bitOf m 4 then 4 else 0))
  s.wr P.SafFirmware 0 Config.safFirmware.toNat

/-- Group states of the two latest frames differ. -/
def SafRec.framesDiffer (r : SafRec) : Bool :=
  let a := r.frames.getD 0 []
  let b := r.frames.getD 1 []
  decide (a ≠ []) && decide (b ≠ []) && fld a 2 4 != fld b 2 4

/-- SAFETY_STATUS_FRAME. -/
def execSafetyStatusFrame (t proc : Nat) (bytes : List Byte) (s : State) : Res :=
  onUnit t s (decide (proc < 2)) fun s =>
    let r := s.saf
    if bytes.length ≠ 32 ∨ fld bytes 28 4 ≠ crc32 (bytes.take 28) then s.inc P.SafFrameErrors 0
    else
      let seq := fld bytes 1 1
      let ref := r.refs.getD proc 0
      let r := { r with refs := r.refs.set proc (seq + 1) }
      if ref = 0 ∨ seq = ref % 256 then
        let r := { r with frames := r.frames.set proc bytes, at_ := r.at_.set proc (s.time.tick + 1), lost := false }
        let n := if proc = 0 then r.unequal else if r.framesDiffer && decide (s.time.tick < r.at_.getD 0 0 + 999999) then r.unequal + 1 else 0
        let s := s.setSaf { r with unequal := n }
        let aLive := decide (s.time.tick < r.at_.getD 0 0 + 9999999) && decide (r.at_.getD 0 0 ≠ 0)
        let s := if proc = 0 || !aLive then s.safShow bytes else s
        s.raiseIf (proc == 1 && n == 3) E.safetyStatusDisagreement 0 []
      else (s.setSaf r).inc P.SafFrameErrors 0

/-- Tick of the frame that the parameters show, plus 1; 0 = none. -/
def SafRec.shownAt (r : SafRec) : Nat := max (r.at_.getD 0 0) (r.at_.getD 1 0)

/-- SAFETY_STATUS_LOST. -/
def execSafetyStatusLost (t : Nat) (s : State) : Res :=
  onEvent t s fun s =>
    if !s.saf.lost && decide (s.saf.shownAt + 9999999 ≤ s.time.tick) then
      (s.setSaf { s.saf with lost := true }).raise E.safetyStatusLost 0 []
    else s

/-- The group of an axis. -/
def State.axisGroup (s : State) (a : Nat) : Option Nat :=
  let g := s.rd P.SafStoGroup a
  if g < 8 then some g else none

/-- The comparison of R330 when a node's valid slot has been taken. -/
def State.stoCompare (s : State) (k : Nat) : State :=
  match (s.nodeAxes k).findSome? s.axisGroup with
  | none => s
  | some g =>
    let n := s.node k
    if n.sto == s.stoLine g then s.setNode k { n with mismatch := 0, misDone := false }
    else if n.mismatch = 0 then s.setNode k { n with mismatch := s.time.tick + 1 }
    else s

/-- STO_WIRING_MISMATCH (R330). -/
def execStoWiringMismatch (t node : Nat) (s : State) : Res :=
  onUnit t s (decide (1 ≤ node ∧ node ≤ 63)) fun s =>
    let n := s.node node
    if n.mismatch ≠ 0 ∧ !n.misDone ∧ n.mismatch + 19999999 ≤ s.time.tick then
      let s := s.setNode node { n with misDone := true }
      (s.nodeAxes node).foldl (fun s a =>
        match s.axisGroup a with
        | none => s
        | some g => (s.inc P.SafStoMismatch a).raise E.stoWiringMismatch a (leBytes 4 a ++ leBytes 4 node ++ leBytes 4 g)) s
    else s

/-- The group byte of an axis in StoMapSet. -/
def mapOf (b : List Byte) (a : Nat) : Nat := fld b a 1

/-- STO_MAP_SET (R328). -/
def execStoMapSet (t : Nat) (q : Req) (s : State) : Res :=
  runReq 0x0E01 t q s fun s =>
    let b := q.body
    let okG := (List.range 128).all fun a => decide (mapOf b a < 8) || mapOf b a == 0xFF
    let sameNode := (List.range 128).all fun a =>
      s.axisNode a == 0 || (s.nodeAxes (s.axisNode a)).all fun c => mapOf b c == mapOf b a
    let busy := (List.range 128).any fun a => s.axisOn a && mapOf b a != s.rd P.SafStoGroup a
    s.commitReq q 144 [(!okG || !sameNode, ⟨0x032A, 0, 0, 0⟩)] [(busy, ⟨0x0217, 0, 0, 0⟩)]

/-- StoMapSet at S(c). -/
def State.stoMapApply (s : State) (q : Req) : State :=
  let s := (List.range 128).foldl (fun s a => s.wr P.SafStoGroup a (mapOf q.body a)) s
  (List.range 8).foldl (fun s g => s.wr P.SafSs1Masters g (fld q.body (128 + 2 * g) 2)) s

/-- SAF_STATUS_READ (R334). -/
def execSafStatusRead (t : Nat) (q : Req) (s : State) : Res :=
  runReq 0x0E02 t q s fun s => .ok 0 (padTo 32 (s.saf.frames.getD 0 []) ++ padTo 32 (s.saf.frames.getD 1 [])) s

/-- SS1_LINE_ACTIVE (R329): the quick stops of a group. `fresh` are axes released at this sample instant. -/
def State.ss1Stops (s : State) (g : Nat) (fresh : List Nat) : State :=
  let ms := bitList 16 (s.rd P.SafSs1Masters g)
  let s := ms.foldl (fun s m =>
    if s.rd P.VmSource m = 2 then ((s.wr P.LineState 0 5).lineFlag vDIVERGED true).lineHalt
    else let r := s.vmr m; s.setVm m { r with gen := r.gen.stop true }) s
  let axes := (List.range 128).filter fun a => s.axisGroup a == some g && !fresh.contains a && !s.rb P.AxisHoldReason a
  let s := axes.foldl (fun s a =>
    match s.rd P.TrjSource a with
    | 0 => s.trjStop a true
    | 1 => if ms.contains (s.rd P.CplMaster a) then s else s.cplStop a true
    | _ => match s.pgOf a with
      | some (g, _) => if ms.contains (s.rd P.PgTimeBase g) then s.pgStop g true else s.pgLeave a true
      | none => s) s
  (List.range 16).foldl (fun s p => if axes.any (fun a => (s.pgOf a).map (·.1) == some p) then s.pgStop p true else s) s

end Sys2Proof.Machine
end

