-- ==== Sys2Proof/Machine/Reads.lean ====
section
/-!
DEFINITION. Motion parameters (0x3000 to 0x9FFF) that report other state, computed where they are read.
-/
namespace Sys2Proof.Machine

/-- Elements of a float32 × n report, element 0 lowest. -/
def packF (l : List Nat) : Nat := l.foldr (fun x a => x % 2 ^ 32 + a * 2 ^ 32) 0

/-- The value of a motion parameter, active copy. -/
def State.motionValue (s : State) (idx i : Nat) : Nat :=
  if idx = P.LoopDelay then ratToF32 (s.loopDelay i)
  else if idx = P.LoopCurGainMax then ratToF32 (s.curGainMax i)
  else if idx = P.GmApplied then packF ((List.range 8).map (s.applied i))
  else if idx = P.CmpState then setBit (s.rd idx i) 1 ((s.cmpU i).outAt s.lineNs)
  else if idx = P.CplState then
    let p (k : Nat) : Bool := (s.cplr i).pend.elim false fun x => x.kind == k
    setBit (setBit (setBit (s.rd idx i) cENGPEND (p 0 || s.hasCommit 0x0706 i)) cCHGPEND (p 2 || s.cplStaged.contains i)) cDISPEND (p 1 || s.hasCommit 0x0707 i)
  else if idx = P.MstChecksum then crc32 (s.mstBytes i)
  else if idx = P.MstUsers then ((List.range 128).filter fun a => s.axisOn a && s.rd P.ModStepTable a == i).length
  else if idx = P.FeRideMinBus then ratToF32 s.rideMinBus
  else if idx = P.DqOwner then s.dqOwner i
  else if idx = P.DqDiag then setBit (s.rd idx i) 0 (s.dqLevel i s.lineNs)
  else if idx = P.GroupSupply then Config.measured idx i s.time.tick
  else s.rd idx i

end Sys2Proof.Machine
end

