-- ==== Sys2Proof/Machine/Acquire.lean ====
section
/-!
DEFINITION. Acquisition units (chapter 15): channels, reductions, blocks, captures, triggers, rate reduction, reading.
-/
namespace Sys2Proof.Machine

def State.aqu (s : State) (u : Nat) : AqRec := tabGet s.aq AqRec.init u
def State.setAq (s : State) (u : Nat) (r : AqRec) : State := { s with aq := tabSet s.aq AqRec.init u r }

def State.aqRuns (s : State) (u : Nat) : Bool := decide (1 ≤ s.rd P.AqState u ∧ s.rd P.AqState u ≤ 3)

/-! ### Channels (R412, R414, R415) -/

/-- Fields of AqChanSignal. -/
def chClass (v : Nat) : Nat := bitsOf v 63 56
def chElem (v : Nat) : Nat := bitsOf v 55 48
def chReduce (v : Nat) : Nat := bitsOf v 47 40
def chIndex (v : Nat) : Nat := bitsOf v 31 16
def chUnit (v : Nat) : Nat := bitsOf v 15 0

/-- The channels of a unit. -/
def State.aqChans (s : State) (u : Nat) : List Nat := (List.range (s.rd P.AqChannels u)).map fun k => s.rd P.AqChanSignal (32 * u + k)

/-- Bytes a channel stores per frame; 0 for a digital level. -/
def chSize (v : Nat) : Nat :=
  if chClass v = 4 then 0
  else if chClass v = 1 ∧ (paramRow (chIndex v)).elim false (fun r => r.type == .i64) then 8 else 4

/-- A digital level code that Table 15.2 defines. -/
def levelCode (c : Nat) : Bool :=
  decide (c < 0x00C) || decide (0x010 ≤ c ∧ c < 0x01C) || decide (0x020 ≤ c ∧ c < 0x02C) || decide (0x030 ≤ c ∧ c < 0x03C) ||
    decide (0x040 ≤ c ∧ c < 0x058) || decide (0x060 ≤ c ∧ c < 0x06C) || decide (0x080 ≤ c ∧ c < 0x0A0) ||
    decide (0x0A0 ≤ c ∧ c < 0x0C0) || decide (0x0C0 ≤ c ∧ c < 0x0E0)

/-- A parameter row has an instance. -/
def rowHas (r : ParamRow) (i : Nat) : Bool := r.insts.any fun x => decide (x.1 ≤ i ∧ i ≤ x.2)

/-- A descriptor is valid for a unit of a class (R412, R414). -/
def State.chanOk (s : State) (fast : Bool) (v : Nat) : Bool :=
  let red := chReduce v
  decide (red ≤ 3) && match chClass v with
    | 1 => decide (0x3000 ≤ chIndex v ∧ chIndex v ≤ 0x9FFF) && (match paramRow (chIndex v) with
      | none => false
      | some r => rowHas r (chUnit v) && (match r.type with
        | .u32 => chElem v == 0
        | .i32 => chElem v == 0
        | .f32 => chElem v == 0
        | .i64 => chElem v == 0
        | .f32n n => decide (chElem v < n)
        | _ => false) && (red == 0 || !enumParams.contains (chIndex v)))
    | 2 => decide (1 ≤ chIndex v ∧ chIndex v ≤ 11 ∧ chUnit v < 128)
    | 3 => fast && decide (chUnit v < 12)
    | 4 => fast && levelCode (chUnit v) && red != 3 &&
        (if 0x080 ≤ chUnit v ∧ chUnit v < 0x0A0 then bitOf (s.rd P.CmpTarget (chUnit v - 0x080)) 17 else true)
    | _ => false

/-- A bit at a rising edge of SDCLK enters a filter with decimation `m`; a complete result every `m` bits (R280, R413). -/
def State.sincTake (s : State) (m input : Nat) (r : SincRec) (b : Bool) : SincRec :=
  let bits := (b :: r.bits).take (3 * m - 2)
  let since := r.since + 1
  if bits.length = 3 * m - 2 ∧ m ≤ since then { bits := bits, since := 0, val := ratToF32 (s.sdScaled input (onesDensity m bits)) }
  else { r with bits := bits, since := since }

/-- The filters of a unit begin with its arming; the value held before the first complete result is FREE
(notes/assumptions/93.md). -/
def State.sincArm (s : State) (u : Nat) : State :=
  let chs := s.aqChans u
  let s := s.setAq u { s.aqu u with sinc := [] }
  (List.range chs.length).foldl (fun s k =>
    if chClass (chs.getD k 0) = 3 then
      let (x, s) := s.takeFree 10
      s.setAq u { s.aqu u with sinc := tabSet (s.aqu u).sinc SincRec.init k { SincRec.init with val := uNat 32 x } }
    else s) s

/-- The value of a cycle signal (classes 1 and 2), as stored. -/
def State.chanValue (s : State) (v : Nat) : Nat :=
  match chClass v with
  | 1 => match (paramRow (chIndex v)).map ParamRow.type with
    | some (PType.f32n _) => s.motionValue (chIndex v) (chUnit v) / 2 ^ (32 * chElem v) % 2 ^ 32
    | _ => s.motionValue (chIndex v) (chUnit v)
  | 2 => (s.axis (chUnit v)).mon.getD (chIndex v - 1) 0
  | _ => 0

/-- A channel holds binary32, unsigned or signed integers of some width, or a level. -/
inductive ChKind where
  | flt | uns | sgn (w : Nat) | dig
  deriving DecidableEq, Repr

def chKind (v : Nat) : ChKind :=
  match chClass v with
  | 4 => .dig
  | 1 => match (paramRow (chIndex v)).map ParamRow.type with
    | some PType.u32 => .uns
    | some PType.i32 => .sgn 32
    | some PType.i64 => .sgn 64
    | _ => .flt
  | _ => .flt

/-- A stored value in engineering units. -/
def sigNum (k : ChKind) (x : Nat) : Rat :=
  match k with
  | .flt => f32ToRat x
  | .sgn w => sInt w x
  | _ => x

/-- One channel over the base samples of an interval, oldest first (R414). -/
def reduce (v : Nat) (xs : List Nat) : Nat :=
  let k := chKind v
  let pick (better : Rat → Rat → Bool) : Nat := match xs with
    | [] => 0
    | x :: r => r.foldl (fun b y => if better (sigNum k y) (sigNum k b) then y else b) x
  match chReduce v with
  | 1 => pick fun a b => decide (a < b)
  | 2 => pick fun a b => decide (b < a)
  | 3 => match k with
    | .flt =>
      let sum := xs.foldl (fun (a : Rat) x => f64ToRat (ratToF64 (a + f32ToRat x))) 0
      ratToF32 (f64ToRat (ratToF64 (sum / xs.length)))
    | .sgn w => uNat w (roundHE ((xs.map (sInt w)).sum / (xs.length : Rat)))
    | _ => (roundHE ((xs.sum : Nat) / (xs.length : Rat))).toNat
  | _ => xs.getLastD 0

/-- FRAMESIZE (R415). -/
def frameSize (chs : List Nat) : Nat :=
  let n := (chs.map chSize).sum + (if chs.any (fun v => chClass v == 4) then 4 else 0)
  max 8 ((n + 7) / 8 * 8)

/-- F_b. -/
def perBlock (chs : List Nat) : Nat := 4032 / frameSize chs

/-- A frame from the base samples of its interval, oldest first (R415). -/
def frameBytes (chs : List Nat) (rows : List (List Nat)) : List Byte :=
  let vals := (List.range chs.length).map fun k => (chs.getD k 0, reduce (chs.getD k 0) (rows.map fun r => r.getD k 0))
  let part (n : Nat) := (vals.filter fun x => chSize x.1 == n && chClass x.1 != 4).flatMap fun x => leBytes n x.2
  let dig := (vals.filter fun x => chClass x.1 == 4).map (·.2 % 2)
  let word := ((List.range dig.length).map fun i => dig.getD i 0 * 2 ^ i).sum
  padTo (frameSize chs) (part 8 ++ part 4 ++ (if dig = [] then [] else leBytes 4 word))

/-! ### Blocks (Table 15.3) -/

def blockBytes (u cap fsize seg nch ndig : Nat) (b : AqBlk) : List Byte :=
  let h := leBytes 2 1 ++ leBytes 1 u ++ leBytes 1 b.flags ++ leBytes 4 cap ++ leBytes 4 b.bseq ++ leBytes 2 b.frames.length ++
    leBytes 2 fsize ++ leBytes 8 b.t0 ++ leBytes 4 b.cycle0 ++ leBytes 4 b.d ++ leBytes 2 (b.trigF.getD 0xFFFF) ++ leBytes 2 b.skip ++
    leBytes 8 b.ttrig ++ leBytes 1 seg ++ leBytes 1 nch ++ leBytes 1 ndig ++ List.replicate 13 0
  padTo 4096 (h ++ leBytes 4 (crc32 h) ++ b.frames.flatten)

/-- The number of the running capture. -/
def AqRec.capNo (r : AqRec) : Nat := if r.caSeq = 0xFFFFFFFF then 1 else r.caSeq + 1

/-- Blocks of a segment (R416, R421). -/
def State.segBlocks (s : State) (u : Nat) : Nat := s.rd P.AqBufferSize u * 256 / s.rd P.AqSegments u

/-- Blocks of the segment in use. -/
def State.segRoom (s : State) (u : Nat) : Nat :=
  let r := s.aqu u
  s.segBlocks u - (if r.seg + 1 = s.rd P.AqSegments u then r.lost else 0)

/-- Store a block's bytes. -/
def State.putBlock (s : State) (u : Nat) (b : AqBlk) : State :=
  let r := s.aqu u
  let chs := s.aqChans u
  let nd := (chs.filter fun v => chClass v == 4).length
  s.setAq u { r with blocks := tabSet r.blocks [] b.no (blockBytes u r.capNo (frameSize chs) r.seg chs.length nd b) }

/-- Bytes in the staging store. -/
def AqRec.held (r : AqRec) : Nat :=
  4096 * r.staged.length + (r.blk.elim 0 fun b => 64 + (b.frames.map List.length).sum)

/-- Keep the instant since which the staging store holds less than 16 KB. -/
def State.aqLow (s : State) (u : Nat) : State :=
  let r := s.aqu u
  if r.held < 16384 then s else s.setAq u { r with lowAt := s.time.tick }

/-- Reports of the divider. -/
def State.aqDivReport (s : State) (u : Nat) : State :=
  (s.wr P.AqEffDivider u (s.aqu u).d).wrBit P.AqFlags u 2 (decide (s.rd P.AqDivider u < (s.aqu u).d))

/-- A block boundary: the divider changes here only (R420). -/
def State.aqBoundary (s : State) (u : Nat) : State :=
  let r := s.aqu u
  let dv := s.rd P.AqDivider u
  let up := s.rb P.AqAutoReduce u && decide (49152 < r.held) && decide (2 * r.d ≤ 256 * dv)
  let down := !up && r.halve && decide (dv ≤ r.d / 2)
  let d := if up then 2 * r.d else if down then r.d / 2 else r.d
  let s := (s.setAq u { r with d := d, halve := false, chg := up || down }).aqDivReport u
  if up then (s.inc P.AqRateReductions u).raise E.acquisitionRateReduced u [] else s

/-- Open a block with the first frame of it. -/
def State.openBlock (s : State) (u t0 cyc : Nat) : State :=
  let r := s.aqu u
  let b : AqBlk := { no := r.seg * s.segBlocks u + r.pos, first := r.frame, frames := [], t0 := t0, cycle0 := cyc, d := r.d
                     flags := if r.chg then 64 else 0, trigF := none, ttrig := 0, skip := 0, bseq := 0 }
  s.setAq u { r with blk := some b, chg := false }

/-- Close the open block: it is staged, and its bytes are what the buffer will hold. -/
def State.closeBlock (s : State) (u : Nat) : State :=
  let r := s.aqu u
  match r.blk with
  | none => s
  | some b =>
    let b := { b with bseq := r.bSeq }
    let n := max 1 (s.segRoom u)
    let s := s.setAq u { r with
      blk := none, pos := (r.pos + 1) % n, ring := (b :: r.ring).take n, staged := r.staged ++ [b.no], bSeq := (r.bSeq + 1) % 2 ^ 32 }
    (s.putBlock u b).aqLow u

/-! ### Captures (R417) -/

/-- A capture begins in the present segment at the next frame: a completed capture held there is overwritten. -/
def State.capBegin (s : State) (u : Nat) : State :=
  let r := s.aqu u
  let gone := r.caps.filter fun c => c.seg == r.seg
  let s := s.setAq u { r with
    start := r.frame, pos := 0, ring := [], blk := none, acc := [], cand := none, trig := none, waitAt := s.lineNs
    caps := r.caps.filter fun c => c.seg != r.seg }
  let s := gone.foldl (fun s _ => s.inc P.AqOverwritten u) s
  s.wr P.AqState u (if s.rd P.AqPreTrigger u = 0 then 2 else 1)

/-- The last frame of a capture with a trigger in frame `t`. -/
def State.capEnd (s : State) (u t : Nat) : Nat := t + s.rd P.AqFrames u - s.rd P.AqPreTrigger u - 1

/-- ACQ_CAPTURE_COMPLETE. -/
def State.capDone (s : State) (u : Nat) : State :=
  match (s.aqu u).trig with
  | none => s
  | some tg =>
    let cut := (s.aqu u).blk.isSome
    let s := s.closeBlock u
    let r := s.aqu u
    let f0 := tg.frame - s.rd P.AqPreTrigger u
    let own := (r.ring.filter fun b => decide (f0 < b.first + b.frames.length)).reverse
    let lastNo := (own.getLast?.map (·.no)).getD 0
    let fix (b : AqBlk) : AqBlk :=
      let has := decide (b.first ≤ tg.frame ∧ tg.frame < b.first + b.frames.length)
      let isFirst := decide (b.first ≤ f0 ∧ f0 < b.first + b.frames.length)
      { b with flags := b.flags + (if b.no = lastNo then 2 else 0) + (if isFirst then 4 else 0) + (if has then tg.flags else 0)
               trigF := if has then some (tg.frame - b.first) else none, ttrig := if has then tg.time else 0
               skip := if isFirst then f0 - b.first else 0 }
    let own := own.map fix
    let s := own.foldl (fun s b => s.putBlock u b) s
    let cap : AqCap := { seq := r.capNo, seg := r.seg, flags := (own.map (·.flags)).foldl Nat.lor 0, ttrig := tg.time, blocks := own.map (·.no) }
    let r := s.aqu u
    let s := s.setAq u { r with caps := r.caps ++ [cap], caSeq := r.capNo, trig := none, force := false }
    let s := (s.wr P.AqLastCapture u cap.seq).raise E.acquisitionCaptureComplete u (leBytes 4 cap.seq ++ stampBytes tg.time 0)
    if s.rd P.AqMode u = 0 then
      (s.setAq u { s.aqu u with acc := [], blk := none, ring := [], cand := none, seg := (r.seg + 1) % max 1 (s.rd P.AqSegments u) }).wr P.AqState u 4
        |>.wrBit P.AqFlags u 0 false
    else
      let s := if cut then s.aqBoundary u else s
      let r := s.aqu u
      (s.setAq u { r with seg := (r.seg + 1) % max 1 (s.rd P.AqSegments u) }).capBegin u

/-- A trigger is taken at a base sample of a frame; the capture may already have its last frame. -/
def State.aqTake (s : State) (u frame time flags : Nat) : State :=
  let r := s.aqu u
  let s := s.setAq u { r with trig := some { frame := frame, time := time, flags := flags }, cand := none, force := false }
  let s := (s.wr P.AqState u 3).wr P.AqLastTrigTime u (time)
  if s.capEnd u frame < r.frame then s.capDone u else s

/-- The unit disarms and drops a capture that has not completed (R419, R420). -/
def State.aqDisarm (s : State) (u st : Nat) : State :=
  let s := s.setAq u { s.aqu u with
    acc := [], blk := none, ring := [], cand := none, trig := none, force := false, stop := false, staged := [] }
  (s.wr P.AqState u st).wrBit P.AqFlags u 0 false

/-! ### Triggers (R418) -/

/-- The base period in ns. -/
def State.basePeriod (s : State) (u : Nat) : Nat := if s.rd P.AqClass u = 1 then 10 else s.cycleNs

/-- A new value against a level: the crossings, and the logic after it. -/
def AqLevel.step (x : AqLevel) (l h v : Rat) (i : Nat) : Bool × Bool × AqLevel :=
  let up := x.below && decide (l ≤ v)
  let dn := x.above && decide (v ≤ l)
  (up, dn, { below := if v < l - h then true else if up then false else x.below
             above := if l + h < v then true else if dn then false else x.above
             rise := if up then some i else x.rise, fall := if dn then some i else x.fall })

/-- AqTrigCondition on a duration in µs. -/
def State.durationOk (s : State) (u : Nat) (w : Rat) : Bool :=
  let a := s.rf P.AqTrigTime1 u
  let b := s.rf P.AqTrigTime2 u
  match s.rd P.AqTrigCondition u with
  | 0 => decide (w < a)
  | 1 => decide (a < w)
  | 2 => decide (a ≤ w ∧ w ≤ b)
  | _ => decide (w < a) || decide (b < w)

/-- A mark lies after another; marks are base samples. -/
def laterThan (a b : Option Nat) : Bool :=
  match a, b with
  | some x, some y => decide (y < x)
  | some _, none => true
  | none, _ => false

/-- The trigger condition on a base sample, and the logic after it (Table 15.4). -/
def State.trigStep (s : State) (u : Nat) (v : Rat) : Bool × AqRec :=
  let r := s.aqu u
  let dig := decide (chClass (s.rd P.AqChanSignal (32 * u + s.rd P.AqTrigChannel u)) = 4)
  let l1 : Rat := if dig then 1 / 2 else s.rf P.AqTrigLevel1 u
  let l2 : Rat := if dig then 1 / 2 else s.rf P.AqTrigLevel2 u
  let h : Rat := if dig then 0 else s.rf P.AqTrigHyst u
  let i := r.idx
  let (u1, d1, x1) := r.lv1.step l1 h v i
  let (u2, _, x2) := r.lv2.step l2 h v i
  let sl := s.rd P.AqTrigSlope u
  let pos := sl == 1 || sl == 3
  let neg := sl == 2 || sl == 3
  let per : Rat := mkRat (s.basePeriod u) 1000
  let dur (m : Option Nat) : Bool := m.elim false fun x => s.durationOk u (((i - x : Nat) : Rat) * per)
  let reached (m : Option Nat) : Bool := m.elim false fun x => decide (s.rf P.AqTrigTime1 u ≤ ((i - x : Nat) : Rat) * per)
  let cross := u1 || d1
  let quiet := !cross && !r.fired &&
    ((pos && laterThan x1.rise x1.fall && reached x1.rise) || (neg && laterThan x1.fall x1.rise && reached x1.fall))
  let hit := match s.rd P.AqTrigType u with
    | 1 => (pos && u1) || (neg && d1)
    | 2 => (pos && d1 && laterThan r.lv1.rise r.lv1.fall && dur r.lv1.rise) || (neg && u1 && laterThan r.lv1.fall r.lv1.rise && dur r.lv1.fall)
    | 3 => (pos && d1 && r.lv1.rise.isSome && !(laterThan x2.rise r.lv1.rise || (r.lv1.rise == x2.rise && x2.rise.isSome))) ||
        (neg && u2 && r.lv2.fall.isSome && !(laterThan x1.fall r.lv2.fall || (r.lv2.fall == x1.fall && x1.fall.isSome)))
    | 4 => quiet
    | 5 => (pos && u2 && dur x1.rise) || (neg && d1 && dur x2.fall)
    | _ => false
  (hit, { r with lv1 := x1, lv2 := x2, fired := if cross then false else r.fired || quiet })

/-! ### Base samples (R411, R417, R419) -/

/-- A frame is formed from the base samples of its interval; `time` is the line time of the last one. -/
def State.formFrame (s : State) (u time cyc : Nat) (rephase : Bool) : State :=
  let s := if (s.aqu u).blk = none then s.openBlock u time cyc else s
  let r := s.aqu u
  let chs := s.aqChans u
  match r.blk with
  | none => s
  | some b =>
    let b := { b with frames := b.frames ++ [frameBytes chs r.acc.reverse]
                      flags := if rephase && b.flags % 2 == 0 then b.flags + 1 else b.flags }
    let f := r.frame
    let s := s.setAq u { r with blk := some b, acc := [], frame := f + 1 }
    let s := if b.frames.length = perBlock chs then (s.closeBlock u).aqBoundary u else s
    match s.rd P.AqState u, r.trig with
    | 1, _ => if s.rd P.AqPreTrigger u ≤ f + 1 - r.start then (s.setAq u { s.aqu u with waitAt := time }).wr P.AqState u 2 else s
    | 3, some tg => if s.capEnd u tg.frame ≤ f then s.capDone u else s
    | _, _ => s

/-- One base sample: its channel values as stored, and its line time. -/
def State.baseSample (s : State) (u : Nat) (row : List Nat) (time cyc : Nat) (rephase : Bool) : State :=
  if !s.aqRuns u then s else
  let ch := s.rd P.AqTrigChannel u
  let v := sigNum (chKind (s.rd P.AqChanSignal (32 * u + ch))) (row.getD ch 0)
  let waits := s.rd P.AqState u == 2
  let (hit, r) := s.trigStep u v
  let forced := waits && r.force && !hit && r.cand.isNone
  let r := { r with acc := row :: r.acc, idx := r.idx + 1, cand := if waits && hit && r.cand.isNone then some (r.frame, time) else r.cand }
  let s := s.setAq u r
  let s := if forced then s.aqTake u r.frame time (32 + 8) else s
  let r := s.aqu u
  let s := if r.d ≤ r.acc.length then s.formFrame u time cyc rephase else s
  let s := s.aqLow u
  if (s.aqu u).stop && s.aqRuns u then s.aqDisarm u 0 else s

/-- The base samples of the cycle units for the present S(n), taken before the next cycle begins. -/
def State.aqCycle (s : State) : State :=
  (List.range 4).foldl (fun s u =>
    if s.aqRuns u && s.rd P.AqClass u == 0 && decide (0 < (s.aqu u).d) then
      s.baseSample u ((s.aqChans u).map s.chanValue) s.time.lastS s.time.cycle s.time.offGrid
    else s) s

/-- A digital level of Table 15.2 at a line time: those the device forms or holds from its state; the pins of gate pairs, encoder lines and
trip inputs as sampled (`pin`). -/
def State.levelNow (s : State) (code pin time : Nat) : Nat :=
  let bit (p k : Nat) := s.rd p 0 / 2 ^ k % 2
  if 0x080 ≤ code ∧ code < 0x0A0 then ((s.cmpU (code - 0x080)).levelAt time).toNat
  else if 0x0A0 ≤ code ∧ code < 0x0C0 then bit P.DiState (code - 0x0A0)
  else if 0x0C0 ≤ code ∧ code < 0x0D0 then bit P.LiState (code - 0x0C0)
  else if 0x0D0 ≤ code then bit P.DqState (code - 0x0D0)
  else pin % 2

/-- The values of a fast unit's channels at a base sample. `pins` holds, by channel, the level of a pin as sampled, and for a sigma-delta
input the bit of an SDCLK edge in this base period: 0 none, 1 a zero, 2 a one (DESIGN CHOICE, notes/assumptions/93.md). -/
def State.fastRow (s : State) (u time : Nat) (pins : List Nat) : List Nat × State :=
  let chs := s.aqChans u
  let m := s.rd P.AqSdDecimation u
  (List.range chs.length).foldl (fun (x : List Nat × State) k =>
    let v := chs.getD k 0
    let pin := pins.getD k 0
    let s := x.2
    match chClass v with
    | 3 =>
      let r := tabGet (s.aqu u).sinc SincRec.init k
      let r := if pin = 0 then r else s.sincTake m (chUnit v) r (pin == 2)
      (x.1 ++ [r.val], s.setAq u { s.aqu u with sinc := tabSet (s.aqu u).sinc SincRec.init k r })
    | 4 => (x.1 ++ [s.levelNow (chUnit v) pin time], s)
    | _ => (x.1 ++ [s.chanValue v], s)) ([], s)

/-- ACQ_FRAME_FORMED: base samples of a fast unit, oldest first, up to the one that completes an interval or after which a cycle signal
changes; its first is the first at or after S(c) (R411, R417). -/
def execAcqFrameFormed (t unit : Nat) (samples : Samples) (s : State) : Res :=
  onUnit t s (decide (unit < 4)) fun s =>
    if s.rd P.AqClass unit ≠ 1 then s else
      let tl := s.lineNs / 10 * 10
      let n := samples.length
      (List.range n).foldl (fun s i =>
        let time := tl - 10 * (n - 1 - i)
        if !s.aqRuns unit || ((s.aqu unit).idx == 0 && decide (time < (s.aqu unit).waitAt)) then s else
          let (row, s) := s.fastRow unit time (samples.getD i [])
          s.baseSample unit row time s.time.cycle false) s

/-- ACQ_TRIGGER. -/
def execAcqTrigger (t unit : Nat) (s : State) : Res :=
  onUnit t s (decide (unit < 4)) fun s =>
    match (s.aqu unit).cand with
    | some (f, time) => if s.rd P.AqState unit = 2 then s.aqTake unit f time 32 else s
    | none => s

/-- The line time of the present base sample (R411). -/
def State.baseTime (s : State) (u : Nat) : Nat := if s.rd P.AqClass u = 1 then s.lineNs / 10 * 10 else s.time.lastS

/-- ACQ_AUTO_TIMEOUT, at the base sample at which the time is reached (R419). -/
def execAcqAutoTimeout (t unit : Nat) (s : State) : Res :=
  onUnit t s (decide (unit < 4)) fun s =>
    let r := s.aqu unit
    let time := s.baseTime unit
    if s.rd P.AqState unit = 2 ∧ s.rd P.AqMode unit = 2 ∧ s.rf P.AqAutoTimeout unit * 1000000 ≤ ((time - r.waitAt : Nat) : Rat) then
      match r.cand with
      | some (f, time) => s.aqTake unit f time 32
      | none => s.aqTake unit r.frame time (32 + 16)
    else s

/-! ### Staging (R420) -/

/-- ACQ_BLOCK_WRITE: the oldest staged block reaches the buffer. -/
def execAcqBlockWrite (t unit : Nat) (s : State) : Res :=
  onUnit t s (decide (unit < 4)) fun s =>
    let r := s.aqu unit
    let was := decide (r.held < 16384)
    let r := { r with staged := r.staged.drop 1 }
    s.setAq unit { r with lowAt := if !was && decide (r.held < 16384) then s.time.tick else r.lowAt }

/-- The unit stops with an overrun. -/
def State.aqOverrun (s : State) (u : Nat) : State :=
  ((s.aqDisarm u 5).wrBit P.AqFlags u 1 true).raise E.acquisitionOverrun u []

/-- ACQ_OVERRUN. -/
def execAcqOverrun (t unit : Nat) (s : State) : Res :=
  onUnit t s (decide (unit < 4)) fun s => if s.aqRuns unit && decide (65536 ≤ (s.aqu unit).held) then s.aqOverrun unit else s

/-- ACQ_RATE_RESTORE: the divider halves at the next block boundary. -/
def execAcqRateRestore (t unit : Nat) (s : State) : Res :=
  onUnit t s (decide (unit < 4)) fun s =>
    let r := s.aqu unit
    if s.aqRuns unit && decide (r.held < 16384) && decide (r.lowAt + 1000000 ≤ s.time.tick) && decide (s.rd P.AqDivider unit < r.d) then
      s.setAq unit { r with halve := true, lowAt := s.time.tick }
    else s

/-! ### Commands (R416, R417, R419, R422, R425) -/

/-- AqDemand in MB/s. -/
def State.aqDemand (s : State) (u : Nat) : Rat :=
  let fr : Rat := 1000000000 / ((s.basePeriod u * s.rd P.AqDivider u : Nat) : Rat)
  fr / (perBlock (s.aqChans u)) * 4096 / 1000000

/-- F_b and AqDemand as reported. -/
def State.aqReport (s : State) (u : Nat) : State :=
  (s.wr P.AqFramesPerBlock u (perBlock (s.aqChans u))).wrF P.AqDemand u (s.aqDemand u)

/-- The first channel whose descriptor is invalid. -/
def State.badChan (s : State) (u : Nat) : Option Nat :=
  let chs := s.aqChans u
  (List.range chs.length).find? fun k => !s.chanOk (s.rd P.AqClass u == 1) (chs.getD k 0)

/-- Other grounds of 0x032D (R416, R418). -/
def State.aqBad (s : State) (u : Nat) : Bool :=
  let fb := perBlock (s.aqChans u)
  let ty := s.rd P.AqTrigType u
  s.rd P.AqBufferSize u == 0 || decide ((s.segBlocks u - 1) * fb < s.rd P.AqFrames u) || decide (s.rd P.AqFrames u ≤ s.rd P.AqPreTrigger u) ||
    (!s.rb P.AqAutoReduce u && decide (2000 < s.aqDemand u)) ||
    ((ty == 3 || ty == 5) && decide (s.rf P.AqTrigLevel2 u ≤ s.rf P.AqTrigLevel1 u)) ||
    ((ty == 2 || ty == 4 || ty == 5) && decide (s.rf P.AqTrigTime1 u ≤ 0))

/-- ACQ_ARM. -/
def execAcqArm (t : Nat) (q : Req) (s : State) : Res :=
  runReq 0x0B01 t q s fun s =>
    let u := q.inst
    s.commitReq q 0 [((s.badChan u).isSome, ⟨0x032D, 0, (s.badChan u).getD 0, 0⟩), (s.aqBad u, ⟨0x032D, 0, 0, 0⟩)] []

/-- AcqArm at S(c). -/
def State.aqArm (s : State) (u : Nat) : State :=
  let s := if s.aqRuns u then s.aqDisarm u 0 else s
  let r := s.aqu u
  let s := s.setAq u { r with
    d := s.rd P.AqDivider u, idx := 0, frame := 0, staged := [], lowAt := s.time.tick, halve := false, chg := false, lv1 := AqLevel.init, lv2 := AqLevel.init
    fired := false, force := false, stop := false, seg := r.seg % max 1 (s.rd P.AqSegments u) }
  let s := (s.wrBit P.AqFlags u 1 false).wrBit P.AqFlags u 0 true
  ((s.sincArm u).aqDivReport u |>.aqReport u).capBegin u

/-- ACQ_STOP. -/
def execAcqStop (t : Nat) (q : Req) (s : State) : Res :=
  runReq 0x0B02 t q s fun s => .ok 0 [] (if s.aqRuns q.inst then s.setAq q.inst { s.aqu q.inst with stop := true } else s)

/-- ACQ_FORCE. -/
def execAcqForce (t : Nat) (q : Req) (s : State) : Res :=
  runReq 0x0B03 t q s fun s =>
    let st := s.rd P.AqState q.inst
    guarded [(decide (st ≠ 1 ∧ st ≠ 2), ⟨0x0234, 0, 0, 0⟩)] (.ok 0 [] (s.setAq q.inst { s.aqu q.inst with force := true }))

/-- ACQ_READ. -/
def execAcqRead (t : Nat) (q : Req) (s : State) : Res :=
  runReq 0x0B04 t q s fun s =>
    let r := s.aqu q.inst
    let n := fld q.body 6 2
    if n < 1 ∨ 64 < n then .no ⟨0x0304, 0, 0, 0⟩ else
      match r.caps.find? fun c => c.seq == fld q.body 0 4 with
      | none => .no ⟨0x0235, 0, 0, 0⟩
      | some c =>
        let bs := (c.blocks.drop (fld q.body 4 2)).take n
        .ok 0 (leBytes 2 bs.length ++ [0, 0] ++ bs.flatMap (fun b => padTo 4096 (tabGet r.blocks [] b))) s

/-- ACQ_CAPTURES. -/
def execAcqCaptures (t : Nat) (q : Req) (s : State) : Res :=
  runReq 0x0B05 t q s fun s =>
    let cs := (s.aqu q.inst).caps
    .ok 0 (leBytes 2 cs.length ++ [0, 0] ++
      cs.flatMap fun c => leBytes 4 c.seq ++ leBytes 1 c.seg ++ leBytes 1 c.flags ++ [0, 0] ++ leBytes 8 c.ttrig) s

/-- ACQ_GRANT. -/
def execAcqGrant (t : Nat) (q : Req) (s : State) : Res :=
  runReq 0x0B06 t q s fun s =>
    let u := q.inst
    let k := fld q.body 0 1
    let va := fld q.body 4 8
    let g := s.rd P.AqGrant u
    guarded [(decide (63 < k ∨ va % 2097152 ≠ 0), ⟨0x0304, 0, 0, 0⟩), (s.rd P.TaskState k != 3, ⟨0x0232, 0, 0, 0⟩),
        (decide (g ≠ 0xFF ∧ g ≠ k), ⟨0x0233, 0, 0, 0⟩)] <|
      .ok 0 [] (((s.setAq u { s.aqu u with win := va }).wr P.AqGrant u k).wrBit P.AqFlags u 3 true)

/-- End a unit's window. -/
def State.aqRevoke (s : State) (u : Nat) : State := (s.wr P.AqGrant u 0xFF).wrBit P.AqFlags u 3 false

/-- ACQ_REVOKE. -/
def execAcqRevoke (t : Nat) (q : Req) (s : State) : Res :=
  runReq 0x0B07 t q s fun s => .ok 0 [] (s.aqRevoke q.inst)

/-! ### Memory errors and write rules (R421, R424) -/

/-- A block in the making whose stored copy was rewritten with DATAERR and no data. -/
def AqBlk.spoil (b : AqBlk) : AqBlk := { b with flags := setBit b.flags 7 true, frames := b.frames.map fun f => List.replicate f.length 0 }

/-- An uncorrectable error in a block of a unit's buffer. -/
def State.aqDataError (s : State) (u off : Nat) : State :=
  let r := s.aqu u
  let k := off / 4096
  let b := tabGet r.blocks [] k
  let s := if b = [] then s else
    let fl := fld b 3 1
    let h := patch (b.take 60) 3 (leBytes 1 (setBit fl 7 true))
    let cap := fld b 4 4
    let s := s.setAq u { r with
      blocks := tabSet r.blocks [] k (padTo 4096 (h ++ leBytes 4 (crc32 h)))
      ring := r.ring.map fun x => if x.no = k then x.spoil else x
      caps := r.caps.map fun c => if c.blocks.contains k then { c with flags := setBit c.flags 7 true } else c }
    (s.inc P.AqDataErrors u).raise E.acquisitionDataError u (leBytes 4 u ++ leBytes 4 cap)
  let s := s.setAq u { s.aqu u with lost := r.lost + 1 }
  let nb := s.segBlocks u - (r.lost + 1)
  if s.aqRuns u && decide ((nb - 1) * perBlock (s.aqChans u) < s.rd P.AqFrames u) then s.aqOverrun u else s

/-- The acquisition island halts: the units stop (R410). -/
def State.aqHalt (s : State) : State := (List.range 4).foldl (fun s u => if s.aqRuns u then s.aqDisarm u 0 else s) s

/-- Refusals of a write to an acquisition parameter (R416, R422, R424). -/
def State.aqWriteBad (s : State) (idx i v : Nat) : List (Bool × Rsn) :=
  let u := if idx = P.AqChanSignal then i / 32 else i
  let own := decide (0xA000 ≤ idx ∧ idx ≤ 0xA018)
  let sizes := ((List.range 4).map fun k => if k = u then v else s.rdShadow P.AqBufferSize k).sum
  [(decide (idx = P.AqFrames) && decide (v < 16), ⟨0x0304, 0, 0, 0⟩),
   (decide (idx = P.AqTrigTime2) && decide (f32ToRat v < s.rf P.AqTrigTime1 u), ⟨0x0304, 0, 0, 0⟩),
   (decide (idx = P.AqTrigChannel) && decide (s.rd P.AqChannels u ≤ v), ⟨0x0304, 0, 0, 0⟩),
   (decide (idx = P.AqPreTrigger) && decide (s.rd P.AqFrames u ≤ v), ⟨0x0304, 0, 0, 0⟩),
   (own && s.aqRuns u, ⟨0x0219, 0, 0, 0⟩),
   (decide (idx = P.AqBufferSize ∨ idx = P.AqSegments) && s.rd P.AqGrant u != 0xFF, ⟨0x0233, 0, 0, 0⟩),
   (decide (idx = P.AqBufferSize) && decide (s.rd P.MemPartitionSize 3 < sizes), ⟨0x0408, 0, 0, 0⟩)]

/-- What a change brings: reports; a new layout of the buffer holds no captures. -/
def State.aqChanged (s : State) (idx i : Nat) : State :=
  let u := if idx = P.AqChanSignal then i / 32 else i
  let s := if idx = P.AqBufferSize ∨ idx = P.AqSegments then
      s.setAq u { s.aqu u with caps := [], seg := 0, pos := 0, ring := [], blocks := [], staged := [], lost := 0 }
    else s
  if [P.AqClass, P.AqDivider, P.AqChannels, P.AqChanSignal].contains idx then
    let s := if idx = P.AqDivider then (s.setAq u { s.aqu u with d := s.rd P.AqDivider u }).aqDivReport u else s
    s.aqReport u
  else s

end Sys2Proof.Machine
end

