-- ==== Sys2Proof/Machine/Host.lean ====
section
/-!
DEFINITION. Command packets and host transports (chapter 13): arrival and start of packets, replies and events, the PCI
Express host block, ARP and ICMP.
-/
namespace Sys2Proof.Machine

/-! ### Packets -/

/-- A packet's header, checked as R358 asks; none where the packet is discarded. -/
def parsePacket (d : Dest) (now : Nat) (b : List Byte) : Option Req :=
  let n := b.length
  if 16 ≤ n ∧ slice b 0 2 = [0x4A, 0x58] ∧ fld b 2 1 = 1 then
    let fl := fld b 3 1
    if fld b 4 2 = n ∧ n ≤ 1040 ∧ n ≤ maxLen d.tr 1 ∧ fld b 14 2 = crc16 (patch b 14 [0, 0]) ∧ fl % 4 = 0 then
      some { dest := d, arrival := now, gen := 1, more := bitOf fl 2, noEvent := bitOf fl 4, flow := 0, seq := fld b 6 2,
             opcode := fld b 8 2, inst := fld b 10 2, timeout := fld b 12 2, crc := fld b 14 2, body := b.drop 16 }
    else none
  else if 32 ≤ n ∧ slice b 0 4 = [0x4A, 0x58, 0x43, 0x50] ∧ fld b 4 1 = 2 ∧ d.tr ≠ .rs485 then
    let fl := fld b 5 1
    if fld b 8 4 = n ∧ n ≤ maxLen d.tr 2 ∧ fld b 28 4 = crc32 (patch b 28 [0, 0, 0, 0]) ∧ fl % 4 = 0 then
      some { dest := d, arrival := now, gen := 2, more := bitOf fl 2, noEvent := bitOf fl 4, flow := fld b 6 1, seq := fld b 12 4,
             opcode := fld b 16 2, inst := fld b 18 2, timeout := fld b 22 2, crc := fld b 28 4, body := b.drop 32 }
    else none
  else none

/-- A packet that has not joined a flow would exceed the waiting limits of R363. -/
def HostState.queueFull (h : HostState) (q : Req) : Bool :=
  decide (64 ≤ (h.waiting.filter (·.flow == q.flow)).length) || decide (2048 ≤ h.waiting.length) ||
    decide (16777216 < (h.waiting.map (·.body.length)).sum + q.body.length)

/-- The order in which packets of one tick join a flow (R361). -/
def joinRank : Transport → Nat
  | .pcie => 0
  | .usb => 1
  | .udp => 2
  | .rs485 => 3

/-- A packet joins its flow in order of arrival tick, in one tick in the order of the transports (R361). -/
def HostState.joined (h : HostState) (q : Req) : List Req :=
  let after (p : Req) : Bool := p.flow == q.flow && p.arrival == q.arrival && decide (joinRank q.dest.tr < joinRank p.dest.tr)
  h.waiting.filter (fun p => !after p) ++ [q] ++ h.waiting.filter after

/-- The processor or the host island halts: no packet arrives or starts. -/
def State.interpHalted (s : State) : Bool := bitOf s.boot.offHalt 4 || bitOf s.boot.offHalt 6

/-- A whole packet reaches the interpreter (R358, R361, R363, R472). -/
def State.arrive (s : State) (d : Dest) (bytes : List Byte) : State :=
  if !s.boot.ready || s.pr.restart || s.interpHalted || (s.boot.recovery && d.tr != .usb) then s
  else if d.tr == .rs485 && decide (s.host.rsFrom ≤ s.time.tick) && decide (s.time.tick < s.host.rsTo) then s
  else
    let s := s.inc P.HostPackets (trNum d.tr)
    match parsePacket d s.time.tick bytes with
    | none => s.inc P.HostBadPackets (trNum d.tr)
    | some q =>
      if s.host.queueFull q then
        s.deliver { dest := d, gen := q.gen, flow := q.flow, seq := q.seq, opcode := q.opcode, inst := q.inst,
                    status := 0x0405, body := refBytes 0 0 0, dup := false }
      else
        let s := s.setHost { s.host with waiting := s.host.joined q }
        if s.rd P.HostQueuePeak 0 < s.host.waiting.length then s.wr P.HostQueuePeak 0 s.host.waiting.length else s

/-- PACKET_ARRIVAL. -/
def execPacketArrival (t : Nat) (tr : Transport) (sender : Nat) (bytes : List Byte) (s : State) : Res :=
  onEvent t s fun s => s.arrive ⟨tr, sender⟩ bytes

/-- The instant at which the TIMEOUT of a request expires (R364). -/
def expiry (q : Req) : Nat := q.arrival + q.timeout * 1000000

/-- The next packet to start: of the flows with none running, the waiting packet first by arrival tick, then flow (R361). -/
def HostState.nextStart (h : HostState) : Option Req :=
  let idle := h.waiting.filter fun q => !h.running.any (·.flow == q.flow)
  let heads := idle.filter fun q => (idle.find? (·.flow == q.flow)) == some q
  heads.foldl (fun b q => match b with
    | none => some q
    | some p => if q.arrival < p.arrival || (q.arrival == p.arrival && q.flow < p.flow) then some q else some p) none

/-- The stored record a packet duplicates (R365). -/
def HostState.dupOf (h : HostState) (q : Req) : Option LastRec :=
  h.last.find? fun l => l.dest == q.dest && l.flow == q.flow && l.seq == q.seq && l.opcode == q.opcode &&
    l.inst == q.inst && l.crc == q.crc

/-- Waiting packets whose spilled body is damaged (R405). -/
def State.setPrDamaged (s : State) (l : List Req) : State := { s with pr := { s.pr with damaged := l } }

/-- The turn of a packet: duplicate test, opcode and generation checks, part assembly; a complete request runs. The instance of a body in
parts is checked with its first part. A packet that breaks an assembly and is no part itself runs as `broken`: the conditions that R511 puts
before 0x0202 are those of its operation. Of a damaged body nothing can be read: its packet is refused with 0x0502 once opcode, generation,
instance, length and assembly let it pass; a damaged next part leaves its assembly open (notes/assumptions/64.md). -/
def State.startPacket (s : State) (q : Req) : State :=
  let s := s.setHost { s.host with waiting := s.host.waiting.erase q }
  match s.host.dupOf q with
  | some l => ((s.setHost (s.host.record l)).inc P.HostDuplicates (trNum q.dest.tr)).deliver { l.reply with dup := true }
  | none =>
    let damaged := s.pr.damaged.contains q
    let s := s.setPrDamaged (s.pr.damaged.erase q)
    let asm := s.host.assemblies.find? (·.flow == q.flow)
    let s0 := s.setHost { s.host with assemblies := s.host.assemblies.filter (fun a => a.flow != q.flow) }
    let refuse (st : Nat) : State := s0.reply q st (refBytes 0 0 0)
    let next := asm.any fun a => a.dest == q.dest && a.opcode == q.opcode && a.inst == q.inst && a.nextSeq == q.seq && q.gen == 2
    match opRow q.opcode with
    | none => refuse 0x0301
    | some r =>
      if q.gen = 1 ∧ (!r.g1 || q.more || q.noEvent) then refuse 0x0307
      else if !next && !instOk q.opcode q && (q.more || damaged) then refuse 0x0302
      else if damaged then
        if next then s.reply q 0x0502 (refBytes 0 0 0)
        else if !q.more && r.len.any (fun n => n != q.body.length) then refuse 0x0303
        else if asm.isSome then refuse 0x0202
        else refuse 0x0502
      else match asm with
        | some a =>
          if next then
            if 262112 < a.body.length + q.body.length then refuse 0x0308
            else
              let a' : Assembly := { a with nextSeq := (q.seq + 1) % 2 ^ 32, body := a.body ++ q.body }
              if q.more then
                (s0.setHost { s0.host with assemblies := a' :: s0.host.assemblies }).reply q 0x0103 []
              else s0.setHost { s0.host with running := s0.host.running ++ [{ q with body := a'.body }] }
          else if q.more then refuse 0x0202
          else if 262112 < q.body.length then refuse 0x0308
          else s0.setHost { s0.host with running := s0.host.running ++ [q], broken := s0.host.broken ++ [q] }
        | none =>
          if 262112 < q.body.length then refuse 0x0308
          else if q.more then
            (s0.setHost { s0.host with assemblies :=
              { dest := q.dest, flow := q.flow, opcode := q.opcode, inst := q.inst, nextSeq := (q.seq + 1) % 2 ^ 32, body := q.body }
                :: s0.host.assemblies }).reply q 0x0103 []
          else s0.setHost { s0.host with running := s0.host.running ++ [q] }

/-- PACKET_START: nothing happens unless the flow's packet is the next to start and its TIMEOUT has not passed. -/
def execPacketStart (t flow : Nat) (s : State) : Res :=
  onEvent t s fun s =>
    match s.host.nextStart with
    | none => s
    | some q =>
      if q.flow = flow ∧ !s.interpHalted ∧ s.host.running.length < 8 ∧ (q.timeout = 0 ∨ s.time.tick ≤ expiry q) then s.startPacket q else s

/-- COMMAND_TIMED_OUT: the packet at a position of a flow, once its TIMEOUT has expired (R364). -/
def execCommandTimedOut (t flow pos : Nat) (s : State) : Res :=
  onEvent t s fun s =>
    match (s.host.waiting.filter (·.flow == flow))[pos]? with
    | none => s
    | some q =>
      if q.timeout ≠ 0 ∧ expiry q ≤ s.time.tick then
        (s.setHost { s.host with waiting := s.host.waiting.erase q }).reply q 0x0201 (refBytes 0 0 0)
      else s

/-! ### Events of the sender -/

/-- EVENT_SUBSCRIBE (R372). -/
def execEventSubscribe (t : Nat) (q : Req) (s : State) : Res :=
  runReq 0x0107 t q s fun s =>
    let fam := fld q.body 0 2 / 2 * 2
    let vec := fld q.body 3 1
    let others := s.host.subs.filter fun b => !(b.dest == q.dest)
    guarded [(q.dest.tr == .pcie && !(vec == 1 || (decide (3 ≤ vec) && decide (vec ≤ 31))), ⟨0x0304, 0, 0, 0⟩),
        (fam ≠ 0 && decide (8 ≤ others.length), ⟨0x0406, 0, 0, 0⟩)]
      (.ok 0 [] (s.setHost { s.host with subs :=
        if fam = 0 then others else others ++ [{ dest := q.dest, families := fam, level := fld q.body 2 1, vector := vec }] }))

/-- Once a queue has room again after drops, the destination is told the count (R373). -/
def State.lostNotice (s : State) (d : Dest) : State :=
  let q := s.host.queue d
  if q.dropped = 0 ∨ 256 ≤ q.evs.length then s else
    let e := s.mkEvent E.eventsLost 0 0 (leBytes 4 q.dropped)
    s.setHost (({ s.host with evseq := e.evseq } : HostState).setQueue { q with evs := q.evs ++ [e], dropped := 0 })

/-- EVENT_READ (R373). -/
def execEventRead (t : Nat) (q : Req) (s : State) : Res :=
  runReq 0x0108 t q s fun s =>
    let m := fld q.body 0 1
    guarded [(m = 0 || decide (16 < m), ⟨0x0304, 0, 0, 0⟩)] <|
      let eq := s.host.queue q.dest
      let evs := if q.dest.tr = .pcie then [] else eq.evs.take m
      let s' := if evs = [] then s else
        (s.setHost (s.host.setQueue { eq with evs := eq.evs.drop m })).lostNotice q.dest
      .ok 0 (leBytes 1 evs.length ++ [0, 0, 0] ++
        (evs.map fun e => leBytes 2 e.code ++ leBytes 2 e.inst ++ pad4 e.body).flatten) s'

/-- IDENTIFY (R367). -/
def execIdentify (t : Nat) (q : Req) (s : State) : Res :=
  runReq 0x0109 t q s fun s =>
    .ok 0 (leBytes 8 (s.rd P.SysUnitId 0) ++ leBytes 4 (s.rd P.SysFirmwareVersion 0) ++ leBytes 2 1 ++
      leBytes 1 (match q.dest.tr with | .pcie => 0 | .udp => 1 | .rs485 => 2 | .usb => 3) ++
      leBytes 1 (s.rd P.LineAddress 0) ++ leBytes 4 (maxLen q.dest.tr q.gen)) s

/-- EVENT_SEND: the oldest queued event of a USB, UDP or PCI Express destination leaves (R370, R373, R376). -/
def execEventSend (t : Nat) (d : Dest) (s : State) : Res :=
  onEvent t s fun s =>
    let q := s.host.queue d
    match q.evs with
    | [] => s
    | e :: es =>
      let n := (q.sentSeq + 1) % 2 ^ 32
      let s1 := s.setHost (s.host.setQueue { q with evs := es, sentSeq := n })
      match d.tr with
      | .rs485 => s
      | .pcie =>
        let g := s.host.regs
        if !g.running then s else
          match ringPut g.evtBase g.evtSize g.evtHead g.evtTail (e.packet n) with
          | some (o, tl) =>
            let v := ((s.host.subs.find? (·.dest == d)).map Sub.vector).getD 1
            let g' := { g with evtTail := tl, want := setBit g.want v true }
            ({ s1 with sent := g'.mirror ++ o ++ s1.sent, host := { s1.host with regs := g' } }).lostNotice d
          | none =>
            let s2 := s.setHost (s.host.setQueue { q with evs := es, dropped := q.dropped + 1 })
            (s2.setRegs { g with evtLost := (g.evtLost + 1) % 2 ^ 32 }).inc P.HostEventsLost 0
      | _ => (s1.out (.packet d (e.packet n))).lostNotice d

/-! ### The host block -/

/-- REPLY_RELEASE: the oldest reply that waits for room is written (R377). -/
def execReplyRelease (t : Nat) (s : State) : Res :=
  onEvent t s fun s =>
    match s.host.replyWait with
    | [] => s
    | r :: rs => match s.ringReply r with
      | none => s
      | some s' => s'.setHost { s'.host with replyWait := rs }

/-- DESCRIPTOR_FETCH: one descriptor (ADDR, LEN) and the packet read from ADDR (R375, R377, R472). -/
def execDescriptorFetch (t _addr len : Nat) (bytes : List Byte) (s : State) : Res :=
  onEvent t s fun s =>
    let g := s.host.regs
    if g.running && s.boot.ready && !s.pr.restart && !bitOf s.boot.offHalt 6 && g.reqHead != g.reqTail && decide (s.host.replyWait.length < 256) then
      let g' := { g with reqHead := (g.reqHead + 1) % g.reqCount }
      let s := { s with sent := g'.mirror ++ s.sent, host := { s.host with regs := g' } }
      if bytes.length = len then s.arrive ⟨.pcie, 0⟩ bytes
      else (s.inc P.HostPackets 0).inc P.HostBadPackets 0
    else s

/-- DB_REQ_TAIL_WRITE; doorbells are ignored while ENABLE is 0 (R374). -/
def execDbReqTailWrite (t v : Nat) (s : State) : Res :=
  onEvent t s fun s =>
    if s.host.regs.enable then s.setRegs { s.host.regs with reqTail := v % s.host.regs.reqCount } else s

/-- DB_RPL_HEAD_WRITE (R376). -/
def execDbRplHeadWrite (t v : Nat) (s : State) : Res :=
  onEvent t s fun s =>
    if s.host.regs.enable then s.setRegs { s.host.regs with rplHead := v % s.host.regs.rplSize } else s

/-- DB_EVT_HEAD_WRITE (R376). -/
def execDbEvtHeadWrite (t v : Nat) (s : State) : Res :=
  onEvent t s fun s =>
    if s.host.regs.enable then s.setRegs { s.host.regs with evtHead := v % s.host.regs.evtSize } else s

/-- HB_RESET: waiting replies and events are discarded with counting; the registers return to their values after reset (R379). -/
def execHbReset (t : Nat) (s : State) : Res :=
  onEvent t s fun s =>
    let q := s.host.queue ⟨.pcie, 0⟩
    let s1 := s.wr P.HostRepliesLost 0 ((s.rd P.HostRepliesLost 0 + s.host.replyWait.length) % 2 ^ 32)
    let s2 := s1.wr P.HostEventsLost 0 ((s1.rd P.HostEventsLost 0 + q.evs.length) % 2 ^ 32)
    let h := s2.host.setQueue { q with evs := [], dropped := q.dropped + q.evs.length }
    s2.setHost { h with replyWait := [], regs := HostRegs.reset }

/-- HB_ENABLE (R374, R379). -/
def execHbEnable (t : Nat) (on : Bool) (s : State) : Res :=
  onEvent t s fun s => s.setRegs { s.host.regs with enable := on, running := on && !s.host.regs.err }

/-- HB_EVT_LOST_READ: the count is answered and cleared (R12, RC). -/
def execHbEvtLostRead (t : Nat) (s : State) : Res :=
  onEvent t s fun s =>
    (s.frame .regRead 0x0054 (leBytes 4 s.host.regs.evtLost)).setRegs { s.host.regs with evtLost := 0 }

/-- A power of two between two limits. -/
def pow2Between (lo hi v : Nat) : Bool := decide (lo ≤ v) && decide (v ≤ hi) && v == 2 ^ Nat.log2 v

/-- The 64-bit register after a write of `size` bytes at byte `o` of it. -/
def part64 (old o size v : Nat) : Nat := leNat (patch (leBytes 8 old) o (leBytes (min size (8 - o)) v))

/-- REGISTER_WRITE: registers without a behaviour of their own (Table 13.10). BASE, COUNT and SIZE are ignored while ENABLE is 1; a
COUNT, SIZE or delay outside its stated values is ignored (DESIGN CHOICE, notes/assumptions/9.md). -/
def execRegisterWrite (t off size v : Nat) (s : State) : Res :=
  onEvent t s fun s =>
    let g := s.host.regs
    let v4 := v % 2 ^ 32
    let cfg (g' : HostRegs) : State := if g.enable then s else s.setRegs g'
    if off = 0x18 ∨ off = 0x1C then cfg { g with reqBase := part64 g.reqBase (off - 0x18) size v / 16 * 16 }
    else if off = 0x20 then (if pow2Between 16 65536 v4 then cfg { g with reqCount := v4 } else s)
    else if off = 0x28 ∨ off = 0x2C then cfg { g with rplBase := part64 g.rplBase (off - 0x28) size v / 4096 * 4096 }
    else if off = 0x30 then (if pow2Between 65536 16777216 v4 then cfg { g with rplSize := v4 } else s)
    else if off = 0x38 ∨ off = 0x3C then cfg { g with evtBase := part64 g.evtBase (off - 0x38) size v / 4096 * 4096 }
    else if off = 0x40 then (if pow2Between 65536 16777216 v4 then cfg { g with evtSize := v4 } else s)
    else if off = 0x48 ∨ off = 0x4C then cfg { g with shadowBase := part64 g.shadowBase (off - 0x48) size v / 16 * 16 }
    else if off = 0x50 then (if v4 % 1024 ≤ 1000 then s.setRegs { g with irqDelay := v4 % 1024 } else s)
    else if 0x2000 ≤ off ∧ off < 0x2200 then
      let k := (off - 0x2000) / 16
      let e := tabGet g.mx (2 ^ 96) k
      let e' := leNat (patch (leBytes 16 e) (off % 16) (leBytes (min size (16 - off % 16)) v))
      s.setRegs { g with mx := tabSet g.mx (2 ^ 96) k e' }
    else s

/-- Fire a vector if an advance waits, its delay has passed and it is not masked; a masked one goes pending (R378). -/
def State.fireVec (s : State) (k : Nat) : State :=
  let g := s.host.regs
  let last := tabGet g.lastFire 0 k
  if !(bitOf g.want k || bitOf g.pba k) then s
  else if bitOf (tabGet g.mx (2 ^ 96) k) 96 then s.setRegs { g with pba := setBit g.pba k true, want := setBit g.want k false }
  else if last ≠ 0 ∧ s.time.tick < last - 1 + g.irqDelay * 1000 then s
  else (s.out (.msix k)).setRegs { g with
    pba := setBit g.pba k false, want := setBit g.want k false, lastFire := tabSet g.lastFire 0 k (s.time.tick + 1) }

/-- MSIX_FIRE (R378). -/
def execMsixFire (t vec : Nat) (s : State) : Res := onUnit t s (decide (vec < 32)) fun s => s.fireVec vec

/-- HOST_BLOCK_DMA_ERROR: cause 1 completer abort, 2 unsupported request, 3 poisoned data, 4 completion timeout (R379). -/
def execHostBlockDmaError (t cause addr : Nat) (s : State) : Res :=
  onUnit t s (decide (1 ≤ cause ∧ cause ≤ 4)) fun s =>
    (s.setRegs { s.host.regs with err := true, cause := cause, errAddr := addr % 2 ^ 64, running := false,
                                  want := setBit s.host.regs.want 2 true }).fireVec 2

/-- ARP_REQUEST (R380): answered for HostIpAddress, most significant byte first, as the standard of the format has it (R10). -/
def execArpRequest (t ip sender : Nat) (s : State) : Res :=
  onEvent t s fun s =>
    if ip = s.rd P.HostIpAddress 0 then
      s.frame .arp sender (beBytes 6 (s.rd P.SysMacBase 0) ++ beBytes 4 ip)
    else s

/-- ICMP_ECHO_REQUEST (R380): the data goes back. -/
def execIcmpEchoRequest (t ip sender : Nat) (bytes : List Byte) (s : State) : Res :=
  onEvent t s fun s =>
    if ip = s.rd P.HostIpAddress 0 then s.frame .icmp sender bytes else s

end Sys2Proof.Machine
end

