-- ==== Sys2Proof/Machine/Processor.lean ====
section
/-!
DEFINITION. Processor complex and Granary (chapter 14): the hardware scheduler, atomic flows, user tasks, DMA channels, memory errors.
-/
namespace Sys2Proof.Machine

def State.setPr (s : State) (r : ProcRec) : State := { s with pr := r }
def State.thread (s : State) (n : Nat) : Option ThrRec := tabGet s.pr.thr none n
def State.setThread (s : State) (n : Nat) (r : Option ThrRec) : State := s.setPr { s.pr with thr := tabSet s.pr.thr none n r }
def State.coreR (s : State) (c : Nat) : CoreRec := s.pr.cores.getD c CoreRec.init
def State.setCore (s : State) (c : Nat) (r : CoreRec) : State := s.setPr { s.pr with cores := s.pr.cores.set c r }
def State.flow (s : State) (f : Nat) : FlowRec := tabGet s.pr.flows FlowRec.init f
def State.setFlow (s : State) (f : Nat) (r : FlowRec) : State := s.setPr { s.pr with flows := tabSet s.pr.flows FlowRec.init f r }
def State.taskR (s : State) (k : Nat) : TaskRec := tabGet s.pr.tasks TaskRec.init k
def State.setTask (s : State) (k : Nat) (r : TaskRec) : State := s.setPr { s.pr with tasks := tabSet s.pr.tasks TaskRec.init k r }

/-- Firmware as an owner. -/
abbrev fwOwner : Nat := 0xFE

/-! ### Scheduler (R386 to R389, R393) -/

/-- Threads that run on no core. -/
def State.threadIdle (s : State) (n : Nat) : Bool := !s.pr.cores.any fun c => c.run == some n

/-- The ready thread that comes first on a core: highest priority, then order of becoming ready. -/
def State.bestThread (s : State) (c : Nat) : Option (Nat × ThrRec) :=
  (s.pr.thr.filterMap fun e => e.2.map fun r => (e.1, r)).foldl (fun (b : Option (Nat × ThrRec)) x =>
    if bitOf x.2.cores c && !bitOf x.2.spent c && s.threadIdle x.1 then
      match b with
      | none => some x
      | some y => if y.2.prio < x.2.prio ∨ (y.2.prio = x.2.prio ∧ x.2.seq < y.2.seq) then some x else some y
    else b) none

/-- Busy and idle changes of the last second and the one before them. -/
def trimHist (now : Nat) (l : List (Nat × Bool)) : List (Nat × Bool) :=
  let keep := l.takeWhile fun x => decide (now < x.1 + 1000000000)
  keep ++ (l.drop keep.length).take 1

/-- A core runs a thread, or nothing. The time of the thread that leaves is added to its budget use. -/
def State.coreRun (s : State) (c : Nat) (n : Option Nat) : State :=
  let k := s.coreR c
  let s := match k.run with
    | none => s
    | some m => match s.thread m with
      | none => s
      | some r => s.setThread m (some { r with used := r.used.set c (r.used.getD c 0 + (s.time.tick - k.at_)) })
  let h := if k.run.isSome == n.isSome then k.hist else trimHist s.time.tick ((s.time.tick, n.isSome) :: k.hist)
  let s := s.setCore c { run := n, at_ := s.time.tick, slice := s.time.tick, hist := h }
  let s := s.wr P.ProcCoreState c (if n.isSome then 2 else 1)
  -- the entry thread of a task first runs: TaskStart completes (R408)
  match n with
  | none => s
  | some m => match s.thread m with
    | none => s
    | some r =>
      let k := s.taskR r.owner
      match k.start with
      | some q => if r.owner < 64 then (s.setTask r.owner { k with start := none }).complete q 0 s.time.cycle 0 0 0 0 else s
      | none => s

/-- One pass over the cores: the best ready thread displaces an idle loop or a thread it outranks. -/
def State.dispatchPass (s : State) : State :=
  (List.range 6).foldl (fun s c =>
    match s.bestThread c with
    | none => s
    | some (n, r) =>
      match (s.coreR c).run.bind s.thread with
      | none => s.coreRun c (some n)
      | some o => if o.prio < r.prio then s.coreRun c (some n) else s) s

/-- Reports of the scheduler. -/
def State.schedReport (s : State) : State :=
  let ready := (s.pr.thr.filter fun e => s.threadIdle e.1).length
  let items := (s.pr.flows.map fun e => e.2.items.length).sum
  (s.wr P.ProcThreads 0 s.pr.thr.length).wr P.ProcSpilled 0 ((ready - 256) + (items - 1024))

/-- Dispatch until nothing changes: a displaced thread may displace another. -/
def State.dispatch (s : State) : State := ((List.range 7).foldl (fun s _ => s.dispatchPass) s).schedReport

/-- TIME_SLICE_EXPIRY (R388). -/
def execTimeSliceExpiry (t core : Nat) (s : State) : Res :=
  onUnit t s (decide (core < 6)) fun s =>
    let k := s.coreR core
    match k.run with
    | none => s
    | some m => match s.thread m, s.bestThread core with
      | some r, some (n, b) =>
        if b.prio = r.prio ∧ k.slice + 100000 ≤ s.time.tick then
          let s := s.coreRun core (some n)
          match s.thread m with
          | some r => (((s.setThread m (some { r with seq := s.pr.seq }))).setPr { (s.setThread m (some { r with seq := s.pr.seq })).pr with
              seq := s.pr.seq + 1 }).dispatch
          | none => s
        else s
      | _, _ => s

/-- BUDGET_EXHAUSTED (R393); at the end of the window, the new window wins (Table 14.8). -/
def execBudgetExhausted (t th core : Nat) (s : State) : Res :=
  onUnit t s (decide (th < 1024 ∧ core < 4)) fun s =>
    let k := s.coreR core
    match s.thread th with
    | none => s
    | some r =>
      let used : Rat := ((r.used.getD core 0 + (s.time.tick - k.at_) : Nat) : Rat)
      if k.run = some th ∧ r.owner < 64 ∧ s.lineNs % 1000000 ≠ 0 ∧ s.rf P.TaskBudget r.owner * 10000 ≤ used then
        let s := s.coreRun core none
        match s.thread th with
        | some r => ((s.setThread th (some { r with spent := setBit r.spent core true })).inc P.TaskOverruns r.owner).dispatch
        | none => s
      else s

/-- BUDGET_WINDOW (R393). -/
def execBudgetWindow (t : Nat) (s : State) : Res :=
  onEvent t s fun s =>
    let s := s.setPr { s.pr with
      thr := s.pr.thr.map fun e => (e.1, e.2.map fun r => { r with spent := 0, used := [0, 0, 0, 0] })
      cores := s.pr.cores.map fun c => { c with at_ := s.time.tick } }
    s.dispatch

/-- ProcCoreLoad: busy share of the last second in per cent. -/
def State.coreLoad (s : State) (c : Nat) : Rat :=
  let now := s.time.tick
  let lo := now - 1000000000
  let busy := ((s.coreR c).hist.foldl (fun (acc : Nat × Nat) x =>
    let a := max x.1 lo
    (if x.2 ∧ a < acc.2 then acc.1 + (acc.2 - a) else acc.1, min a acc.2)) (0, now)).1
  mkRat busy 10000000

/-! ### Atomic flows (R390) -/

/-- A work item. -/
def itemBytes (flow handler arg : Nat) : List Byte := leBytes 4 flow ++ leBytes 4 handler ++ leBytes 8 arg

/-- An item joins its flow behind the others. A tag that a task holds stays that task's; another becomes the poster's. -/
def State.postItem (s : State) (f owner : Nat) (item : List Byte) : State :=
  let r := s.flow f
  (s.setFlow f { owner := if r.owner < 64 then r.owner else owner, items := r.items ++ [item] }).schedReport

/-- The tags a task may post to: its own, and a free one while it has fewer than 64; tags below 512 are not given to tasks. -/
def State.tagOk (s : State) (f owner : Nat) : Bool :=
  let free := !s.pr.flows.any fun e => e.1 == f
  decide (64 ≤ owner) || decide (512 ≤ f) &&
    (if free then decide ((s.pr.flows.filter fun e => e.2.owner == owner).length < 64) else (s.flow f).owner == owner)

/-- WORK_ITEM_POST. -/
def execWorkItemPost (t flow handler arg : Nat) (s : State) : Res :=
  onUnit t s (decide (flow < 4096)) fun s =>
    let o := (s.thread handler).elim fwOwner (·.owner)
    if s.tagOk flow o then s.postItem flow o (itemBytes flow handler arg) else s

/-- WORK_ITEM_END: the flow's next item is handed over. -/
def execWorkItemEnd (t flow : Nat) (s : State) : Res :=
  onUnit t s (decide (flow < 4096)) fun s => (s.setFlow flow { s.flow flow with items := (s.flow flow).items.tail }).schedReport

/-! ### Memory of tasks (R396, R400) -/

/-- Bytes of a partition in use (Table 14.6). -/
def State.partUsed (s : State) (p : Nat) : Nat :=
  match p with
  | 1 => (s.cams.map fun e => camUnits e.2).sum
  | 2 => (s.trj.map fun e => 64 * e.2.spill.length).sum + (s.pg.map fun e => 160 * e.2.spill.length).sum +
      (s.host.waiting.map (·.body.length)).sum + 16 * s.rd P.ProcSpilled 0 + (s.can.map fun e => 80 * e.2.rx.length).sum
  | 3 => ((List.range 4).map fun u => s.rd P.AqBufferSize u * 1048576).sum
  | 4 => (s.pr.tasks.map fun e => 4096 * e.2.pages.length + ((e.2.parts.map (·.2.length)).sum + 4095) / 4096 * 4096).sum
  | _ => 0

/-- The partition of a physical address: the partitions follow each other in order of their instances. -/
def State.partOf (s : State) (addr : Nat) : Option Nat :=
  let ends := (List.range 5).map fun p => ((List.range (p + 1)).map fun k => s.rd P.MemPartitionSize k * 1048576).sum
  (List.range 5).find? fun p => decide (addr < ends.getD p 0)

/-- Bytes a partition still has, retired pages taken off. -/
def State.partFree (s : State) (p : Nat) : Nat :=
  s.rd P.MemPartitionSize p * 1048576 - 4096 * s.rd P.MemRetiredPages p - s.partUsed p

def mib (n : Nat) : Nat := (n + 1048575) / 1048576

/-- TaskMemUsed. -/
def State.taskReport (s : State) (k : Nat) : State := s.wr P.TaskMemUsed k (mib (4096 * (s.taskR k).pages.length))

/-- Map pages that are not mapped yet. -/
def mapPages (ps : Tab (Option Page)) (first : Nat) (w x : Bool) : List (List Byte) → Tab (Option Page)
  | [] => ps
  | d :: r =>
    mapPages (if (tabGet ps none first).isSome then ps else tabSet ps none first (some { w := w, x := x, data := d })) (first + 1) w x r

/-- A list cut into pages. -/
def pagesOf : Nat → List Byte → List (List Byte)
  | 0, _ => []
  | n + 1, b => b.take 4096 :: pagesOf n (b.drop 4096)

/-- The unit whose window a task's virtual page lies in, and the block there (R422). -/
def State.windowAt (s : State) (k vpage : Nat) : Option (Nat × Nat) :=
  (List.range 4).findSome? fun u =>
    let w := (s.aqu u).win / 4096
    if s.rd P.AqGrant u = k ∧ w ≤ vpage ∧ vpage < w + 256 * s.rd P.AqBufferSize u then some (u, vpage - w) else none

/-- A virtual page of a task: its 4,096 bytes and whether it may be written; none where unmapped. -/
def State.pageAt (s : State) (k vpage : Nat) : Option (List Byte × Bool) :=
  match tabGet (s.taskR k).pages none vpage with
  | some p => some (padTo 4096 p.data, p.w)
  | none => (s.windowAt k vpage).map fun x => (padTo 4096 (tabGet (s.aqu x.1).blocks [] x.2), false)

/-- Bytes of a task's memory; none where any page is unmapped. -/
def State.taskBytes (s : State) (k addr len : Nat) : Option (List Byte) :=
  let p0 := addr / 4096
  let n := (addr + len + 4095) / 4096 - p0
  let l := (List.range n).map fun i => s.pageAt k (p0 + i)
  if l.all Option.isSome then some (slice (l.flatMap fun x => (x.map Prod.fst).getD []) (addr % 4096) len) else none

/-- Write bytes within one page of a task, where it is mapped for writing. -/
def State.taskWrite (s : State) (k addr : Nat) (b : List Byte) : State :=
  let r := s.taskR k
  match tabGet r.pages none (addr / 4096) with
  | some p => if p.w then
      s.setTask k { r with pages := tabSet r.pages none (addr / 4096) (some { p with data := patch (padTo 4096 p.data) (addr % 4096) b }) }
    else s
  | none => s

/-- The stack of a task's further thread number `n` is mapped where the kernel places it; the entry thread's is 0 (R392). -/
def State.mapStack (s : State) (k n : Nat) : State :=
  let im := (s.taskR k).parts.flatMap (·.2)
  if n = 0 then s else
    (s.setTask k { s.taskR k with
      pages := mapPages (s.taskR k).pages (Config.taskPage (2 + n)) true false (List.replicate (fld im 24 4 / 4096) []) }).taskReport k

/-- The entry of a ready thread is one of the 256 held on chip: entries spill in priority order (R389). -/
def State.onChip (s : State) (th : Nat) : Bool :=
  decide ((s.pr.thr.filter fun e => s.threadIdle e.1 && e.1 != th && e.2.any fun x => (s.thread th).any fun r =>
    decide (r.prio < x.prio ∨ (r.prio = x.prio ∧ x.seq < r.seq))).length < 256)

/-- THREAD_READY. A task's first thread is its entry thread: priority and cores of its image and TaskCores (R392). The kernel's threads
(priority 31) may run on every core, other firmware on the service cores only (R386). -/
def execThreadReady (t th task prio cores : Nat) (s : State) : Res :=
  onUnit t s (decide (th < 1024)) fun s =>
    let seq := s.pr.seq
    let s0 := s.setPr { s.pr with seq := seq + 1 }
    let mine := (s.pr.thr.filter fun e => e.2.elim false (·.owner == task)).length
    let go (p cs : Nat) : State :=
      let old := s.thread th
      let r : ThrRec := { owner := task, prio := p, cores := cs, seq := seq, spent := old.elim 0 (·.spent), used := old.elim [0, 0, 0, 0] (·.used) }
      let s1 := s0.setThread th (some r)
      let (x, s1) := s1.takeFree 7
      let lim : Rat := if s1.onChip th then 2 else 6
      let took := satR 0 lim (mkRat x 1000)
      let s2 := s1.dispatch
      if s2.threadIdle th || decide (took ≤ s2.rf P.ProcDispatchPeak 0) then s2 else s2.wrF P.ProcDispatchPeak 0 took
    if !s.threadIdle th then s
    else if task = fwOwner then
      if th < 256 ∧ 1 ≤ prio ∧ prio ≤ 31 then go prio (if prio = 31 then cores.land 0x3F else cores.land 0x30) else s
    else if task < 64 ∧ 256 ≤ th ∧ s.rd P.TaskState task = 3 then
      let im := (s.taskR task).parts.flatMap (·.2)
      if mine = 0 then go (fld im 28 1) (s.rd P.TaskCores task)
      else if (s.thread th).isNone && decide (fld im 29 1 ≤ mine) then s
      else if 1 ≤ prio ∧ prio ≤ 30 ∧ cores.land (s.rd P.TaskCores task) ≠ 0 then
        let s1 := go prio (cores.land (s.rd P.TaskCores task))
        if (s.thread th).isNone then s1.mapStack task mine else s1
      else s
    else s

/-! ### DMA (R397 to R399) -/

def State.dmaChain (s : State) (c : Nat) : List DmaDesc := tabGet s.pr.dma [] c
def State.setChain (s : State) (c : Nat) (l : List DmaDesc) : State := s.setPr { s.pr with dma := tabSet s.pr.dma [] c l }

def dmaSrc (d : DmaDesc) : Nat := fld d.bytes 0 8
def dmaDst (d : DmaDesc) : Nat := fld d.bytes 8 8
def dmaLen (d : DmaDesc) : Nat := fld d.bytes 16 4
def dmaNotify (d : DmaDesc) : Bool := bitOf (fld d.bytes 20 4) 0
def dmaChained (d : DmaDesc) : Bool := bitOf (fld d.bytes 20 4) 1

/-- Post a work item to a task's DMA flow. -/
def State.dmaPost (s : State) (k c : Nat) : State :=
  if k < 64 then s.setTask k { s.taskR k with dmaFlow := (s.taskR k).dmaFlow ++ [itemBytes 0 0 c] } else s

/-- A descriptor ends: DONE and STATUS are written once (R398). `go` lets the chain go on. -/
def State.dmaEnd (s : State) (c st : Nat) (go : Bool) : State :=
  match s.dmaChain c with
  | [] => s
  | d :: r =>
    let k := s.rd P.DmaOwner c
    let s := if k < 64 then (s.taskWrite k (d.addr + 32) (leBytes 8 (s.rd P.DmaBytes c))).taskWrite k (d.addr + 40) (leBytes 2 st) else s
    let s := if dmaNotify d then s.dmaPost k c else s
    let s := (s.wrBit P.DmaState c 2 false).wr P.DmaFaultAddr c 0
    if go && dmaChained d && decide (r ≠ []) then (s.setChain c r).wr P.DmaBytes c 0
    else (s.setChain c []).wrBit P.DmaState c 1 false

/-- A task's channels stop and are freed; descriptors end with a status per channel. -/
def State.dmaFree (s : State) (k : Nat) (st : Nat → Nat) : State :=
  (List.range 16).foldl (fun s c =>
    if s.rd P.DmaOwner c = k then
      (((s.dmaEnd c (st c) false).wr P.DmaOwner c 0xFF).wr P.DmaState c 0).wr P.DmaPriority c 0
    else s) s

/-- The descriptors of a chain are linked by CHAIN and NEXT (Table 14.5). -/
def dmaLinked : List DmaDesc → Bool
  | d :: e :: r => dmaChained d && fld d.bytes 24 8 == e.addr && dmaLinked (e :: r)
  | [d] => !dmaChained d
  | [] => false

/-- DMA_START: the engine takes up a chain, descriptors as it reads them. -/
def execDmaStart (t ch owner prio : Nat) (chain : List DmaDesc) (s : State) : Res :=
  onUnit t s (decide (ch < 16)) fun s =>
    let o := s.rd P.DmaOwner ch
    let mine := ((List.range 16).filter fun c => s.rd P.DmaOwner c == owner).length
    let ok := if ch < 4 then owner == fwOwner else
      decide (owner < 64) && s.rd P.TaskState owner == 3 && (o == owner || (o == 0xFF && decide (mine < 4)))
    if ok && !bitOf (s.rd P.DmaState ch) 1 && dmaLinked chain then
      ((((s.setChain ch chain).wr P.DmaOwner ch owner).wr P.DmaPriority ch (min prio 3)).wr P.DmaState ch 3).wr P.DmaBytes ch 0
    else s

/-- Active channels that are not parked; the one whose turn it is (R397). -/
def State.dmaNext (s : State) : Option Nat :=
  let act := (List.range 16).filter fun c => bitOf (s.rd P.DmaState c) 1 && !bitOf (s.rd P.DmaState c) 2
  let top := act.foldl (fun m c => max m (s.rd P.DmaPriority c)) 0
  let best := act.filter fun c => s.rd P.DmaPriority c == top
  match best.find? fun c => decide (s.pr.dmaLast.getD top 15 < c) with
  | some c => some c
  | none => best.head?

/-- DMA_PARKED (R399). -/
def State.dmaPark (s : State) (c vpage : Nat) : State :=
  let s := (s.wr P.DmaFaultAddr c (vpage * 4096)).wrBit P.DmaState c 2 true
  (s.dmaPost (s.rd P.DmaOwner c) c).raise E.dmaParked c []

/-- DMA_BURST: at most one in a microsecond (R397). -/
def execDmaBurst (t : Nat) (s : State) : Res :=
  onEvent t s fun s =>
    match (if bitOf s.boot.offHalt 5 || decide (s.time.tick < s.pr.dmaAt + 999) && s.pr.dmaAt != 0 then none else s.dmaNext) with
    | none => s
    | some c =>
      let s := s.setPr { s.pr with dmaLast := s.pr.dmaLast.set (s.rd P.DmaPriority c) c, dmaAt := s.time.tick + 1 }
      match s.dmaChain c with
      | [] => s.wrBit P.DmaState c 1 false
      | d :: _ =>
        let k := s.rd P.DmaOwner c
        let n := s.rd P.DmaBytes c
        let a := dmaSrc d + n
        let b := dmaDst d + n
        let len := min (dmaLen d - n) (min (4096 - a % 4096) (4096 - b % 4096))
        let fin (s : State) : State :=
          let s := s.wr P.DmaBytes c (n + len)
          if dmaLen d ≤ n + len then s.dmaEnd c 0 true else s
        if 64 ≤ k then fin s
        else match s.pageAt k (a / 4096), s.pageAt k (b / 4096) with
          | none, _ => s.dmaPark c (a / 4096)
          | some _, none => s.dmaPark c (b / 4096)
          | some x, some y =>
            if y.2 then fin (s.taskWrite k b (slice x.1 (a % 4096) len)) else s.dmaEnd c 1 false

/-- Parked channels of a task whose faulting page is mapped now resume. -/
def State.dmaResume (s : State) (k : Nat) : State :=
  (List.range 16).foldl (fun s c =>
    if s.rd P.DmaOwner c = k && bitOf (s.rd P.DmaState c) 2 && (s.pageAt k (s.rd P.DmaFaultAddr c / 4096)).isSome then
      (s.wrBit P.DmaState c 2 false).wr P.DmaFaultAddr c 0
    else s) s

/-! ### Tasks (R391 to R394, R408) -/

/-- Threads, work items, flow tags, DMA channels and windows of a task end. -/
def State.taskHalt (s : State) (k : Nat) (st : Nat → Nat) : State :=
  let s := (List.range 6).foldl (fun s c =>
    if ((s.coreR c).run.bind s.thread).elim false (·.owner == k) then s.coreRun c none else s) s
  let s := s.setPr { s.pr with
    thr := s.pr.thr.filter fun e => !(e.2.elim false (·.owner == k))
    flows := s.pr.flows.filter fun e => !(e.2.owner == k) }
  let s := s.dmaFree k st
  let s := s.setTask k { s.taskR k with dmaFlow := [], start := none }
  let s := (List.range 4).foldl (fun s u => if s.rd P.AqGrant u = k then s.aqRevoke u else s) s
  s.dispatch

/-- TASK_FAULT as it comes about (R394). -/
def State.taskFault (s : State) (k code core th pc addr : Nat) (st : Nat → Nat) : State :=
  let s := match (s.taskR k).start with
    | some q => s.complete q 0 s.time.cycle 0x0503 0 0 code
    | none => s
  let s := (s.taskHalt k st).wr P.TaskState k 5
  let s := s.wr P.TaskFaultInfo k (leNat (leBytes 1 code ++ leBytes 1 core ++ leBytes 2 th ++ leBytes 4 0 ++ leBytes 8 pc ++ leBytes 8 addr ++
    leBytes 8 s.lineNs))
  s.raise E.taskFault k []

/-- TASK_FAULT. -/
def execTaskFault (t task code core th pc addr : Nat) (s : State) : Res :=
  onUnit t s (decide (task < 64)) fun s =>
    if s.rd P.TaskState task = 3 ∧ 1 ≤ code ∧ code ≤ 8 then s.taskFault task code core th pc addr (fun _ => 2) else s

/-- TASK_WATCHDOG_EXPIRY. -/
def execTaskWatchdogExpiry (t task : Nat) (s : State) : Res :=
  onUnit t s (decide (task < 64)) fun s =>
    let w := s.rf P.TaskWatchdog task
    if s.rd P.TaskState task = 3 ∧ w ≠ 0 ∧ w * 1000000 ≤ ((s.time.tick - (s.taskR task).kick : Nat) : Rat) then
      s.taskFault task 5 0 0 0 0 (fun _ => 2)
    else s

/-- TASK_WATCHDOG_KICK. -/
def execTaskWatchdogKick (t task : Nat) (s : State) : Res :=
  onUnit t s (decide (task < 64)) fun s =>
    if s.rd P.TaskState task = 3 then s.setTask task { s.taskR task with kick := s.time.tick } else s

/-- The offset of the first header field that breaks R391; none = valid. `b` is the whole image. -/
def imageBad (b : List Byte) : Option Nat :=
  let code := fld b 8 4
  let dat := fld b 12 4
  if fld b 0 2 ≠ 1 then some 0
  else if fld b 2 2 ≠ 0 then some 2
  else if fld b 30 2 ≠ 0 then some 30
  else if fld b 36 8 ≠ 0 then some 36
  else if 48 + code + dat ≠ fld b 4 4 then some 4
  else if code ≤ fld b 20 4 then some 20
  else if code % 4096 ≠ 0 then some 8
  else if dat % 4096 ≠ 0 then some 12
  else if fld b 16 4 % 4096 ≠ 0 then some 16
  else if fld b 24 4 < 16384 ∨ 8388608 < fld b 24 4 ∨ fld b 24 4 % 4096 ≠ 0 then some 24
  else if fld b 28 1 < 1 ∨ 30 < fld b 28 1 then some 28
  else if fld b 29 1 < 1 then some 29
  else if fld b 32 4 < 1 ∨ 65535 < fld b 32 4 then some 32
  else if fld b 44 4 ≠ crc32 (patch b 44 [0, 0, 0, 0]) then some 44
  else none

/-- The image assembled from its parts, and how many of its bytes are held. -/
def assemble (n : Nat) (ps : List (Nat × List Byte)) : List Byte × Bool :=
  let b := ps.foldl (fun b p => patch b p.1 p.2) (List.replicate n (0 : Byte))
  -- parts sorted by offset cover the image without a gap
  let ends := (sortNat (ps.map (·.1))).foldl (fun (e : Nat) o =>
    if o ≤ e then (ps.filter fun p => p.1 == o).foldl (fun e p => max e (o + p.2.length)) e else e) 0
  (b.take n, decide (n ≤ ends))

/-- TASK_LOAD. -/
def execTaskLoad (t : Nat) (q : Req) (s : State) : Res :=
  runReq 0x0D01 t q s fun s =>
    let k := q.inst
    let st := s.rd P.TaskState k
    let off := fld q.body 0 4
    let part := q.body.drop 8
    let r := s.taskR k
    let ps := (if st = 0 then [] else r.parts) ++ [(off, part)]
    let head := (ps.find? fun p => p.1 == 0 && decide (48 ≤ p.2.length)).elim [] (·.2)
    let size := fld head 4 4
    let (img, whole) := assemble size ps
    let bad := if whole then imageBad img else none
    let have_ := ((if st = 0 then [] else r.parts).map (·.2.length)).sum
    guarded [(decide (q.body.length < 8), ⟨0x0303, 0, 0, 0⟩), (decide (head = []), ⟨0x0304, 0, 0, 0⟩),
        (decide (size < off + part.length), ⟨0x0303, 0, 0, 0⟩), (bad.isSome, ⟨0x032C, bad.getD 0, 0, 0⟩),
        (decide (st ≠ 0 ∧ st ≠ 1), ⟨0x0232, 0, 0, 0⟩), (decide (s.partFree 4 < size - have_), ⟨0x0407, 0, 0, 0⟩)] <|
      if whole then .ok 0 [] (((s.setTask k { r with parts := [(0, img)] }).wr P.TaskState k 2).wr P.TaskImageCrc k (fld img 44 4))
      else .ok 0 [] ((s.setTask k { r with parts := ps }).wr P.TaskState k 1)

/-- TASK_START. -/
def execTaskStart (t : Nat) (q : Req) (s : State) : Res :=
  runReq 0x0D02 t q s fun s =>
    let k := q.inst
    let st := s.rd P.TaskState k
    let img := (s.taskR k).parts.flatMap (·.2)
    let need := fld img 32 4
    let freed := 4096 * (s.taskR k).pages.length
    guarded [(decide (st ≠ 2 ∧ st ≠ 4 ∧ st ≠ 5), ⟨0x0232, 0, 0, 0⟩),
        (decide (s.rd P.TaskMemLimit k < need ∨ s.partFree 4 + freed < need * 1048576), ⟨0x0407, 0, 0, 0⟩)] <|
      let code := fld img 8 4
      let dat := fld img 12 4
      let bss := fld img 16 4
      let stack := fld img 24 4
      let ps := mapPages [] (Config.taskPage 0) false true (pagesOf (code / 4096) (slice img 48 code))
      let ps := mapPages ps (Config.taskPage 1) true false (pagesOf ((dat + bss) / 4096) (padTo (dat + bss) (slice img (48 + code) dat)))
      let ps := mapPages ps (Config.taskPage 2) true false (List.replicate (stack / 4096) [])
      let s := s.setTask k { s.taskR k with start := some q, kick := s.time.tick, pages := ps, dmaFlow := [] }
      .ok 0x0101 [] ((s.wr P.TaskState k 3).taskReport k)

/-- TASK_STOP. -/
def execTaskStop (t : Nat) (q : Req) (s : State) : Res :=
  runReq 0x0D03 t q s fun s =>
    let k := q.inst
    guarded [(s.rd P.TaskState k != 3, ⟨0x0232, 0, 0, 0⟩)] <|
      let s := match (s.taskR k).start with
        | some p => s.complete p 0 s.time.cycle 0x0503 0 0 0
        | none => s
      let s := (s.taskHalt k (fun _ => 2)).wr P.TaskState k 4
      .ok 0x0101 [] (s.complete q 0 s.time.cycle 0 0 0 0)

/-- TASK_UNLOAD. -/
def execTaskUnload (t : Nat) (q : Req) (s : State) : Res :=
  runReq 0x0D04 t q s fun s =>
    let k := q.inst
    let st := s.rd P.TaskState k
    guarded [(decide (st = 0 ∨ st = 3), ⟨0x0232, 0, 0, 0⟩)] <|
      .ok 0 [] ((((s.setTask k TaskRec.init).wr P.TaskState k 0).wr P.TaskImageCrc k 0).taskReport k)

/-- TASK_MAP. -/
def execTaskMap (t : Nat) (q : Req) (s : State) : Res :=
  runReq 0x0D05 t q s fun s =>
    let k := q.inst
    let va := fld q.body 0 8
    let sz := fld q.body 8 4
    let r := s.taskR k
    let n := sz / 4096
    let ps := mapPages r.pages (va / 4096) (bitOf (fld q.body 12 1) 0) false (List.replicate n [])
    guarded [(decide (va % 4096 ≠ 0 ∨ sz % 4096 ≠ 0 ∨ sz = 0), ⟨0x0304, 0, 0, 0⟩), (s.rd P.TaskState k != 3, ⟨0x0232, 0, 0, 0⟩),
        (decide (s.rd P.TaskMemLimit k * 256 < ps.length ∨ s.partFree 4 < 4096 * (ps.length - r.pages.length)), ⟨0x0407, 0, 0, 0⟩)] <|
      .ok 0 [] (((s.setTask k { r with pages := ps }).taskReport k).dmaResume k)

/-- TASK_MEM_READ. -/
def execTaskMemRead (t : Nat) (q : Req) (s : State) : Res :=
  runReq 0x0D06 t q s fun s =>
    let k := q.inst
    let st := s.rd P.TaskState k
    let len := fld q.body 8 4
    if len < 1 ∨ 65536 < len then .no ⟨0x0304, 0, 0, 0⟩
    else if st < 3 then .no ⟨0x0232, 0, 0, 0⟩
    else match s.taskBytes k (fld q.body 0 8) len with
      | none => .no ⟨0x0304, 0, 0, 0⟩
      | some b => .ok 0 b s

/-- MemPartitionUsed in MB. -/
def State.partUsedMb (s : State) (p : Nat) : Nat := mib (s.partUsed p)

/-- MEM_INFO. -/
def execMemInfo (t : Nat) (q : Req) (s : State) : Res :=
  runReq 0x0D07 t q s fun s =>
    let ps := List.range 5
    .ok 0 (ps.flatMap (fun p => leBytes 4 (s.rd P.MemPartitionSize p)) ++ ps.flatMap (fun p => leBytes 4 (s.partUsedMb p)) ++
      ps.flatMap fun p => leBytes 4 (s.rd P.MemRetiredPages p)) s

/-! ### Service restart (R387) -/

/-- The shadow copy of a key of a discarded set returns to its active value: a gain map, a coupling change, a parameter. -/
def State.dropKey (s : State) (k : Nat) : State :=
  if k / 65536 = 0x0510 then
    let a := k % 65536
    (s.setGm a { s.gmap a with shadow := (s.gmap a).act, loaded := false }).gmStaged a
  else if k / 65536 = 0x0708 then s.cplDrop (k % 65536)
  else s.dropShadow k

/-- Discard open staged sets: shadow copies return to their active values. -/
def State.dropStaged (s : State) : State :=
  let gone := s.par.staged.filter (·.pending.isNone)
  let s := gone.foldl (fun s g => g.keys.foldl State.dropKey s) s
  { s with par := { s.par with staged := s.par.staged.filter (·.pending.isSome) } }

/-- A request whose completion event is lost. -/
def mutedReq (q : Req) : Req := { q with noEvent := true }

/-- The service cores stop: what R387 says is lost. -/
def State.coresStop (s : State) : State :=
  let s := (s.host.waiting ++ s.host.running).foldl (fun s q => s.inc P.HostRepliesLost (trNum q.dest.tr)) s
  let s := s.setHost { s.host with waiting := [], running := [], broken := [], assemblies := [], last := [], udpRecent := [] }
  let s := s.dropStaged
  let s := { s with par := { s.par with commits := s.par.commits.map fun (c : Commit) => { c with req := mutedReq c.req } } }
  let s := s.setMod { s.mod with loads := s.mod.loads.map fun (l : LoadReq) => { l with req := mutedReq l.req } }
  let s := { s with canObj := s.canObj.map fun (e : Nat × CanObjRec) => (e.1, { e.2 with
    send := e.2.send.map fun (x : Nat × Req) => (x.1, mutedReq x.2)
    cancels := e.2.cancels.map fun (x : Nat × Req) => (x.1, mutedReq x.2) }) }
  let s := { s with cpl := s.cpl.map fun (e : Nat × CplRec) =>
    (e.1, { e.2 with pend := e.2.pend.map fun (p : CplPend) => { p with req := mutedReq p.req } }) }
  let s := { s with link := { s.link with ann := s.link.ann.map fun (x : Ann) => { x with req := mutedReq x.req } } }
  s.setPr { s.pr with restart := true, damaged := [] }

/-- SERVICE_RESTART as it comes about; its tick counts for the watchdog (R464). -/
def State.serviceRestart (s : State) : State :=
  let s := s.coresStop.inc P.ProcServiceRestarts 0
  { s with boot := { s.boot with
      restarts := s.time.tick :: s.boot.restarts.filter (fun x => decide (s.time.tick ≤ x + 60000000000))
      restartAt := s.time.tick } }

/-- SERVICE_RESTART. -/
def execServiceRestart (t : Nat) (s : State) : Res := onEvent t s State.serviceRestart

/-- SERVICE_RESTART_COMPLETE. -/
def execServiceRestartComplete (t : Nat) (s : State) : Res :=
  onEvent t s fun s => if s.pr.restart && s.boot.switch.isNone then (s.setPr { s.pr with restart := false }).raise E.serviceRestart 0 [] else s

/-! ### Memory errors (R404 to R406) -/

/-- Retire a physical page. -/
def State.retirePage (s : State) (p page : Nat) : State :=
  if s.pr.retired.contains page then s else
    let s := (s.setPr { s.pr with retired := page :: s.pr.retired }).inc P.MemRetiredPages p
    if p = 1 then s.camReport else s

/-- What an uncorrectable error does to what the memory held. `again`: the repeated read failed as well. -/
def State.eccHit (s : State) (again : Bool) (hit : MemHit) : State :=
  match hit with
  | .unused => s
  | .firmwareCode => s
  | .firmwareData => s.serviceRestart
  | .cam n => if again && s.camOk n then (s.wr P.CamChecksum n 0xFFFFFFFF).camFail n 0 else s
  | .moveQueue a n => if again && decide (n < (s.traj a).spill.length) then s.queueDiscard a n else s
  | .pathQueue g n => if again && decide (n < (s.pgr g).spill.length) then s.pgDiscard g n else s
  | .body f pos => if !again then s else match (s.host.waiting.filter (·.flow == f))[pos]? with
    | some q => s.setPr { s.pr with damaged := q :: s.pr.damaged }
    | none => s
  | .thread n => if !again then s else match s.thread n with
    | some r => if r.owner < 64 then s.taskFault r.owner 6 0 n 0 0 (fun _ => 2) else s.serviceRestart
    | none => s
  | .trace u off => s.aqDataError u off
  | .page k v =>
    if s.rd P.TaskState k = 3 then
      s.taskFault k 6 0 0 0 (v * 4096) fun c => match s.dmaChain c with
        | d :: _ => if (dmaDst d + s.rd P.DmaBytes c) / 4096 = v then 3 else 2
        | [] => 2
    else s

/-- MEMORY_ECC_ERROR. -/
def execMemoryEccError (t addr : Nat) (correctable again : Bool) (hit : MemHit) (s : State) : Res :=
  onEvent t s fun s =>
    match s.partOf addr with
    | none => s
    | some p =>
      let page := addr / 4096
      if correctable then
        let s := s.inc P.MemEccCorrected p
        let n := tabGet s.pr.ecc 0 page + 1
        let s := s.setPr { s.pr with ecc := tabSet s.pr.ecc 0 page n }
        let s := if 16 < n then s.retirePage p page else s
        if s.pr.eccAt = 0 ∨ s.pr.eccAt + 999999999 ≤ s.time.tick then
          (s.setPr { s.pr with eccAt := s.time.tick + 1 }).raise E.memoryErrorCorrected p []
        else s
      else
        let s := ((s.inc P.MemEccUncorrected p).wr P.MemEccLastAddr 0 addr).raise E.memoryErrorUncorrectable p []
        (s.retirePage p page).eccHit again hit

/-- PATROL_SCRUB: a pass over the whole memory ends. -/
def execPatrolScrub (t : Nat) (s : State) : Res := onEvent t s fun s => s.setPr { s.pr with scrubAt := s.time.tick }

/-! ### Write rules (R407) -/

def State.procWriteBad (s : State) (idx i v : Nat) : List (Bool × Rsn) :=
  let cam := if idx = P.MemCamStoreSize then v else s.rd P.MemCamStoreSize 0
  let trc := if idx = P.MemTraceSize then v else s.rd P.MemTraceSize 0
  [(decide (idx = P.TaskMemLimit) && decide (s.rd P.MemPartitionSize 4 < v), ⟨0x0304, 0, 0, 0⟩),
   (decide (idx = P.TaskCores) && v.land 0xF == 0, ⟨0x0304, 0, 0, 0⟩),
   (decide (idx = P.MemCamStoreSize ∨ idx = P.MemTraceSize) && decide (8192 < 1408 + 512 + 64 + cam + trc), ⟨0x0304, 0, 0, 0⟩),
   ([P.TaskCores, P.TaskBudget, P.TaskMemLimit, P.TaskWatchdog].contains idx && !([0, 2, 4, 5].contains (s.rd P.TaskState i)), ⟨0x0232, 0, 0, 0⟩)]

end Sys2Proof.Machine
end

