-- ==== Sys2Proof/Machine/Can.lean ====
section
/-!
DEFINITION. CAN controllers and the Bellman time master (chapter 16).
-/
namespace Sys2Proof.Machine

def State.canC (s : State) (c : Nat) : CanRec := tabGet s.can CanRec.init c
def State.setCanC (s : State) (c : Nat) (r : CanRec) : State := { s with can := tabSet s.can CanRec.init c r }
def State.canO (s : State) (i : Nat) : CanObjRec := tabGet s.canObj CanObjRec.init i
def State.setCanO (s : State) (i : Nat) (r : CanObjRec) : State := { s with canObj := tabSet s.canObj CanObjRec.init i r }

/-- The Bellman reference among the frames of a controller; it follows the objects 0 to 99. -/
abbrev bellObj : Nat := 100

/-- Bits of CanObjState. -/
abbrev coPENDING : Nat := 0
abbrev coSTARTED : Nat := 1
abbrev coCANCEL : Nat := 2
abbrev coNEW : Nat := 3
abbrev coOVR : Nat := 4
abbrev coSTOPPED : Nat := 5

/-! ### Frames -/

/-- Data lengths of R426 beyond 8 bytes. -/
def fdLens : List Nat := [12, 16, 20, 24, 32, 48, 64]

def lenLegal (fdf : Bool) (n : Nat) : Bool := decide (n ≤ 8) || (fdf && fdLens.contains n)

/-- DLC of a data length. -/
def dlcOf (n : Nat) : Nat := if n ≤ 8 then n else 9 + (fdLens.findIdx (· == n))

/-- The record of Table 16.1. -/
def canRecord (time id : Nat) (ide fdf brs esi rtr : Bool) (dlc obj : Nat) (data : List Byte) : List Byte :=
  leBytes 8 time ++ leBytes 4 (id % 2 ^ 29) ++
    leBytes 1 (setBit (setBit (setBit (setBit (setBit 0 7 ide) 6 fdf) 5 brs) 4 esi) 3 rtr) ++
    leBytes 1 dlc ++ leBytes 1 data.length ++ leBytes 1 obj ++ padTo 64 data

/-- Arbitration field as a number: the frame with the lower one wins (ISO 11898-1). An extended frame follows the base frame of its
upper 11 identifier bits, by SRR and IDE. -/
def arbKey (w : Nat) : Nat :=
  if bitOf w 31 then bitsOf w 28 18 * 2 ^ 21 + 2 ^ 20 + 2 ^ 19 + 2 * bitsOf w 17 0 else bitsOf w 10 0 * 2 ^ 21

/-- A frame agrees with an identifier word and a mask (R431). -/
def idAgrees (ide : Bool) (id w mask : Nat) : Bool :=
  ide == bitOf w 31 && (id % 2 ^ 29).land mask == (w % 2 ^ 29).land mask

/-! ### Ends of sends (R435 to R439) -/

/-- The completion events of the cancels of a send. -/
def State.cancelsEnd (s : State) (status : Nat) (l : List (Nat × Req)) : State :=
  l.foldl (fun s x => s.complete x.2 x.1 (if status = 0 then s.time.cycle else 0xFFFFFFFF) status 0 0 0) s

/-- A pending send ends: its completion event, then those of its cancels. -/
def State.canSendEnd (s : State) (i status effc val cstat : Nat) : State :=
  let r := s.canO i
  let s := match r.send with
    | some (id, q) => s.complete q id effc status 0 0 val
    | none => s
  let s := s.cancelsEnd cstat r.cancels
  (s.setCanO i { r with send := none, deadline := none, cancels := [] }).clrBits P.CanObjState i 7

/-- Transmit and receive error counters. -/
def State.tec (s : State) (c : Nat) : Nat := s.rd P.CanErrorCounters c % 65536
def State.rec' (s : State) (c : Nat) : Nat := s.rd P.CanErrorCounters c / 65536

def State.setCounters (s : State) (c t r : Nat) : State := s.wr P.CanErrorCounters c (min r 65535 * 65536 + min t 65535)

/-- The state the counters give (R439, ISO 11898-1), with the event of a change. -/
def State.canRestate (s : State) (c : Nat) : State :=
  let old := s.rd P.CanState c
  if 256 ≤ s.tec c then (((s.wr P.CanState c 4).inc P.CanBusOffs c).raise E.canBusOff c (leBytes 4 c))
  else if 128 ≤ s.tec c ∨ 128 ≤ s.rec' c then
    (s.wr P.CanState c 3).raiseIf (old == 2) E.canErrorPassive c (leBytes 4 c)
  else s.wr P.CanState c 2

/-- The controller takes part in bus traffic. -/
def State.canOn (s : State) (c : Nat) : Bool := s.rd P.CanState c == 2 || s.rd P.CanState c == 3

/-- The controller may send: on the bus, in mode 1 or 2. -/
def State.canSends (s : State) (c : Nat) : Bool := s.canOn c && (s.rd P.CanMode c == 1 || s.rd P.CanMode c == 2)

/-! ### Bellman -/

/-- BellState. -/
def State.bellReport (s : State) (c : Nat) : State :=
  let stop := bitOf (s.rd P.BellState c) 2
  let runs := s.rb P.BellEnable c && (s.rd P.CanMode c == 1 || s.rd P.CanMode c == 2) && !stop
  (s.wrBit P.BellState c 0 runs).wrBit P.BellState c 1 (decide ((s.canC c).bWait ≠ 0))

/-- The data of a reference (Table 16.2). -/
def State.bellData (s : State) (c : Nat) : List Byte :=
  let r := s.canC c
  let first := r.bSent == 0
  let fl := setBit (setBit (setBit (setBit 0 7 (bitOf (s.rd P.NtState 0) 0)) 6 (r.step && !first)) 5 r.gap) 4 first
  let prev := if first then 0 else r.bPrev
  leBytes 1 (r.bSent % 256) ++ leBytes 1 fl ++
    (if s.rd P.BellFormat c = 0 then leBytes 6 prev
     else leBytes 2 0 ++ leBytes 8 prev ++ leBytes 4 (if first then 0 else r.bPrevCyc))

/-- The line time was stepped: STEP for the next reference of each controller; a step after the SOF of an attempt belongs to the one
after it (R441). -/
def State.bellStep (s : State) : State :=
  [0, 1].foldl (fun s c =>
    let r := s.canC c
    if s.rb P.BellEnable c then
      s.setCanC c (if r.cur = some bellObj then { r with stepN := true } else { r with step := true })
    else s) s

/-- BellPeriod in ns: whole microseconds. -/
def State.bellNs (s : State) (c : Nat) : Int := roundHE (s.rf P.BellPeriod c * 1000) * 1000

/-- BELLMAN_DUE (R440): `due` instants are those with (t - BellPhase) mod BellPeriod = 0. -/
def execBellmanDue (t c : Nat) (s : State) : Res :=
  onUnit t s (decide (c < 2)) fun s =>
    let r := s.canC c
    let per := s.bellNs c
    let x := (s.lineNs : Int) - roundHE (s.rf P.BellPhase c * 1000)
    let k := x / per
    if bitOf (s.rd P.BellState c) 0 && decide (x % per ≤ 1) && r.bLast != some k then
      let busy := r.cur == some bellObj
      let lost := r.bWait - (if busy then 1 else 0)
      let s := s.setCanC c { r with
        bLast := some k
        bWait := if busy then 2 else 1
        gap := r.gap || (!busy && decide (lost ≠ 0))
        gapN := r.gapN || (busy && decide (lost ≠ 0)) }
      ((List.range lost).foldl (fun s _ => (s.inc P.BellLate c).raise E.bellmanReferenceLate c (leBytes 4 c)) s).bellReport c
    else s

/-! ### Transmission -/

/-- Identifier word and priority of the frame of an object or of the reference. -/
def State.canIdWord (s : State) (c o : Nat) : Nat := if o = bellObj then s.rd P.BellId c else s.rd P.CanObjId (100 * c + o)

/-- Frames that wait for a start: pending sends whose TIMEOUT has not passed, and a due reference. -/
def State.canWaiting (s : State) (c : Nat) : List Nat :=
  (s.canObj.filterMap fun e =>
    if e.1 / 100 = c ∧ e.2.send.isSome ∧ e.2.deadline.all (fun d => decide (s.time.tick ≤ d)) then some (e.1 % 100) else none) ++
    (if (s.canC c).bWait ≠ 0 then [bellObj] else [])

/-- The waiting frame that would win arbitration. -/
def State.canBest (s : State) (c : Nat) : Option Nat :=
  (s.canWaiting c).foldl (fun b o => match b with
    | none => some o
    | some p => if arbKey (s.canIdWord c o) < arbKey (s.canIdWord c p) then some o else some p) none

/-- The bytes a frame of the controller carries. -/
def State.canPayload (s : State) (c o : Nat) : List Byte := if o = bellObj then s.bellData c else (s.canO (100 * c + o)).data

/-- The frame as it goes onto the bus, in the layout of Table 16.1. -/
def State.canBusFrame (s : State) (c o stamp : Nat) : List Byte :=
  let w := s.canIdWord c o
  let d := s.canPayload c o
  let fl := s.rd P.CanObjFlags (100 * c + o)
  let fdf := if o = bellObj then s.rb P.BellFormat c else bitOf fl 2
  let brs := fdf && (if o = bellObj then s.rb P.BellBrs c else bitOf fl 3)
  canRecord stamp w (bitOf w 31) fdf brs (fdf && s.rd P.CanState c == 3) false (dlcOf d.length) (if o = bellObj then 0xFF else o) d

/-- Cycle of the last sample instant at or before a line time near now. -/
def State.cycleAt (s : State) (ns : Nat) : Nat :=
  if ns < s.time.lastS then (s.time.cycle + 0xFFFFFFFF) % 2 ^ 32
  else if s.time.nextS ≤ ns then (s.time.cycle + 1) % 2 ^ 32 else s.time.cycle

/-- The frame of an object or of the reference is FD with BRS: it has a data phase of its own rate. -/
def State.canFast (s : State) (c o : Nat) : Bool :=
  let fl := s.rd P.CanObjFlags (100 * c + o)
  if o = bellObj then s.rb P.BellFormat c && s.rb P.BellBrs c else bitOf fl 2 && bitOf fl 3

/-- The secondary sample point of an attempt with a transmitter delay of `delay` protocol clocks (R428): that delay plus CanTdcOffset. A delay
of more than 1.5 µs, which the controller does not compensate, leaves the point FREE (notes/assumptions/95.md). -/
def State.canSsp (s : State) (c o delay : Nat) : Option Nat × State :=
  if !s.rb P.CanTdc c || !s.canFast c o then (none, s)
  else if delay ≤ 120 then (some (delay + s.rd P.CanTdcOffset c), s)
  else
    let (x, s) := s.takeFree 11
    (some x.toNat, s)

/-- The protocol clock of an own data-phase bit in which the controller checks it (R427, R428): the secondary sample point, or the data
sample point, which lies at the end of Tseg1. -/
def State.canCheckAt (s : State) (c : Nat) : Nat :=
  (s.canC c).ssp.getD (s.rd P.CanDataPrescaler c * (1 + s.rd P.CanDataTseg1 c) - 1)

/-- What the check of an own data-phase bit finds: the kind of its bit error (4 a recessive bit, 5 a dominant one), or none. -/
def State.canFastErr (s : State) (c : Nat) (b : OwnBit) : Option Nat :=
  let lv := b.levels.getD (s.canCheckAt c) (b.levels.getLastD b.sent)
  if lv = b.sent then none else some (if b.sent then 4 else 5)

/-- CAN_TRANSMIT_START (R435): the stamp lies within 20 ns of the SOF (R429); `delay` is the transmitter delay of this frame, in protocol
clocks, which an FD frame with BRS lets the controller measure (R428). -/
def execCanTransmitStart (t : Nat) (x : CanStart) (s : State) : Res :=
  let c := x.c
  onUnit t s (decide (c < 2)) fun s =>
    if s.canSends c && (s.canC c).cur.isNone then
      match s.canBest c with
      | none => s
      | some o =>
        let (v, s) := s.takeFree 8
        let stamp := ((s.lineNs : Int) + sat (-20) 20 v).toNat
        let (ssp, s) := s.canSsp c o x.delay
        let s := s.setCanC c { s.canC c with cur := some o, stamp := stamp, cycle := s.time.cycle, cycS := s.cycleAt stamp, ssp := ssp }
        let s := if o = bellObj then s else s.wrBit P.CanObjState (100 * c + o) coSTARTED true
        s.frame .canFrame c (s.canBusFrame c o stamp)
    else s

/-- The attempt of a controller is over. -/
def State.attemptOver (s : State) (c : Nat) : State := s.setCanC c { s.canC c with cur := none }

/-- CAN_TX_COMPLETE (R436, R440). -/
def execCanTxComplete (t c : Nat) (s : State) : Res :=
  onUnit t s (decide (c < 2)) fun s =>
    match (s.canC c).cur with
    | none => s
    | some o =>
      let r := s.canC c
      let s := (s.attemptOver c).inc P.CanFramesTx c
      let s := (s.setCounters c (s.tec c - 1) (s.rec' c)).canRestate c
      if o = bellObj then
        if s.rb P.BellEnable c then
          let s := (s.wr P.BellSeq c (r.bSent % 256)).wr P.BellLastSync c (r.stamp % 2 ^ 64)
          (s.setCanC c { s.canC c with
            bWait := r.bWait - 1
            bSent := r.bSent + 1
            bPrev := r.stamp
            bPrevCyc := r.cycS
            gap := r.gapN
            gapN := false
            step := r.stepN
            stepN := false
            bConsec := 0 }).bellReport c
        else s
      else
        let i := 100 * c + o
        let s := (s.setCanO i { s.canO i with consec := 0 }).wr P.CanObjLastTx i (r.stamp % 2 ^ 64)
        s.canSendEnd i 0 r.cycle 0 0x0238

/-- An attempt of an object failed: a waiting cancel applies, a single-shot send ends, else the controller retries (R435, R437). -/
def State.attemptFails (s : State) (c o : Nat) : State :=
  let i := 100 * c + o
  if (s.canO i).cancels ≠ [] then s.canSendEnd i 0x0205 0xFFFFFFFF 0 0
  else if bitOf (s.rd P.CanObjFlags i) 1 then s.canSendEnd i 0x0205 0xFFFFFFFF 0 0
  else s.wrBit P.CanObjState i coSTARTED false

/-- An attempt of the reference failed: its SOF is no sync point, so a step after it belongs to the retry. -/
def State.bellFails (s : State) (c : Nat) : State :=
  let r := s.canC c
  s.setCanC c { r with step := r.step || r.stepN, stepN := false }

/-- CAN_ARBITRATION_LOST. -/
def execCanArbitrationLost (t c : Nat) (s : State) : Res :=
  onUnit t s (decide (c < 2)) fun s =>
    match (s.canC c).cur with
    | none => s
    | some o =>
      let s := s.attemptOver c
      if o = bellObj then s.bellFails c else s.attemptFails c o

/-- The 16th consecutive identifier collision of an object or of the reference (R438). -/
def State.canCollide (s : State) (c o : Nat) : State × Bool :=
  if o = bellObj then
    let n := (s.canC c).bConsec + 1
    let s := s.setCanC c { s.canC c with bConsec := n }
    if n < 16 then (s, false)
    else
      let s := (s.setCanC c { s.canC c with bWait := 0 }).wrBit P.BellState c 2 true
      ((s.raise E.canIdentifierCollision c (leBytes 4 c ++ leBytes 4 0xFF ++ leBytes 4 (s.canIdWord c o))).bellReport c, true)
  else
    let i := 100 * c + o
    let n := (s.canO i).consec + 1
    let s := (s.setCanO i { s.canO i with consec := n }).inc P.CanObjCollisions i
    if n < 16 ∨ (s.canO i).cancels ≠ [] then (s, false)
    else
      let s := (s.canSendEnd i 0x0504 0xFFFFFFFF 16 0).wrBit P.CanObjState i coSTOPPED true
      (s.raise E.canIdentifierCollision i (leBytes 4 c ++ leBytes 4 o ++ leBytes 4 (s.canIdWord c o)), true)

/-- The kind of the error that a controller detects: of an own data-phase bit, what its check finds (R428). -/
def State.canErrKind (s : State) (c : Nat) (e : CanErr) : Option Nat :=
  match e.fast, (s.canC c).cur with
  | some b, some o => if e.tx && s.canFast c o then s.canFastErr c b else some e.kind
  | _, _ => some e.kind

/-- CAN_ERROR (R438, R439): the counters as ISO 11898-1 has them. A bit error (4 or 5) in the own data field is an identifier collision. -/
def execCanError (t c : Nat) (e : CanErr) (s : State) : Res :=
  onUnit t s (decide (c < 2)) fun s =>
    match (if s.canOn c then s.canErrKind c e else none) with
    | none => s
    | some kind =>
    let cur := (s.canC c).cur
    let own := e.tx && cur.isSome
    let s := s.wr P.CanLastError c kind
    let s := if own then
        if kind = 3 ∧ s.rd P.CanState c = 3 then s else s.setCounters c (s.tec c + 8) (s.rec' c)
      else s.setCounters c (s.tec c) (s.rec' c + 1)
    let s := if own then
        match cur with
        | none => s
        | some o =>
          let s := s.attemptOver c
          let (s, stopped) := if e.dataBit && (kind == 4 || kind == 5) then s.canCollide c o else (s, false)
          if stopped then s else if o = bellObj then s.bellFails c else s.attemptFails c o
      else s
    s.canRestate c

/-- CAN_TX_TIMEOUT (R436). -/
def execCanTxTimeout (t c obj : Nat) (s : State) : Res :=
  onUnit t s (decide (c < 2 ∧ obj < 100)) fun s =>
    let i := 100 * c + obj
    let r := s.canO i
    if r.send.isSome && r.deadline.any (fun d => decide (d ≤ s.time.tick)) && (s.canC c).cur != some obj then
      s.canSendEnd i 0x0239 0xFFFFFFFF 0 0
    else s

/-- CAN_BUS_INTEGRATION (R427). -/
def execCanBusIntegration (t c : Nat) (s : State) : Res :=
  onUnit t s (decide (c < 2)) fun s => if s.rd P.CanState c = 1 then s.canRestate c else s

/-- CAN_BUS_OFF_RECOVERY (R439). -/
def execCanBusOffRecovery (t c : Nat) (s : State) : Res :=
  onUnit t s (decide (c < 2)) fun s =>
    let r := s.canC c
    if s.rd P.CanState c = 4 ∧ (s.rb P.CanAutoRecover c ∨ r.recovers ≠ []) then
      let s := (((s.setCounters c 0 0).wr P.CanState c 2).setCanC c { r with recovers := [] }).raise E.canBusOn c (leBytes 4 c)
      r.recovers.foldl (fun s q => s.complete q 0 s.time.cycle 0 0 0 0) s
    else s

/-! ### Reception (R431 to R433) -/

/-- The first receive object that accepts a frame. -/
def State.canTaker (s : State) (c : Nat) (f : CanFrame) : Option Nat :=
  (List.range 100).find? fun o =>
    let i := 100 * c + o
    s.rd P.CanObjKind i == 2 && idAgrees f.ide f.id (s.rd P.CanObjId i) (s.rd P.CanObjMask i) &&
      bitOf (s.rd P.CanObjFlags i) (if f.fdf then 5 else 4)

/-- The receive-all store takes a record, or it is lost. -/
def State.rxAllPut (s : State) (c : Nat) (b : List Byte) : State :=
  let r := s.canC c
  if r.rx.length < s.rd P.CanRxAllDepth c then
    (s.setCanC c { r with rx := r.rx ++ [b] }).wr P.CanRxAllFill c (r.rx.length + 1)
  else
    ((s.setCanC c { r with ovf := true }).inc P.CanRxAllLost c).raiseIf (!r.ovf) E.canReceiveOverflow c (leBytes 4 c)

/-- A receive object takes a record. -/
def State.objPut (s : State) (i : Nat) (b : List Byte) : State :=
  let st := s.rd P.CanObjState i
  let s := s.setCanO i { s.canO i with held := some b }
  let s := if bitOf st coNEW then (s.wrBit P.CanObjState i coOVR true).inc P.CanObjLost i else s.wrBit P.CanObjState i coNEW true
  s.raiseIf (bitOf (s.rd P.CanObjFlags i) 0) E.canFrameReceived i b

/-- CAN_FRAME_RECEIVED: an FD frame in classic mode makes the controller integrate (R426). -/
def execCanFrameReceived (t c : Nat) (f : CanFrame) (s : State) : Res :=
  onUnit t s (decide (c < 2)) fun s =>
    if !s.canOn c || (s.canC c).cur.isSome then s
    else if f.fdf && s.rd P.CanMode c == 1 then s.wr P.CanState c 1
    else
      let s := s.inc P.CanFramesRx c
      -- a receive counter above 127 returns to a value between 119 and 127 (ISO 11898-1)
      let (x, s) := if 127 < s.rec' c then s.takeFree 9 else (0, s)
      let s := (s.setCounters c (s.tec c) (if 127 < s.rec' c then (sat 119 127 x).toNat else s.rec' c - 1)).canRestate c
      let recd (o : Nat) := canRecord f.stamp f.id f.ide f.fdf f.brs f.esi f.rtr f.dlc o f.data
      match (if f.rtr then none else s.canTaker c f) with
      | some o => s.objPut (100 * c + o) (recd o)
      | none => if s.rb P.CanRxAll c then s.rxAllPut c (recd 0xFF) else s.inc P.CanRxUnmatched c

/-! ### Commands (R445) -/

/-- CAN_SEND. -/
def execCanSend (t : Nat) (q : Req) (s : State) : Res :=
  runReq 0x0C01 t q s fun s =>
    let i := q.inst
    let n := fld q.body 1 1
    guarded [
      (q.body.length != 8 + n, ⟨0x0303, 0, 0, 0⟩),
      (!lenLegal (bitOf (s.rd P.CanObjFlags i) 2) n, ⟨0x0303, 0, 0, 0⟩),
      (s.rd P.CanObjKind i != 1, ⟨0x032F, 0, 0, 0⟩),
      (bitOf (s.rd P.CanObjState i) coPENDING, ⟨0x0237, 0, 0, 0⟩),
      (s.rd P.CanMode (i / 100) == 0 || s.rd P.CanMode (i / 100) == 3, ⟨0x023A, 0, 0, 0⟩)] <|
    let to' := fld q.body 4 4
    let (id, s) := s.takeId
    let s := s.setCanO i { s.canO i with
      data := q.body.drop 8
      send := some (id, q)
      deadline := if to' = 0 then none else some (s.time.tick + 1000 * to')
      cancels := []
      consec := 0 }
    .ok 0x0101 (crBytes 0xFFFFFFFF id) ((s.wrBit P.CanObjState i coPENDING true).wrBit P.CanObjState i coSTOPPED false)

/-- CAN_CANCEL. -/
def execCanCancel (t : Nat) (q : Req) (s : State) : Res :=
  runReq 0x0C02 t q s fun s =>
    let i := q.inst
    guarded [(!bitOf (s.rd P.CanObjState i) coPENDING, ⟨0x023B, 0, 0, 0⟩)] <|
    if (s.canC (i / 100)).cur = some (i % 100) then
      let (id, s) := s.takeId
      .ok 0x0101 (crBytes 0xFFFFFFFF id)
        ((s.setCanO i { s.canO i with cancels := (s.canO i).cancels ++ [(id, q)] }).wrBit P.CanObjState i coCANCEL true)
    else .ok 0 [] (s.canSendEnd i 0x0205 0xFFFFFFFF 0 0)

/-- CAN_READ. -/
def execCanRead (t : Nat) (q : Req) (s : State) : Res :=
  runReq 0x0C03 t q s fun s =>
    let i := q.inst
    match (s.canO i).held with
    | none => .ok 0 [0, 0, 0, 0] s
    | some b => .ok 0 ([1, 0, 0, 0] ++ b) ((s.wrBit P.CanObjState i coNEW false).wrBit P.CanObjState i coOVR false)

/-- One pass over the receive-all store (R434): records returned, records kept, records removed by DROP. -/
def rxScan (hit : List Byte → Bool) (drop : Bool) : Nat → List (List Byte) → List (List Byte) × List (List Byte) × Nat
  | _, [] => ([], [], 0)
  | 0, l => ([], l, 0)
  | m + 1, b :: l =>
    if hit b then
      let (a, k, d) := rxScan hit drop m l
      (b :: a, k, d)
    else
      let (a, k, d) := rxScan hit drop (m + 1) l
      if drop then (a, k, d + 1) else (a, b :: k, d)

/-- CAN_RX_ALL_READ. -/
def execCanRxAllRead (t : Nat) (q : Req) (s : State) : Res :=
  runReq 0x0C04 t q s fun s =>
    let c := q.inst
    let mx := fld q.body 0 2
    let nf := fld q.body 3 1
    guarded [
      (q.body.length != 4 + 8 * nf, ⟨0x0303, 0, 0, 0⟩),
      (mx == 0 || decide (64 < mx), ⟨0x0304, 0, 0, 0⟩),
      (decide (8 < nf), ⟨0x0304, 0, 3, 0⟩)] <|
    let pairs := (List.range nf).map fun k => (fld q.body (4 + 8 * k) 4, fld q.body (8 + 8 * k) 4)
    let hit (b : List Byte) : Bool := nf == 0 || pairs.any fun p => idAgrees (bitOf (fld b 12 1) 7) (fld b 8 4) p.1 p.2
    let r := s.canC c
    let (a, k, d) := rxScan hit (bitOf (fld q.body 2 1) 0) mx r.rx
    let s := (s.setCanC c { r with rx := k, ovf := false }).wr P.CanRxAllFill c k.length
    let s := s.wr P.CanRxFiltered c ((s.rd P.CanRxFiltered c + d) % 2 ^ 32)
    .ok 0 (leBytes 2 a.length ++ leBytes 1 (if r.ovf then 1 else 0) ++ [0] ++ a.flatten) s

/-- CAN_RECOVER. -/
def execCanRecover (t : Nat) (q : Req) (s : State) : Res :=
  runReq 0x0C05 t q s fun s =>
    guarded [(s.rd P.CanState q.inst != 4, ⟨0x023C, 0, 0, 0⟩)] <|
    .ok 0x0101 [] (s.setCanC q.inst { s.canC q.inst with recovers := (s.canC q.inst).recovers ++ [q] })

/-! ### Writes (R427, R430, R433, R444) -/

/-- Bit rate of prescaler and segments in bit/s. -/
def canRate (p t1 t2 : Nat) : Rat := mkRat 80000000 (p * (1 + t1 + t2))

/-- The settings of a controller do not allow a mode (R427). -/
def State.canSettingsBad (s : State) (c mode : Nat) : Bool :=
  let n := canRate (s.rdShadow P.CanNomPrescaler c) (s.rdShadow P.CanNomTseg1 c) (s.rdShadow P.CanNomTseg2 c)
  let d := canRate (s.rdShadow P.CanDataPrescaler c) (s.rdShadow P.CanDataTseg1 c) (s.rdShadow P.CanDataTseg2 c)
  decide (n < 10000 ∨ 1000000 < n) || (mode == 2 && decide (d < n ∨ 8000000 < d)) ||
    decide (s.rdShadow P.CanNomTseg2 c < s.rdShadow P.CanNomSjw c) || decide (s.rdShadow P.CanDataTseg2 c < s.rdShadow P.CanDataSjw c)

/-- Identifier words that count towards R430: those of transmit objects, and that of a running Bellman. -/
def State.canTxIds (s : State) (c : Nat) (skip : Nat) : List Nat :=
  ((List.range 100).filterMap fun o =>
    if o ≠ skip ∧ s.rdShadow P.CanObjKind (100 * c + o) = 1 then some (s.rdShadow P.CanObjId (100 * c + o)) else none) ++
    (if skip ≠ bellObj ∧ s.rdShadow P.BellEnable c == 1 then [s.rdShadow P.BellId c] else [])

/-- A value in float32 is a whole number of steps of 1/n. -/
def wholeSteps (v n : Nat) : Bool := ratToF32 (mkRat (roundHE (f32ToRat v * (n : Rat))) n) == v

/-- Conditions on a write. -/
def State.canWriteBad (s : State) (idx inst v : Nat) : List (Bool × Rsn) :=
  let c := if 0xB020 ≤ idx ∧ idx < 0xB040 then inst / 100 else inst
  let o := inst % 100
  let bell := [P.BellEnable, P.BellFormat, P.BellPeriod, P.BellPhase, P.BellId].contains idx
  let dup (w skip : Nat) : Bool := (s.canTxIds c skip).contains w
  [((idx == P.BellPeriod && !wholeSteps v 1000) ||
      (idx == P.BellPhase && (!wholeSteps v 1 || decide (f32ToRat (s.rdShadow P.BellPeriod c) * 1000 < f32ToRat v))), ⟨0x0304, 0, 0, 0⟩),
   ((idx == P.CanMode && v != 0 && s.canSettingsBad c v) ||
      (idx == P.CanObjKind && v == 1 && dup (s.rdShadow P.CanObjId inst) o) ||
      (idx == P.CanObjId && s.rdShadow P.CanObjKind inst == 1 && dup v o) ||
      (idx == P.BellEnable && v == 1 && (dup (s.rdShadow P.BellId c) bellObj || (s.rdShadow P.BellFormat c == 1 && s.rdShadow P.CanMode c != 2))),
    ⟨0x032E, 0, 0, 0⟩),
   ((0xB001 ≤ idx && idx ≤ 0xB008 && s.rd P.CanMode c != 0) || (idx == P.CanRxAllDepth && s.rd P.CanMode c != 0) ||
      (bell && s.rb P.BellEnable c && !(idx == P.BellEnable && v == 0)), ⟨0x0236, 0, 0, 0⟩),
   (0xB020 ≤ idx && idx ≤ 0xB023 && bitOf (s.rd P.CanObjState inst) coPENDING, ⟨0x0237, 0, 0, 0⟩)]

/-- CanMode went to 0: every pending send ends, the counters return to 0 (R439). -/
def State.canStop (s : State) (c : Nat) : State :=
  let s := (List.range 100).foldl (fun s o =>
    if (s.canO (100 * c + o)).send.isSome then s.canSendEnd (100 * c + o) 0x0205 0xFFFFFFFF 0 0 else s) s
  let r := s.canC c
  let s := r.recovers.foldl (fun s q => s.complete q 0 0xFFFFFFFF 0x0205 0 0 0) s
  ((s.setCanC c { r with cur := none, recovers := [], bWait := 0 }).setCounters c 0 0).wr P.CanState c 0

/-- A write took effect. -/
def State.canChanged (s : State) (idx inst old : Nat) : State :=
  if idx = P.CanMode then
    let v := s.rd idx inst
    (if v = 0 then s.canStop inst else if old = 0 then s.wr P.CanState inst 1 else s).bellReport inst
  else if idx = P.CanRxAllDepth then (s.setCanC inst { s.canC inst with rx := [] }).wr P.CanRxAllFill inst 0
  else if idx = P.BellEnable then
    let r := s.canC inst
    let r := { r with bWait := 0, bSent := 0, bPrev := 0, bPrevCyc := 0, gap := false, gapN := false, step := false, stepN := false
                      bConsec := 0, bLast := none }
    ((s.setCanC inst r).wrBit P.BellState inst 2 false).bellReport inst
  else s

end Sys2Proof.Machine
end

