-- ==== Sys2Proof/Machine/Network.lean ====
section
/-!
DEFINITION. Line time, the IEEE 1588 time service, the transparent clock and the line roll call (chapter 17).
-/
namespace Sys2Proof.Machine

def State.setNt (s : State) (r : NtRec) : State := { s with nt := r }
def State.setRoll (s : State) (r : RollRec) : State := { s with roll := r }

/-- Bits of NtState. -/
abbrev ntLOCKED : Nat := 0
abbrev ntHOLDOVER : Nat := 1
abbrev ntJUMPHELD : Nat := 2
abbrev ntGRANDMASTER : Nat := 3

def State.ntBit (s : State) (k : Nat) : Bool := bitOf (s.rd P.NtState 0) k

/-! ### Steps (R449) -/

/-- A remainder in the range -T/2 to T/2. -/
def centred (x : Int) (m : Nat) : Int := let r := x % m; if (m : Int) < 2 * r then r - m else r

/-- The bytes of δ: i64 in ns and the fraction in 2^-16 ns. -/
def deltaBytes (d16 : Int) : List Byte := leBytes 8 (uNat 64 (d16 / 65536)) ++ leBytes 2 (d16 % 65536).toNat

/-- Line time jumps by δ (2^-16 ns): the grid keeps its instants and is then moved to where R28 puts it (R29, R449). -/
def State.timeStep (s : State) (d16 : Int) : State :=
  let d := d16 / 65536
  let lt := (((s.time.lt : Int) + d16 * 256) % (2 ^ 88 : Int)).toNat
  let next := ((s.time.nextS : Int) + d).toNat
  let r := -(centred ((next : Int) - s.rd P.SysCyclePhase 0) s.cycleNs)
  let fresh := !s.time.offGrid && decide (r ≠ 0)
  let s := { s with time := { s.time with
    lt := lt, nextS := next, lastS := ((s.time.lastS : Int) + d).toNat
    rephase := r, offGrid := s.time.offGrid || decide (r ≠ 0) } }
  let s := if fresh then s.orBits P.SysIslandLatched 0 (2 ^ 31) else s
  (s.bellStep).raise E.lineTimeStepped 0 (deltaBytes d16)

/-- A step above the jump threshold without FORCE (R449). -/
def State.stepRefused (s : State) (d16 : Int) : State :=
  (s.wrBit P.NtLatched 0 1 true).raise E.lineTimeStepRefused 0 (deltaBytes d16)

/-- NtJumpThreshold in 2^-16 ns. -/
def State.jump16 (s : State) : Rat := s.rf P.NtJumpThreshold 0 * 65536000

/-- TIME_STEP. -/
def execTimeStep (t : Nat) (q : Req) (s : State) : Res :=
  runReq 0x0C20 t q s fun s =>
    let d16 := fldI q.body 0 8 * 65536 + fld q.body 8 2
    let force := bitOf (fld q.body 10 1) 0
    guarded [(s.rd P.NtServoMode 0 == 2 && !force, ⟨0x023D, 0, 0, 0⟩)] <|
    if !force && decide (s.jump16 < absR (d16 : Rat)) then .ok 0x023E (refBytes 0 0 0) (s.stepRefused d16)
    else
      let s := s.timeStep d16
      .ok 0 [] (if force then s.wrBit P.NtState 0 ntJUMPHELD false else s)

/-! ### Servo (R452, R453) -/

/-- LOCKED changes. -/
def State.ntLock (s : State) (b : Bool) : State :=
  if s.ntBit ntLOCKED == b then s
  else if b then ((s.wrBit P.NtState 0 ntLOCKED true).setNt { s.nt with locked1 := true }).raise E.lineTimeLocked 0 []
  else ((s.wrBit P.NtState 0 ntLOCKED false).wrBit P.NtLatched 0 0 true).raise E.lineTimeUnlocked 0 []

/-- NtIncrement within its range (R447). -/
def incRange (x : Int) : Nat := (sat 0x00FFDF3B 0x010020C5 x).toNat

/-- Run counts of Syncs inside and outside the lock band, and LOCKED. -/
def State.ntRuns (s : State) (inside : Bool) : State :=
  let n := s.nt
  let s := s.setNt { n with good := if inside then n.good + 1 else 0, bad := if inside then 0 else n.bad + 1 }
  if 16 ≤ s.nt.good then s.ntLock true else if 4 ≤ s.nt.bad then s.ntLock false else s

/-- An offset o (2^-16 ns) is acted on (R452). -/
def State.ntOffset (s : State) (o : Int) : State :=
  if s.rd P.NtServoMode 0 ≠ 2 then s else
  let s := s.wrF P.NtOffset 0 (mkRat o 65536)
  let a := absR (o : Rat)
  let band := s.rf P.NtLockBand 0 * 65536
  let s := if a ≤ s.jump16 then s.wrBit P.NtState 0 ntJUMPHELD false else s
  let s :=
    if !s.nt.locked1 then s.timeStep (-o)
    else if a ≤ 2 * band then
      let (d, i) := Config.servoStep (roundHE (s.rf P.NtServoBandwidth 0 * mkRat (2 ^ 20) 1)) (s.ri P.NtSyncInterval 0) o s.nt.integ
      (s.setNt { s.nt with integ := i }).wr P.NtIncrement 0 (incRange ((s.rd P.NtIncrement 0 : Int) + sat (-16) 16 d))
    else if a ≤ s.jump16 then s.timeStep (-o)
    else ((s.stepRefused (-o)).wrBit P.NtState 0 ntJUMPHELD true).ntLock false
  let s := s.setNt { s.nt with incs := (s.rd P.NtIncrement 0 :: s.nt.incs).take 64 }
  s.ntRuns (decide (a ≤ band))

/-- A message concerns the time service: its domain, and the service runs (R454). -/
def State.ptpMine (s : State) (m : PtpMsg) : Bool := m.domain == s.rd P.NtDomain 0 && !s.pr.restart && s.boot.ready

/-- The stamps of a Sync are complete: origin with corrections, and ingress. -/
def State.syncDone (s : State) (origin : Int) (ingress : Nat) : State :=
  let s := s.setNt { s.nt with lastPair := some (origin.toNat, ingress) }
  s.ntOffset ((ingress : Int) - origin - s.nt.delay)

/-- PTP_SYNC_RECEIVED. -/
def execPtpSyncReceived (t : Nat) (m : PtpMsg) (s : State) : Res :=
  onEvent t s fun s =>
    if !s.ptpMine m || s.nt.sel != some m.source then s else
    let s := (s.setNt { s.nt with syncAt := s.time.tick, lost := false }).wrBit P.NtState 0 ntHOLDOVER false
    if m.twoStep then s.setNt { s.nt with sync := some (m.seq, m.stamp, m.corr) }
    else s.syncDone ((m.origin : Int) + m.corr) m.stamp

/-- FOLLOW_UP_RECEIVED: the origin of a two-step Sync. -/
def execFollowUpReceived (t : Nat) (m : PtpMsg) (s : State) : Res :=
  onEvent t s fun s =>
    if !s.ptpMine m || s.nt.sel != some m.source then s else
    match s.nt.sync with
    | none => s
    | some (seq, ingress, corr) =>
      if seq = m.seq then (s.setNt { s.nt with sync := none }).syncDone ((m.origin : Int) + m.corr + corr) ingress else s

/-- DELAY_RESP_RECEIVED: mean path delay from the latest exchange. -/
def execDelayRespReceived (t : Nat) (m : PtpMsg) (s : State) : Res :=
  onEvent t s fun s =>
    if !s.ptpMine m || s.nt.sel != some m.source || m.requester != Config.clockIdentity.toNat then s else
    match s.nt.req, s.nt.lastPair with
    | some (seq, out), some (t1, t2) =>
      if seq = m.seq then
        let d := (((t2 : Int) - t1) + ((m.origin : Int) - m.corr - out)) / 2
        (s.setNt { s.nt with delay := d, req := none }).wrF P.NtMeanPathDelay 0 (satR 0 1000000 (mkRat d 65536))
      else s
    | _, _ => s

/-! ### Best master (R450, R453) -/

/-- Lexicographic order of the data sets, the lower first (IEEE 1588). -/
def lexLt : List Nat → List Nat → Bool
  | _, [] => false
  | [], _ :: _ => true
  | a :: x, b :: y => if a < b then true else if b < a then false else lexLt x y

/-- The unit's own data set (R450). -/
def State.ownGm (s : State) : List Nat :=
  [s.rd P.NtPriority1 0, 248, Config.clockAccuracy.toNat, Config.clockVariance.toNat, s.rd P.NtPriority2 0, Config.clockIdentity.toNat, 0]

/-- Masters that qualify: two Announce messages within 4 intervals, the last one within the timeout. -/
def State.ntHeard (s : State) : List PtpMaster :=
  s.nt.masters.filter fun m =>
    m.prevAt.any (fun p => decide (m.at_ ≤ p + 4000000000)) && decide (s.time.tick ≤ m.at_ + s.rd P.NtAnnounceTimeout 0 * 1000000000)

/-- The algorithm selects a grandmaster. -/
def State.ntSelect (s : State) : State :=
  let best := s.ntHeard.foldl (fun (b : Option PtpMaster) m => match b with
    | none => some m
    | some x => if lexLt m.gm x.gm then some m else some x) none
  let ownWins := s.rd P.NtRole 0 == 1 && best.all (fun m => lexLt s.ownGm m.gm)
  let choose (own : Bool) (sel : Option Nat) (id : Nat) (s : State) : State :=
    let fresh := s.nt.sel != sel || s.nt.own != own
    let s := s.setNt { s.nt with own := own, sel := sel, syncAt := if fresh then s.time.tick else s.nt.syncAt
                                 annAt := if fresh then s.time.tick else s.nt.annAt
                                 sync := if fresh then none else s.nt.sync, lost := if fresh then false else s.nt.lost }
    let s := s.wrBit P.NtState 0 ntGRANDMASTER own
    if s.rd P.NtGrandmaster 0 = id then s
    else ((s.wr P.NtGrandmaster 0 id).wrBit P.NtLatched 0 2 true).raise E.grandmasterChanged 0 []
  if ownWins then choose true none (Config.clockIdentity.toNat) s
  else match best with
    | some m => choose false (some m.source) (m.gm.getD 5 0) s
    | none => s

/-- PTP_ANNOUNCE_RECEIVED. -/
def execPtpAnnounceReceived (t : Nat) (m : PtpMsg) (s : State) : Res :=
  onEvent t s fun s =>
    if !s.ptpMine m || m.source == Config.clockIdentity.toNat then s else
    let old := s.nt.masters.find? fun x => x.source == m.source
    let r : PtpMaster := { gm := m.gm, source := m.source, prevAt := old.map (·.at_), at_ := s.time.tick }
    let s := s.setNt { s.nt with
      masters := r :: s.nt.masters.filter (fun x => x.source != m.source)
      annAt := if s.nt.sel == some m.source then s.time.tick else s.nt.annAt }
    s.ntSelect

/-- PTP_MASTER_LOSS: no Announce for NtAnnounceTimeout intervals, or no Sync for 4 sync intervals. -/
def execPtpMasterLoss (t : Nat) (s : State) : Res :=
  onEvent t s fun s =>
    if s.pr.restart || !s.boot.ready then s else
    let n := s.nt
    let sync4 := (pow2R (s.ri P.NtSyncInterval 0) * 4000000000).floor.toNat
    let ann := decide (n.annAt + s.rd P.NtAnnounceTimeout 0 * 1000000000 ≤ s.time.tick)
    let gone := n.sel.isSome && !n.lost && (ann || decide (n.syncAt + sync4 ≤ s.time.tick))
    if gone then
      let mean : Rat := match n.incs with
        | [] => (s.rd P.NtIncrement 0 : Rat)
        | l => mkRat (l.sum : Nat) l.length
      -- only in mode 2 does the service write the increment (R448)
      let s := if s.rd P.NtServoMode 0 = 2 then s.wr P.NtIncrement 0 (incRange (roundHE mean)) else s
      let s := (s.wrBit P.NtState 0 ntHOLDOVER true).ntLock false
      let s := s.setNt { s.nt with lost := true, good := 0, bad := 0, masters := s.nt.masters.filter (fun m => some m.source != n.sel) }
      s.ntSelect
    else if n.sel.isNone && !n.own && ann then s.ntSelect
    else s

/-! ### Messages sent -/

/-- A timestamp: whole seconds and nanoseconds (IEEE 1588); its fraction of a nanosecond goes into the correction field. -/
def ptpStamp (x : Nat) : List Byte := beBytes 6 (x / 65536 / 1000000000) ++ beBytes 4 (x / 65536 % 1000000000)

/-- The identity of a port: the clock's and port number 1. -/
def ptpPort (id : Nat) : List Byte := beBytes 8 id ++ beBytes 2 1

/-- controlField of a message type. -/
def ptpControl (kind : Nat) : Nat := if kind = 0 then 0 else if kind = 1 then 1 else if kind = 8 then 2 else if kind = 9 then 3 else 5

/-- The body of an Announce after its timestamp: UTC offset, priority 1, clock quality, priority 2, identity, steps removed, time source. -/
def ptpAnnounce (gm : List Nat) : List Byte :=
  let g (k : Nat) : Nat := gm.getD k 0
  beBytes 2 0 ++ [0] ++ beBytes 1 (g 0) ++ beBytes 1 (g 1) ++ beBytes 1 (g 2) ++ beBytes 2 (g 3) ++ beBytes 1 (g 4) ++ beBytes 8 (g 5) ++
    beBytes 2 (g 6) ++ beBytes 1 0xA0

/-- A PTP message in the layout and byte order of IEEE 1588-2019 (R10, R450), `time` and `corr` in 2^-16 ns, `li` the logarithm of its
interval. Fields the manual says nothing of have the values of the standard's default profile (PRESUMED, notes/assumptions/74.md). -/
def ptpFrame (kind : Nat) (li : Int) (domain seq source : Nat) (twoStep : Bool) (corr : Int) (time requester : Nat) (gm : List Nat) :
    List Byte :=
  let body := ptpStamp time ++ (if kind = 9 then ptpPort requester else if kind = 11 then ptpAnnounce gm else [])
  beBytes 1 kind ++ [0x12] ++ beBytes 2 (34 + body.length) ++ beBytes 1 domain ++ [0] ++ beBytes 2 (if twoStep then 0x0200 else 0) ++
    beBytes 8 (uNat 64 corr) ++ beBytes 4 0 ++ ptpPort source ++ beBytes 2 seq ++ beBytes 1 (ptpControl kind) ++ beBytes 1 (uNat 8 li) ++ body

/-- A PTP message of the unit. The fraction of its time adds to the correction, and is taken off it in a Delay_Resp. -/
def ptpBytes (kind : Nat) (li : Int) (domain seq requester : Nat) (corr : Int) (time : Nat) (gm : List Nat) : List Byte :=
  let f : Int := (time % 65536 : Nat)
  ptpFrame kind li domain seq Config.clockIdentity.toNat false (if kind = 9 then corr - f else corr + f) time requester gm

/-- Line time in 2^-16 ns. -/
def State.time16 (s : State) : Nat := s.lineNs * 65536 + s.lineFrac

/-- PTP_MESSAGE_SEND: `kind` 0 Sync, 1 Announce, 2 Delay_Req, each at its interval. -/
def execPtpMessageSend (t kind : Nat) (s : State) : Res :=
  onUnit t s (decide (kind < 3)) fun s =>
    if s.pr.restart || !s.boot.ready then s else
    let every : Nat := match kind with
      | 0 => (pow2R (s.ri P.NtSyncInterval 0) * 1000000000).floor.toNat
      | 1 => 1000000000
      | _ => (pow2R (s.ri P.NtDelayReqInterval 0) * 1000000000).floor.toNat
    let due := (s.nt.sentAt.getD kind none).all fun x => decide (x + every ≤ s.time.tick)
    let role := if kind = 2 then s.nt.sel.isSome else s.nt.own
    if due && role then
      let seq := s.nt.seqs.getD kind 0
      let s := s.setNt { s.nt with
        seqs := s.nt.seqs.set kind ((seq + 1) % 65536)
        sentAt := s.nt.sentAt.set kind (some s.time.tick)
        req := if kind = 2 then some (seq, s.time16) else s.nt.req }
      s.frame .ptp 2 (ptpBytes ([0, 11, 1].getD kind 0) ([s.ri P.NtSyncInterval 0, 0].getD kind 0x7F) (s.rd P.NtDomain 0) seq 0 0 s.time16 (if kind = 1 then s.ownGm else []))
    else s

/-- DELAY_REQ_RECEIVED: the grandmaster answers with its ingress stamp. -/
def execDelayReqReceived (t : Nat) (m : PtpMsg) (s : State) : Res :=
  onEvent t s fun s =>
    if s.ptpMine m && s.nt.own then s.frame .ptp m.port (ptpBytes 9 (s.ri P.NtDelayReqInterval 0) m.domain m.seq m.source m.corr m.stamp []) else s

/-! ### Transparent clock (R455) -/

/-- A message that passes the switch. -/
def transitBytes (m : PtpMsg) (corr : Int) : List Byte :=
  ptpFrame m.kind m.logInt m.domain m.seq m.source m.twoStep corr m.origin m.requester m.gm

/-- Two-step Syncs whose Follow_Up has not passed within 100 ms. -/
def State.transitOld (s : State) : List (List Nat × Nat × Nat) := s.nt.transit.filter fun e => decide (e.2.2 + 100000000 < s.time.tick)

/-- Count and drop them. -/
def State.transitDrop (s : State) : State :=
  let n := s.transitOld.length
  (s.setNt { s.nt with transit := s.nt.transit.filter fun e => decide (s.time.tick ≤ e.2.2 + 100000000) }).wr P.NtTcUnmatched 0
    ((s.rd P.NtTcUnmatched 0 + n) % 2 ^ 32)

/-- PTP_TRANSIT: `residence` in 2^-16 ns. -/
def execPtpTransit (t : Nat) (m : PtpMsg) (inPort residence : Nat) (s : State) : Res :=
  onUnit t s (decide (inPort < 2)) fun s =>
    let key := [m.source, m.seq, m.domain, inPort]
    let pass (s : State) (corr : Int) : State := s.frame .ptp (1 - inPort) (transitBytes m corr)
    if !s.rb P.NtTcEnable 0 then pass s m.corr
    else
      let s := s.transitDrop
      if m.kind = 8 then
        match s.nt.transit.find? fun e => e.1 == key with
        | some e => pass (s.setNt { s.nt with transit := s.nt.transit.filter fun x => x.1 != key }) (m.corr + e.2.1)
        | none => pass s m.corr
      else if m.kind = 0 ∨ m.kind = 1 ∨ m.kind = 9 then
        let x := mkRat residence 65536
        let s := if s.rf P.NtResidenceMax 0 < x then s.wrF P.NtResidenceMax 0 x else s
        if m.kind = 0 ∧ m.twoStep then
          pass (s.setNt { s.nt with transit := (key, residence, s.time.tick) :: s.nt.transit.filter fun y => y.1 != key }) m.corr
        else pass s (m.corr + residence)
      else pass s m.corr

/-- FOLLOW_UP_TIMEOUT. -/
def execFollowUpTimeout (t : Nat) (s : State) : Res := onEvent t s State.transitDrop

/-! ### Line roll call (R457 to R460) -/

/-- Unit ID. -/
def State.unitId (s : State) : Nat := s.rd P.SysUnitId 0

def State.neighbour (s : State) (port : Nat) : Nat := s.rd P.LineNeighbour port

/-- A unit with no neighbour on X2. -/
def State.isHead (s : State) : Bool := s.neighbour 0 == 0

/-- A head that has not become a follower in this roll call (R459): no unit lies upstream of it. -/
def State.leads (s : State) : Bool := s.isHead && !s.roll.follow

/-- A roll-call frame (Table 17.1). -/
def rollBytes (kind count id num : Nat) : List Byte :=
  leBytes 2 1 ++ leBytes 1 kind ++ leBytes 1 count ++ leBytes 8 id ++ leBytes 4 num ++ List.replicate 30 0

def State.rollSend (s : State) (port kind count id num : Nat) : State := s.frame .rollCall port (rollBytes kind count id num)

/-- The line address changes or is lost (R460). -/
def State.setAddress (s : State) (a : Nat) : State :=
  if s.rd P.LineAddress 0 = a then s
  else
    let on := s.rb P.LineEnable 0
    let s := s.wr P.LineAddress 0 a
    if on then ((s.wr P.LineEnable 0 0).lineHalt).raise E.lineAddressChanged 0 [] else s

/-- The unit holds the end frame (R458). -/
def State.rollDone (s : State) (count : Nat) : State :=
  let r := s.roll
  let s := if r.gotAddr then s else s.setAddress 0
  let s := (s.wr P.LineCount 0 count).wr P.LineRollCallState 0 2
  let retry := if !r.gotAddr && s.neighbour 0 != 0 then some (s.time.tick + 1000000000) else none
  let s := s.setRoll { r with startAt := none, follow := false, waiting := [], retryAt := retry }
  r.waiting.foldl (fun s q => s.complete q 0 s.time.cycle 0 0 0 0) s

/-- The unit takes address `a`, or none above 32, and hands on; the tail ends the call. -/
def State.takeAddress (s : State) (a : Nat) : State :=
  let ok := decide (a ≤ 32)
  let num := s.roll.num
  let s := s.setRoll { s.roll with gotAddr := ok, addrSent := true }
  let s := if ok then s.setAddress a else (s.setAddress 0).raise E.lineTooLong 0 []
  let s := s.rollSend 1 3 (if ok then a else 33) s.unitId num
  if s.neighbour 1 = 0 then
    let s := if s.leads then s else s.rollSend 0 4 (if ok then a else 0) s.unitId num
    s.rollDone (if ok then a else 0)
  else s

/-- 1 ms after its start frames, the head takes address 1 (R458). -/
def State.rollDue (s : State) : State :=
  match s.roll.startAt with
  | some x => if !s.roll.addrSent && !s.roll.follow && decide (x + 1000000 ≤ s.time.tick) then s.takeAddress 1 else s
  | none => s

/-- BEACON_SEND, every 100 ms. -/
def execBeaconSend (t : Nat) (s : State) : Res :=
  onEvent t s fun s =>
    let s := s.rollDue
    if s.roll.beaconAt.any (fun x => decide (s.time.tick < x + 100000000)) then s else
    let s := s.setRoll { s.roll with beaconAt := some s.time.tick }
    (s.frame .beacon 0 (rollBytes 1 0 s.unitId 0)).frame .beacon 1 (rollBytes 1 0 s.unitId 0)

/-- The neighbour state of a port changes. -/
def State.setNeighbour (s : State) (port id : Nat) : State :=
  if s.neighbour port = id then s
  else (s.wr P.LineNeighbour port id).setRoll { s.roll with stableAt := s.time.tick, called := false }

/-- BEACON_RECEIVED. -/
def execBeaconReceived (t port id : Nat) (s : State) : Res :=
  onUnit t s (decide (port < 2)) fun s =>
    let s := s.rollDue
    (s.setRoll { s.roll with seen := s.roll.seen.set port (some s.time.tick) }).setNeighbour port id

/-- NEIGHBOUR_LOST: the last beacon lies more than 350 ms back (R457, R9). -/
def execNeighbourLost (t port : Nat) (s : State) : Res :=
  onUnit t s (decide (port < 2)) fun s =>
    let s := s.rollDue
    match s.roll.seen.getD port none with
    | some x => if x + 350000000 < s.time.tick then (s.setRoll { s.roll with seen := s.roll.seen.set port none }).setNeighbour port 0 else s
    | none => s

/-- When the head was asked for a roll call: the first request counts until the call starts (R457). -/
def RollRec.asked (r : RollRec) (now : Nat) : Option Nat := some (r.reqAt.getD now)

/-- ROLL_CALL_START: at the head, 2 s after the last change of a neighbour, or 10 ms after a request; and its address 1 ms later. -/
def execRollCallStart (t : Nat) (s : State) : Res :=
  onEvent t s fun s =>
    let s := s.rollDue
    let r := s.roll
    let stable := !r.called && decide (r.stableAt + 2000000000 ≤ s.time.tick)
    let asked := r.reqAt.any fun x => decide (x + 10000000 ≤ s.time.tick)
    if s.isHead && r.startAt.isNone && (stable || asked) then
      let n := r.nextNum
      let s := s.setRoll { r with called := r.called || stable, reqAt := none, num := n, nextNum := (n + 1) % 2 ^ 32, startAt := some s.time.tick
                                  addrSent := false, follow := false, gotAddr := false, retryAt := none }
      ((s.wr P.LineRollCallState 0 1).rollSend 0 2 0 s.unitId n).rollSend 1 2 0 s.unitId n
    else s

/-- ROLL_CALL_FRAME_RECEIVED. -/
def execRollCallFrameReceived (t port : Nat) (f : RollFrame) (s : State) : Res :=
  onUnit t s (decide (port < 2)) fun s =>
    let s := s.rollDue
    let r := s.roll
    match f.kind with
    | 2 =>
      if s.isHead && r.startAt.isSome && f.id != s.unitId then
        if f.id < s.unitId then
          ((s.setRoll { r with follow := true, startAt := none, num := f.num, gotAddr := false }).wr P.LineRollCallState 0 3).raise E.lineRollCallConflict 0 []
        else s
      else if f.id = s.unitId then s
      else ((s.setRoll { r with num := f.num, gotAddr := false, retryAt := none }).wr P.LineRollCallState 0 1).rollSend (1 - port) 2 0 f.id f.num
    | 3 => if port = 0 then s.takeAddress (f.addr + 1) else s
    | 4 =>
      if port = 1 then
        let s := if s.leads then s else s.rollSend 0 4 f.addr f.id f.num
        s.rollDone f.addr
      else s
    | 5 => if s.isHead then s.setRoll { r with reqAt := s.roll.asked s.time.tick } else s.rollSend 0 5 0 f.id f.num
    | _ => s

/-- ROLL_CALL_TIMEOUT: 100 ms after its start the head has no end frame. -/
def execRollCallTimeout (t : Nat) (s : State) : Res :=
  onEvent t s fun s =>
    let s := s.rollDue
    let r := s.roll
    match r.startAt with
    | some x =>
      if s.isHead && decide (x + 100000000 ≤ s.time.tick) then
        let s := (s.setRoll { r with startAt := none, waiting := [] }).wr P.LineRollCallState 0 4
        let s := s.raise E.lineRollCallIncomplete 0 []
        r.waiting.foldl (fun s q => s.complete q 0 0xFFFFFFFF 0x0503 0 0 0) s
      else s
    | none => s

/-- ROLL_CALL_RETRY. -/
def execRollCallRetry (t : Nat) (s : State) : Res :=
  onEvent t s fun s =>
    let s := s.rollDue
    match s.roll.retryAt with
    | some x => if x ≤ s.time.tick then (s.setRoll { s.roll with retryAt := none }).rollSend 0 5 0 s.unitId 0 else s
    | none => s

/-- LINE_ROLL_CALL. -/
def execLineRollCall (t : Nat) (q : Req) (s : State) : Res :=
  runReq 0x0C21 t q s fun s =>
    let r := s.roll
    let s := s.setRoll { r with waiting := r.waiting ++ [q], reqAt := if s.isHead then r.asked s.time.tick else r.reqAt }
    .ok 0x0101 [] (if s.isHead then s else s.rollSend 0 5 0 s.unitId 0)

/-! ### Writes (R448, R462) -/

/-- Conditions on a write. -/
def State.netWriteBad (s : State) (idx : Nat) : List (Bool × Rsn) :=
  [(idx == P.NtIncrement && s.rd P.NtServoMode 0 == 2, ⟨0x023D, 0, 0, 0⟩)]

/-- Writes that take effect with their reply and restart the service. -/
def netAtOnce (idx : Nat) : Bool := [P.NtIncrement, P.NtDomain, P.NtTransport, P.NtRole, P.NtSyncInterval, P.NtDelayReqInterval].contains idx

/-- A value outside the range of these is status 0x0330. -/
def netRange (idx : Nat) : Bool := [P.NtDomain, P.NtTransport, P.NtSyncInterval, P.NtDelayReqInterval].contains idx

/-- A write took effect. -/
def State.netChanged (s : State) (idx : Nat) : State :=
  if idx = P.NtServoMode then (if s.rd idx 0 = 2 then s.setNt { s.nt with locked1 := false, good := 0, bad := 0 } else s)
  else if netAtOnce idx && idx != P.NtIncrement then
    (s.setNt { NtRec.init with locked1 := s.nt.locked1, incs := s.nt.incs, integ := s.nt.integ, transit := s.nt.transit, seqs := s.nt.seqs
                               annAt := s.time.tick, syncAt := s.time.tick }).wrBit P.NtState 0 ntGRANDMASTER false
  else s

end Sys2Proof.Machine
end

