-- ==== Sys2Proof/Machine/Startup.lean ====
section
/-!
DEFINITION. Resets, start sequence, firmware slots, boot record and firmware update (chapters 18 and 19), islands (chapter 01), supplies
and transceivers (chapter 20).
-/
namespace Sys2Proof.Machine

def State.setBoot (s : State) (b : BootState) : State := { s with boot := b }

/-! ### Firmware slots (R467, R484) -/

/-- Largest size of an image: 128 MB. -/
abbrev slotMax : Nat := 134217728

/-- A byte of a slot. -/
def State.slotByte (s : State) (k off : Nat) : Byte :=
  let r := s.boot.slots.getD k ⟨true, []⟩
  match tabGet r.bytes none off with
  | some b => b
  | none => if r.emptied then 0xFF else Config.imageByte k off

def State.slotBytes (s : State) (k off n : Nat) : List Byte := (List.range n).map fun i => s.slotByte k (off + i)

def State.slotVersion (s : State) (k : Nat) : Nat := leNat (s.slotBytes k Config.imageVersionAt 4)

/-- A slot is valid (R467). -/
def State.slotOk (s : State) (k : Nat) : Bool :=
  let n := leNat (s.slotBytes k Config.imageSizeAt 4)
  leNat (s.slotBytes k 0 2) == 1 && decide (n ≤ slotMax) &&
    crc32 (patch (s.slotBytes k 0 n) Config.imageCrcAt [0, 0, 0, 0]) == leNat (s.slotBytes k Config.imageCrcAt 4)

/-- SysImageState and SysImageVersion from the content of a slot. -/
def State.slotReport (s : State) (k : Nat) : State :=
  let r := s.boot.slots.getD k ⟨true, []⟩
  if r.emptied ∧ r.bytes = [] then (s.wr P.SysImageState k 0).wr P.SysImageVersion k 0
  else (s.wr P.SysImageState k (if s.slotOk k then 2 else 1)).wr P.SysImageVersion k (s.slotVersion k)

/-! ### Boot record (R470) -/

/-- The parameters of the boot record. -/
def bootParams : List Nat :=
  [P.SysBootSelect, P.HostIpAddress, P.HostNetmask, P.HostGateway, P.HostUdpPort, P.HostRs485Baud, P.HostRs485Gap, P.MemCamStoreSize,
   P.MemTraceSize]

def State.bootVals (s : State) (defaults : Bool) : List Nat := bootParams.map fun p => if defaults then paramReset p 0 else s.rd p 0

/-- The number of the copy with the higher sequence number, and its content. -/
def State.bootCopy (s : State) : Option (Nat × BootCopy) :=
  match s.boot.copies.getD 0 none, s.boot.copies.getD 1 none with
  | none, none => none
  | some a, none => some (0, a)
  | none, some b => some (1, b)
  | some a, some b => if a.seq < b.seq then some (1, b) else some (0, a)

/-- The copy written next: the copies take turns. -/
def State.copyTarget (s : State) : Nat := match s.bootCopy with
  | some (k, _) => 1 - k
  | none => 0

/-- A stored value, or the value after reset. -/
def State.stored (s : State) (j : Nat) : Nat := match s.bootCopy with
  | some (_, c) => c.vals.getD j 0
  | none => paramReset (bootParams.getD j 0) 0

/-- SYS_BOOT_STORE. -/
def execSysBootStore (t : Nat) (q : Req) (s : State) : Res :=
  runReq 0x010B t q s fun s =>
    .ok 0x0101 [] (s.setBoot { s.boot with storing := s.boot.storing ++ [{ vals := s.bootVals (bitOf (fld q.body 0 1) 0), req := some q }] })

/-- BOOT_RECORD_WRITTEN: the oldest record on its way is stored. -/
def execBootRecordWritten (t : Nat) (s : State) : Res :=
  onEvent t s fun s =>
    match s.boot.storing with
    | [] => s
    | j :: r =>
      let seq := match s.bootCopy with
        | some (_, c) => c.seq + 1
        | none => 0
      let s := s.setBoot { s.boot with storing := r, copies := s.boot.copies.set s.copyTarget (some { seq := seq, vals := j.vals }) }
      match j.req with
      | some q => s.complete q 0 s.time.cycle 0 0 0 0
      | none => s

/-! ### Resets (R464 to R466) -/

/-- Field outputs that are on go off, and the local gate outputs are low (R466). -/
def State.outputsOff (s : State) : State :=
  let s := (List.range 16).foldl (fun s o => if bitOf (s.group (o / 4)).drive (o % 4) then s.frame .level o [0] else s) s
  (List.range 12).foldl State.gpOff s

/-- Every island is reset and the Granary initialised. What stays: the image store, the boot record (a copy being written becomes
invalid), the transceivers in their cages, and the Lockkeeper, where it is not reset itself. -/
def State.chipReset (s : State) (cause : Nat) (lockkeeper : Bool) : State :=
  let b := s.boot
  let copies := if b.storing = [] then b.copies else b.copies.set s.copyTarget none
  let saf := if lockkeeper then SafRec.init
    else { s.saf with frames := [[], []], refs := [0, 0], at_ := [0, 0], unequal := 0, lost := false, lines := 0 }
  let r := State.reset
  let n : State := { r with
    time := { r.time with tick := s.time.tick, lastTick := s.time.tick }
    sent := s.outputsOff.sent
    free := s.free
    pr := { r.pr with peakFrom := s.time.tick }
    saf := saf
    roll := { r.roll with stableAt := s.time.tick }
    nt := { r.nt with annAt := s.time.tick, syncAt := s.time.tick }
    boot := { r.boot with slots := b.slots, copies := copies, cages := b.cages, bootAt := s.time.tick }
    pending := s.pending }
  (n.wr P.SysResetCause 0 cause).safLines

/-- POWER_UP: cause 1, the Lockkeeper starts too. -/
def execPowerUp (t : Nat) (s : State) : Res := onEvent t s fun s => s.chipReset 1 true

/-- BROWN_OUT: cause 3. -/
def execBrownOut (t : Nat) (s : State) : Res := onEvent t s fun s => s.chipReset 3 false

/-- SUPPLY_INTERRUPTION: below 5 ms it is bridged; a longer one is a brown-out (R497). -/
def execSupplyInterruption (t ns : Nat) (s : State) : Res :=
  onEvent t s fun s => if ns < 5000000 then s else s.chipReset 3 false

/-- A condition of the system watchdog holds (Table 18.1). -/
def State.watchdogDue (s : State) : Bool :=
  let b := s.boot
  let now := s.time.tick
  let sw := match b.switch with
    | some (_, _, x) => decide (x + 500000000 ≤ now)
    | none => s.pr.restart && decide (b.restartAt + 100000000 ≤ now)
  let third := match b.restarts with
    | x :: _ :: y :: _ => decide (x ≤ y + 60000000000)
    | _ => false
  sw || third || b.trial.any (fun x => b.restarts.any fun y => decide (x ≤ y))

/-- SYSTEM_WATCHDOG: cause 4. -/
def execSystemWatchdog (t : Nat) (s : State) : Res :=
  onEvent t s fun s => if s.watchdogDue then s.chipReset 4 false else s

/-- SYS_RESET: the reset follows the reply. -/
def execSysReset (t : Nat) (q : Req) (s : State) : Res :=
  let r := runReq 0x010A t q s fun s =>
    let force := bitOf (fld q.body 0 1) 0
    guarded [(!force && ((List.range 128).any s.axisOn || s.rb P.FeState 0), ⟨0x0217, 0, 0, 0⟩)]
      (.ok 0 [] (s.setBoot { s.boot with due := 1 }))
  match r with
  | .next s => .next (if s.boot.due = 1 then s.chipReset 2 false else s)
  | x => x

/-- BOOT: the ROM checks the selected slot, then the other (R468, R469); line time starts at 0. -/
def execBoot (t : Nat) (s : State) : Res :=
  onEvent t s fun s =>
    if s.boot.phase ≠ 0 then s else
    let sel := s.stored 0
    let s := { s with time := { State.reset.time with tick := s.time.tick, lastTick := s.time.tick } }
    let s := (s.slotReport 0).slotReport 1
    let go (k fallback : Nat) (s : State) : State :=
      ((s.wr P.SysBootSlot 0 k).wr P.SysBootState 0 fallback).wr P.SysFirmwareVersion 0 (s.slotVersion k)
    let s := s.setBoot { s.boot with phase := 1, bootAt := s.time.tick, recovery := !s.slotOk sel && !s.slotOk (1 - sel) }
    if s.slotOk sel then go sel 0 s
    else if s.slotOk (1 - sel) then go (1 - sel) 1 s
    else s.wr P.SysBootState 0 2

/-- The state of a cage without what was in it before. -/
def State.sfpReport (s : State) : State := (List.range 4).foldl (fun s n => s.wr P.ElkSfpState n (s.boot.cages.getD n 0)) s

/-- The Granary's partitions in MB (R400). -/
def State.partSizes (s : State) : State :=
  let cam := s.rd P.MemCamStoreSize 0
  let tr := s.rd P.MemTraceSize 0
  (((s.wr P.MemPartitionSize 1 cam).wr P.MemPartitionSize 3 tr).wr P.MemPartitionSize 4 (8192 - 512 - 64 - cam - tr))

/-- READY (R470 to R473): the boot record is applied, then the interpreter accepts packets. Islands must have been inside their limits
for 10 ms. -/
def execReady (t : Nat) (s : State) : Res :=
  onEvent t s fun s =>
    if s.boot.phase ≠ 1 ∨ s.rb P.SysIslandState 0 ∨ s.boot.islBadAt.any (fun x => decide (s.time.tick < x + 10000000)) then s else
    let s := if s.boot.recovery then s
      else ((List.range bootParams.length).foldl (fun s j => s.wr (bootParams.getD j 0) 0 (s.stored j)) s).partSizes
    let early := s.boot.islEarly
    let s := s.setBoot { s.boot with phase := 2, ready := true, islEarly := false }
    let s := s.sfpReport.wrF P.SysReadyTime 0 (mkRat (s.time.tick - s.boot.bootAt) 1000000)
    s.raiseIf early E.islandOutOfLimits 0 []

/-! ### Islands (R19, R26, R27) -/

/-- Pairs of neighbours: islands joined by a crossing of Table 1.4. -/
def islandPairs : List (Nat × Nat) :=
  [(3, 1), (1, 2), (2, 3), (0, 2), (0, 3), (0, 1), (4, 0), (4, 1), (4, 2), (4, 3), (4, 7), (4, 8), (6, 4), (7, 1), (1, 8), (2, 8), (8, 5), (4, 5)]

/-- Islands that a neighbour differs from by more than a limit. -/
def apart (l : List Int) (lim : Int) : Nat :=
  ((List.range 9).map fun i =>
    if islandPairs.any fun p => (p.1 == i || p.2 == i) && decide (lim < ((l.getD p.1 0) - l.getD p.2 0).natAbs) then 2 ^ i else 0).sum

/-- CLOCK bits: ±3 %, and ±10 % for the timebase itself. -/
def clockBits (l : List Int) : Nat :=
  ((List.range 9).map fun i => if (if i = 0 then 100000 else 30000) < ((l.getD i 0).natAbs : Int) then 2 ^ i else 0).sum

/-- SysIslandState with REPHASE (Table 1.6). -/
def State.islandState (s : State) : Nat := s.rd P.SysIslandState 0 % 2 ^ 31 + (if s.time.offGrid then 2 ^ 31 else 0)

/-- Local pairs go off and wait for a load-all set after the end (R264). -/
def State.pairsOff (s : State) : State :=
  (List.range 12).foldl (fun s n => (s.setGp n { s.gp n with endLv := 2, wait := true }).gpOff n) s

/-- ISLAND_MEASUREMENT. -/
def execIslandMeasurement (t : Nat) (m : IslandMeas) (s : State) : Res :=
  onEvent t s fun s =>
    let old := s.rd P.SysIslandState 0 % 2 ^ 31
    let new := clockBits m.clock + (if m.full then 2 ^ 9 * apart m.supply 60 + 2 ^ 18 * apart m.temp 20000 else old / 2 ^ 9 * 2 ^ 9)
    let fresh := new - new.land old
    let isl := (fresh % 512).lor ((fresh / 2 ^ 9 % 512).lor (fresh / 2 ^ 18 % 512))
    let s := (s.wr P.SysIslandState 0 new).orBits P.SysIslandLatched 0 fresh
    let s := if new = 0 then s else s.setBoot { s.boot with islBadAt := some s.time.tick }
    if fresh = 0 then s
    else
      let s := s.setBoot { s.boot with islFault := true, islEarly := s.boot.islEarly || decide (s.boot.phase < 2) }
      let s := if s.boot.phase < 2 then s else (bitList 9 isl).foldl (fun s k => s.raise E.islandOutOfLimits k []) s
      if isl % 16 = 0 then s
      else
        let s := (s.setMod { s.mod with blocked := true, axWait := List.range 128 }).pairsOff
        (List.range 128).foldl (fun s a => s.hold a holdISLAND) s

/-- ISLAND_HALT: an island on the loop path halts or loses its clock. -/
def execIslandHalt (t island : Nat) (s : State) : Res :=
  onUnit t s (decide (island < 4)) fun s =>
    let s := (s.setMod { s.mod with halted := setBit s.mod.halted island true }).pairsOff
    (List.range 128).foldl (fun s a => s.hold a holdHALT) s

/-- ISLAND_RESUME: the halt of an island has ended. -/
def execIslandResume (t island : Nat) (s : State) : Res :=
  onUnit t s (decide (island < 9)) fun s =>
    if 4 ≤ island then
      let s := s.setBoot { s.boot with offHalt := setBit s.boot.offHalt island false }
      if island = 4 then (List.range 6).foldl (fun s c => s.wr P.ProcCoreState c (if (s.coreR c).run.isSome then 2 else 1)) s else s
    else if !bitOf s.mod.halted island then s
    else
      let s := s.setMod { s.mod with halted := setBit s.mod.halted island false }
      if s.mod.halted ≠ 0 then s
      else (List.range 128).foldl (fun s a => s.unhold a holdHALT) (s.setMod { s.mod with relTick := s.time.tick })

/-- ISLAND_HALT_OFF_LOOP_PATH: loops, modulation and Elkob run on (R17); the units of the acquisition island stop (R410). -/
def execIslandHaltOffLoopPath (t island : Nat) (s : State) : Res :=
  onUnit t s (decide (4 ≤ island ∧ island ≤ 8)) fun s =>
    let s := s.setBoot { s.boot with offHalt := setBit s.boot.offHalt island true }
    if island = 8 then s.aqHalt
    else if island = 4 then (List.range 6).foldl (fun s c => s.wr P.ProcCoreState c 3) s
    else s

/-! ### Image store and update (R484 to R487) -/

/-- A slot that may not be written: the one in use, and the fallback slot of a trial. -/
def State.slotBusy (s : State) (k : Nat) : Bool :=
  !s.boot.recovery && (s.rd P.SysBootSlot 0 == k || s.boot.trial.isSome)

/-- IMAGE_WRITE. -/
def execImageWrite (t : Nat) (q : Req) (s : State) : Res :=
  runReq 0x0F10 t q s fun s =>
    let k := fld q.body 0 1
    let off := fld q.body 4 4
    let d := q.body.drop 8
    guarded [(decide (q.body.length < 8), ⟨0x0303, 0, 0, 0⟩), (decide (1 < k) || decide (slotMax < off + d.length), ⟨0x0304, 0, 0, 0⟩),
        (s.slotBusy k, ⟨0x0245, 0, 0, 0⟩)] <|
      let begin_ := bitOf (fld q.body 1 1) 0
      let r := if begin_ then ⟨true, []⟩ else s.boot.slots.getD k ⟨true, []⟩
      let bytes := (List.range d.length).foldl (fun b i => tabSet b none (off + i) (d[i]?)) r.bytes
      let s := if begin_ then ((s.wr P.SysImageState k 0).wr P.SysImageVersion k 0).wr P.UpdWritten 0 0 else s
      let s := s.setBoot { s.boot with slots := s.boot.slots.set k { r with bytes := bytes } }
      .ok 0 [] ((s.wr P.UpdState 0 1).wr P.UpdWritten 0 (max (s.rd P.UpdWritten 0) (off + d.length)))

/-- IMAGE_CHECK. -/
def execImageCheck (t : Nat) (q : Req) (s : State) : Res :=
  runReq 0x0F11 t q s fun s =>
    let k := fld q.body 0 1
    guarded [(decide (1 < k), ⟨0x0304, 0, 0, 0⟩)] <|
      let ok := s.slotOk k
      let s := s.slotReport k
      let s := if s.rd P.UpdState 0 = 1 then s.wr P.UpdState 0 0 else s
      if ok then .ok 0 [] s else .ok 0x0331 (refBytes 0 0 0) s

/-- A request answered 0x0101 or 0x0102 has not completed. -/
def State.openRequests (s : State) : Bool :=
  s.par.commits ≠ [] || s.mod.loads ≠ [] || s.link.startReq.isSome || !s.link.stopReq.isEmpty || s.link.loads ≠ [] || s.link.loading ≠ [] || s.link.svc ≠ [] || s.link.svcOut ≠ [] || s.link.joining ≠ [] ||
    s.link.ann.isSome || s.cpl.any (fun e => e.2.pend.isSome) || s.line.cmds.any (fun c => c.req.isSome) || s.fe.start.isSome ||
    s.fe.stops ≠ [] || s.pr.tasks.any (fun e => e.2.start.isSome) || s.canObj.any (fun e => e.2.send.isSome) ||
    s.can.any (fun e => e.2.recovers ≠ []) || s.roll.waiting ≠ [] || s.boot.storing.any (fun j => j.req.isSome)

/-- FIRMWARE_SWITCH: the service cores stop after the reply (R485, R486). -/
def execFirmwareSwitch (t : Nat) (q : Req) (s : State) : Res :=
  let r := runReq 0x0F12 t q s fun s =>
    let k := fld q.body 0 1
    guarded [(decide (1 < k) || s.rd P.SysBootSlot 0 == k, ⟨0x0304, 0, 0, 0⟩), (!s.slotOk k, ⟨0x0331, 0, 0, 0⟩),
        (s.slotVersion k / 2 ^ 24 != s.rd P.SysFirmwareVersion 0 / 2 ^ 24, ⟨0x0243, 0, 0, 0⟩),
        (s.openRequests || s.host.assemblies ≠ [] || s.par.staged ≠ [] || s.boot.switch.isSome, ⟨0x0244, 0, 0, 0⟩)]
      (.ok 0x0101 [] (s.setBoot { s.boot with switch := some (k, q, s.time.tick), due := 2 }))
  match r with
  | .next s => .next (if s.boot.due = 2 then ((s.setBoot { s.boot with due := 0 }).wr P.UpdState 0 2).coresStop else s)
  | x => x

/-- FIRMWARE_SWITCHED: the new firmware accepts packets; the trial begins. -/
def execFirmwareSwitched (t : Nat) (s : State) : Res :=
  onEvent t s fun s =>
    match s.boot.switch with
    | none => s
    | some (k, q, _) =>
      let s := s.setBoot { s.boot with switch := none, trial := some s.time.tick }
      let s := (s.setPr { s.pr with restart := false }).wr P.UpdState 0 3
      let s := (s.wr P.SysBootSlot 0 k).wr P.SysFirmwareVersion 0 (s.slotVersion k)
      (s.raise E.firmwareSwitched 0 []).complete q 0 s.time.cycle 0 0 0 0

/-- FIRMWARE_TRIAL_END: after 60 s without a service restart the new slot is selected and stored (R487). -/
def execFirmwareTrialEnd (t : Nat) (s : State) : Res :=
  onEvent t s fun s =>
    match s.boot.trial with
    | none => s
    | some x =>
      if x + 60000000000 ≤ s.time.tick ∧ !s.watchdogDue then
        let s := (s.wr P.SysBootSelect 0 (s.rd P.SysBootSlot 0)).wr P.UpdState 0 0
        s.setBoot { s.boot with trial := none, storing := s.boot.storing ++ [{ vals := s.bootVals false, req := none }] }
      else s

/-- UpdTrialRemaining in s. -/
def State.trialLeft (s : State) : Rat := match s.boot.trial with
  | some x => mkRat (x + 60000000000 - s.time.tick) 1000000000
  | none => 0

/-! ### Supplies and transceivers (R500, R503) -/

/-- AUX_SUPPLY_OVERLOAD: bits 0 to 7 LF0 to LF7, 8 X12, 9 X13. -/
def execAuxSupplyOverload (t n : Nat) (s : State) : Res :=
  onUnit t s (decide (n < 10)) fun s =>
    if bitOf (s.rd P.SysAuxSupplyState 0) n then s
    else (s.setBoot { s.boot with auxAt := s.boot.auxAt.set n s.time.tick }).wrBit P.SysAuxSupplyState 0 n true

/-- AUX_SUPPLY_RETRY: 1 s after it switched off. -/
def execAuxSupplyRetry (t n : Nat) (overloaded : Bool) (s : State) : Res :=
  onUnit t s (decide (n < 10)) fun s =>
    if bitOf (s.rd P.SysAuxSupplyState 0) n && decide (s.boot.auxAt.getD n 0 + 1000000000 ≤ s.time.tick) then
      if overloaded then s.setBoot { s.boot with auxAt := s.boot.auxAt.set n s.time.tick } else s.wrBit P.SysAuxSupplyState 0 n false
    else s

/-- A cage takes a state. -/
def State.setCage (s : State) (n v : Nat) : State :=
  (s.setBoot { s.boot with cages := s.boot.cages.set n v }).wr P.ElkSfpState n v

/-- The nominal rate that a transceiver declares lies in the lock range of Table 2.10, 1.2000 to 1.3000 Gbaud: byte 12 of its
identification, in units of 100 MBd (INF-8074i; PRESUMED, notes/assumptions/115.md). -/
def sfpRateOk (ident : List Byte) : Bool := decide (1200 ≤ 100 * fld ident 12 1 ∧ 100 * fld ident 12 1 ≤ 1300)

/-- SFP_INSERTED: where the declared rate lies outside the lock range the transmitter is held disabled (R503); so is that of a transceiver
that does not answer at two-wire address 0xA0, which declares no rate (notes/assumptions/115.md). -/
def execSfpInserted (t port : Nat) (answers : Bool) (ident : List Byte) (s : State) : Res :=
  onUnit t s (decide (port < 4)) fun s => s.setCage port (if answers && sfpRateOk ident then 3 else 5)

/-- SFP_REMOVED, or TX_FAULT reported. -/
def execSfpRemoved (t port : Nat) (txFault : Bool) (s : State) : Res :=
  onUnit t s (decide (port < 4)) fun s =>
    s.setCage port (if txFault then setBit (s.boot.cages.getD port 0) 4 true else 0)

/-! ### Writes -/

/-- Conditions on writes of chapters 18 and 19. -/
def State.bootWriteBad (s : State) (idx inst v : Nat) : List (Bool × Rsn) :=
  [(idx == P.SysBootSelect && !s.slotOk v, ⟨0x0331, 0, 0, 0⟩),
   (idx == P.AxisGroup && v != 0xFF && s.rdShadow P.AxisGroup inst != v &&
      decide (16 ≤ ((List.range 128).filter fun a => s.rdShadow P.AxisGroup a == v).length), ⟨0x0332, 0, 0, 0⟩),
   (idx == P.ElkHoldAfterDiscover && decide (1 ≤ s.rd P.ElkState 0) && decide (s.rd P.ElkState 0 ≤ 7), ⟨0x0213, 0, 0, 0⟩),
   (idx == P.AxisGroup && s.axisOn inst, ⟨0x0217, 0, 0, 0⟩)]

end Sys2Proof.Machine
end

