-- ==== Sys2Proof/Machine/Faults.lean ====
section
/-!
DEFINITION. Faults (chapter 19, R488 to R490, R513): clearing, the fault log, and the fault reports.
-/
namespace Sys2Proof.Machine

/-- The axis block of the latest slot shows TRIP, GATE, OT or OFFST. -/
def State.cellFault (s : State) (a : Nat) : Bool := decide ((s.axis a).block / 16 % 16 ≠ 0)

/-- A fault condition of R489 that still holds, with the axis it names. -/
def State.axisFaultHolds (s : State) (a : Nat) : Option Nat :=
  if bitOf (s.rd P.FbState a) fbLOSS || bitOf (s.rd P.FbState a) fbFREEZE || s.cellFault a then some 0
  else match sortNat (s.axis a).blockedBy with
    | [] => none
    | b :: _ => some b

/-- Give up the block that axis `a`'s verdict 3 put on others (R489). -/
def State.unblockOthers (s : State) (a : Nat) : State :=
  (List.range 128).foldl (fun s b =>
    let r := s.axis b
    if r.blockedBy.contains a then
      let l := r.blockedBy.erase a
      let s := s.setAxis b { r with blockedBy := l }
      if l = [] ∧ s.rd P.MonVerdict b ≠ 2 ∧ s.rd P.MonVerdict b ≠ 3 then s.unhold b holdBLOCK else s
    else s) s

/-- The accepted clear of an axis (R489). -/
def State.clearAxis (s : State) (a : Nat) : State :=
  let v := s.rd P.MonVerdict a
  let lost := decide ((s.rd P.FbLatched a).land 0x300 ≠ 0)
  let s := s.clrBits P.FbLatched a 0x300
  let s := if lost then s.fbEnable a else s
  let s := if v = 2 ∨ v = 3 then s.wr P.MonVerdict a 0 else s
  let s := ((s.unhold a holdBLOCK).unhold a holdCELL).unblockOthers a
  s.raise E.faultCleared a []

/-- The accepted clear of the island fault (R27, R489). -/
def State.clearIsland (s : State) : State :=
  let s := s.setBoot { s.boot with islFault := false }
  let s := if s.mod.blocked then s.setMod { s.mod with blocked := false, clrTick := s.time.tick } else s
  s.raise E.faultCleared 0 []

/-- FAULT_CLEAR. -/
def execFaultClear (t : Nat) (q : Req) (s : State) : Res :=
  runReq 0x0F01 t q s fun s =>
    let sc := fld q.body 0 1
    let bad := if sc = 0 then s.axisFaultHolds q.inst else if s.islandState = 0 then none else some 0
    guarded [(decide (1 < sc), ⟨0x0304, 0, 0, 0⟩), (bad.isSome, ⟨0x0241, 0, bad.getD 0, 0⟩)]
      (.ok 0 [] (if sc = 0 then s.clearAxis q.inst else s.clearIsland))

/-- Events as EventRead returns them (Table 13.6). -/
def eventList (evs : List Ev) : List Byte :=
  leBytes 1 evs.length ++ [0, 0, 0] ++ (evs.map fun e => leBytes 2 e.code ++ leBytes 2 e.inst ++ pad4 e.body).flatten

/-- FAULT_LOG_READ: newest first; CLEAR empties the log after the read (R490). -/
def execFaultLogRead (t : Nat) (q : Req) (s : State) : Res :=
  runReq 0x0F02 t q s fun s =>
    let m := fld q.body 0 1
    guarded [(m = 0 || decide (16 < m), ⟨0x0304, 0, 0, 0⟩)]
      (.ok 0 (eventList (s.host.log.take m))
        (if bitOf (fld q.body 1 1) 0 then s.setHost { s.host with log := [] } else s))

/-! ### Reports -/

/-- An axis has a fault of R489 of its own; the block by another axis's verdict is that axis's (DEDUCED). -/
def State.axisFaulted (s : State) (a : Nat) : Bool :=
  decide ((s.rd P.FbLatched a).land 0x300 ≠ 0) || s.rd P.MonVerdict a == 2 || s.rd P.MonVerdict a == 3 ||
    bitOf (s.rd P.AxisHoldReason a) holdCELL

/-- FaultAxes: bit a of byte a / 8. -/
def State.faultAxes (s : State) : Nat := ((List.range 128).map fun a => if s.axisFaulted a then 2 ^ a else 0).sum

/-- A field group counts as a fault (R513). -/
def State.fieldFault (s : State) : Bool :=
  (List.range 4).any (fun g =>
    let st := s.rd P.FerryState g
    bitOf st fySTALE || (bitOf st fyHELDOFF && (s.group g).opened)) ||
    (List.range 16).any (fun o => bitOf (s.rd P.DqDiag o) 1)

/-- FaultActive: the areas of Table 19.2 with a fault present (R513). -/
def State.faultActive (s : State) : Nat :=
  let ring := s.rd P.ElkState 0 == elkRun && s.rd P.ElkRingState 0 % 4 != 3
  let axis := (List.range 128).any (fun a => s.axisFaulted a || bitOf (s.rd P.AxisHoldReason a) holdLINK) || ring ||
    (List.range 16).any (fun m => bitOf (s.rd P.VmState m) 2)
  let gate := (List.range 12).any fun n => (s.rd P.GpTripState (128 + n)) / 4 % 4 != 0
  let task := (List.range 64).any (fun k => s.rd P.TaskState k == 5) || s.pr.restart
  let mem := (List.range 5).any (fun p => s.rb P.MemEccUncorrected p) || (List.range 4).any (fun u => bitOf (s.rd P.AqFlags u) 1)
  let saf := (List.range 12).any (fun i => s.rb P.SafInputFault i) || s.rb P.SafFault 0
  let can := s.rd P.CanState 0 == 4 || s.rd P.CanState 1 == 4
  let line := s.rd P.LineState 0 == 5 || s.rd P.LineState 0 == 6 || bitOf (s.rd P.NtState 0) 2
  (([s.boot.islFault, axis, gate, s.rb P.FeFaultCause 0, s.fieldFault, task, mem, saf, can, line].zipIdx).map fun x =>
    if x.1 then 2 ^ x.2 else 0).sum

/-! ### Indicators (R507) -/

/-- The five front indicators (Table 20.12): 0 off, 1 flashing, 2 on. -/
def State.lampRun (s : State) : Nat := if !s.boot.ready then 0 else if s.boot.recovery || s.boot.trial.isSome then 1 else 2

def State.lampFault (s : State) : Nat := if s.faultActive = 0 then 0 else 2

/-- ELK A (0) and ELK B (1). -/
def State.lampElk (s : State) (c : Nat) : Nat :=
  let r := s.rd P.ElkRingState 0
  if bitOf r (c + 2) then 1 else if bitOf r c then 2 else 0

/-- STO: an active STO line comes before an active SS1 line. -/
def State.lampSto (s : State) : Nat :=
  let l := s.rd P.SafLines 0
  if l % 256 ≠ 0 then 2 else if l / 256 % 256 ≠ 0 then 1 else 0

/-- What the PCI Express function reads as: vendor, device, class code, subsystem vendor, subsystem and revision (R508). -/
def State.pciIds (s : State) : List Nat :=
  let r := s.rd P.SysHardwareRev 0
  [0x1E9D, 0x0128, 0x118000, 0x1E9D, r % 2 ^ 16, r % 2 ^ 8]

end Sys2Proof.Machine
end

