-- ==== Sys2Proof/Machine/ParamAccess.lean ====
section
/-!
DEFINITION. Parameter access and staged sets (chapter 01, Shadow and commit; chapter 13, R366): reads, single, staged and immediate writes,
what a change brings, and the group changeover (R480 to R483).
-/
namespace Sys2Proof.Machine

/-! ### Types and ranges (R14, R366) -/

/-- Bytes of a parameter type. -/
def typeSize : PType → Nat
  | .u32 => 4
  | .i32 => 4
  | .f32 => 4
  | .u64 => 8
  | .i64 => 8
  | .lt => 10
  | .f32n n => 4 * n
  | .u8n n => n

/-- TYPE of ParamRead. -/
def typeCode : PType → Nat
  | .u32 => 1
  | .i32 => 2
  | .f32 => 3
  | .u64 => 4
  | .i64 => 5
  | .lt => 6
  | .f32n _ => 7
  | .u8n _ => 8

/-- No element of a float32 value is a NaN or an infinity. -/
def allFinite : PType → Nat → Bool
  | .f32, v => f32Finite v
  | .f32n n, v => (List.range n).all fun i => f32Finite (v / 2 ^ (32 * i) % 2 ^ 32)
  | _, _ => true

/-- The stated range of a row holds for a value (R14). -/
def inRange (r : ParamRow) (v : Nat) : Bool :=
  allFinite r.type v && match r.range with
    | .any => true
    | .nat lo hi => decide (lo ≤ v) && decide (v ≤ hi)
    | .int lo hi => let x := sInt (8 * typeSize r.type) v; decide (lo ≤ x) && decide (x ≤ hi)
    | .flt lo hi => decide (f32ToRat lo ≤ f32ToRat v) && decide (f32ToRat v ≤ f32ToRat hi)
    | .finite => true
    | .finiteNonneg => decide (0 ≤ f32ToRat v)
    | .oneOf vs => vs.contains v
    | .mask _ => true
    | .bitsOnly m => v.land m == v
    | .natOrNone hi => decide (v ≤ hi) || v == 0xFF

/-- The value a write stores: reserved bits fall away (R11), steps are rounded (R258, R337). -/
def storedValue (r : ParamRow) (v : Nat) : Nat :=
  stepValue r.index (match r.range with
    | .mask m => v.land m
    | _ => v)

/-- Float32 parameters that the engine sections hold in 2^-16 (Table 0.3). -/
def fine16 (idx : Nat) : Bool :=
  [P.MonFollowErrLimit, P.MonOverspeed, P.TrjCaptureBand, P.TrjCaptureVel, P.HomeMaxDistance, P.CplRegMax, P.CplRegSpread, P.EmuMaxRate, P.TrjVelMax,
   P.TrjAccMax, P.TrjDecMax, P.TrjJerkMax, P.TrjStopDec, P.TrjStopJerk, P.TrjSoftVel, P.TrjSoftAcc, P.TrjSoftJerk, P.StpStartSpeed, P.StpStopSpeed,
   P.StpCornerSpeed, P.StpAcc1, P.StpAcc2, P.StpDec1, P.StpDec2, P.HomeSpeed, P.HomeCreepSpeed, P.VmVelMax, P.VmAccMax, P.VmDecMax, P.VmJerkMax,
   P.VmStopDec, P.VmStopJerk, P.PgVelMax, P.PgAccMax, P.PgDecMax, P.PgJerkMax, P.PgStopDec, P.PgStopJerk, P.PgJointJump, P.GmInertiaAccMin].contains idx

/-- Those that the loops hold in 2^-4 counts/s, and those held as gains (Table 5.3). -/
def fine4 (idx : Nat) : Bool := [P.LoopVelLimit, P.LoopFrictionBand, P.LoopPosOutLimit].contains idx
def gainForm (idx : Nat) : Bool :=
  [P.LoopCurGain, P.LoopVelGain, P.LoopPosGain, P.LoopVelFF, P.LoopAccFF, P.LoopDobInertia, P.LoopDobGain, P.FeBusGain, P.FeCurGain].contains idx

/-- The engine format of a float32 value, as binary32 (R14); parameters of which no chapter gives a format keep their value (DEDUCED,
notes/assumptions/88.md). -/
def State.engForm (s : State) (idx i v : Nat) : Nat :=
  if fine16 idx then ratToF32 (mkRat (roundHE (f32ToRat v * 65536)) 65536)
  else if fine4 idx then ratToF32 (mkRat (roundHE (f32ToRat v * 16)) 16)
  else if gainForm idx then ratToF32 (engGain (f32ToRat v))
  else if idx = P.LoopFiltCoef then
    ((List.range 5).map fun k => ratToF32 (engGain (f32ToRat (v / 2 ^ (32 * k) % 2 ^ 32))) * 2 ^ (32 * k)).sum
  else if idx = P.FbFreezeCurrent then ratToF32 (ofQ31 (q31 (f32ToRat v)))
  else s.cellForm idx i v

/-- The value an accepted write stores (R11, R14). -/
def State.writeForm (s : State) (r : ParamRow) (i v : Nat) : Nat := s.engForm r.index i (storedValue r v)

/-- A parameter has an instance (R15). -/
def hasInst (r : ParamRow) (i : Nat) : Bool := r.insts.any fun x => decide (x.1 ≤ i) && decide (i ≤ x.2)

/-! ### Reading (R35, R366) -/

/-- The staged set of group scope. -/
def State.groupSet (s : State) (g : Nat) : Option Staged := s.par.staged.find? fun x => x.scope == 1 && x.inst == g

/-- Age of the latest valid status frame in ms, 10,000 at most (R327). -/
def State.frameAge (s : State) : Rat :=
  if s.saf.shownAt = 0 then 10000 else satR 0 10000 (mkRat (s.time.tick + 1 - s.saf.shownAt) 1000000)

/-- The active value of a parameter; one that reports other state is computed from it. MemOutstandingPeak counts from its latest clear on, a
free value once time has passed (R12). -/
def State.value (s : State) (idx i : Nat) : Nat :=
  if 0x3000 ≤ idx ∧ idx < 0xA000 then s.motionValue idx i
  else if idx = P.SysCycleCount then s.time.cycle
  else if idx = P.SysLineTime then s.lineNs + s.lineFrac * 2 ^ 64
  else if idx = P.SysIslandState then s.islandState
  else if idx = P.SysNextCommitCycle then s.nextTarget
  else if idx = P.ElkNodeIdentity then leNat (padTo 32 (s.ident i))
  else if idx = P.SafFrameAge then ratToF32 s.frameAge
  else if idx = P.HostQueued then s.host.waiting.length
  else if idx = P.HostSubscribers then s.host.subs.length
  else if idx = P.ProcCoreLoad then ratToF32 (s.coreLoad i)
  else if idx = P.MemPartitionUsed then s.partUsedMb i
  else if idx = P.MemOutstandingPeak then if s.time.tick ≤ s.pr.peakFrom then 0 else Config.measured idx s.pr.peakFrom s.time.tick % 65
  else if idx = P.SysSupplyVoltage ∨ idx = P.SysBoardTemp then Config.measured idx i s.time.tick % 2 ^ 32
  else if idx = P.FaultActive then s.faultActive
  else if idx = P.FaultAxes then s.faultAxes
  else if idx = P.FaultLogCount then s.host.log.length
  else if idx = P.EventSeqLast then s.host.evseq
  else if idx = P.GroupState then
    match s.groupSet i with
    | none => 0
    | some g => if g.pending.isSome then 3 else 1
  else if idx = P.UpdTrialRemaining then ratToF32 s.trialLeft
  else s.rd idx i

/-- What a read returns: the active copy, or the shadow copy of an RW parameter (R35). -/
def State.readOf (s : State) (r : ParamRow) (i : Nat) (shadow : Bool) : Nat :=
  if shadow && r.access == .rw then s.rdShadow r.index i else s.value r.index i

/-- An RC parameter is cleared by the read (R12). -/
def State.afterRead (s : State) (r : ParamRow) (i : Nat) : State :=
  let s := if r.index = P.MemOutstandingPeak then { s with pr := { s.pr with peakFrom := s.time.tick } } else s
  if r.access == .rc then s.wr r.index i 0 else s

/-- The instance of a parameter request, where its index is defined. -/
def paramInstOk (q : Req) : Bool :=
  match paramRow (fld q.body 0 2) with
  | some r => hasInst r q.inst
  | none => true

/-- Run a parameter request. -/
def runParam (t : Nat) (q : Req) (s : State) (lenOk : Bool) (f : State → OpRes) : Res :=
  runOp t q s (paramInstOk q) lenOk fun s =>
    (f s).beside s.boot.recovery ⟨0x0240, 0, 0, 0⟩ (before469 q)

/-- PARAM_READ. -/
def execParamRead (t : Nat) (q : Req) (s : State) : Res :=
  runParam t q s (q.body.length == 4) fun s =>
    match paramRow (fld q.body 0 2) with
    | none => .no ⟨0x0305, 0, 0, 0⟩
    | some r =>
      let n := typeSize r.type
      .ok 0 (leBytes 2 r.index ++ leBytes 1 (typeCode r.type) ++ leBytes 1 n ++
        leBytes n (s.readOf r q.inst (bitOf (fld q.body 2 1) 0))) (s.afterRead r q.inst)

/-- One entry of ParamReadList. -/
def State.readEntry (s : State) (idx i : Nat) (shadow : Bool) : List Byte × State :=
  match paramRow idx with
  | none => (leBytes 2 0x0305 ++ [0, 0], s)
  | some r =>
    if !hasInst r i then (leBytes 2 0x0302 ++ [0, 0], s)
    else
      let n := typeSize r.type
      (leBytes 2 0 ++ leBytes 1 n ++ [0] ++ pad4 (leBytes n (s.readOf r i shadow)), s.afterRead r i)

/-- PARAM_READ_LIST. -/
def execParamReadList (t : Nat) (q : Req) (s : State) : Res :=
  runReq 0x0103 t q s fun s =>
    let n := fld q.body 0 2
    guarded [(decide (q.body.length < 4) || q.body.length != 4 + 8 * n, ⟨0x0303, 0, 0, 0⟩), (decide (n = 0 ∨ 64 < n), ⟨0x0304, 0, 0, 0⟩)] <|
      let x := (List.range n).foldl (fun (acc : List Byte × State) k =>
        let o := 4 + 8 * k
        let e := acc.2.readEntry (fld q.body o 2) (fld q.body (o + 2) 2) (bitOf (fld q.body (o + 4) 1) 0)
        (acc.1 ++ e.1, e.2)) ([], s)
      .ok 0 (leBytes 2 n ++ [0, 0] ++ x.1) x.2

/-! ### Staged sets (R36, R366, R481) -/

/-- The axis a parameter instance belongs to. -/
def axisOfParam (r : ParamRow) (i : Nat) : Option Nat :=
  if 0xA000 ≤ r.index ∨ !r.insts.any (fun x => x.1 == 0 && decide (127 ≤ x.2)) then none
  else if 0x4000 ≤ r.index ∧ r.index < 0x5000 then some (i % 128)
  else if i < 128 then some i else none

/-- The section (family) of a parameter (Table 0.4). -/
def familyOf (idx : Nat) : Nat :=
  if idx < 0x3000 then idx / 0x1000 else if idx < 0x3800 then 3 else idx / 0x1000 + 1

/-- The narrowest staged set that contains a parameter, open or pending. -/
def State.setFor (s : State) (r : ParamRow) (i : Nat) : Option Staged :=
  let find (p : Staged → Bool) : Option Staged := s.par.staged.find? p
  let ofAxis : Option Staged := match axisOfParam r i with
    | some a => match find (fun g => g.scope == 0 && g.inst == a) with
      | some g => some g
      | none => s.groupSet (s.rd P.AxisGroup a)
    | none => none
  match ofAxis with
  | some g => some g
  | none => match find (fun g => g.scope == 2 && g.fam == familyOf r.index) with
    | some g => some g
    | none => find fun g => g.scope == 3

/-- The coupling values of an axis, which a change at a master position locks. -/
def cplValue (idx : Nat) : Bool := cplCopies.contains idx

/-- A set holds a value of this parameter. -/
def setHolds (g : Staged) (idx i : Nat) : Bool := g.keys.contains (pkey idx i) || (cplValue idx && g.keys.contains (pkey 0x0708 i))

/-- The shadow copy holds a staged value. -/
def State.stagedCopy (s : State) (idx i : Nat) : Bool := s.par.staged.any fun g => setHolds g idx i

/-- The commit of a staged set that holds a load-all value of a member is pending: all its load-all copies are locked (R254). -/
def State.loadStaged (s : State) (i : Nat) : Bool :=
  s.par.staged.any fun g => g.pending.isSome && g.keys.any fun k => loadSet.contains (k / 65536) && k % 65536 == i

/-- The shadow copy is locked (R34): its set's commit is pending, or a change at a master position, or a load-all. -/
def State.lockedCopy (s : State) (idx i : Nat) : Bool :=
  s.par.staged.any (fun g => g.pending.isSome && setHolds g idx i) ||
    (cplValue idx && (s.cplr i).pend.elim false (fun p => p.kind != 1)) || (loadSet.contains idx && (s.modLocked i || s.loadStaged i))

/-- The set a StageOpen, StageCommit or StageDiscard names. -/
def State.namedSet (s : State) (scope inst fam : Nat) : Option Staged :=
  s.par.staged.find? fun g => g.scope == scope && g.inst == inst && g.fam == fam

/-- SCOPE and FAMILY within their ranges. -/
def scopeBad (b : List Byte) : Bool :=
  let sc := fld b 0 1
  let f := fld b 1 1
  decide (3 < sc) || (if sc = 2 then decide (f < 1 ∨ 15 < f) else f != 0)

/-- STAGE_OPEN. -/
def execStageOpen (t : Nat) (q : Req) (s : State) : Res :=
  runReq 0x0104 t q s fun s =>
    let sc := fld q.body 0 1
    let f := fld q.body 1 1
    guarded [(scopeBad q.body, ⟨0x0304, 0, 0, 0⟩), ((s.namedSet sc q.inst f).isSome, ⟨0x0212, 0, 0, 0⟩)]
      (.ok 0 [] { s with par := { s.par with staged :=
        s.par.staged ++ [{ scope := sc, inst := q.inst, fam := f, keys := [], pending := none }] } })

/-- A key of a set that is not pending itself is locked (R34): by the commit of another set that holds it, or of another kind. -/
def State.keyLocked (s : State) (k : Nat) : Bool :=
  let idx := k / 65536
  let i := k % 65536
  if idx = 0x0510 then s.mapLocked i
  else if idx = 0x0708 then
    (s.cplr i).pend.elim false (fun p => p.kind != 1) ||
      s.par.staged.any fun g => g.pending.isSome && g.keys.any fun x => x % 65536 == i && (x / 65536 == 0x0708 || cplValue (x / 65536))
  else s.lockedCopy idx i

/-- The commit of a set is accepted: its copies are locked until it takes effect (R34). -/
def State.commitSet (s : State) (g : Staged) (id : Nat) : State :=
  { s with par := { s.par with staged := s.par.staged.map fun x => if x = g then { g with pending := some id } else x } }

/-- STAGE_COMMIT. -/
def execStageCommit (t : Nat) (q : Req) (s : State) : Res :=
  runReq 0x0105 t q s fun s =>
    let set := s.namedSet (fld q.body 0 1) q.inst (fld q.body 1 1)
    match set with
    | none => guarded [(scopeBad q.body, ⟨0x0304, 0, 0, 0⟩), (s.late q.body 4, ⟨0x0211, 0, 0, 0⟩)] (.no ⟨0x0203, 0, 0, 0⟩)
    | some g =>
      let s1 := s.commitSet g s.par.nextId
      let s1 := if g.scope = 1 then s1.wr P.GroupCycle g.inst (s.tgt q.body 4) else s1
      guarded [(scopeBad q.body, ⟨0x0304, 0, 0, 0⟩), (s.late q.body 4, ⟨0x0211, 0, 0, 0⟩),
          (g.pending.isSome || g.keys.any s.keyLocked, ⟨0x0210, 0, 0, 0⟩)]
        (s1.accept q (s.tgt q.body 4))

/-- STAGE_DISCARD. -/
def execStageDiscard (t : Nat) (q : Req) (s : State) : Res :=
  runReq 0x0106 t q s fun s =>
    match s.namedSet (fld q.body 0 1) q.inst (fld q.body 1 1) with
    | none => guarded [(scopeBad q.body, ⟨0x0304, 0, 0, 0⟩)] (.no ⟨0x0203, 0, 0, 0⟩)
    | some g =>
      guarded [(scopeBad q.body, ⟨0x0304, 0, 0, 0⟩), (g.pending.isSome || g.keys.any s.keyLocked, ⟨0x0210, 0, 0, 0⟩)]
        (.ok 0 [] (g.keys.foldl State.dropKey { s with par := { s.par with staged := s.par.staged.erase g } }))

/-! ### What a change brings -/

/-- The first grid instant after a line time (R28). -/
def State.gridAfter (s : State) (x : Nat) : Nat :=
  let T := s.cycleNs
  x + T - (((x : Int) - s.rd P.SysCyclePhase 0) % (T : Int)).toNat

/-- Once a value is active: what the chapters say follows. `old` is the value before. A new cycle length or phase gives the next grid
instant at once, and a re-phasing that runs ends with it (DESIGN CHOICE, notes/assumptions/75.md). -/
def State.changed (s : State) (idx i old : Nat) : State :=
  let s := if idx = P.SysCycleLength ∨ idx = P.SysCyclePhase then
      { s with time := { s.time with nextS := s.gridAfter s.time.lastS, rephase := 0, offGrid := false } }
    else s
  -- LoopDelay follows the node and T (R155)
  let s := if idx = P.ElkAxisNode then
      let was := if old = 0 then 0 else if s.rb P.ElkAxisTurnaround i then s.cycleNs / 2 else s.cycleNs
      let s := (s.turnAxis s.activeMode i).cellForms i
      if was = s.loopDelay i then s else s.delayCheck i
    else if idx = P.SysCycleLength ∧ s.rd idx i ≠ old then (List.range 128).foldl State.delayCheck s else s
  let s := if idx = P.LatArm then s.latArm i (s.rd idx i) else s.latChanged idx i
  let s := ((s.fbChanged idx i old).loopChanged idx i).trjChanged idx i old
  let s := ((s.feChanged idx old).fieldChanged idx i).aqChanged idx i
  let s := if idx = P.GpTripEnable then s.tripsNow else s
  (s.canChanged idx i old).netChanged idx

/-- Before a commit writes a value: what is kept of the state before it (Table 4.3, R169). -/
def State.beforeWrite (s : State) (idx i : Nat) : State := (s.latBefore idx i).gmKeep idx i

/-- Make the value in the shadow copy active; a member of a load-all set keeps it there until its load-all (R254). Answers the value before. -/
def State.takeCopy (s : State) (idx i : Nat) : State :=
  if loadSet.contains idx && !s.modAtOnce i then s
  else
    let v := s.cellForm idx i (s.rdShadow idx i)
    ((s.beforeWrite idx i).wr idx i v).dropShadow (pkey idx i)

/-- The values of a staged set become active: answers each key with the value before (R30). -/
def State.setValues (s : State) (g : Staged) : List (Nat × Nat) × State :=
  let ps := g.keys.filter fun k => decide (0x1000 ≤ k / 65536)
  let olds := ps.map fun k => (k, s.rd (k / 65536) (k % 65536))
  let s := { s with par := { s.par with staged := s.par.staged.erase g } }
  (olds, ps.foldl (fun s k => s.takeCopy (k / 65536) (k % 65536)) s)

/-- What follows from the values of a staged set: maps and couplings of the set, then the consequences of each value (R30, R483). -/
def State.setFollows (s : State) (g : Staged) (olds : List (Nat × Nat)) : State :=
  let s := (g.keys.filter fun k => decide (k / 65536 < 0x1000)).foldl (fun s k =>
    let a := k % 65536
    if k / 65536 = 0x0510 then s.gmCommit a
    else if (s.cplr a).engaged then s.cplChange a else s.cplTake a) s
  olds.foldl (fun s x => s.changed (x.1 / 65536) (x.1 % 65536) x.2) s

/-- A staged set takes effect at S(c). -/
def State.applySet (s : State) (g : Staged) : State :=
  let (olds, s) := s.setValues g
  s.setFollows g olds

/-! ### Writing (R33, R34, R366) -/

/-- Parameters whose write takes effect once its reply has been sent (R380, R385, R462). -/
def afterReply (idx : Nat) : Bool :=
  [P.HostIpAddress, P.HostNetmask, P.HostGateway, P.HostUdpPort, P.HostRs485Baud, P.HostRs485Gap].contains idx ||
    (netAtOnce idx && idx != P.NtIncrement)

/-- The status of a value outside its stated range. -/
def rangeStatus (idx : Nat) : Nat := if fieldRange idx then 0x032B else if netRange idx then 0x0330 else 0x0304

/-- An address is unicast, and not the network or broadcast address of its subnet (R385). -/
def unicastOk (x mask : Nat) : Bool :=
  let o := x / 2 ^ 24
  let h := 2 ^ 32 - mask
  decide (1 ≤ o) && decide (o ≤ 223) && o != 127 && (decide (h < 4) || (x % h != 0 && x % h != h - 1))

/-- The host addresses would break R385. -/
def State.hostAddrBad (s : State) (idx v : Nat) : Bool :=
  let g (p : Nat) : Nat := if p = idx then v else s.rd p 0
  let ip := g P.HostIpAddress
  let m := g P.HostNetmask
  let gw := g P.HostGateway
  let h := 2 ^ 32 - m
  [P.HostIpAddress, P.HostNetmask, P.HostGateway].contains idx &&
    (h != 2 ^ Nat.log2 h || !unicastOk ip m || (gw != 0 && (!unicastOk gw m || gw / h != ip / h || gw == ip)))

/-- SysCycleLength, SysCyclePhase and the Elkob parameters (R40, R75). A phase lies below T for the present values; one written and not yet
active, staged or pending, is held to as well, of which R40 says nothing (DESIGN CHOICE, notes/assumptions/108.md). -/
def State.sysWriteBad (s : State) (idx i v : Nat) : List (Bool × Rsn) :=
  let len := if idx = P.SysCycleLength then [v] else [s.rd P.SysCycleLength 0, s.rdShadow P.SysCycleLength 0]
  let phs := if idx = P.SysCyclePhase then [v] else [s.rd P.SysCyclePhase 0, s.rdShadow P.SysCyclePhase 0]
  let run := decide (1 ≤ s.rd P.ElkState 0 ∧ s.rd P.ElkState 0 ≤ 7)
  [((idx == P.SysCycleLength || idx == P.SysCyclePhase) && len.any (fun l => phs.any fun p => decide (31250 * 2 ^ l ≤ p)), ⟨0x0304, 0, 0, 0⟩),
   ((idx == P.SysCycleLength || idx == P.SysCyclePhase) && run, ⟨0x0213, 0, 0, 0⟩),
   (idx == P.ElkAxisNode && s.axisOn i, ⟨0x0213, 0, 0, 0⟩),
   (idx == P.ElkAllowSingle && run, ⟨0x0213, 0, 0, 0⟩)]

/-- HostUdpPort and the addresses (R385). -/
def State.hostWriteBad (s : State) (idx v : Nat) : List (Bool × Rsn) :=
  [((idx == P.HostUdpPort && v == s.rdShadow P.LinePort 0) || s.hostAddrBad idx v, ⟨0x0304, 0, 0, 0⟩)]

/-- Conditions of the chapters before the packet chapter, in their order. -/
def State.writeBad1 (s : State) (idx i v : Nat) : List (Bool × Rsn) :=
  s.sysWriteBad idx i v ++ s.fbWriteBad idx i v ++ s.latWriteBad idx i v ++ s.loopWriteBad idx i v ++ s.trjWriteBad idx i v ++
    s.gearWriteBad idx i v ++ s.modWriteBad idx i v ++ s.feWriteBad idx i v ++ s.fieldWriteBad idx i ++ s.hostWriteBad idx v

/-- Conditions of the chapters after it. -/
def State.writeBad2 (s : State) (idx i v : Nat) : List (Bool × Rsn) :=
  s.procWriteBad idx i v ++ s.aqWriteBad idx i v ++ s.canWriteBad idx i v ++ s.netWriteBad idx ++ s.bootWriteBad idx i v

/-- Conditions whose status is of a class (R511). -/
def ofClass (c : Nat) (l : List (Bool × Rsn)) : List (Bool × Rsn) := l.filter fun x => x.2.status / 256 == c

/-- Staging conditions of R366 and R481. -/
def State.stageBad (s : State) (r : ParamRow) (i : Nat) (staged : Bool) : List (Bool × Rsn) :=
  if staged then
    match s.setFor r i with
    | none => [(true, ⟨0x0203, 0, 0, 0⟩)]
    | some g => [(g.pending.isSome, ⟨0x0210, 0, 0, 0⟩)]
  else [(s.stagedCopy r.index i, ⟨0x0212, 0, 0, 0⟩)]

/-- A staged write that joins a group's set, for an axis with a change at a master position pending (R481). -/
def State.groupBad (s : State) (r : ParamRow) (i : Nat) (staged : Bool) : Bool :=
  staged && (match s.setFor r i, axisOfParam r i with
    | some g, some a => g.scope == 1 && (s.cplr a).pend.isSome
    | _, _ => false)

/-- The refusals of a write, in the order of R511. -/
def State.writeBad (s : State) (r : ParamRow) (i v : Nat) (staged : Bool) : List (Bool × Rsn) :=
  if r.access == .w1c then []
  else
    let l1 := s.writeBad1 r.index i v
    let l2 := s.writeBad2 r.index i v
    [(!inRange r v, ⟨rangeStatus r.index, 0, 0, 0⟩)] ++ ofClass 3 l1 ++ ofClass 3 l2 ++
      [(s.lockedCopy r.index i, ⟨0x0210, 0, 0, 0⟩)] ++ ofClass 2 l1 ++ s.stageBad r i staged ++ ofClass 2 l2 ++
      [(s.groupBad r i staged, ⟨0x022A, 0, 0, 0⟩)] ++ ofClass 4 (l1 ++ l2)

/-- A W1C write: each 1 clears its bit (R12). -/
def State.clearBits (s : State) (idx i v : Nat) : State :=
  if idx = P.FbLatched then s.fbLatchedClear i v else s.clrBits idx i v

/-- An accepted write: staged, at once, or as a commit of its own (R366). -/
def State.acceptWrite (s : State) (q : Req) (r : ParamRow) (v : Nat) (staged : Bool) : OpRes :=
  let idx := r.index
  let i := q.inst
  if r.access == .w1c then .ok 0 [] (s.clearBits idx i v)
  else if staged then
    match s.setFor r i with
    | none => .no ⟨0x0203, 0, 0, 0⟩
    | some g => .ok 0x0104 [] ((s.wrShadow idx i v).joinSet g (pkey idx i))
  else if idx = P.LatArm then .ok 0 [] ((s.latArm i v).wr idx i v)
  else if idx = P.NtIncrement then .ok 0 [] (s.wr idx i v)
  else if loadSet.contains idx then
    .ok 0 [] (if s.modAtOnce i then
        let s := (s.wr idx i v).dropShadow (pkey idx i)
        if idx = P.GpTripEnable then s.tripsNow else s
      else s.wrShadow idx i v)
  else if afterReply idx then .ok 0 [] (s.setHost { s.host with pendingCfg := s.host.pendingCfg ++ [(pkey idx i, v)] })
  else (s.wrShadow idx i v).accept q s.nextTarget

/-- PARAM_WRITE. -/
def execParamWrite (t : Nat) (q : Req) (s : State) : Res :=
  let n := fld q.body 3 1
  let sized := decide (4 ≤ q.body.length) && q.body.length == 4 + n &&
    (match paramRow (fld q.body 0 2) with
      | some r => n == typeSize r.type
      | none => true)
  runParam t q s sized fun s =>
    match paramRow (fld q.body 0 2) with
    | none => .no ⟨0x0305, 0, 0, 0⟩
    | some r =>
      if r.access == .ro || r.access == .rc then .no ⟨0x0306, 0, 0, 0⟩
      else
        let v := fld q.body 4 n
        let staged := bitOf (fld q.body 2 1) 0
        guarded (s.writeBad r q.inst v staged) (s.acceptWrite q r (s.writeForm r q.inst v) staged)

/-- The value of a single write becomes active at S(c): the shadow copy keeps a later pending value of the same parameter (R33), a staged
one (R36), or one that a later command has put there (R362). Answers key and value before. -/
def State.writeValue (s : State) (q : Req) : List (Nat × Nat) × State :=
  let idx := fld q.body 0 2
  match paramRow idx with
  | none => ([], s)
  | some r =>
    let old := s.rd idx q.inst
    let v := s.writeForm r q.inst (fld q.body 4 (fld q.body 3 1))
    let later := s.par.commits.any fun c => c.req.opcode == 0x0102 && c.req.inst == q.inst && fld c.req.body 0 2 == idx
    let s := (s.beforeWrite idx q.inst).wr idx q.inst v
    ([(pkey idx q.inst, old)], if later || s.stagedCopy idx q.inst || s.rdShadow idx q.inst != v then s else s.dropShadow (pkey idx q.inst))

/-- HOST_CONFIG_APPLY: settings written take effect once the reply to their write has been sent (R380, R385, R462). -/
def execHostConfigApply (t : Nat) (s : State) : Res :=
  onEvent t s fun s =>
    let cfg := s.host.pendingCfg
    cfg.foldl (fun s kv => (s.wr (kv.1 / 65536) (kv.1 % 65536) kv.2).netChanged (kv.1 / 65536)) (s.setHost { s.host with pendingCfg := [] })

/-! ### Group changeover (R482) -/

/-- A present node carries an enabled axis that is not in the group, and the mode moves it. -/
def State.movesOthers (s : State) (g m : Nat) : Bool :=
  let new := s.mode m
  let old := s.activeMode
  (modeNodes old).any fun k =>
    (s.nodeAxes k).any (fun a => s.axisOn a && s.rd P.AxisGroup a != g) &&
      (modeSlot new k != modeSlot old k || modePlace new k != modePlace old k || modeTurn new k != modeTurn old k)

/-- GROUP_CHANGE. -/
def execGroupChange (t : Nat) (q : Req) (s : State) : Res :=
  runReq 0x0F03 t q s fun s =>
    let g := q.inst
    let m := fld q.body 0 1
    let bad := decide (7 < m) && m != 0xFF
    let pend := (List.range 128).any fun a => s.rd P.AxisGroup a == g && (s.cplr a).pend.isSome
    let none' := (s.groupSet g).isNone
    let lock := (s.groupSet g).elim false fun x => x.pending.isSome || x.keys.any s.keyLocked
    let locked (tg : Nat) : State := (match s.groupSet g with
      | some x => s.commitSet x s.par.nextId
      | none => s).wr P.GroupCycle g tg
    if m = 0xFF then
      guarded [(s.late q.body 4, ⟨0x0211, 0, 0, 0⟩), (lock, ⟨0x0210, 0, 0, 0⟩), (none', ⟨0x0203, 0, 0, 0⟩), (pend, ⟨0x022A, 0, 0, 0⟩)]
        ((locked (s.tgt q.body 4)).accept q (s.tgt q.body 4))
    else
      let tg := s.switchTgt q.body 4
      let id := s.par.nextId
      guarded ([(bad, ⟨0x0304, 0, 0, 0⟩), (tg.2, ⟨0x0211, 0, 0, 0⟩), (lock, ⟨0x0210, 0, 0, 0⟩)] ++ (s.switchBad m tg.2).drop 1 ++
          [(none', ⟨0x0203, 0, 0, 0⟩), (pend, ⟨0x022A, 0, 0, 0⟩), (s.movesOthers g m, ⟨0x0242, 0, 0, 0⟩)])
        (let s1 := locked tg.1
         .ok 0x0102 (crBytes tg.1 id) { s1 with
           par := { s1.par with nextId := bumpId id }
           link := { s1.link with ann := some { mode := m, cycle := tg.1, id := id, req := q, acks := 0, decided := none, missing := []
                                                group := some g } } })

/-! ### Outputs -/

/-- DQ_WRITE: a commit of the levels of several outputs (R353, R354). -/
def execDqWrite (t : Nat) (q : Req) (s : State) : Res :=
  runReq 0x0A02 t q s fun s =>
    let os := bitList 16 (fld q.body 0 2)
    s.commitReq q 4 [] [(os.any (s.lockedCopy P.DqCommand), ⟨0x0210, 0, 0, 0⟩), (os.any (fun o => s.dqOwner o == 1), ⟨0x021A, 0, 0, 0⟩),
      (os.any (fun o => s.dqOwner o == 2), ⟨0x022D, 0, 0, 0⟩), (os.any (s.stagedCopy P.DqCommand), ⟨0x0212, 0, 0, 0⟩)]

/-- The levels that DqWrite makes active at S(c), in the order of acceptance among the values of that S(c) (R362). A later value in the shadow
copy stays there. -/
def State.dqValues (s : State) (q : Req) : State :=
  (bitList 16 (fld q.body 0 2)).foldl (fun s o =>
    let v := if bitOf (fld q.body 2 2) o then 1 else 0
    let held := s.par.shadow.any fun x => x.1 == pkey P.DqCommand o
    let sh := s.rdShadow P.DqCommand o
    let s := s.wr P.DqCommand o v
    if held then s.wrShadow P.DqCommand o sh else s) s

/-- DqWrite at S(c), once every level is active: the lines take it. -/
def State.dqApply (s : State) (q : Req) : State := s.pushLine (fld q.body 0 2) (s.time.lastS + 3000)

end Sys2Proof.Machine
end

