-- ==== Sys2Proof/Machine/Receiver.lean ====
section
/-!
DEFINITION. The receivers of the local feedback ports (R80 to R88): from what the line pairs did to the field FBRAW.
-/
namespace Sys2Proof.Machine

/-- Line `k` behind the edge filter (R81): a change counts `f` ns after it, if no further change of the line came before then. `b` is the
settled level, `raw` the level before the next change; nothing is known beyond `h`. -/
def settle (k f h : Nat) : Bool → Bool → List (Nat × Nat) → List (Nat × Bool)
  | _, _, [] => []
  | b, raw, (t, w) :: r =>
    let x := bitOf w k
    if x = raw then settle k f h b raw r
    else
      let stable := match r.find? (fun y => bitOf y.2 k != x) with
        | some y => decide (t + f ≤ y.1)
        | none => decide (t + f ≤ h)
      if stable && x != b then (t + f, x) :: settle k f h x x r else settle k f h b x r

/-- Levels with those that settle at time `t`. -/
def settleAt (es : List (List (Nat × Bool))) (t lvl : Nat) : Nat :=
  es.zipIdx.foldl (fun l e => match e.1.find? (fun y => y.1 == t) with
    | some y => setBit l e.2 y.2
    | none => l) lvl

/-- The settled levels over time, up to `h`. -/
def PortRx.events (p : PortRx) (f h : Nat) (ch : List (Nat × Nat)) : List (Nat × Nat) :=
  let es := (List.range 3).map fun k => settle k f h (bitOf p.lvl k) (bitOf p.base k) (p.tail ++ ch)
  ((sortNat (es.flatten.map Prod.fst)).foldl (fun (a : List (Nat × Nat) × Nat) t =>
    let l := settleAt es t a.2
    (a.1 ++ [(t, l)], l)) ([], p.lvl)).1

/-- A receiver while it counts. `err`: a quadrature error or an invalid transition; `ambig`: A and B changed in one tick, so that the counter is
open; `z`: the first rising edge of Z. -/
structure RxRun where
  p : PortRx
  err : Bool
  ambig : Bool
  z : Option Nat
  deriving DecidableEq, Repr

/-- One change of the levels of an incremental receiver (R81, R82): up where A leads B. Edges of A and B up to 5 ns apart, the limit included
(R9), are a quadrature error. -/
def RxRun.quad (x : RxRun) (e : Nat × Nat) : RxRun :=
  let p := x.p
  let a := bitOf e.2 0 != bitOf p.lvl 0
  let b := bitOf e.2 1 != bitOf p.lvl 1
  let up := if a then bitOf e.2 0 != bitOf e.2 1 else bitOf e.2 0 == bitOf e.2 1
  let near := match p.edge with
    | some (t, wasA) => (a && !wasA || b && wasA) && decide (e.1 ≤ t + 5)
    | none => false
  let z := if bitOf e.2 2 && !bitOf p.lvl 2 && x.z.isNone then some e.1 else x.z
  if a || b then
    { p := { p with lvl := e.2, cnt := if a && b then p.cnt else if up then p.cnt + 1 else p.cnt - 1, up := up, edge := some (e.1, a) }
      err := x.err || near || (a && b), ambig := x.ambig || (a && b), z := z }
  else { x with p := { p with lvl := e.2 }, z := z }

/-- The state a Hall receiver reads: U, V, W (R84). -/
def hallState (lvl : Nat) : Nat :=
  (if bitOf lvl 0 then 4 else 0) + (if bitOf lvl 1 then 2 else 0) + (if bitOf lvl 2 then 1 else 0)

/-- One change of the levels of a Hall receiver (R84). -/
def RxRun.hall (x : RxRun) (e : Nat × Nat) : RxRun :=
  let p := { x.p with lvl := e.2 }
  match hallIndex (hallState x.p.lvl), hallIndex (hallState e.2) with
  | some i, some j =>
    if j = (i + 1) % 6 then { x with p := { p with cnt := p.cnt + 1, up := true, edge := some (e.1, true) } }
    else if j = (i + 5) % 6 then { x with p := { p with cnt := p.cnt - 1, up := false, edge := some (e.1, true) } }
    else { x with p := p, err := true }
  | _, _ => { x with p := p, err := true }

/-- What a receiver gives for a sample: FBRAW, check error, open counter, acknowledge time in ns. -/
structure RxOut where
  raw : Nat
  err : Bool
  ambig : Bool
  ack : Option Nat
  deriving DecidableEq, Repr

/-- CNT, EDIR and TEDGE of Table 3.2 at S(n). -/
def PortRx.cntField (p : PortRx) (sn : Nat) : Nat :=
  let te := match p.edge with | some (t, _) => min 0x1FFF ((sn - t) / 40) | none => 0x1FFF
  uNat 18 p.cnt * 2 ^ 30 + (if p.up then 2 ^ 29 else 0) + te * 2 ^ 16

/-- The receiver of types 1 to 3 for S(n) (R81 to R84): edges up to S(n) are counted, an index event takes in edges up to 5 ns after it. -/
def PortRx.count (p : PortRx) (ty f sn : Nat) (ch : List (Nat × Nat)) : RxOut × PortRx :=
  let evs := p.events f (sn + 5) ch
  let now := evs.filter fun e => decide (e.1 ≤ sn)
  let all := p.tail ++ ch
  let done := all.filter fun c => decide (c.1 + f ≤ sn)
  let keep (q : PortRx) : PortRx := { q with base := (done.getLast?.map Prod.snd).getD p.base, tail := all.drop done.length }
  let x0 : RxRun := { p := p, err := false, ambig := false, z := none }
  if ty = 3 then
    let x := now.foldl RxRun.hall { x0 with err := (hallIndex (hallState p.lvl)).isNone }
    let st := hallState x.p.lvl
    ({ raw := x.p.cntField sn + st * 2 ^ 13, err := x.err, ambig := false, ack := none }, keep x.p)
  else
    let x := now.foldl RxRun.quad x0
    let idx := match x.z with
      | some z =>
        let y := (evs.filter fun e => decide (e.1 ≤ z + 5)).foldl RxRun.quad x0
        2 ^ 15 + uNat 15 (x.p.cnt - y.p.cnt)
      | none => 0
    ({ raw := x.p.cntField sn + (if ty = 1 then idx else 0), err := x.err, ambig := x.ambig, ack := none }, keep x.p)

/-- The level of the data pair at a time. -/
def dataAt (base : Nat) (ch : List (Nat × Nat)) (t : Rat) : Bool :=
  bitOf (((ch.filter fun c => decide ((c.1 : Rat) ≤ t)).getLast?.map Prod.snd).getD base) 0

/-- Bits as a word, the last one in bit 0. -/
def bitsWord (l : List Bool) : Nat := l.foldl (fun a b => 2 * a + (if b then 1 else 0)) 0

/-- SSI (R85): the first falling clock edge at S(n), the first rising edge half a period later; bit j is taken `d` ns after the rising edge that
follows the one that put it out (DEDUCED, notes/assumptions/82.md). `per` is the clock period in ns. -/
def ssiWord (n sn : Nat) (per d : Rat) (base : Nat) (ch : List (Nat × Nat)) : Nat :=
  bitsWord ((List.range n).map fun j => dataAt base ch (sn + per * ((j : Rat) + 3 / 2) + d))

/-- BiSS-C (R87, R88): the line delay runs from the first clock edge at S(n) to the falling edge of acknowledge; from there the line is read in
the middle of each period. A line delay above 2 µs, which R87 does not say is compensated, is a check error (DESIGN CHOICE,
notes/assumptions/110.md). Answers the word (position, nE, nW, CRC), check error, and the acknowledge time. -/
def bissWord (n sn : Nat) (per : Rat) (base : Nat) (ch : List (Nat × Nat)) : Nat × Bool × Option Nat :=
  match ch.find? (fun c => decide (sn ≤ c.1) && !bitOf c.2 0) with
  | none => (0, true, none)
  | some c =>
    let at_ (k : Nat) : Bool := dataAt base ch (c.1 + per * ((k : Rat) + 1 / 2))
    match (List.range 65).find? at_ with
    | none => (0, true, none)
    | some k =>
      (bitsWord ((List.range (n + 8)).map fun j => at_ (k + 2 + j)), decide (sn + 2000 < c.1), some (per * k).floor.toNat)

/-- The transfer of a port for S(n), and its receiver after it. FbEdgeFilter acts on the lines of a Hall port too (DESIGN CHOICE,
notes/assumptions/110.md). -/
def State.portReceive (s : State) (i : Nat) (f : LocalFb) : RxOut × PortRx :=
  let p := (s.fbk i).port
  let sn := s.time.lastS
  let ch : List (Nat × Nat) := f.changes.map fun c => (((sn : Int) + c.1).toNat, c.2)
  let ty := s.rd P.FbType i
  let idle : PortRx := { p with base := ((p.tail ++ ch).getLast?.map Prod.snd).getD p.base, tail := [],
                                lvl := ((p.tail ++ ch).getLast?.map Prod.snd).getD p.base }
  let per : Rat := 1000000 / s.rf P.FbClockRate i
  if ty = 0 then ({ raw := 0, err := false, ambig := false, ack := none }, idle)
  else if ty < 4 then p.count ty (s.rf P.FbEdgeFilter i).ceil.toNat sn ch
  else if ty = 4 then
    ({ raw := ssiWord (s.rd P.FbDataBits i + s.rd P.FbStatusBits i + s.rd P.FbParity i) sn per (s.rf P.FbLineDelay i) p.base ch,
       err := false, ambig := false, ack := none }, idle)
  else
    let (w, e, a) := bissWord (s.rd P.FbDataBits i) sn per p.base ch
    ({ raw := w, err := e, ambig := false, ack := a }, idle)

/-- The pairs a type uses (Table 20.4). -/
def typePairs (ty : Nat) : List Nat := match ty with
  | 0 => []
  | 1 => [0, 1, 2]
  | 2 => [0, 1]
  | 3 => [0, 1, 2]
  | _ => [0]

/-- A wire break for the cycle (R80): a pair the type uses stayed below 200 mV for more than 1 µs, or the sensor supply is off (R500). -/
def State.portBroken (s : State) (port : Nat) (f : LocalFb) : Bool :=
  (typePairs (s.rd P.FbType (128 + port))).any (fun k => decide (1000 < f.low.getD k 0)) || bitOf (s.rd P.SysAuxSupplyState 0) port

end Sys2Proof.Machine
end

