-- ==== Sys2Proof/Machine/Slots.lean ====
section
/-!
DEFINITION. The samples of a cycle (chapters 01 to 03, 09): upstream slots and what the axis blocks bring, local feedback ports, place
frames, and the update instant of the local gate pairs.
-/
namespace Sys2Proof.Machine

/-- What follows a sample of a feedback instance: index events, masters and compare units on it. -/
def State.fbFollow (s : State) (i : Nat) : State := ((s.latIndex i).vmSample i).cmpSample i

/-- What follows a sample of an axis: its monitor, homing, keys. `ubus` is none without a valid slot copy. -/
def State.axisFollow (s : State) (a : Nat) (ubus : Option Nat) : State :=
  let r := s.axis a
  let s := s.setAxis a { r with vHist := ((s.time.cycle, engVel (s.rp P.FbSpeed a)) :: r.vHist).take 3 }
  let s := ((s.latIndex a).monitor a).homeSample a
  let ok := ubus.isSome && !bitOf (s.rd P.FbState a) fbLOSS
  ((s.keySample a (if ok then some (s.rp P.FbSpeed a) else none) (if ok then ubus else none)).vmSample a).cmpSample a

/-- A sample without a valid copy of the axis's slot (R95): CELL and LINK keep their values. -/
def State.axisMissed (s : State) (a : Nat) : State := (s.fbSample a FbIn.none_).axisFollow a none

/-- The sample of a node for this cycle has been taken, or both copies have failed. -/
def State.slotSeen (s : State) (k : Nat) : Bool :=
  let r := s.node k
  r.taken == s.time.cycle + 1 || (r.badAt == s.time.cycle + 1 && decide (2 ≤ r.bad))

/-- A copy that brought no sample: after the second one, the sample is empty. -/
def State.slotFailed (s : State) (k : Nat) : State :=
  if s.slotSeen k then s else
    let r := s.node k
    let n := if r.badAt = s.time.cycle + 1 then r.bad + 1 else 1
    let s := s.setNode k { r with bad := n, badAt := s.time.cycle + 1 }
    if n < 2 then s else (s.nodeAxes k).foldl State.axisMissed s

/-- The cell trip event (R262): raised when an axis block first shows TRIP, GATE or OT, stamped with the first trip of the cycle. -/
def State.cellTrip (s : State) (a tript b13 : Nat) : State :=
  let at_ := s.time.lastS + (if tript = 0xFFFF then 0 else tript * 2 ^ s.rd P.SysCycleLength 0)
  let bit (k : Nat) : Nat := if bitOf b13 k then 1 else 0
  s.raiseEv { s.mkEvent E.cellTrip a 0
    (leBytes 4 a ++ leBytes 4 (b13 % 16) ++ leBytes 4 (bit 6) ++ leBytes 4 (bit 5) ++ stampBytes at_ 0) with timeNs := at_, frac := 0 }

/-- CELL and LINK as a valid slot copy leaves them (Table 5.4, R74). An axis released for RELINK is not held by the LSAFE its cell still
reports; a disabled axis is not held by LSAFE (DEDUCED, notes/assumptions/35.md). -/
def State.slotHolds (s : State) (k a b13 : Nat) : State :=
  let s := if b13 / 16 ≠ 0 then s.hold a holdCELL else s
  let r := s.axis a
  if (s.node k).lsafe then
    if s.axisOn a && !r.relink then s.hold a holdLINK
    else if s.retired k then s else s.unhold a holdLINK
  else
    let s := s.setAxis a { r with relink := false }
    if s.retired k then s else s.unhold a holdLINK

/-- An axis block of a taken slot (Table 2.4): currents, trips, hold reasons, feedback, and the engine job. -/
def State.slotAxis (s : State) (k a : Nat) (b : List Byte) : State :=
  let n := bitsOf (fld b 3 1) 3 0
  let i := s.cellAxis a
  if n ≤ i then s.axisMissed a else
    let o := 12 + 14 * i
    let b13 := fld b (o + 13) 1
    let st := fld b (o + 12) 1
    let r := s.axis a
    let s := s.setAxis a { r with
      ia := sInt 16 (fldBE b o 2), ib := sInt 16 (fldBE b (o + 2) 2), ic := sInt 16 (fldBE b (o + 4) 2), block := b13
      trips := bitsOf b13 7 5 }
    let s := if (bitsOf b13 7 5).land (7 - r.trips % 8) ≠ 0 then s.cellTrip a (s.node k).tript b13 else s
    let s := s.slotHolds k a b13
    let s := s.fbSample a { raw := fldBE b (o + 6) 6, wire := bitOf st 7, err := bitOf st 5 || bitOf st 4, empty := bitOf st 6 }
    let s := s.axisFollow a (some (s.node k).ubus)
    if s.axisOn a then s.jobReady { tick := s.time.tick, fe := false, id := a, passes := 0 } else s

/-- UPSTREAM_SLOT_RECEIVED: a copy is checked; the first valid one is decoded (R20, R49, R61, R62). -/
def execUpstreamSlotReceived (t : Nat) (ch : Channel) (node : Nat) (tau : Int) (b : List Byte) (s : State) : Res :=
  onUnit t s (decide (1 ≤ node ∧ node ≤ 63)) fun s =>
    if bitOf s.mod.halted 3 || !s.linkSending || !modePresent s.activeMode node || s.retired node then s
    else
      let old := s.node node
      match s.takeSlot ch node tau b with
      | (none, s) => s.slotFailed node
      | (some _, s) =>
        let s := if old.taken = 0 then s else s.latCin node old.cin (s.node node).cin
        let s := s.stoCompare node
        (s.nodeAxes node).foldl (fun s a => s.slotAxis node a b) s

/-- LOCAL_FEEDBACK_SAMPLE: a local port's transfer for S(n) (R78): its receiver, wire break, and the acknowledge time (R86). The counter is open
after A and B have changed in one tick. -/
def execLocalFeedbackSample (t port : Nat) (f : LocalFb) (s : State) : Res :=
  onUnit t s (decide (port < 8)) fun s =>
    let i := 128 + port
    let (o, p) := s.portReceive i f
    let (v, s) := if o.ambig then s.takeFree 4 else (p.cnt, s)
    let s := s.setFb i { s.fbk i with port := { p with cnt := v }, ack := o.ack.getD (s.fbk i).ack }
    (s.fbSample i { raw := o.raw, wire := s.portBroken port f, err := o.err, empty := false }).fbFollow i

/-! ### Place frames (R53, R23, R67, R74) -/

/-- A place frame with its check value. -/
def placeFrame (flags node tag run : Nat) (recs : List Byte) : List Byte :=
  let b := beBytes 1 (0x60 + flags) ++ beBytes 1 node ++ beBytes 1 tag ++ beBytes 1 run ++ recs
  b ++ leBytes 4 (crc32 b)

/-- The records of a node, axes in cell-axis order; records of KIND OFF for an axis that does not run. -/
def State.placeRecs (s : State) (k : Nat) (off : Bool) : List Byte :=
  ((List.range (min 8 (identAxes (s.ident k)))).map fun i =>
    let p := identPairs (s.ident k) i
    match s.axisOf k i with
    | some a =>
      if s.axisRuns a && !off then (leBytes 24 (s.rd P.ModEdgeRecords a)).take (6 * p)
      else (List.replicate p (beBytes 6 EdgeRec.none_.enc48)).flatten
    | none => (List.replicate p (beBytes 6 EdgeRec.none_.enc48)).flatten).flatten

/-- RUN of a node. -/
def State.placeRun (s : State) (k : Nat) : Nat :=
  ((s.nodeAxes k).filter s.axisRuns).foldl (fun m a => setBit m (s.cellAxis a) true) 0

/-- The place of a node begins now, within 1 ns of its stream time, and has not been used in this cycle (R45). -/
def State.placeDue (s : State) (k : Nat) : Bool :=
  let d : Int := (s.lineNs : Int) - s.time.lastS - modePlace s.activeMode k
  modePresent s.activeMode k && decide (-1 ≤ d) && decide (d ≤ 1) && (s.node k).placed != s.time.cycle + 1

/-- The same place frame on both channels (R53). -/
def State.sendPlace (s : State) (f : List Byte) : State := (s.frame .place 0 f).frame .place 1 f

/-- PLACE_FRAME_SEND: the place of a node that the active mode holds. -/
def execPlaceFrameSend (t node : Nat) (s : State) : Res :=
  onUnit t s (decide (1 ≤ node ∧ node ≤ 63)) fun s =>
    let tag := s.time.cycle % 256
    if bitOf s.mod.halted 3 || !s.linkSending || s.retired node || !s.addressed node || !s.placeDue node then s
    else
    let s := s.setNode node { s.node node with placed := s.time.cycle + 1 }
    if s.mod.halted ≠ 0 ∨ 0 < s.link.stopLeft ∨ s.rd P.ElkState 0 = 6 then
      s.sendPlace (placeFrame 16 node tag 0 (s.placeRecs node true))
    else
      let late := (s.nodeAxes node).filter fun a => (s.node node).taken != s.time.cycle + 1 ||
        (s.axisOn a && (s.axis a).cmdCycle != s.time.cycle + 1)
      if late ≠ [] then late.foldl (fun s a => s.inc P.ElkNotReady a) s
      else
        let run := s.placeRun node
        s.sendPlace (placeFrame (if run ≠ 0 ∧ (s.node node).lsafe then 8 else 0) node tag run (s.placeRecs node false))

/-- UPDATE_INSTANT: the local gate pairs take their edge sets (R20, R244, R266). -/
def execUpdateInstant (t : Nat) (s : State) : Res :=
  onEvent t s fun s =>
    if bitOf s.mod.halted 0 || bitOf s.mod.halted 2 then s
    else (List.range 12).foldl (fun s n => s.gpUpdate n (s.feCurrent n)) s

end Sys2Proof.Machine
end

