-- ==== Sys2Proof/Machine/Cycle.lean ====
section
/-!
DEFINITION. The sample instant (chapter 01): what S(n) brings, in the order of the time base, the set-points, the commits, the mode switch
and the sections that follow.
-/
namespace Sys2Proof.Machine

/-- Every axis and port source that had no sample in the ending cycle has an entry without VALID for it (R106), which a compare unit on it
finds (R121). -/
def State.histFill (s : State) : State :=
  let armed := (List.range 32).any fun u => (s.cmpU u).armed
  (List.range 136).foldl (fun s src =>
    let e := (s.history src).head?
    if e.elim false (fun e => e.sNs == s.time.lastS) then s else
      let s := s.addHist src (e.elim (s.rp P.FbPosition src) (·.pos)) false false
      if armed then s.cmpSample src else s) s

/-- The ending cycle: slots of which no copy came (R62), axes whose slot brought no sample (R95), and the history (R106). -/
def State.cycleMissed (s : State) : State :=
  let s := s.slotsMissing
  ((List.range 128).foldl (fun s a => if s.axisNode a = 0 ∨ s.slotSeen (s.axisNode a) then s else s.axisMissed a) s).histFill

/-- The next cycle begins (R13, R29, R40). -/
def State.nextCycle (s : State) : State :=
  let n2 := s.nextS2
  { s with
    time := { s.time with
      cycle := (s.time.cycle + 1) % 2 ^ 32
      lastS := s.time.nextS
      nextS := n2
      lastTick := s.time.tick
      rephase := s.time.rephase - rephaseStep s.time.rephase
      offGrid := decide (s.time.rephase ≠ 0) }
    mod := { s.mod with prev := [] } }

/-- Bit STO of every axis follows the STO line of its group (R18, R150). -/
def State.stoHolds (s : State) : State :=
  (List.range 128).foldl (fun s a =>
    let on := (s.axisGroup a).elim false s.stoLine
    if on == bitOf (s.rd P.AxisHoldReason a) holdSTO then s else if on then s.hold a holdSTO else s.unhold a holdSTO) s

/-- What a due commit has made active: the values before, and its staged set. -/
structure Taken where
  commit : Commit
  olds : List (Nat × Nat)
  set : Option Staged

/-- The values of a due commit become active; it leaves the list (R30, R33). -/
def State.takeValues (s : State) (c : Commit) : Taken × State :=
  let set := s.par.staged.find? (fun g => g.pending == some c.id)
  let s := { s with par := { s.par with commits := s.par.commits.erase c } }
  -- a motion that starts takes lowered limits at once (R204)
  let s := if [0x0601, 0x0602, 0x0603, 0x0605, 0x0606, 0x0607, 0x0609].contains c.req.opcode then
      s.setTraj c.req.inst { s.traj c.req.inst with moveAt := s.time.cycle + 1 } else s
  match c.req.opcode, set with
  | 0x0706, _ => ({ commit := c, olds := [], set := none }, s.cplTake c.req.inst)
  | 0x0A02, _ => ({ commit := c, olds := [], set := none }, s.dqValues c.req)
  | 0x0102, _ => let (o, s) := s.writeValue c.req; ({ commit := c, olds := o, set := none }, s)
  | _, some g => let (o, s) := s.setValues g; ({ commit := c, olds := o, set := some g }, s)
  | _, none => ({ commit := c, olds := [], set := none }, s)

/-- The effect of a commit at S(c) once every value due is active, and where it is not made: status and REF value (R32, R153). -/
def State.applyCommit (s : State) (x : Taken) : Option (Nat × Nat) × State :=
  let q := x.commit.req
  let a := q.inst
  let staged : State := match x.set with
    | some g => s.setFollows g x.olds
    | none => s
  match q.opcode with
  | 0x0102 => (none, x.olds.foldl (fun s o => s.changed (o.1 / 65536) (o.1 % 65536) o.2) s)
  | 0x0105 => (none, staged)
  | 0x0F03 => (none, staged)
  | 0x0205 => (none, (s.nodeAxes a).foldl (fun s x => s.hold x holdLINK) (s.wr P.ElkRetired 0 (setBit (s.rd P.ElkRetired 0) a true)))
  | 0x0501 =>
    let h := s.rd P.AxisHoldReason a
    if h ≠ 0 then (some (0x021C, h), s.raise E.releaseRefused a (leBytes 4 h))
    else if s.axisRuns a && !s.openEnds a then (none, s)
    else (none, (s.engRelease a).trjRelease a)
  | 0x0502 =>
    let s := s.engDisable a
    (none, if s.retired (s.axisNode a) then s else s.unhold a holdLINK)
  | 0x0511 => (none, s.gmCommit a)
  | 0x0512 => (none, s.gmOff a)
  | 0x0701 => (none, s.vmMoveApply q)
  | 0x0702 => (none, s.vmStopApply q)
  | 0x0706 => (none, s.cplEngage a)
  | 0x0707 => (none, s.cplDisengage a (bitOf (fld q.body 0 1) 0))
  | 0x0709 => (none, s.pgBind a)
  | 0x070B => (none, s.pgStart a)
  | 0x070C => (none, s.pgStop a (bitOf (fld q.body 0 1) 0))
  | 0x070D => (none, s.pgRelease a)
  | 0x0A02 => (none, s.dqApply q)
  | 0x0A03 => (none, s.dqReleaseApply q)
  | 0x0B01 => (none, s.aqArm a)
  | 0x0E01 => (none, s.stoMapApply q)
  | op => (none, if 0x0601 ≤ op ∧ op ≤ 0x0609 ∧ op ≠ 0x0608 then s.moveApply q else s)

/-- A due commit takes effect and completes (R30, R371). -/
def State.runCommit (s : State) (x : Taken) : State :=
  let c := x.commit
  let (no, s) := s.applyCommit x
  match no with
  | some (st, v) => s.complete c.req c.id 0xFFFFFFFF st 0 0 v
  | none => s.complete c.req c.id s.time.cycle 0 0 0 0

/-- The commits that are due, in the order of acceptance (R30, R31). -/
def State.dueCommits (s : State) : List Commit := s.par.commits.filter fun c => decide (0 ≤ cycDiff c.target s.time.cycle)

/-- The commits of S(c): first every value due, then their effects, in the order of acceptance (R30, R31, R33). SysLastCommitCycle takes the cycle
of any due commit, one that was then not made included (DESIGN CHOICE, notes/assumptions/89.md). -/
def State.runCommits (s : State) : State :=
  let due := s.dueCommits
  let (xs, s) := due.foldl (fun (x : List Taken × State) c => let (y, s) := x.2.takeValues c; (x.1 ++ [y], s)) ([], s)
  -- the changes at a master position that are due: no write accepted later than they can be due with them (R239)
  let s := (List.range 128).foldl (fun s a => if (s.cplr a).pend.isSome then s.cplDue a else s) s
  let s := xs.foldl State.runCommit s
  if due = [] then s else s.wr P.SysLastCommitCycle 0 s.time.cycle

/-- The mode switch of this cycle: a group's staged set takes effect with it, or its copies are unlocked (R38, R59, R482). -/
def State.switchStep (s : State) : State :=
  let ann := s.link.ann
  let (cancelled, s) := s.switchDecide.switchAct
  match ann with
  | none => s
  | some a =>
    if s.link.ann.isSome then s
    else match cancelled with
      | some g => match s.groupSet g with
        | some x => { s with par := { s.par with staged := s.par.staged.map fun y => if y = x then { x with pending := none } else y } }
        | none => s
      | none =>
        if s.rd P.ElkActiveMode 0 ≠ a.mode then s else
        let s := s.wr P.SysLastCommitCycle 0 s.time.cycle
        match a.group.bind s.groupSet with
        | some x => s.applySet x
        | none => s

/-- The switch, and the check of R155 for axes whose LoopDelay it changes. -/
def State.switchCheck (s : State) : State :=
  if s.link.ann.isNone then s else
    let old := (List.range 128).map s.loopDelay
    let s := s.switchStep
    (List.range 128).foldl (fun s a => if old.getD a 0 = s.loopDelay a then s else s.delayCheck a) s

/-- The coupling values and the limits of the axes whose set-point of this sample instant the chain formed from a source: those that follow a
coupling or a path, and those that the chase brought to it. -/
def State.followed (s : State) : List (Nat × List Nat × Kin) :=
  let cpl := [P.CplKind, P.CplMaster, P.CplGearNum, P.CplGearDen, P.CplCamTable, P.CplCamScale, P.CplMasterOffset, P.CplSlaveOffset, P.TrjVelMax,
    P.TrjAccMax, P.TrjDecMax]
  let soft := [P.TrjJerkMax, P.TrjSoftVel, P.TrjSoftAcc, P.TrjSoftJerk, P.TrjCaptureBand, P.TrjCaptureVel]
  ((List.range 128).filter fun a => (s.rd P.TrjSource a != 0 && s.rd P.TrjChain a == 2) || (s.traj a).was.isSome).map fun a =>
    (a, (if (s.traj a).was.isSome then cpl ++ soft else cpl).map fun p => s.rd p a,
      if s.rd P.TrjSource a = 1 then (s.vmr (s.rd P.CplMaster a)).cur else Kin.zero)

/-- The set-point of S(c) with coupling values and limits changed at S(c) (R31, R181, R183, R222): the chase makes its step again from where
it made it; in Follow, a source state beyond the limits puts the chain into Chase from the set-point last formed (Table 7.2). -/
def State.reFollow (s : State) (a : Nat) : State :=
  let r := s.traj a
  let src (s : State) : Kin × State := if s.rd P.TrjSource a = 1 then s.cplStep a else (r.src, s)
  match r.was with
  | some (c, b) =>
    if s.rd P.TrjChain a = 0 then s else
      let (k, s) := src s
      (s.wr P.TrjChain a 1).chaseTo a c b k
  | none =>
    if s.rd P.TrjChain a = 2 ∧ s.rd P.TrjSource a ≠ 0 then
      let (k, s) := src s
      let s := s.setTraj a { s.traj a with src := k }
      if s.srcFits a k then s.setPoint a k else ((s.wr P.TrjChain a 1).tSet a tLIMITED true).raise E.setPointLimited a []
    else s

/-- SS1 lines that are newly active at this sample instant (R329). -/
def State.ss1Step (s : State) (fresh : List Nat) : State :=
  let old := s.saf.lines
  let new := s.safLineWord
  let gs := (List.range 8).filter fun g => bitOf new (8 + g) && !bitOf old (8 + g)
  let s := gs.foldl (fun s g => s.ss1Stops g fresh) s
  { s with saf := { s.saf with lines := new } }

/-- SAMPLE_INSTANT: S(n + 1) (R20, R22, R30, R176, R207). -/
def State.sample (s : State) : State :=
  let s := s.cycleMissed.aqCycle.nextCycle.levelsTake.cmpDueAll
  let s := s.trjSample.stoHolds
  let ran := (List.range 128).filter s.axisRuns
  let fol := s.followed
  let s := s.runCommits.stoHolds.switchCheck
  let new := s.followed
  let s := (fol.filter fun x => !new.contains x).foldl (fun s x => s.reFollow x.1) s
  let s := s.trjHolds
  let s := s.ss1Step ((List.range 128).filter fun a => s.axisRuns a && !ran.contains a)
  let s := (List.range 128).foldl State.gmEvaluate s
  let s := s.vmCompute
  let s := (List.range 8).foldl State.emuUpdate s
  if bitOf s.mod.halted 3 then s else s.linkSample (decide (s.mod.halted ≠ 0))

/-- SAMPLE_INSTANT while the timebase island is halted or without clock: the link paces its cycles itself and sends safe commands for the whole
halt, cycle-start frames with HALT here and place frames with OFF at their places (R19, R67); nothing else happens (DESIGN CHOICE,
notes/assumptions/27.md). -/
def State.haltSample (s : State) : State :=
  if bitOf s.mod.halted 3 then s else s.nextCycle.linkSample true

def execSampleInstant (t : Nat) (s : State) : Res :=
  onEvent t s fun s => if bitOf s.mod.halted 0 then s.haltSample else s.sample

end Sys2Proof.Machine
end

