-- ==== Sys2Proof/Machine/Dispatch.lean ====
section
/-!
DEFINITION. The dispatch: one arm per command, each one direct call of its meaning.
-/
namespace Sys2Proof.Machine

def exec (i : Instr) (s : State) : Host.Outcome State Fault Refusal :=
  match i with
  | .packetArrival t tr sender bytes => Sys2Proof.Machine.execPacketArrival t tr sender bytes s
  | .packetStart t flow => Sys2Proof.Machine.execPacketStart t flow s
  | .commandTimedOut t flow pos => Sys2Proof.Machine.execCommandTimedOut t flow pos s
  | .paramRead t q => Sys2Proof.Machine.execParamRead t q s
  | .paramWrite t q => Sys2Proof.Machine.execParamWrite t q s
  | .paramReadList t q => Sys2Proof.Machine.execParamReadList t q s
  | .stageOpen t q => Sys2Proof.Machine.execStageOpen t q s
  | .stageCommit t q => Sys2Proof.Machine.execStageCommit t q s
  | .stageDiscard t q => Sys2Proof.Machine.execStageDiscard t q s
  | .eventSubscribe t q => Sys2Proof.Machine.execEventSubscribe t q s
  | .eventRead t q => Sys2Proof.Machine.execEventRead t q s
  | .identify t q => Sys2Proof.Machine.execIdentify t q s
  | .replyRelease t => Sys2Proof.Machine.execReplyRelease t s
  | .eventSend t d => Sys2Proof.Machine.execEventSend t d s
  | .descriptorFetch t addr len bytes => Sys2Proof.Machine.execDescriptorFetch t addr len bytes s
  | .dbReqTailWrite t v => Sys2Proof.Machine.execDbReqTailWrite t v s
  | .dbRplHeadWrite t v => Sys2Proof.Machine.execDbRplHeadWrite t v s
  | .dbEvtHeadWrite t v => Sys2Proof.Machine.execDbEvtHeadWrite t v s
  | .hbReset t => Sys2Proof.Machine.execHbReset t s
  | .hbEnable t on => Sys2Proof.Machine.execHbEnable t on s
  | .hbEvtLostRead t => Sys2Proof.Machine.execHbEvtLostRead t s
  | .registerWrite t off size v => Sys2Proof.Machine.execRegisterWrite t off size v s
  | .msixFire t vec => Sys2Proof.Machine.execMsixFire t vec s
  | .hostBlockDmaError t cause addr => Sys2Proof.Machine.execHostBlockDmaError t cause addr s
  | .hostConfigApply t => Sys2Proof.Machine.execHostConfigApply t s
  | .linkStart t q => Sys2Proof.Machine.execLinkStart t q s
  | .linkStop t q => Sys2Proof.Machine.execLinkStop t q s
  | .modeLoad t q => Sys2Proof.Machine.execModeLoad t q s
  | .modeSwitch t q => Sys2Proof.Machine.execModeSwitch t q s
  | .nodeRetire t q => Sys2Proof.Machine.execNodeRetire t q s
  | .nodeJoin t q => Sys2Proof.Machine.execNodeJoin t q s
  | .modeCheck t q => Sys2Proof.Machine.execModeCheck t q s
  | .coldStartPhaseEnd t info => Sys2Proof.Machine.execColdStartPhaseEnd t info s
  | .coldStartPhaseTimeout t => Sys2Proof.Machine.execColdStartPhaseTimeout t s
  | .foreignHeadFrame t bytes => Sys2Proof.Machine.execForeignHeadFrame t bytes s
  | .upstreamSlotReceived t ch node tau bytes => Sys2Proof.Machine.execUpstreamSlotReceived t ch node tau bytes s
  | .engineJobDispatch t => Sys2Proof.Machine.execEngineJobDispatch t s
  | .placeFrameSend t node => Sys2Proof.Machine.execPlaceFrameSend t node s
  | .sampleInstant t => Sys2Proof.Machine.execSampleInstant t s
  | .loadAllReload t => Sys2Proof.Machine.execLoadAllReload t s
  | .updateInstant t => Sys2Proof.Machine.execUpdateInstant t s
  | .ringOpen t ch => Sys2Proof.Machine.execRingOpen t ch s
  | .ringClosed t ch => Sys2Proof.Machine.execRingClosed t ch s
  | .ringSettled t ch => Sys2Proof.Machine.execRingSettled t ch s
  | .ringDelayDisagreement t ch => Sys2Proof.Machine.execRingDelayDisagreement t ch s
  | .scheduleRecheck t => Sys2Proof.Machine.execScheduleRecheck t s
  | .cellCounterPoll t node count => Sys2Proof.Machine.execCellCounterPoll t node count s
  | .serviceReplyReceived t ch f => Sys2Proof.Machine.execServiceReplyReceived t ch f s
  | .sfpInserted t port answers ident => Sys2Proof.Machine.execSfpInserted t port answers ident s
  | .sfpRemoved t port txFault => Sys2Proof.Machine.execSfpRemoved t port txFault s
  | .islandMeasurement t m => Sys2Proof.Machine.execIslandMeasurement t m s
  | .islandHalt t island => Sys2Proof.Machine.execIslandHalt t island s
  | .islandResume t island => Sys2Proof.Machine.execIslandResume t island s
  | .localFeedbackSample t port f => Sys2Proof.Machine.execLocalFeedbackSample t port f s
  | .feedbackFreeze t inst => Sys2Proof.Machine.execFeedbackFreeze t inst s
  | .standstillTimeout t inst => Sys2Proof.Machine.execStandstillTimeout t inst s
  | .followingErrorTimeout t axis => Sys2Proof.Machine.execFollowingErrorTimeout t axis s
  | .latchRecordForm t unit => Sys2Proof.Machine.execLatchRecordForm t unit s
  | .registrationMarkMissing t axis => Sys2Proof.Machine.execRegistrationMarkMissing t axis s
  | .latchRead t q => Sys2Proof.Machine.execLatchRead t q s
  | .latchFlush t q => Sys2Proof.Machine.execLatchFlush t q s
  | .axisEnable t q => Sys2Proof.Machine.execAxisEnable t q s
  | .axisDisable t q => Sys2Proof.Machine.execAxisDisable t q s
  | .stepHoldDelay t axis => Sys2Proof.Machine.execStepHoldDelay t axis s
  | .gainMapLoad t q => Sys2Proof.Machine.execGainMapLoad t q s
  | .gainMapCommit t q => Sys2Proof.Machine.execGainMapCommit t q s
  | .gainMapOff t q => Sys2Proof.Machine.execGainMapOff t q s
  | .gainMapRead t q => Sys2Proof.Machine.execGainMapRead t q s
  | .moveAbs t q => Sys2Proof.Machine.execMoveAbs t q s
  | .moveRel t q => Sys2Proof.Machine.execMoveRel t q s
  | .moveJog t q => Sys2Proof.Machine.execMoveJog t q s
  | .moveStop t q => Sys2Proof.Machine.execMoveStop t q s
  | .moveHome t q => Sys2Proof.Machine.execMoveHome t q s
  | .homingFailed t axis => Sys2Proof.Machine.execHomingFailed t axis s
  | .moveTest t q => Sys2Proof.Machine.execMoveTest t q s
  | .moveResume t q => Sys2Proof.Machine.execMoveResume t q s
  | .queueAppend t q => Sys2Proof.Machine.execQueueAppend t q s
  | .queueStart t q => Sys2Proof.Machine.execQueueStart t q s
  | .queueClear t q => Sys2Proof.Machine.execQueueClear t q s
  | .queueRefill t axis bad => Sys2Proof.Machine.execQueueRefill t axis bad s
  | .vmMove t q => Sys2Proof.Machine.execVmMove t q s
  | .vmStop t q => Sys2Proof.Machine.execVmStop t q s
  | .camLoad t q => Sys2Proof.Machine.execCamLoad t q s
  | .camDelete t q => Sys2Proof.Machine.execCamDelete t q s
  | .camRead t q => Sys2Proof.Machine.execCamRead t q s
  | .camPrefetch t table seg => Sys2Proof.Machine.execCamPrefetch t table seg s
  | .camFetchLate t table => Sys2Proof.Machine.execCamFetchLate t table s
  | .couplingEngage t q => Sys2Proof.Machine.execCouplingEngage t q s
  | .couplingDisengage t q => Sys2Proof.Machine.execCouplingDisengage t q s
  | .couplingChange t q => Sys2Proof.Machine.execCouplingChange t q s
  | .couplingChangeLapsed t axis => Sys2Proof.Machine.execCouplingChangeLapsed t axis s
  | .pathBind t q => Sys2Proof.Machine.execPathBind t q s
  | .pathAppend t q => Sys2Proof.Machine.execPathAppend t q s
  | .pathStart t q => Sys2Proof.Machine.execPathStart t q s
  | .pathStop t q => Sys2Proof.Machine.execPathStop t q s
  | .pathRelease t q => Sys2Proof.Machine.execPathRelease t q s
  | .lineMove t q => Sys2Proof.Machine.execLineMove t q s
  | .lineStop t q => Sys2Proof.Machine.execLineStop t q s
  | .lineFrameSend t => Sys2Proof.Machine.execLineFrameSend t s
  | .lineFrameReceived t d => Sys2Proof.Machine.execLineFrameReceived t d s
  | .lineTimeout t => Sys2Proof.Machine.execLineTimeout t s
  | .loadAll t q => Sys2Proof.Machine.execLoadAll t q s
  | .tripClear t q => Sys2Proof.Machine.execTripClear t q s
  | .gateTrip t pair input edge => Sys2Proof.Machine.execGateTrip t pair input edge s
  | .localDataNotReady t pair => Sys2Proof.Machine.execLocalDataNotReady t pair s
  | .delayLineCalibration t pair high n => Sys2Proof.Machine.execDelayLineCalibration t pair high n s
  | .microstepLoad t q => Sys2Proof.Machine.execMicrostepLoad t q s
  | .microstepShape t q => Sys2Proof.Machine.execMicrostepShape t q s
  | .microstepRead t q => Sys2Proof.Machine.execMicrostepRead t q s
  | .frontEndJobs t sd => Sys2Proof.Machine.execFrontEndJobs t sd s
  | .dipDetected t => Sys2Proof.Machine.execDipDetected t s
  | .dipCleared t => Sys2Proof.Machine.execDipCleared t s
  | .phaseLossTimeout t => Sys2Proof.Machine.execPhaseLossTimeout t s
  | .frequencyFault t => Sys2Proof.Machine.execFrequencyFault t s
  | .rideRecoveryStep t => Sys2Proof.Machine.execRideRecoveryStep t s
  | .rideThroughExhausted t => Sys2Proof.Machine.execRideThroughExhausted t s
  | .sigmaDeltaFault t input => Sys2Proof.Machine.execSigmaDeltaFault t input s
  | .feStart t q => Sys2Proof.Machine.execFeStart t q s
  | .contactorFeedbackChange t main closed => Sys2Proof.Machine.execContactorFeedbackChange t main closed s
  | .prechargeLevelReached t => Sys2Proof.Machine.execPrechargeLevelReached t s
  | .preOpenDelayExpiry t => Sys2Proof.Machine.execPreOpenDelayExpiry t s
  | .feSequenceTimeout t => Sys2Proof.Machine.execFeSequenceTimeout t s
  | .busSettled t => Sys2Proof.Machine.execBusSettled t s
  | .feStop t q => Sys2Proof.Machine.execFeStop t q s
  | .feStopRampEnd t => Sys2Proof.Machine.execFeStopRampEnd t s
  | .feFaultClear t q => Sys2Proof.Machine.execFeFaultClear t q s
  | .safetyInputSample t proc levels => Sys2Proof.Machine.execSafetyInputSample t proc levels s
  | .discrepancyTimeout t input => Sys2Proof.Machine.execDiscrepancyTimeout t input s
  | .safetyCycle t info => Sys2Proof.Machine.execSafetyCycle t info s
  | .testPulse t b shorts => Sys2Proof.Machine.execTestPulse t b shorts s
  | .stoTestPulse t out second off quiet => Sys2Proof.Machine.execStoTestPulse t out second off quiet s
  | .safetySelfTest t proc passed => Sys2Proof.Machine.execSafetySelfTest t proc passed s
  | .safetySupplyLoss t => Sys2Proof.Machine.execSafetySupplyLoss t s
  | .ss1DelayExpiry t group => Sys2Proof.Machine.execSs1DelayExpiry t group s
  | .srstPress t => Sys2Proof.Machine.execSrstPress t s
  | .srstRelease t => Sys2Proof.Machine.execSrstRelease t s
  | .resetHeld t => Sys2Proof.Machine.execResetHeld t s
  | .safetyStartupComplete t passed bankA bankB same => Sys2Proof.Machine.execSafetyStartupComplete t passed bankA bankB same s
  | .safetyStatusFrame t proc bytes => Sys2Proof.Machine.execSafetyStatusFrame t proc bytes s
  | .safetyStatusLost t => Sys2Proof.Machine.execSafetyStatusLost t s
  | .stoWiringMismatch t node => Sys2Proof.Machine.execStoWiringMismatch t node s
  | .stoMapSet t q => Sys2Proof.Machine.execStoMapSet t q s
  | .safStatusRead t q => Sys2Proof.Machine.execSafStatusRead t q s
  | .ferryDownFrame t group => Sys2Proof.Machine.execFerryDownFrame t group s
  | .ferryDownFrameReceived t group bytes => Sys2Proof.Machine.execFerryDownFrameReceived t group bytes s
  | .ferryUpFrame t group => Sys2Proof.Machine.execFerryUpFrame t group s
  | .ferryUpFrameReceived t group bytes => Sys2Proof.Machine.execFerryUpFrameReceived t group bytes s
  | .ferryStale t group => Sys2Proof.Machine.execFerryStale t group s
  | .ferryWatchdog t group => Sys2Proof.Machine.execFerryWatchdog t group s
  | .fieldEntryApply t group => Sys2Proof.Machine.execFieldEntryApply t group s
  | .fastInputEdge t input rising => Sys2Proof.Machine.execFastInputEdge t input rising s
  | .inputFilterExpiry t input x => Sys2Proof.Machine.execInputFilterExpiry t input x s
  | .inputWireBreak t input broken => Sys2Proof.Machine.execInputWireBreak t input broken s
  | .outputOverload t out => Sys2Proof.Machine.execOutputOverload t out s
  | .outputOverloadClear t out => Sys2Proof.Machine.execOutputOverloadClear t out s
  | .outputFedBack t out high => Sys2Proof.Machine.execOutputFedBack t out high s
  | .fieldSupplyLow t group => Sys2Proof.Machine.execFieldSupplyLow t group s
  | .fieldSupplyRestored t group => Sys2Proof.Machine.execFieldSupplyRestored t group s
  | .ioSnapshot t q => Sys2Proof.Machine.execIoSnapshot t q s
  | .dqWrite t q => Sys2Proof.Machine.execDqWrite t q s
  | .dqRelease t q => Sys2Proof.Machine.execDqRelease t q s
  | .serviceRestart t => Sys2Proof.Machine.execServiceRestart t s
  | .serviceRestartComplete t => Sys2Proof.Machine.execServiceRestartComplete t s
  | .threadReady t th task prio cores => Sys2Proof.Machine.execThreadReady t th task prio cores s
  | .timeSliceExpiry t core => Sys2Proof.Machine.execTimeSliceExpiry t core s
  | .budgetExhausted t th core => Sys2Proof.Machine.execBudgetExhausted t th core s
  | .budgetWindow t => Sys2Proof.Machine.execBudgetWindow t s
  | .workItemPost t flow handler arg => Sys2Proof.Machine.execWorkItemPost t flow handler arg s
  | .workItemEnd t flow => Sys2Proof.Machine.execWorkItemEnd t flow s
  | .taskLoad t q => Sys2Proof.Machine.execTaskLoad t q s
  | .taskStart t q => Sys2Proof.Machine.execTaskStart t q s
  | .taskStop t q => Sys2Proof.Machine.execTaskStop t q s
  | .taskUnload t q => Sys2Proof.Machine.execTaskUnload t q s
  | .taskMap t q => Sys2Proof.Machine.execTaskMap t q s
  | .taskMemRead t q => Sys2Proof.Machine.execTaskMemRead t q s
  | .memInfo t q => Sys2Proof.Machine.execMemInfo t q s
  | .taskFault t task code core th pc addr => Sys2Proof.Machine.execTaskFault t task code core th pc addr s
  | .taskWatchdogExpiry t task => Sys2Proof.Machine.execTaskWatchdogExpiry t task s
  | .taskWatchdogKick t task => Sys2Proof.Machine.execTaskWatchdogKick t task s
  | .dmaStart t ch owner prio chain => Sys2Proof.Machine.execDmaStart t ch owner prio chain s
  | .dmaBurst t => Sys2Proof.Machine.execDmaBurst t s
  | .memoryEccError t addr correctable again hit => Sys2Proof.Machine.execMemoryEccError t addr correctable again hit s
  | .patrolScrub t => Sys2Proof.Machine.execPatrolScrub t s
  | .acqArm t q => Sys2Proof.Machine.execAcqArm t q s
  | .acqStop t q => Sys2Proof.Machine.execAcqStop t q s
  | .acqForce t q => Sys2Proof.Machine.execAcqForce t q s
  | .acqTrigger t unit => Sys2Proof.Machine.execAcqTrigger t unit s
  | .acqAutoTimeout t unit => Sys2Proof.Machine.execAcqAutoTimeout t unit s
  | .acqBlockWrite t unit => Sys2Proof.Machine.execAcqBlockWrite t unit s
  | .acqOverrun t unit => Sys2Proof.Machine.execAcqOverrun t unit s
  | .acqRateRestore t unit => Sys2Proof.Machine.execAcqRateRestore t unit s
  | .acqRead t q => Sys2Proof.Machine.execAcqRead t q s
  | .acqCaptures t q => Sys2Proof.Machine.execAcqCaptures t q s
  | .acqGrant t q => Sys2Proof.Machine.execAcqGrant t q s
  | .acqRevoke t q => Sys2Proof.Machine.execAcqRevoke t q s
  | .canSend t q => Sys2Proof.Machine.execCanSend t q s
  | .canCancel t q => Sys2Proof.Machine.execCanCancel t q s
  | .canRead t q => Sys2Proof.Machine.execCanRead t q s
  | .canRxAllRead t q => Sys2Proof.Machine.execCanRxAllRead t q s
  | .canRecover t q => Sys2Proof.Machine.execCanRecover t q s
  | .canFrameReceived t c f => Sys2Proof.Machine.execCanFrameReceived t c f s
  | .canTransmitStart t x => Sys2Proof.Machine.execCanTransmitStart t x s
  | .canTxComplete t c => Sys2Proof.Machine.execCanTxComplete t c s
  | .canArbitrationLost t c => Sys2Proof.Machine.execCanArbitrationLost t c s
  | .canError t c e => Sys2Proof.Machine.execCanError t c e s
  | .canTxTimeout t c obj => Sys2Proof.Machine.execCanTxTimeout t c obj s
  | .canBusIntegration t c => Sys2Proof.Machine.execCanBusIntegration t c s
  | .canBusOffRecovery t c => Sys2Proof.Machine.execCanBusOffRecovery t c s
  | .bellmanDue t c => Sys2Proof.Machine.execBellmanDue t c s
  | .timeStep t q => Sys2Proof.Machine.execTimeStep t q s
  | .ptpSyncReceived t m => Sys2Proof.Machine.execPtpSyncReceived t m s
  | .ptpAnnounceReceived t m => Sys2Proof.Machine.execPtpAnnounceReceived t m s
  | .ptpMasterLoss t => Sys2Proof.Machine.execPtpMasterLoss t s
  | .ptpMessageSend t kind => Sys2Proof.Machine.execPtpMessageSend t kind s
  | .ptpTransit t m inPort residence => Sys2Proof.Machine.execPtpTransit t m inPort residence s
  | .followUpTimeout t => Sys2Proof.Machine.execFollowUpTimeout t s
  | .beaconSend t => Sys2Proof.Machine.execBeaconSend t s
  | .beaconReceived t port id => Sys2Proof.Machine.execBeaconReceived t port id s
  | .neighbourLost t port => Sys2Proof.Machine.execNeighbourLost t port s
  | .rollCallStart t => Sys2Proof.Machine.execRollCallStart t s
  | .rollCallFrameReceived t port f => Sys2Proof.Machine.execRollCallFrameReceived t port f s
  | .rollCallTimeout t => Sys2Proof.Machine.execRollCallTimeout t s
  | .rollCallRetry t => Sys2Proof.Machine.execRollCallRetry t s
  | .lineRollCall t q => Sys2Proof.Machine.execLineRollCall t q s
  | .powerUp t => Sys2Proof.Machine.execPowerUp t s
  | .brownOut t => Sys2Proof.Machine.execBrownOut t s
  | .supplyInterruption t ns => Sys2Proof.Machine.execSupplyInterruption t ns s
  | .systemWatchdog t => Sys2Proof.Machine.execSystemWatchdog t s
  | .boot t => Sys2Proof.Machine.execBoot t s
  | .ready t => Sys2Proof.Machine.execReady t s
  | .sysReset t q => Sys2Proof.Machine.execSysReset t q s
  | .sysBootStore t q => Sys2Proof.Machine.execSysBootStore t q s
  | .auxSupplyOverload t n => Sys2Proof.Machine.execAuxSupplyOverload t n s
  | .auxSupplyRetry t n overloaded => Sys2Proof.Machine.execAuxSupplyRetry t n overloaded s
  | .faultClear t q => Sys2Proof.Machine.execFaultClear t q s
  | .faultLogRead t q => Sys2Proof.Machine.execFaultLogRead t q s
  | .groupChange t q => Sys2Proof.Machine.execGroupChange t q s
  | .imageWrite t q => Sys2Proof.Machine.execImageWrite t q s
  | .imageCheck t q => Sys2Proof.Machine.execImageCheck t q s
  | .firmwareSwitch t q => Sys2Proof.Machine.execFirmwareSwitch t q s
  | .firmwareSwitched t => Sys2Proof.Machine.execFirmwareSwitched t s
  | .firmwareTrialEnd t => Sys2Proof.Machine.execFirmwareTrialEnd t s
  | .echoMarkerReceived t ch trip => Sys2Proof.Machine.execEchoMarkerReceived t ch trip s
  | .cycleStartFrameReturned t ch trip bytes => Sys2Proof.Machine.execCycleStartFrameReturned t ch trip bytes s
  | .followUpReceived t m => Sys2Proof.Machine.execFollowUpReceived t m s
  | .delayRespReceived t m => Sys2Proof.Machine.execDelayRespReceived t m s
  | .delayReqReceived t m => Sys2Proof.Machine.execDelayReqReceived t m s
  | .arpRequest t ip sender => Sys2Proof.Machine.execArpRequest t ip sender s
  | .icmpEchoRequest t ip sender bytes => Sys2Proof.Machine.execIcmpEchoRequest t ip sender bytes s
  | .tripInputInactive t pair input => Sys2Proof.Machine.execTripInputInactive t pair input s
  | .sigmaDeltaStreamResumed t input => Sys2Proof.Machine.execSigmaDeltaStreamResumed t input s
  | .islandHaltOffLoopPath t island => Sys2Proof.Machine.execIslandHaltOffLoopPath t island s
  | .bootRecordWritten t => Sys2Proof.Machine.execBootRecordWritten t s
  | .acqFrameFormed t unit samples => Sys2Proof.Machine.execAcqFrameFormed t unit samples s

end Sys2Proof.Machine
end

