-- ==== Sys2Proof/Safety.lean ====
section
/-!
DEFINITION. The words in which claims are stated: a step that goes on, a request that its opcode takes, a request that is
answered, a commit that is stored for its cycle, and the widths and canonical forms that every step keeps.
-/
namespace Sys2Proof.Machine

/-- The step goes on. -/
def State.goesOn (s : State) : Prop := ∃ t, step s = .next t

/-- The request is one its opcode takes in this state: instance and body length fit (R511), its packet broke no assembly (R359), and
the unit is not in recovery or the opcode is one that recovery accepts (R469). -/
abbrev Served (op : Nat) (q : Req) (s : State) : Prop :=
  instOk op q = true ∧ lenOk op q = true ∧ s.host.broken.contains q = false ∧ (s.boot.recovery && !recoveryOp op) = false

/-- The command runs to its end and its request is answered: the state after its effect is `s'`, and the reply is sent from it. -/
def Answers (c : Instr) (s : State) (q : Req) (status : Nat) (body : List Byte) (s' : State) : Prop :=
  exec c s = .next (s'.reply q status body)

/-- The state in which a commit request has been stored for its target cycle and has taken a COMMITID (R32). -/
def State.withCommit (s : State) (q : Req) (target : Nat) : State :=
  { s with par := { s.par with
      nextId := bumpId s.par.nextId
      commits := s.par.commits ++ [{ target := target, id := s.par.nextId, req := q }] } }

/-- The command is stored as a commit for a cycle and answered 0x0102 with its CR block (R32, Table 13.5). -/
def Commits (c : Instr) (s : State) (q : Req) (target : Nat) (s' : State) : Prop :=
  Answers c s q 0x0102 (crBytes target s'.par.nextId) (s'.withCommit q target)

/-- Every table of the state is in its canonical form: keys strictly rising, no entry equal to what an unlisted key reads as. -/
def State.tabsWf (s : State) : Bool :=
  tabWf s.par.active keyReset && tabWf s.par.shadow (fun _ => none) && tabWf s.fb (fun _ => FbRec.init) && tabWf s.hist (fun _ => []) &&
  tabWf s.lat (fun _ => LatRec.init) && tabWf s.cmp (fun _ => CmpRec.init) && tabWf s.emu (fun _ => EmuRec.init) &&
  tabWf s.ax (fun _ => AxisRec.init) && tabWf s.gm (fun _ => GmRec.init) && tabWf s.trj (fun _ => TrjRec.init) &&
  tabWf s.vm (fun _ => VmRec.init) && tabWf s.cpl (fun _ => CplRec.init) && tabWf s.cams (fun _ => []) && tabWf s.camHeld (fun _ => []) &&
  tabWf s.pg (fun _ => PgRec.init) && tabWf s.ferry (fun _ => FerryRec.init) && tabWf s.aq (fun _ => AqRec.init) &&
  tabWf s.can (fun _ => CanRec.init) && tabWf s.canObj (fun _ => CanObjRec.init)

/-- What every step keeps: tables in their canonical form, the line-time accumulator within its 88 bits (R13), the cycle count within
its 32 bits, the next COMMITID a number from 1 to 2^32 - 1, never 0 (Table 13.5), and nothing left to follow a reply (R474, R485). -/
abbrev State.wf (s : State) : Prop :=
  s.tabsWf = true ∧ s.time.lt < 2 ^ 88 ∧ s.time.cycle < 2 ^ 32 ∧ 1 ≤ s.par.nextId ∧ s.par.nextId < 2 ^ 32 ∧ s.boot.due = 0

/-! ### Frames -/

/-- The parameter table is in the order its operations need. -/
abbrev State.ordered (s : State) : Prop := tabSorted none s.par.active = true

/-- The parameters that count what could not be kept: their values may change with any event or reply. -/
def lossCount (p : Nat) : Bool := p == P.FaultLogLost || p == P.HostEventsLost || p == P.HostRepliesLost

/-- The parts of the state besides the parameters, the running tick and the sender's side (`host` and `sent`). -/
inductive Part where
  | grid | lineTime | shadow | staged | commits | nextId | free | link | fb | hist | lat | cmp
  | emu | ax | eng | gm | trj | vm | cpl | cams | camHeld | pg | line | mod
  | fe | saf | ferry | dqFe | pr | aq | can | canObj | nt | roll | boot | queue
  deriving DecidableEq, Repr

/-- A part is the same in two states. `grid` is the cycle grid (R28), `queue` the commands that wait. `lineTime` says that line time has
only run on: its accumulator is what the ticks passed make it. -/
def State.Same (s s' : State) : Part → Prop
  | .grid => s'.time.cycle = s.time.cycle ∧ s'.time.lastS = s.time.lastS ∧ s'.time.nextS = s.time.nextS ∧ s'.time.rephase = s.time.rephase ∧ s'.time.offGrid = s.time.offGrid ∧
      s'.time.lastTick = s.time.lastTick
  | .lineTime => s'.time.lt = (s.advance s'.time.tick).time.lt
  | .shadow => s'.par.shadow = s.par.shadow
  | .staged => s'.par.staged = s.par.staged
  | .commits => s'.par.commits = s.par.commits
  | .nextId => s'.par.nextId = s.par.nextId
  | .free => s'.free = s.free
  | .link => s'.link = s.link
  | .fb => s'.fb = s.fb
  | .hist => s'.hist = s.hist
  | .lat => s'.lat = s.lat
  | .cmp => s'.cmp = s.cmp
  | .emu => s'.emu = s.emu
  | .ax => s'.ax = s.ax
  | .eng => s'.eng = s.eng
  | .gm => s'.gm = s.gm
  | .trj => s'.trj = s.trj
  | .vm => s'.vm = s.vm
  | .cpl => s'.cpl = s.cpl
  | .cams => s'.cams = s.cams
  | .camHeld => s'.camHeld = s.camHeld
  | .pg => s'.pg = s.pg
  | .line => s'.line = s.line
  | .mod => s'.mod = s.mod
  | .fe => s'.fe = s.fe
  | .saf => s'.saf = s.saf
  | .ferry => s'.ferry = s.ferry
  | .dqFe => s'.dqFe = s.dqFe
  | .pr => s'.pr = s.pr
  | .aq => s'.aq = s.aq
  | .can => s'.can = s.can
  | .canObj => s'.canObj = s.canObj
  | .nt => s'.nt = s.nt
  | .roll => s'.roll = s.roll
  | .boot => s'.boot = s.boot
  | .queue => s'.pending = s.pending

/-- Nothing but the named parts changes. -/
def State.sameBut (s s' : State) (l : List Part) : Prop := ∀ x, x ∉ l → s.Same s' x

/-- No parameter but the named ones changes, the three loss counters apart. -/
def State.parsBut (s s' : State) (l : List Nat) : Prop :=
  s.ordered → ∀ p i, p ∉ l → lossCount p = false → s'.rd p i = s.rd p i

end Sys2Proof.Machine

namespace Sys2Proof

/-- The command acts on the sender side alone: it reads, answers, reports, or sets registers of the host block. -/
def Instr.isHostSide : Instr → Bool
  | .commandTimedOut .. | .eventSubscribe .. | .eventRead .. | .identify .. | .replyRelease .. | .dbReqTailWrite .. | .dbRplHeadWrite ..
    | .dbEvtHeadWrite .. | .hbEnable .. | .hbEvtLostRead .. | .registerWrite .. | .msixFire .. | .hostBlockDmaError .. | .modeCheck .. |
    .gainMapRead .. | .camRead .. | .microstepRead .. | .safStatusRead .. | .ioSnapshot .. | .taskMemRead .. |
    .memInfo .. | .acqRead .. | .acqCaptures .. | .faultLogRead .. | .delayReqReceived .. | .arpRequest .. | .icmpEchoRequest .. => true
  | _ => false

/-- The command stores a commit for a cycle (R30) and does nothing else. -/
def Instr.isCommitRequest : Instr → Bool
  | .nodeRetire .. | .axisEnable .. | .axisDisable .. | .gainMapCommit .. | .gainMapOff .. | .moveAbs .. | .moveRel .. | .moveJog .. |
    .moveStop .. | .moveHome .. | .moveTest .. | .moveResume .. | .queueStart .. | .vmMove .. | .vmStop .. | .pathBind .. | .pathStart
    .. | .pathStop .. | .pathRelease .. | .stoMapSet .. | .dqWrite .. | .dqRelease .. | .acqArm .. => true
  | _ => false

/-- The command moves packets, replies or events. -/
def Instr.isPacketSide : Instr → Bool
  | .packetArrival .. | .eventSend .. | .descriptorFetch .. | .hbReset .. => true
  | _ => false

/-- The command belongs to the Elkob link (chapter 02). -/
def Instr.isLink : Instr → Bool
  | .linkStart .. | .linkStop .. | .modeLoad .. | .modeSwitch .. | .nodeJoin .. | .coldStartPhaseEnd .. | .coldStartPhaseTimeout .. |
    .foreignHeadFrame .. | .ringOpen .. | .ringClosed .. | .ringSettled .. | .ringDelayDisagreement .. | .cellCounterPoll .. |
    .serviceReplyReceived .. | .echoMarkerReceived .. | .cycleStartFrameReturned .. | .stoWiringMismatch .. |
    .scheduleRecheck .. => true
  | _ => false

/-- The command belongs to feedback, monitor, latch or registration (chapters 03, 04 and 08). -/
def Instr.isFeedback : Instr → Bool
  | .feedbackFreeze .. | .standstillTimeout .. | .followingErrorTimeout .. | .latchRecordForm .. | .registrationMarkMissing .. |
    .latchRead .. | .latchFlush .. => true
  | _ => false

/-- The command belongs to queues, cams, paths or gain maps (chapters 06 to 08). -/
def Instr.isMotion : Instr → Bool
  | .homingFailed .. | .queueAppend .. | .queueClear .. | .queueRefill .. | .camLoad .. | .camDelete .. | .camPrefetch .. |
    .camFetchLate .. | .couplingChangeLapsed .. | .pathAppend .. | .gainMapLoad .. => true
  | _ => false

/-- The command belongs to the modulation section (chapter 09). -/
def Instr.isModulation : Instr → Bool
  | .loadAll .. | .tripClear .. | .tripInputInactive .. | .localDataNotReady .. | .delayLineCalibration .. | .microstepLoad .. |
    .microstepShape .. | .updateInstant .. => true
  | _ => false

/-- The command belongs to the front end (chapter 10), a gate trip among them. -/
def Instr.isFrontEnd : Instr → Bool
  | .dipDetected .. | .dipCleared .. | .phaseLossTimeout .. | .frequencyFault .. | .rideRecoveryStep .. | .rideThroughExhausted .. |
    .sigmaDeltaFault .. | .feStart .. | .contactorFeedbackChange .. | .prechargeLevelReached .. | .preOpenDelayExpiry .. |
    .feSequenceTimeout .. | .busSettled .. | .feStop .. | .feStopRampEnd .. | .feFaultClear .. | .sigmaDeltaStreamResumed .. | .gateTrip
    .. => true
  | _ => false

/-- The command belongs to the Lockkeeper (chapter 11). -/
def Instr.isLockkeeper : Instr → Bool
  | .safetyInputSample .. | .discrepancyTimeout .. | .safetyCycle .. | .testPulse .. | .stoTestPulse .. | .safetySelfTest .. |
    .safetySupplyLoss .. | .ss1DelayExpiry .. | .srstPress .. | .srstRelease .. | .resetHeld .. | .safetyStartupComplete .. |
    .safetyStatusFrame .. | .safetyStatusLost .. => true
  | _ => false

/-- The command belongs to the field I/O (chapter 12). -/
def Instr.isFieldIo : Instr → Bool
  | .ferryDownFrame .. | .ferryDownFrameReceived .. | .ferryUpFrame .. | .ferryStale .. | .ferryWatchdog .. | .fieldEntryApply .. |
    .fastInputEdge .. | .inputFilterExpiry .. | .inputWireBreak .. | .outputOverload .. | .outputOverloadClear .. | .outputFedBack .. |
    .fieldSupplyLow .. | .fieldSupplyRestored .. => true
  | _ => false

/-- The command belongs to the processor complex and the Granary (chapter 14). -/
def Instr.isProcessor : Instr → Bool
  | .serviceRestartComplete .. | .threadReady .. | .timeSliceExpiry .. | .budgetExhausted .. | .budgetWindow .. | .workItemPost .. |
    .workItemEnd .. | .taskLoad .. | .taskStart .. | .taskStop .. | .taskUnload .. | .taskMap .. | .taskFault .. | .taskWatchdogExpiry
    .. | .taskWatchdogKick .. | .dmaStart .. | .dmaBurst .. | .patrolScrub .. => true
  | _ => false

/-- The command belongs to signal acquisition (chapter 15). -/
def Instr.isAcquisition : Instr → Bool
  | .acqStop .. | .acqForce .. | .acqTrigger .. | .acqAutoTimeout .. | .acqBlockWrite .. | .acqOverrun .. | .acqRateRestore .. |
    .acqGrant .. | .acqRevoke .. | .acqFrameFormed .. => true
  | _ => false

/-- The command belongs to the CAN controllers (chapter 16). -/
def Instr.isCan : Instr → Bool
  | .canSend .. | .canCancel .. | .canRead .. | .canRxAllRead .. | .canRecover .. | .canFrameReceived .. | .canTransmitStart .. |
    .canTxComplete .. | .canArbitrationLost .. | .canError .. | .canTxTimeout .. | .canBusIntegration .. | .canBusOffRecovery .. |
    .bellmanDue .. => true
  | _ => false

/-- The command belongs to line time and its service (chapter 17). -/
def Instr.isTimeService : Instr → Bool
  | .timeStep .. | .ptpSyncReceived .. | .ptpAnnounceReceived .. | .ptpMasterLoss .. | .ptpMessageSend .. | .ptpTransit .. |
    .followUpTimeout .. | .followUpReceived .. | .delayRespReceived .. | .delayReqReceived .. => true
  | _ => false

/-- The command belongs to the line: beacons, roll call and line master (chapters 08 and 17). -/
def Instr.isLine : Instr → Bool
  | .beaconSend .. | .beaconReceived .. | .neighbourLost .. | .rollCallStart .. | .rollCallFrameReceived .. | .rollCallTimeout .. |
    .rollCallRetry .. | .lineRollCall .. | .lineMove .. | .lineStop .. | .lineFrameSend .. | .lineFrameReceived .. | .lineTimeout .. =>
    true
  | _ => false

/-- The command belongs to the boot record, the image store, supplies or transceivers (chapters 18 to 20). -/
def Instr.isUpkeep : Instr → Bool
  | .sysBootStore .. | .bootRecordWritten .. | .auxSupplyOverload .. | .auxSupplyRetry .. | .imageWrite .. | .imageCheck .. |
    .firmwareTrialEnd .. | .sfpInserted .. | .sfpRemoved .. => true
  | _ => false

/-- The tick, the opcode and the request of a command of the host with an opcode of its own; the single write and the single read of a
parameter have their instances from the parameter and stand apart. -/
def Instr.request : Instr → Option (Nat × Nat × Req)
  | .paramReadList t q => some (t, 0x0103, q)
  | .stageOpen t q => some (t, 0x0104, q)
  | .stageCommit t q => some (t, 0x0105, q)
  | .stageDiscard t q => some (t, 0x0106, q)
  | .eventSubscribe t q => some (t, 0x0107, q)
  | .eventRead t q => some (t, 0x0108, q)
  | .identify t q => some (t, 0x0109, q)
  | .linkStart t q => some (t, 0x0201, q)
  | .linkStop t q => some (t, 0x0202, q)
  | .modeLoad t q => some (t, 0x0203, q)
  | .modeSwitch t q => some (t, 0x0204, q)
  | .nodeRetire t q => some (t, 0x0205, q)
  | .nodeJoin t q => some (t, 0x0206, q)
  | .modeCheck t q => some (t, 0x0207, q)
  | .latchRead t q => some (t, 0x0401, q)
  | .latchFlush t q => some (t, 0x0402, q)
  | .axisEnable t q => some (t, 0x0501, q)
  | .axisDisable t q => some (t, 0x0502, q)
  | .gainMapLoad t q => some (t, 0x0510, q)
  | .gainMapCommit t q => some (t, 0x0511, q)
  | .gainMapOff t q => some (t, 0x0512, q)
  | .gainMapRead t q => some (t, 0x0513, q)
  | .moveAbs t q => some (t, 0x0601, q)
  | .moveRel t q => some (t, 0x0602, q)
  | .moveJog t q => some (t, 0x0603, q)
  | .moveStop t q => some (t, 0x0604, q)
  | .moveHome t q => some (t, 0x0605, q)
  | .moveTest t q => some (t, 0x0606, q)
  | .moveResume t q => some (t, 0x0607, q)
  | .queueAppend t q => some (t, 0x0608, q)
  | .queueStart t q => some (t, 0x0609, q)
  | .queueClear t q => some (t, 0x060A, q)
  | .vmMove t q => some (t, 0x0701, q)
  | .vmStop t q => some (t, 0x0702, q)
  | .camLoad t q => some (t, 0x0703, q)
  | .camDelete t q => some (t, 0x0704, q)
  | .camRead t q => some (t, 0x0705, q)
  | .couplingEngage t q => some (t, 0x0706, q)
  | .couplingDisengage t q => some (t, 0x0707, q)
  | .couplingChange t q => some (t, 0x0708, q)
  | .pathBind t q => some (t, 0x0709, q)
  | .pathAppend t q => some (t, 0x070A, q)
  | .pathStart t q => some (t, 0x070B, q)
  | .pathStop t q => some (t, 0x070C, q)
  | .pathRelease t q => some (t, 0x070D, q)
  | .lineMove t q => some (t, 0x070E, q)
  | .lineStop t q => some (t, 0x070F, q)
  | .loadAll t q => some (t, 0x0801, q)
  | .tripClear t q => some (t, 0x0802, q)
  | .microstepLoad t q => some (t, 0x0803, q)
  | .microstepShape t q => some (t, 0x0804, q)
  | .microstepRead t q => some (t, 0x0805, q)
  | .feStart t q => some (t, 0x0901, q)
  | .feStop t q => some (t, 0x0902, q)
  | .feFaultClear t q => some (t, 0x0903, q)
  | .stoMapSet t q => some (t, 0x0E01, q)
  | .safStatusRead t q => some (t, 0x0E02, q)
  | .ioSnapshot t q => some (t, 0x0A01, q)
  | .dqWrite t q => some (t, 0x0A02, q)
  | .dqRelease t q => some (t, 0x0A03, q)
  | .taskLoad t q => some (t, 0x0D01, q)
  | .taskStart t q => some (t, 0x0D02, q)
  | .taskStop t q => some (t, 0x0D03, q)
  | .taskUnload t q => some (t, 0x0D04, q)
  | .taskMap t q => some (t, 0x0D05, q)
  | .taskMemRead t q => some (t, 0x0D06, q)
  | .memInfo t q => some (t, 0x0D07, q)
  | .acqArm t q => some (t, 0x0B01, q)
  | .acqStop t q => some (t, 0x0B02, q)
  | .acqForce t q => some (t, 0x0B03, q)
  | .acqRead t q => some (t, 0x0B04, q)
  | .acqCaptures t q => some (t, 0x0B05, q)
  | .acqGrant t q => some (t, 0x0B06, q)
  | .acqRevoke t q => some (t, 0x0B07, q)
  | .canSend t q => some (t, 0x0C01, q)
  | .canCancel t q => some (t, 0x0C02, q)
  | .canRead t q => some (t, 0x0C03, q)
  | .canRxAllRead t q => some (t, 0x0C04, q)
  | .canRecover t q => some (t, 0x0C05, q)
  | .timeStep t q => some (t, 0x0C20, q)
  | .lineRollCall t q => some (t, 0x0C21, q)
  | .sysReset t q => some (t, 0x010A, q)
  | .sysBootStore t q => some (t, 0x010B, q)
  | .faultClear t q => some (t, 0x0F01, q)
  | .faultLogRead t q => some (t, 0x0F02, q)
  | .groupChange t q => some (t, 0x0F03, q)
  | .imageWrite t q => some (t, 0x0F10, q)
  | .imageCheck t q => some (t, 0x0F11, q)
  | .firmwareSwitch t q => some (t, 0x0F12, q)
  | _ => none

end Sys2Proof
end

