-- ==== Sys2Proof/Certificates/Slice0/Obligations.lean ====
section
/-!
DEFINITION. The statements for the provers, one `def Obligations.<Name> : Prop` each. A statement about commands is a conjunction: one
clause for each command, or for each case of one, with the state that follows on its right. For every statement
with premises `Sys2Proof.Tests.wit_<Name>` shows, clause by clause, a state and operands that meet them.
-/

open Sys2Proof Sys2Proof.Machine

/-- A step runs the command at the front of the queue. With a command at the front of its queue, a step is the command's effect on the state
with the rest of the queue. The queue of waiting commands belongs to the model (log entry 1). Rests on 01_architecture.md,
13_command_protocol.md. -/
def Obligations.StepRunsTheFrontCommand : Prop :=
  (∀ (c : Instr) (cs : List Instr) (s : State),
      s.pending = c :: cs →
      step s = exec c { s with pending := cs })

/-- On an empty queue the device idles. With no command waiting a step changes nothing. This is the model's choice (log entry 1): the spec
has no queue of commands. Rests on 01_architecture.md. -/
def Obligations.EmptyQueueIdles : Prop :=
  (∀ (s : State),
      s.pending = [] →
      step s = .next s)

/-- After reset every parameter reads the value of its row, and the device waits for its boot ROM. After reset every parameter of every
instance reads its value "after reset"; no request waits, no commit is stored, no group of the Lockkeeper is enabled, the interpreter
does not accept packets, and no command waits. For rows whose reset value the spec does not give, the value is the model's (log entry
17). Rests on 00_scope.md, 18_startup.md (parts of R12, R472). -/
def Obligations.ResetReadsTheTables : Prop :=
  ((∀ p i, State.reset.rd p i = paramReset (pkey p i / 65536) (pkey p i % 65536)) ∧ State.reset.par.commits = [] ∧ State.reset.host.waiting = [] ∧
      (∀ p < 2, ∀ g < 8, State.reset.gState p g ≠ 4) ∧ State.reset.boot.phase = 0 ∧ State.reset.boot.ready = false ∧ State.reset.pending = [])

/-- The state after reset is well formed. After reset every table is in its canonical form, line time lies within its 88 bits, the cycle
count within its 32 bits, the next COMMITID is 1 to 2^32 - 1, and nothing is left to follow a reply. Rests on 00_scope.md,
01_architecture.md (parts of R13, R32). -/
def Obligations.ResetIsWellFormed : Prop :=
  (State.reset.wf)

/-- Every step keeps the state well formed. From any well-formed state, a step that goes on leads to a well-formed state: every table keeps
its canonical form (keys strictly rising, no entry equal to what an unlisted key reads as), line time stays within its 88 bits, the
cycle count within its 32 bits, the next COMMITID stays between 1 and 2^32 - 1, and nothing is left to follow a reply. Rests on
00_scope.md, 01_architecture.md, 13_command_protocol.md (parts of R13, R32, Table 13.5). -/
def Obligations.StepsKeepWellFormed : Prop :=
  (∀ (s : State) (s' : State),
      s.wf →
      step s = .next s' →
      s'.wf)

/-- No command changes the queue of waiting commands. Whatever a command does, resets among them, the commands that wait stay as they are;
so a step takes exactly the front command away. The queue belongs to the model (log entry 1). Rests on 01_architecture.md. -/
def Obligations.CommandsLeaveTheQueue : Prop :=
  (∀ (c : Instr) (s : State) (s' : State),
      exec c s = .next s' →
      s'.pending = s.pending) ∧
  (∀ (c : Instr) (cs : List Instr) (s : State) (s' : State),
      s.pending = c :: cs →
      step s = .next s' →
      s'.pending = cs)

/-- The tick count never runs back, and what was sent stays sent. For every command, resets among them, the tick after it is at least the
tick before it and at least the tick the command names; and what the device has sent before stays the older part of what it has sent.
Rests on 01_architecture.md (parts of R28). -/
def Obligations.TimeNeverRunsBack : Prop :=
  (∀ (c : Instr) (s : State) (s' : State),
      exec c s = .next s' →
      s.time.tick ≤ s'.time.tick ∧ s.sent <:+ s'.sent)

/-- A request of the wrong instance or length, or one recovery does not accept, changes nothing. Every request with an opcode of its own is
refused with 0x0302 for an instance its opcode does not take, and with 0x0303 for a body of the wrong length, in that order. In recovery
one whose opcode recovery does not accept is refused with 0x0240, or with a status that the order of R511 puts before it (before469),
and one whose packet broke an assembly with 0x0202 or a status that it puts before that (before359). Nothing but the reply follows. The
premise that nothing is left to follow a reply is an invariant (StepsKeepWellFormed). Rests on 13_command_protocol.md, 18_startup.md
(parts of R359, R368, R469, R511). -/
def Obligations.RequestsOfTheWrongFormAreRefused : Prop :=
  (∀ (c : Instr) (t op : Nat) (q : Req) (s : State),
      c.request = some (t, op, q) →
      s.boot.due = 0 →
      instOk op q = false →
      exec c s = .next ((s.advance t).reply q 0x0302 (refBytes 0 0 0))) ∧
  (∀ (c : Instr) (t op : Nat) (q : Req) (s : State),
      c.request = some (t, op, q) →
      s.boot.due = 0 →
      instOk op q = true →
      lenOk op q = false →
      exec c s = .next ((s.advance t).reply q 0x0303 (refBytes 0 0 0))) ∧
  (∀ (c : Instr) (t op : Nat) (q : Req) (s : State),
      c.request = some (t, op, q) →
      s.boot.due = 0 →
      instOk op q = true →
      lenOk op q = true →
      s.host.broken.contains q = false →
      s.boot.recovery = true →
      recoveryOp op = false →
      ∃ st b, exec c s = .next ((s.advance t).reply q st b) ∧ (st = 0x0240 ∨ before469 q st = true)) ∧
  (∀ (c : Instr) (t op : Nat) (q : Req) (s : State),
      c.request = some (t, op, q) →
      s.boot.due = 0 →
      instOk op q = true →
      lenOk op q = true →
      s.host.broken.contains q = true →
      ∃ st b, exec c s = .next ((s.advance t).reply q st b) ∧ (st = 0x0202 ∨ before359 q st = true))

/-- Commits wait in the order of acceptance, run when due, and leave. An accepted commit joins the end of the list. When the commits of a
sample instant run and one is due, the due commits, and no others, leave the list, the others keep their order, and SysLastCommitCycle
reads the cycle count (for every due commit, the model's choice, log entry 89); with none due nothing changes. Rests on
01_architecture.md, 13_command_protocol.md (parts of R30, R31, R362). -/
def Obligations.DueCommitsRunAndLeave : Prop :=
  (∀ (q : Req) (n : Nat) (s : State),
      (s.withCommit q n).par.commits = s.par.commits ++ [{ target := n, id := s.par.nextId, req := q }]) ∧
  (∀ (s : State),
      s.ordered →
      s.dueCommits ≠ [] →
      s.runCommits.par.commits = s.par.commits.filter (fun c => decide (cycDiff c.target s.time.cycle < 0)) ∧ s.runCommits.rd P.SysLastCommitCycle 0 = s.time.cycle) ∧
  (∀ (s : State),
      s.dueCommits = [] →
      s.runCommits = s)

/-- What the commits of axes, maps, masters, couplings, groups and units do at their cycle. When a commit runs: AxisEnable of an axis that
is not enabled and has no hold reason sets AxisState to 2 and LoopStatus to 1; with a hold reason AxisState and every axis record stay.
GainMapCommit makes the loaded map the active one; GainMapOff leaves no active map. VmMove with FLAGS bit 0 gives the generator of a
master without a source, or with one of its own, its target; VmStop stops the generator. CouplingEngage engages the coupling and makes
it the source of the axis; CouplingDisengage of an engaged coupling disengages it. PathStart of a bound group sets its mode to position
and ends its pause. AcqArm of an idle unit clears the overrun flag and gives state 2 without pre-trigger frames, else state 1. StoMapSet
sets the STO group of every axis. NodeRetire sets the node's bit in ElkRetired. Rests on 02_elkob_link.md, 05_control_loops.md,
06_gain_scheduling.md, 08_gearing_cams_paths.md, 11_safety.md, 15_acquisition.md (parts of R69, R152, R153, R169, R172, R216, R226,
R237, R328, R417). -/
def Obligations.CommitsTakeEffect : Prop :=
  (∀ (x : Taken) (s : State),
      s.ordered →
      x.commit.req.opcode = 0x0501 →
      s.rd P.AxisHoldReason x.commit.req.inst ≠ 0 →
      (s.runCommit x).rd P.AxisState x.commit.req.inst = s.rd P.AxisState x.commit.req.inst ∧ (s.runCommit x).ax = s.ax) ∧
  (∀ (x : Taken) (s : State),
      s.ordered →
      x.commit.req.opcode = 0x0501 →
      s.rd P.AxisHoldReason x.commit.req.inst = 0 →
      s.rd P.AxisState x.commit.req.inst ≠ 2 →
      (s.runCommit x).rd P.AxisState x.commit.req.inst = 2 ∧ (s.runCommit x).rd P.LoopStatus x.commit.req.inst = 1) ∧
  (∀ (x : Taken) (s : State),
      s.ordered →
      x.commit.req.opcode = 0x0511 →
      tabSorted none s.gm = true →
      ((s.runCommit x).gmap x.commit.req.inst).act = (s.gmap x.commit.req.inst).shadow) ∧
  (∀ (x : Taken) (s : State),
      s.ordered →
      x.commit.req.opcode = 0x0512 →
      tabSorted none s.gm = true →
      ((s.runCommit x).gmap x.commit.req.inst).act = []) ∧
  (∀ (x : Taken) (s : State),
      s.ordered →
      x.commit.req.opcode = 0x0701 →
      tabSorted none s.vm = true →
      s.rd P.VmSource x.commit.req.inst ≠ 1 →
      bitOf (fld x.commit.req.body 0 1) 0 = true →
      ((s.runCommit x).vmr x.commit.req.inst).gen.mode = .pos ∧ ((s.runCommit x).vmr x.commit.req.inst).gen.target = fldI x.commit.req.body 4 8) ∧
  (∀ (x : Taken) (s : State),
      s.ordered →
      x.commit.req.opcode = 0x0702 →
      tabSorted none s.vm = true →
      ((s.runCommit x).vmr x.commit.req.inst).gen = (s.vmr x.commit.req.inst).gen.stop (bitOf (fld x.commit.req.body 0 1) 0)) ∧
  (∀ (x : Taken) (s : State),
      s.ordered →
      x.commit.req.opcode = 0x0706 →
      tabSorted none s.cpl = true →
      ((s.runCommit x).cplr x.commit.req.inst).engaged = true ∧ (s.runCommit x).rd P.TrjSource x.commit.req.inst = 1) ∧
  (∀ (x : Taken) (s : State),
      s.ordered →
      x.commit.req.opcode = 0x0707 →
      tabSorted none s.cpl = true →
      (s.cplr x.commit.req.inst).engaged = true →
      ((s.runCommit x).cplr x.commit.req.inst).engaged = false) ∧
  (∀ (x : Taken) (s : State),
      s.ordered →
      x.commit.req.opcode = 0x070B →
      tabSorted none s.pg = true →
      (s.pgr x.commit.req.inst).bound = true →
      ((s.runCommit x).pgr x.commit.req.inst).mode = .pos ∧ ((s.runCommit x).pgr x.commit.req.inst).paused = false) ∧
  (∀ (x : Taken) (s : State),
      s.ordered →
      x.commit.req.opcode = 0x0B01 →
      s.rd P.AqState x.commit.req.inst = 0 →
      x.commit.req.inst < 4 →
      bitOf ((s.runCommit x).rd P.AqFlags x.commit.req.inst) 1 = false ∧ (s.runCommit x).rd P.AqState x.commit.req.inst = (if s.rd P.AqPreTrigger x.commit.req.inst = 0 then 2 else 1)) ∧
  (∀ (x : Taken) (s : State),
      s.ordered →
      x.commit.req.opcode = 0x0E01 →
      ∀ a < 128, (s.runCommit x).rd P.SafStoGroup a = mapOf x.commit.req.body a) ∧
  (∀ (x : Taken) (s : State),
      s.ordered →
      x.commit.req.opcode = 0x0205 →
      s.rd P.ElkRetired 0 = 0 →
      bitOf ((s.runCommit x).rd P.ElkRetired 0) x.commit.req.inst = true)

/-- AxisDisable is a cycle commit that is accepted in every state and ends everything of the axis. AxisDisable is stored as a cycle commit
in every state, for a target that is not too late. When it runs, at S(c), the RUN bit clears, every integrator, filter and observer
state becomes 0, and AxisState becomes 0. States R154. -/
def Obligations.AxisDisableEndsAnAxis : Prop :=
  (∀ (t : Nat) (q : Req) (s : State),
      Served 0x0502 q s →
      s.late q.body 0 = false →
      Commits (.axisDisable t q) s q ((s.advance t).tgt q.body 0) ((s.advance t))) ∧
  (∀ (x : Taken) (s : State),
      s.ordered →
      x.commit.req.opcode = 0x0502 →
      tabSorted none s.ax = true →
      (s.runCommit x).rd P.AxisState x.commit.req.inst = 0 ∧ bitOf ((s.runCommit x).rd P.LoopStatus x.commit.req.inst) 0 = false ∧ ((s.runCommit x).axis x.commit.req.inst).iv = 0 ∧ ((s.runCommit x).axis x.commit.req.inst).iId = 0 ∧
        ((s.runCommit x).axis x.commit.req.inst).iIq = 0 ∧ ((s.runCommit x).axis x.commit.req.inst).f1 = Biquad.zero ∧ ((s.runCommit x).axis x.commit.req.inst).f2 = Biquad.zero ∧ ((s.runCommit x).axis x.commit.req.inst).dhat = 0 ∧ ((s.runCommit x).axis x.commit.req.inst).vPos = 0 ∧ ((s.runCommit x).axis x.commit.req.inst).iqRef = 0)

/-- The fault log keeps the latest 64 events of level 2. An event of level 2 becomes the newest entry of the fault log; of 65 the oldest
goes and FaultLogLost increments; an event of a lower level leaves the log alone. FaultLogRead returns the newest MAX entries, newest
first, without removing them; with CLEAR it empties the log after the read. An entry has the body layout of Table 13.8. States R490. -/
def Obligations.FaultLogKeepsTheNewest : Prop :=
  (∀ (e : Ev) (s : State),
      e.level = 2 →
      (s.raiseEv e).host.log = (e :: s.host.log).take 64) ∧
  (∀ (e : Ev) (s : State),
      s.ordered →
      e.level = 2 →
      s.host.log.length = 64 →
      (s.raiseEv e).rd P.FaultLogLost 0 = (s.rd P.FaultLogLost 0 + 1) % 2 ^ 32) ∧
  (∀ (e : Ev) (s : State),
      e.level ≠ 2 →
      (s.raiseEv e).host.log = s.host.log) ∧
  (∀ (e : Ev),
      e.body = leBytes 8 e.timeNs ++ leBytes 2 e.frac ++ leBytes 1 e.level ++ [0] ++ leBytes 4 e.cycle ++ leBytes 4 e.evseq ++
      leBytes 2 e.data.length ++ [0, 0] ++ e.data) ∧
  (∀ (t : Nat) (q : Req) (s : State),
      Served 0x0F02 q s →
      1 ≤ fld q.body 0 1 →
      fld q.body 0 1 ≤ 16 →
      bitOf (fld q.body 1 1) 0 = false →
      Answers (.faultLogRead t q) s q 0 (eventList (s.host.log.take (fld q.body 0 1))) ((s.advance t))) ∧
  (∀ (t : Nat) (q : Req) (s : State),
      Served 0x0F02 q s →
      1 ≤ fld q.body 0 1 →
      fld q.body 0 1 ≤ 16 →
      bitOf (fld q.body 1 1) 0 = true →
      Answers (.faultLogRead t q) s q 0 (eventList (s.host.log.take (fld q.body 0 1))) ((s.advance t).setHost { s.host with log := [] }))

/-- SysReset needs every axis and the front end off, or FORCE; its reply goes out before the reset. SysReset is refused with 0x0217 while an
axis is enabled or FeState is not 0, unless FORCE is set. Otherwise its reply is sent, and then the device is reset with cause 2:
commits accepted but not yet effective are gone, and so are the events that wait to be sent; besides the reply only the outputs that go
off are seen outside. The premise that nothing is left to follow a reply is an invariant (StepsKeepWellFormed). The reset begins at
once, which is within the 10 ms allowed. States R474. -/
def Obligations.SysResetFollowsItsReply : Prop :=
  (∀ (t : Nat) (q : Req) (s : State),
      Served 0x010A q s →
      s.boot.due = 0 →
      bitOf (fld q.body 0 1) 0 = false →
      (∃ a, a < 128 ∧ s.rd P.AxisState a ≠ 0) ∨ s.rd P.FeState 0 ≠ 0 →
      Answers (.sysReset t q) s q 0x0217 (refBytes 0 0 0) ((s.advance t))) ∧
  (∀ (t : Nat) (q : Req) (s : State),
      Served 0x010A q s →
      bitOf (fld q.body 0 1) 0 = true ∨ ((∀ a < 128, s.rd P.AxisState a = 0) ∧ s.rd P.FeState 0 = 0) →
      ∃ s', exec (.sysReset t q) s = .next s' ∧ s'.sent = (((s.advance t).setBoot { s.boot with due := 1 }).reply q 0 []).outputsOff.sent ∧ s'.rd P.SysResetCause 0 = 2 ∧ s'.boot.phase = 0 ∧
      s'.par.commits = [] ∧ s'.host.queues = [])

/-- Reading a parameter returns its active copy, or with the shadow flag its shadow copy. ParamRead returns the active copy. With the shadow
flag an RW parameter returns its shadow copy, which a write fills and a commit makes equal to the active one again (for the members of a
load-all set, their load-all); RO, RC and W1C parameters have one copy, and reading an RC parameter clears it with either flag. States
R35. -/
def Obligations.ReadsReturnTheNamedCopy : Prop :=
  (∀ (s : State) (r : ParamRow) (i : Nat),
      s.readOf r i false = s.value r.index i) ∧
  (∀ (s : State) (r : ParamRow) (i : Nat),
      r.access = .rw →
      s.readOf r i true = s.rdShadow r.index i) ∧
  (∀ (s : State) (r : ParamRow) (n i : Nat),
      paramRow n = some r →
      r.access = .rw →
      tabGet s.par.shadow none (pkey r.index i) = none →
      s.readOf r i true = s.readOf r i false) ∧
  (∀ (s : State) (r : ParamRow) (i v : Nat),
      r.access = .rw →
      tabSorted none s.par.shadow = true →
      (s.wrShadow r.index i v).readOf r i true = v ∧ (s.wrShadow r.index i v).rd r.index i = s.rd r.index i) ∧
  (∀ (s : State) (r : ParamRow) (n i : Nat),
      paramRow n = some r →
      r.access = .rw →
      tabSorted none s.par.shadow = true →
      (loadSet.contains r.index && !s.modAtOnce i) = false →
      (s.takeCopy r.index i).readOf r i true = (s.takeCopy r.index i).readOf r i false) ∧
  (∀ (s : State) (r : ParamRow) (i : Nat),
      r.access ≠ .rw →
      s.readOf r i true = s.value r.index i) ∧
  (∀ (t : Nat) (q : Req) (s : State) (r : ParamRow),
      s.boot.recovery = false →
      s.host.broken.contains q = false →
      paramRow (fld q.body 0 2) = some r →
      hasInst r q.inst = true →
      q.body.length = 4 →
      Answers (.paramRead t q) s q 0 (leBytes 2 r.index ++ leBytes 1 (typeCode r.type) ++ leBytes 1 (typeSize r.type) ++ leBytes (typeSize r.type) ((s.advance t).readOf r q.inst (bitOf (fld q.body 2 1) 0))) ((s.advance t).afterRead r q.inst)) ∧
  (∀ (s : State) (r : ParamRow) (i : Nat),
      s.ordered →
      r.access = .rc →
      (s.afterRead r i).rd r.index i = 0)

/-- A request that has not started within its TIMEOUT is refused, and its flow continues. A waiting request with a TIMEOUT that has expired
is refused with 0x0201 and leaves its flow, whose next packet comes next. A packet that starts in the tick in which its TIMEOUT expires
is executed. One without TIMEOUT waits on. States R364. -/
def Obligations.TimedOutRequestsAreRefused : Prop :=
  (∀ (t : Nat) (f p : Nat) (q : Req) (s : State),
      (s.host.waiting.filter (·.flow == f))[p]? = some q →
      q.timeout ≠ 0 →
      expiry q ≤ (s.advance t).time.tick →
      exec (.commandTimedOut t f p) s = .next (((s.advance t).setHost { s.host with waiting := s.host.waiting.erase q }).reply q 0x0201 (refBytes 0 0 0))) ∧
  (∀ (t : Nat) (f p : Nat) (q : Req) (s : State),
      (s.host.waiting.filter (·.flow == f))[p]? = some q →
      q.timeout = 0 →
      exec (.commandTimedOut t f p) s = .next ((s.advance t))) ∧
  (∀ (t : Nat) (f : Nat) (q : Req) (s : State),
      s.host.nextStart = some q →
      q.flow = f →
      s.interpHalted = false →
      s.host.running.length < 8 →
      q.timeout ≠ 0 →
      (s.advance t).time.tick = expiry q →
      exec (.packetStart t f) s = .next ((s.advance t).startPacket q))

/-- AxisGroup: sixteen axes to a group, and only while the axis is disabled. A write of AxisGroup that would give a group a 17th axis is
refused with 0x0332, one while the axis is enabled with 0x0217, and a value other than 0 to 15 or 0xFF with 0x0304. Any other is stored
as a single write for the first cycle that meets the deadline. Writes not yet active count, which is the model's reading (log entry 99).
Rests on 19_live_change_faults.md (parts of R480). -/
def Obligations.AxisGroupTakesSixteen : Prop :=
  (∀ (t : Nat) (q : Req) (s : State),
      s.boot.recovery = false →
      s.host.broken.contains q = false →
      fld q.body 0 2 = P.AxisGroup →
      q.inst < 128 →
      fld q.body 3 1 = 4 →
      q.body.length = 8 →
      fld q.body 2 1 = 0 →
      s.par.staged = [] →
      fld q.body 4 4 < 16 →
      s.rdShadow P.AxisGroup q.inst ≠ fld q.body 4 4 →
      16 ≤ ((List.range 128).filter fun a => s.rdShadow P.AxisGroup a == fld q.body 4 4).length →
      Answers (.paramWrite t q) s q 0x0332 (refBytes 0 0 0) (s.advance t)) ∧
  (∀ (t : Nat) (q : Req) (s : State),
      s.boot.recovery = false →
      s.host.broken.contains q = false →
      fld q.body 0 2 = P.AxisGroup →
      q.inst < 128 →
      fld q.body 3 1 = 4 →
      q.body.length = 8 →
      fld q.body 2 1 = 0 →
      s.par.staged = [] →
      fld q.body 4 4 = 0xFF →
      s.rd P.AxisState q.inst ≠ 0 →
      Answers (.paramWrite t q) s q 0x0217 (refBytes 0 0 0) (s.advance t)) ∧
  (∀ (t : Nat) (q : Req) (s : State),
      s.boot.recovery = false →
      s.host.broken.contains q = false →
      fld q.body 0 2 = P.AxisGroup →
      q.inst < 128 →
      fld q.body 3 1 = 4 →
      q.body.length = 8 →
      fld q.body 2 1 = 0 →
      s.par.staged = [] →
      15 < fld q.body 4 4 →
      fld q.body 4 4 ≠ 0xFF →
      Answers (.paramWrite t q) s q 0x0304 (refBytes 0 0 0) (s.advance t)) ∧
  (∀ (t : Nat) (q : Req) (s : State),
      s.boot.recovery = false →
      s.host.broken.contains q = false →
      fld q.body 0 2 = P.AxisGroup →
      q.inst < 128 →
      fld q.body 3 1 = 4 →
      q.body.length = 8 →
      fld q.body 2 1 = 0 →
      s.par.staged = [] →
      fld q.body 4 4 < 16 →
      s.rd P.AxisState q.inst = 0 →
      ((List.range 128).filter fun a => s.rdShadow P.AxisGroup a == fld q.body 4 4).length < 16 →
      Commits (.paramWrite t q) s q (s.advance t).nextTarget ((s.advance t).wrShadow P.AxisGroup q.inst (fld q.body 4 4)))

/-- Commands of the sender's side leave the device as it is. The reads, reports and host-block registers (Instr.isHostSide), when they
answer a next state, change of the parts of State at most none and of the parameters at most none. The packet commands
(Instr.isPacketSide), when they answer a next state, change of the parts of State at most none and of the parameters at most
HostBadPackets, HostEventsLost, HostPackets, HostQueuePeak, HostRepliesLost. Every other part, and every other parameter of every
instance but the three loss counters, is as before; the running tick, and the sender's side (host and sent), are not spoken of. Rests on
13_command_protocol.md (parts of R366, R370, R374). -/
def Obligations.ReadsAndPacketsLeaveTheDevice : Prop :=
  (∀ (c : Instr) (s : State) (s' : State),
      c.isHostSide = true →
      exec c s = .next s' →
      s.sameBut s' [] ∧ s.parsBut s' []) ∧
  (∀ (c : Instr) (s : State) (s' : State),
      c.isPacketSide = true →
      exec c s = .next s' →
      s.sameBut s' [] ∧ s.parsBut s' [P.HostBadPackets, P.HostEventsLost, P.HostPackets, P.HostQueuePeak, P.HostRepliesLost])

/-- A commit request changes nothing before its cycle. The commit requests (Instr.isCommitRequest), when they answer a next state, change of
the parts of State at most commits, nextId and of the parameters at most none. Every other part, and every other parameter of every
instance but the three loss counters, is as before; the running tick, and the sender's side (host and sent), are not spoken of. Rests on
01_architecture.md (parts of R30, R31). -/
def Obligations.CommitRequestsWait : Prop :=
  (∀ (c : Instr) (s : State) (s' : State),
      c.isCommitRequest = true →
      exec c s = .next s' →
      s.sameBut s' [.commits, .nextId] ∧ s.parsBut s' [])

/-- Link commands leave everything but the link. The link commands (Instr.isLink), when they answer a next state, change of the parts of
State at most link, nextId, staged and of the parameters at most ElkActiveMode, ElkCellCount, ElkEmptyDown, ElkHopDelay, ElkRetired,
ElkRingDelay, ElkRingState, ElkState, SafStoMismatch. Every other part, and every other parameter of every instance but the three loss
counters, is as before; the running tick, and the sender's side (host and sent), are not spoken of. Rests on 02_elkob_link.md. -/
def Obligations.LinkCommandsFrame : Prop :=
  (∀ (c : Instr) (s : State) (s' : State),
      c.isLink = true →
      exec c s = .next s' →
      s.sameBut s' [.link, .nextId, .staged] ∧ s.parsBut s' [P.ElkActiveMode, P.ElkCellCount, P.ElkEmptyDown, P.ElkHopDelay, P.ElkRetired, P.ElkRingDelay, P.ElkRingState, P.ElkState, P.SafStoMismatch])

/-- Feedback, latch, queue, cam, path and map commands leave everything else. The feedback, monitor and latch commands (Instr.isFeedback),
when they answer a next state, change of the parts of State at most ax, cpl, fb, hist, lat and of the parameters at most AxisHoldReason,
AxisState, CplRegError, CplRegMissed, CplRegSkipped, CplState, FbLatched, FbSpeed, FbState, LatArm, LatCaptures, LatFill, LatLost,
LatRejected, LatState, LoopStatus, MonVerdict. The queue, cam, path and gain-map commands (Instr.isMotion), when they answer a next
state, change of the parts of State at most camHeld, cams, commits, cpl, gm, nextId, pg, shadow, staged, trj and of the parameters at
most CamChecksum, CamMaxSlope, CamStoreFree, CamStoreUsed, CplState, GmState, PgPathPos, PgPathVel, PgQueueFill, PgState, PgTag,
TrjChain, TrjLatched, TrjQueueFill, TrjQueueTag, TrjSource, TrjState, TrjTarget. Every other part, and every other parameter of every
instance but the three loss counters, is as before; the running tick, and the sender's side (host and sent), are not spoken of. Rests on
03_feedback.md, 04_latch_compare_emulation.md, 07_setpoints_profiles.md, 08_gearing_cams_paths.md (parts of R91, R111, R199, R219). -/
def Obligations.FeedbackAndMotionFrame : Prop :=
  (∀ (c : Instr) (s : State) (s' : State),
      c.isFeedback = true →
      exec c s = .next s' →
      s.sameBut s' [.ax, .cpl, .fb, .hist, .lat] ∧ s.parsBut s' [P.AxisHoldReason, P.AxisState, P.CplRegError, P.CplRegMissed, P.CplRegSkipped, P.CplState, P.FbLatched, P.FbSpeed, P.FbState, P.LatArm, P.LatCaptures, P.LatFill, P.LatLost, P.LatRejected, P.LatState, P.LoopStatus, P.MonVerdict]) ∧
  (∀ (c : Instr) (s : State) (s' : State),
      c.isMotion = true →
      exec c s = .next s' →
      s.sameBut s' [.camHeld, .cams, .commits, .cpl, .gm, .nextId, .pg, .shadow, .staged, .trj] ∧ s.parsBut s' [P.CamChecksum, P.CamMaxSlope, P.CamStoreFree, P.CamStoreUsed, P.CplState, P.GmState, P.PgPathPos, P.PgPathVel, P.PgQueueFill, P.PgState, P.PgTag, P.TrjChain, P.TrjLatched, P.TrjQueueFill, P.TrjQueueTag, P.TrjSource, P.TrjState, P.TrjTarget])

/-- Modulation and front-end commands leave everything else. The modulation commands (Instr.isModulation), when they answer a next state,
change of the parts of State at most mod, nextId and of the parameters at most GpCalState, GpNotReady, GpTripState, ModEdgeRecords,
ModLoadAllState, ModStatus. The front-end commands and gate trips (Instr.isFrontEnd), when they answer a next state, change of the parts
of State at most dqFe, fe, ferry, free, mod, vm and of the parameters at most FeFaultCause, FeFlags, FeRideDemand, FeSdState, FeState,
GpTripState, GpTripTime, ModLoadAllState. Every other part, and every other parameter of every instance but the three loss counters, is
as before; the running tick, and the sender's side (host and sent), are not spoken of. Rests on 09_modulation.md, 10_front_end.md. -/
def Obligations.PowerSideFrame : Prop :=
  (∀ (c : Instr) (s : State) (s' : State),
      c.isModulation = true →
      exec c s = .next s' →
      s.sameBut s' [.mod, .nextId] ∧ s.parsBut s' [P.GpCalState, P.GpNotReady, P.GpTripState, P.ModEdgeRecords, P.ModLoadAllState, P.ModStatus]) ∧
  (∀ (c : Instr) (s : State) (s' : State),
      c.isFrontEnd = true →
      exec c s = .next s' →
      s.sameBut s' [.dqFe, .fe, .ferry, .free, .mod, .vm] ∧ s.parsBut s' [P.FeFaultCause, P.FeFlags, P.FeRideDemand, P.FeSdState, P.FeState, P.GpTripState, P.GpTripTime, P.ModLoadAllState])

/-- Lockkeeper commands leave everything but the Lockkeeper and its reports. The Lockkeeper commands (Instr.isLockkeeper), when they answer
a next state, change of the parts of State at most saf and of the parameters at most SafConfig, SafConfigChecksum, SafDemands,
SafDiscrepancyTime, SafFault, SafFirmware, SafFrameErrors, SafGroupState, SafInputFault, SafInputLevels, SafLastCause, SafLines,
SafMode, SafOutputs, SafReset, SafSs1Delay. Every other part, and every other parameter of every instance but the three loss counters,
is as before; the running tick, and the sender's side (host and sent), are not spoken of. Rests on 00_scope.md, 11_safety.md (parts of
R3, R306). -/
def Obligations.LockkeeperFrame : Prop :=
  (∀ (c : Instr) (s : State) (s' : State),
      c.isLockkeeper = true →
      exec c s = .next s' →
      s.sameBut s' [.saf] ∧ s.parsBut s' [P.SafConfig, P.SafConfigChecksum, P.SafDemands, P.SafDiscrepancyTime, P.SafFault, P.SafFirmware, P.SafFrameErrors, P.SafGroupState, P.SafInputFault, P.SafInputLevels, P.SafLastCause, P.SafLines, P.SafMode, P.SafOutputs, P.SafReset, P.SafSs1Delay])

/-- Field I/O commands leave everything but the field side. The field I/O commands (Instr.isFieldIo), when they answer a next state, change
of the parts of State at most cmp, ferry and of the parameters at most CmpLate, DqOverloads, FerryCheckErrors, FerryLate, FerryMissed,
FerryState, LiLost. Every other part, and every other parameter of every instance but the three loss counters, is as before; the running
tick, and the sender's side (host and sent), are not spoken of. Rests on 12_field_io.md. -/
def Obligations.FieldIoFrame : Prop :=
  (∀ (c : Instr) (s : State) (s' : State),
      c.isFieldIo = true →
      exec c s = .next s' →
      s.sameBut s' [.cmp, .ferry] ∧ s.parsBut s' [P.CmpLate, P.DqOverloads, P.FerryCheckErrors, P.FerryLate, P.FerryMissed, P.FerryState, P.LiLost])

/-- Processor, memory and acquisition commands leave the loops alone. The processor commands (Instr.isProcessor), when they answer a next
state, change of the parts of State at most free, pr and of the parameters at most AqFlags, AqGrant, DmaBytes, DmaFaultAddr, DmaOwner,
DmaPriority, DmaState, ProcCoreState, ProcDispatchPeak, ProcSpilled, ProcThreads, TaskFaultInfo, TaskImageCrc, TaskMemUsed,
TaskOverruns, TaskState. The acquisition commands (Instr.isAcquisition), when they answer a next state, change of the parts of State at
most aq and of the parameters at most AqEffDivider, AqFlags, AqGrant, AqLastCapture, AqLastTrigTime, AqOverwritten, AqRateReductions,
AqState. Every other part, and every other parameter of every instance but the three loss counters, is as before; the running tick, and
the sender's side (host and sent), are not spoken of. Rests on 01_architecture.md, 15_acquisition.md (parts of R17, R410). -/
def Obligations.ProcessorAndAcquisitionFrame : Prop :=
  (∀ (c : Instr) (s : State) (s' : State),
      c.isProcessor = true →
      exec c s = .next s' →
      s.sameBut s' [.free, .pr] ∧ s.parsBut s' [P.AqFlags, P.AqGrant, P.DmaBytes, P.DmaFaultAddr, P.DmaOwner, P.DmaPriority, P.DmaState, P.ProcCoreState, P.ProcDispatchPeak, P.ProcSpilled, P.ProcThreads, P.TaskFaultInfo, P.TaskImageCrc, P.TaskMemUsed, P.TaskOverruns, P.TaskState]) ∧
  (∀ (c : Instr) (s : State) (s' : State),
      c.isAcquisition = true →
      exec c s = .next s' →
      s.sameBut s' [.aq] ∧ s.parsBut s' [P.AqEffDivider, P.AqFlags, P.AqGrant, P.AqLastCapture, P.AqLastTrigTime, P.AqOverwritten, P.AqRateReductions, P.AqState])

/-- CAN commands leave everything but the CAN controllers. The CAN commands (Instr.isCan), when they answer a next state, change of the
parts of State at most can, canObj, free, nextId and of the parameters at most BellLastSync, BellLate, BellSeq, BellState, CanBusOffs,
CanErrorCounters, CanFramesRx, CanFramesTx, CanLastError, CanObjCollisions, CanObjLastTx, CanObjLost, CanObjState, CanRxAllFill,
CanRxAllLost, CanRxFiltered, CanRxUnmatched, CanState. Every other part, and every other parameter of every instance but the three loss
counters, is as before; the running tick, and the sender's side (host and sent), are not spoken of. Rests on 16_can.md. -/
def Obligations.CanCommandsFrame : Prop :=
  (∀ (c : Instr) (s : State) (s' : State),
      c.isCan = true →
      exec c s = .next s' →
      s.sameBut s' [.can, .canObj, .free, .nextId] ∧ s.parsBut s' [P.BellLastSync, P.BellLate, P.BellSeq, P.BellState, P.CanBusOffs, P.CanErrorCounters, P.CanFramesRx, P.CanFramesTx, P.CanLastError, P.CanObjCollisions, P.CanObjLastTx, P.CanObjLost, P.CanObjState, P.CanRxAllFill, P.CanRxAllLost, P.CanRxFiltered, P.CanRxUnmatched, P.CanState])

/-- Time-service and line commands leave everything else. The time-service commands (Instr.isTimeService), when they answer a next state,
change of the parts of State at most can, grid, lineTime, nt and of the parameters at most NtGrandmaster, NtIncrement, NtLatched,
NtMeanPathDelay, NtOffset, NtResidenceMax, NtState, NtTcUnmatched, SysIslandLatched. The line commands (Instr.isLine), when they answer
a next state, change of the parts of State at most line, roll, vm and of the parameters at most LineAddress, LineCount, LineDemand,
LineDivergences, LineEnable, LineNeighbour, LineRollCallState, LineScale, LineState, TrjChain, VmAcceleration, VmPosition, VmScale,
VmState, VmVelocity. Every other part, and every other parameter of every instance but the three loss counters, is as before; the
running tick, and the sender's side (host and sent), are not spoken of. Rests on 17_network_time.md (parts of R449, R457). -/
def Obligations.TimeAndLineFrame : Prop :=
  (∀ (c : Instr) (s : State) (s' : State),
      c.isTimeService = true →
      exec c s = .next s' →
      s.sameBut s' [.can, .grid, .lineTime, .nt] ∧ s.parsBut s' [P.NtGrandmaster, P.NtIncrement, P.NtLatched, P.NtMeanPathDelay, P.NtOffset, P.NtResidenceMax, P.NtState, P.NtTcUnmatched, P.SysIslandLatched]) ∧
  (∀ (c : Instr) (s : State) (s' : State),
      c.isLine = true →
      exec c s = .next s' →
      s.sameBut s' [.line, .roll, .vm] ∧ s.parsBut s' [P.LineAddress, P.LineCount, P.LineDemand, P.LineDivergences, P.LineEnable, P.LineNeighbour, P.LineRollCallState, P.LineScale, P.LineState, P.TrjChain, P.VmAcceleration, P.VmPosition, P.VmScale, P.VmState, P.VmVelocity])

/-- Boot record, image store, supply and transceiver commands leave everything else. The boot-record, image, supply and transceiver commands
(Instr.isUpkeep), when they answer a next state, change of the parts of State at most boot and of the parameters at most ElkSfpState,
SysAuxSupplyState, SysBootSelect, SysImageState, SysImageVersion, UpdState, UpdWritten. Every other part, and every other parameter of
every instance but the three loss counters, is as before; the running tick, and the sender's side (host and sent), are not spoken of.
Rests on 01_architecture.md, 18_startup.md, 19_live_change_faults.md (parts of R17, R470, R484). -/
def Obligations.UpkeepFrame : Prop :=
  (∀ (c : Instr) (s : State) (s' : State),
      c.isUpkeep = true →
      exec c s = .next s' →
      s.sameBut s' [.boot] ∧ s.parsBut s' [P.ElkSfpState, P.SysAuxSupplyState, P.SysBootSelect, P.SysImageState, P.SysImageVersion, P.UpdState, P.UpdWritten])

/-- What the link requests LinkStart to NodeJoin do where they are accepted: the cases listed. In each case the request has the form its
opcode takes and is answered. LinkStart in ElkState 0, 8 or 9 is answered 0x0101: ElkState becomes 1, the request waits for the end of
the cold start, the time without a foreign head counts from now. While the link is held after Discover it is answered 0x0101 and the
Download phase begins. LinkStop in ElkState 0, 8 or 9 is answered 0x0000 and ElkState becomes 0. In ElkState 1 to 3 it is answered
0x0101 and stops the link at once: ElkState 0, ElkActiveMode 0xFF, ElkRingState 0, no LinkStart runs. In ElkState 4 to 7 it is answered
0x0101, a running LinkStart ends with 0x0205 and the phase as its detail, and 16 cycles with HALT follow unless they run already (the
counter of the model starts at 17: the link goes off at the sample instant that finds it at 1). ModeLoad of a 512-byte table that passes
the checks of its load and is neither the active nor an announced mode is answered 0x0101 and stores the table; the request waits for
the next Download phase unless ElkState is 7 and the active mode has a service window. In that case the exchanges that bring it to the
nodes join the service exchanges, from its lowest present node on. ModeCheck of a table that passes is answered 0x0000 and changes
nothing. ModeSwitch in ElkState 7 with a target that meets its deadline, no switch announced and a stored mode is answered 0x0102; the
switch is announced for its cycle and takes the next COMMITID. NodeRetire in ElkState 7 whose remaining schedule passes the checks on
each measured channel, with every axis of the node disabled and no switch announced, is stored as a commit for the next cycle. NodeJoin
in ElkState 7 with no retired node in the way is answered 0x0101 and its exchanges join the service exchanges. Rests on
02_elkob_link.md, 18_startup.md (parts of R55, R56, R57, R58, R64, R67, R69, R71, R76, R475). -/
def Obligations.LinkRequestsComplete : Prop :=
  (∀ (t : Nat) (q : Req) (s : State),
      Served 0x0201 q s →
      (s.rd P.ElkState 0 = 0 ∨ s.rd P.ElkState 0 = 8 ∨ s.rd P.ElkState 0 = 9) →
      Answers (.linkStart t q) s q 0x0101 ([]) (((s.advance t).setLink { s.link with startReq := some q, foreignTick := (s.advance t).time.tick, held := false }).setElk 1)) ∧
  (∀ (t : Nat) (q : Req) (s : State),
      Served 0x0201 q s →
      s.rd P.ElkState 0 = 4 →
      s.link.held = true →
      Answers (.linkStart t q) s q 0x0101 ([]) (((s.advance t).setLink { s.link with startReq := some q }).enterDownload)) ∧
  (∀ (t : Nat) (q : Req) (s : State),
      Served 0x0202 q s →
      (s.rd P.ElkState 0 = 0 ∨ s.rd P.ElkState 0 = 8 ∨ s.rd P.ElkState 0 = 9) →
      Answers (.linkStop t q) s q 0 ([]) ((s.advance t).setElk 0)) ∧
  (∀ (t : Nat) (q : Req) (s : State),
      Served 0x0202 q s →
      s.ordered →
      1 ≤ s.rd P.ElkState 0 →
      s.rd P.ElkState 0 ≤ 3 →
      ∃ s', Answers (.linkStop t q) s q 0x0101 [] s' ∧ s'.rd P.ElkState 0 = 0 ∧ s'.rd P.ElkActiveMode 0 = 0xFF ∧ s'.rd P.ElkRingState 0 = 0 ∧ s'.link.startReq = none) ∧
  (∀ (t : Nat) (q : Req) (s : State),
      Served 0x0202 q s →
      4 ≤ s.rd P.ElkState 0 →
      s.rd P.ElkState 0 ≤ 7 →
      Answers (.linkStop t q) s q 0x0101 ([]) (((s.advance t).endStart 0x0205 (s.rd P.ElkState 0) 0).setLink { ((s.advance t).endStart 0x0205 (s.rd P.ElkState 0) 0).link with
      stopReq := ((s.advance t).endStart 0x0205 (s.rd P.ElkState 0) 0).link.stopReq ++ [q], stopLeft := if ((s.advance t).endStart 0x0205 (s.rd P.ElkState 0) 0).link.stopLeft = 0 then 17 else ((s.advance t).endStart 0x0205 (s.rd P.ElkState 0) 0).link.stopLeft, held := false })) ∧
  (∀ (t : Nat) (q : Req) (s : State),
      Served 0x0203 q s →
      q.body.length = 512 →
      (s.advance t).modeCheck q.body = none →
      s.rd P.ElkActiveMode 0 ≠ q.inst →
      (s.link.ann.any fun a => a.mode == q.inst) = false →
      s.rd P.ElkState 0 ≠ 7 ∨ modeSvc s.activeMode = none →
      Answers (.modeLoad t q) s q 0x0101 ([]) ((s.advance t).setLink { s.link with modes := tabSet s.link.modes [] q.inst q.body, loads := s.link.loads ++ [q] })) ∧
  (∀ (t : Nat) (q : Req) (s : State) (k : Nat),
      Served 0x0203 q s →
      q.body.length = 512 →
      (s.advance t).modeCheck q.body = none →
      s.rd P.ElkActiveMode 0 ≠ q.inst →
      (s.link.ann.any fun a => a.mode == q.inst) = false →
      s.rd P.ElkState 0 = 7 →
      (modeSvc s.activeMode).isSome = true →
      (modeNodes q.body)[0]? = some k →
      Answers (.modeLoad t q) s q 0x0101 ([]) ((s.advance t).setLink { s.link with modes := tabSet s.link.modes [] q.inst q.body, svc := s.link.svc ++ [SvcOp.load q q.inst k] })) ∧
  (∀ (t : Nat) (q : Req) (s : State),
      Served 0x0207 q s →
      q.body.length = 512 →
      (s.advance t).modeCheck q.body = none →
      Answers (.modeCheck t q) s q 0 ([]) ((s.advance t))) ∧
  (∀ (t : Nat) (q : Req) (s : State),
      Served 0x0204 q s →
      ((s.advance t).switchTgt q.body 0).2 = false →
      s.link.ann = none →
      s.mode q.inst ≠ [] →
      s.rd P.ElkState 0 = 7 →
      Answers (.modeSwitch t q) s q 0x0102 (crBytes ((s.advance t).switchTgt q.body 0).1 s.par.nextId) (({ (s.advance t) with par := { s.par with nextId := bumpId s.par.nextId } } : State).setLink { s.link with ann := some {
      mode := q.inst, cycle := ((s.advance t).switchTgt q.body 0).1, id := s.par.nextId, req := q, acks := 0, decided := none, missing := [], group := none } })) ∧
  (∀ (t : Nat) (q : Req) (s : State),
      Served 0x0205 q s →
      s.rd P.ElkState 0 = 7 →
      (s.advance t).measuredChans.findSome? ((s.advance t).checks456 (s.advance t).activeMode (q.inst :: (List.range 64).filter s.retired) [q.inst]) = none →
      (s.nodeAxes q.inst).all (fun x => s.rd P.AxisState x == 0) = true →
      s.link.ann = none →
      Commits (.nodeRetire t q) s q ((s.time.cycle + 1) % 2 ^ 32) ((s.advance t))) ∧
  (∀ (t : Nat) (q : Req) (s : State),
      Served 0x0206 q s →
      (List.range q.inst).all (fun b => !(s.retired b && ((b : Int) - 1 - s.retiredBelow b == (q.inst : Int) - 1 - s.retiredBelow q.inst))) = true →
      s.rd P.ElkState 0 = 7 →
      Answers (.nodeJoin t q) s q 0x0101 ([]) ((s.advance t).setLink { s.link with svc := s.link.svc ++ [SvcOp.join q q.inst 0] }))

/-- What the phases of a cold start and a foreign head do: the cases listed. A phase ends when its end condition is met, which each clause
gives; LinkStop is not ending the link. Listen (ElkState 1) ends after 1 ms of ticks without a foreign head: the start frame goes out on
both channels and ElkState becomes 2. Start (2) ends when the own start frames have come back for 1 ms on both channels, or on one where
ElkAllowSingle allows it (startsBack): the start frames due so far have gone out (sendStarts), ElkRingState holds the closed rings,
three address frames go out on both channels and ElkState becomes 3. Address (3) ends with a count of at most 63 that agrees on the two
channels where both are closed (addrCount): the count is kept, an identify exchange for each address waits and ElkState becomes 4.
Discover (4) ends when the delays have agreed and every node has answered (cellsFound): with ElkHoldAfterDiscover set the link is held
in ElkState 4; the delays count as measured. Without it ElkState becomes 5, or 9 where the start mode fails its checks. Download (5)
ends when no exchange is left: the loads it brought complete, ElkState becomes 6 and the start mode is announced. Sync (6) ends when the
start mode is active and every node has been valid for 64 cycles (cellsSynced): ElkState becomes 7 and LinkStart completes. A phase that
exceeds its limit while the link is not held ends the cold start: ElkState 9, ElkActiveMode 0xFF, ElkRingState 0, no LinkStart runs. The
frame of a foreign head with a lower unit ID, of Start, of Address or a cycle-start frame, in ElkState 2 to 7 silences this head:
ElkState 8, ElkRingState 0. In Listen any foreign head starts the waiting time anew. Rests on 02_elkob_link.md (parts of R64, R66). -/
def Obligations.ColdStartPhasesAct : Prop :=
  (∀ (t : Nat) (i : ColdInfo) (s : State),
      s.link.stopLeft = 0 →
      s.rd P.ElkState 0 = 1 →
      s.link.foreignTick + 1000000 ≤ (s.advance t).time.tick →
      exec (.coldStartPhaseEnd t i) s = .next ((((s.advance t).setLink { s.link with coldSent := 0 }).sendCold 1).setElk 2)) ∧
  (∀ (t : Nat) (i : ColdInfo) (s : State) (a : Bool) (b : Bool),
      s.link.stopLeft = 0 →
      s.rd P.ElkState 0 = 2 →
      a = (s.advance t).startsBack i.startA →
      b = (s.advance t).startsBack i.startB →
      (a && b) || (s.rb P.ElkAllowSingle 0 && (a || b)) →
      exec (.coldStartPhaseEnd t i) s = .next (((((((s.advance t).sendStarts.wr P.ElkRingState 0 ((if a then 1 else 0) + (if b then 2 else 0))).setLink { (s.advance t).sendStarts.link with lastRet := [s.time.cycle, s.time.cycle] }).sendCold 2).sendCold 2).sendCold 2).setElk 3)) ∧
  (∀ (t : Nat) (i : ColdInfo) (s : State) (n : Nat),
      s.link.stopLeft = 0 →
      s.rd P.ElkState 0 = 3 →
      s.rd P.ElkRingState 0 ≠ 3 ∨ (s.advance t).addrCount i.addrA = (s.advance t).addrCount i.addrB →
      (if bitOf (s.rd P.ElkRingState 0) 0 then (s.advance t).addrCount i.addrA else (s.advance t).addrCount i.addrB) = some n →
      n ≤ 63 →
      exec (.coldStartPhaseEnd t i) s = .next (((s.advance t).setLink { s.link with
      ringCount := n, found := [], agree := [0, 0], svcOut := [], svc := (List.range n).map fun j => .identify (j + 1) }).setElk 4)) ∧
  (∀ (t : Nat) (i : ColdInfo) (s : State),
      s.link.stopLeft = 0 →
      s.rd P.ElkState 0 = 4 →
      s.link.held = false →
      (s.advance t).cellsFound i.mismatch = true →
      s.rb P.ElkHoldAfterDiscover 0 = true →
      s.ordered →
      ∃ s', exec (.coldStartPhaseEnd t i) s = .next s' ∧ s'.link.held = true ∧ s'.link.discovered = true ∧ s'.rd P.ElkState 0 = 4) ∧
  (∀ (t : Nat) (i : ColdInfo) (s : State),
      s.link.stopLeft = 0 →
      s.rd P.ElkState 0 = 4 →
      s.link.held = false →
      (s.advance t).cellsFound i.mismatch = true →
      s.rb P.ElkHoldAfterDiscover 0 = false →
      s.ordered →
      ∃ s', exec (.coldStartPhaseEnd t i) s = .next s' ∧ s'.link.discovered = true ∧ (s'.rd P.ElkState 0 = 5 ∨ s'.rd P.ElkState 0 = 9)) ∧
  (∀ (t : Nat) (i : ColdInfo) (s : State),
      s.link.stopLeft = 0 →
      s.rd P.ElkState 0 = 5 →
      s.link.svc = [] →
      s.link.svcOut = [] →
      exec (.coldStartPhaseEnd t i) s = .next
      (s.link.loading.foldl (fun (x : State) r => x.complete r 0 x.time.cycle 0 0 0 0) (((s.advance t).setLink { s.link with loading := [] }).setElk 6).announceStart)) ∧
  (∀ (t : Nat) (i : ColdInfo) (s : State),
      s.link.stopLeft = 0 →
      s.rd P.ElkState 0 = 6 →
      (s.advance t).cellsSynced = true →
      exec (.coldStartPhaseEnd t i) s = .next ((((s.advance t).setLink { s.link with svc := [], svcOut := [], recheckAt := s.time.cycle }).setElk 7).endStart 0 0 0)) ∧
  (∀ (t : Nat) (s : State),
      s.link.stopLeft = 0 →
      s.ordered →
      1 ≤ s.rd P.ElkState 0 →
      s.rd P.ElkState 0 ≤ 6 →
      s.link.held = false →
      s.link.phaseTick + (s.advance t).phaseLimit (s.rd P.ElkState 0) ≤ (s.advance t).time.tick →
      ∃ s', exec (.coldStartPhaseTimeout t) s = .next s' ∧ s'.rd P.ElkState 0 = 9 ∧ s'.rd P.ElkActiveMode 0 = 0xFF ∧ s'.rd P.ElkRingState 0 = 0 ∧ s'.link.startReq = none) ∧
  (∀ (t : Nat) (b : List Byte) (s : State) (id : Nat),
      s.ordered →
      2 ≤ s.rd P.ElkState 0 →
      s.rd P.ElkState 0 ≤ 7 →
      ((coldHead 1 b).or (coldHead 2 b)).or (startHead b) = some id →
      id < s.rd P.SysUnitId 0 →
      ∃ s', exec (.foreignHeadFrame t b) s = .next s' ∧ s'.rd P.ElkState 0 = 8 ∧ s'.rd P.ElkRingState 0 = 0) ∧
  (∀ (t : Nat) (b : List Byte) (s : State) (id : Nat),
      s.rd P.ElkState 0 = 1 →
      coldHead 1 b = some id →
      id ≠ s.rd P.SysUnitId 0 →
      exec (.foreignHeadFrame t b) s = .next ((s.advance t).setLink { s.link with foreignTick := (s.advance t).time.tick, foreignId := id }))

/-- What the replies in the service window and a counter poll do: the cases listed. A valid reply (replyValid) with STAT 0 to a waiting
request x, whose SEQ and node it carries and in whose window it comes (answersIn), ends that exchange: for the last node of a mode the
load completes; the last exchange of a join clears the RETIRED bit of the node, whose first slot is then awaited; the counters of a node
become ElkEmptyDown of its two channels; an identity is kept for the Discover phase. With STAT 3 (busy) the request is sent again first;
with another STAT a load ends with final status 0x0503 and its node. A counter poll of one addressed, not retired node in ElkState 7,
not polled before or 1,024 cycles or more ago, adds the exchange that reads its counters (and notes the cycle). A poll of several nodes
polls one after the other (counterPoll), the last one last. Rests on 02_elkob_link.md (parts of R54, R71, R75, R76). -/
def Obligations.ServiceExchangesAct : Prop :=
  (∀ (t : Nat) (ch : Channel) (tau : Int) (b : List Byte) (s : State) (x : SvcSent) (q : Req) (m : Nat) (k : Nat),
      replyValid b = true →
      s.link.svcOut.find? ((s.advance t).answersIn ch ⟨tau, b⟩) = some x →
      fld b 3 1 = 0 →
      x.op = .load q m k →
      (modeNodes (s.mode m)).find? (fun j => decide (k < j)) = none →
      exec (.serviceReplyReceived t ch ⟨tau, b⟩) s = .next (((s.advance t).setLink { s.link with svcOut := s.link.svcOut.erase x }).complete q 0 s.time.cycle 0 0 0 0)) ∧
  (∀ (t : Nat) (ch : Channel) (tau : Int) (b : List Byte) (s : State) (x : SvcSent) (q : Req) (k : Nat),
      replyValid b = true →
      s.link.svcOut.find? ((s.advance t).answersIn ch ⟨tau, b⟩) = some x →
      fld b 3 1 = 0 →
      x.op = .join q k 2 →
      exec (.serviceReplyReceived t ch ⟨tau, b⟩) s = .next (((s.advance t).setLink { s.link with svcOut := s.link.svcOut.erase x, joining := s.link.joining ++ [(q, k)] }).wr P.ElkRetired 0 (setBit (s.rd P.ElkRetired 0) k false))) ∧
  (∀ (t : Nat) (ch : Channel) (tau : Int) (b : List Byte) (s : State) (x : SvcSent) (k : Nat),
      replyValid b = true →
      s.link.svcOut.find? ((s.advance t).answersIn ch ⟨tau, b⟩) = some x →
      fld b 3 1 = 0 →
      x.op = .counters k →
      exec (.serviceReplyReceived t ch ⟨tau, b⟩) s = .next ((((s.advance t).setLink { s.link with svcOut := s.link.svcOut.erase x }).wr P.ElkEmptyDown k (fldBE (slice b 7 (fld b 6 1)) 0 4)).wr P.ElkEmptyDown (k + 64) (fldBE (slice b 7 (fld b 6 1)) 4 4))) ∧
  (∀ (t : Nat) (ch : Channel) (tau : Int) (b : List Byte) (s : State) (x : SvcSent) (k : Nat),
      replyValid b = true →
      s.link.svcOut.find? ((s.advance t).answersIn ch ⟨tau, b⟩) = some x →
      fld b 3 1 = 0 →
      x.op = .identify k →
      exec (.serviceReplyReceived t ch ⟨tau, b⟩) s = .next ((s.advance t).setLink { s.link with svcOut := s.link.svcOut.erase x, found := tabSet s.link.found [] k (slice b 7 (fld b 6 1)) })) ∧
  (∀ (t : Nat) (ch : Channel) (tau : Int) (b : List Byte) (s : State) (x : SvcSent),
      replyValid b = true →
      s.link.svcOut.find? ((s.advance t).answersIn ch ⟨tau, b⟩) = some x →
      fld b 3 1 = 3 →
      exec (.serviceReplyReceived t ch ⟨tau, b⟩) s = .next ((s.advance t).setLink { s.link with svcOut := s.link.svcOut.erase x, svc := x.op :: s.link.svc })) ∧
  (∀ (t : Nat) (ch : Channel) (tau : Int) (b : List Byte) (s : State) (x : SvcSent) (q : Req) (m : Nat) (k : Nat),
      replyValid b = true →
      s.link.svcOut.find? ((s.advance t).answersIn ch ⟨tau, b⟩) = some x →
      fld b 3 1 ≠ 0 →
      fld b 3 1 ≠ 3 →
      x.op = .load q m k →
      exec (.serviceReplyReceived t ch ⟨tau, b⟩) s = .next (((s.advance t).setLink { s.link with svcOut := s.link.svcOut.erase x }).complete q 0 0xFFFFFFFF 0x0503 0 k 0)) ∧
  (∀ (t : Nat) (k : Nat) (s : State),
      1 ≤ k →
      k ≤ 63 →
      s.rd P.ElkState 0 = 7 →
      s.addressed k = true →
      s.retired k = false →
      (s.node k).polled = 0 ∨ 1024 ≤ cycDiff (s.node k).polled (s.time.cycle + 1) →
      exec (.cellCounterPoll t k 1) s = .next (((s.advance t).setNode k { s.node k with polled := s.time.cycle + 1 }).setLink
      { (s.setNode k { s.node k with polled := s.time.cycle + 1 }).link with svc := s.link.svc ++ [SvcOp.counters k] })) ∧
  (∀ (t : Nat) (k : Nat) (n : Nat) (s : State),
      1 ≤ k →
      k + n ≤ 63 →
      exec (.cellCounterPoll t k (n + 1)) s = .next (((List.range n).foldl (fun x i => x.counterPoll (k + i)) (s.advance t)).counterPoll (k + n)))

/-- What ring events, delay measurements and the recheck do: the cases listed. ElkState is 4 to 7 for a ring that opens or closes. A closed
channel whose own cycle-start frame has not come back for 4 cycles opens: its closed and settling bits clear and its event is raised. An
open channel that closes sets both bits, and settling lasts 64 cycles from now. After them the settling bit clears. The 16th consecutive
cycle of disagreement raises the event, once. The recheck in ElkState 7, 1,024 cycles or more after the last, raises its event for a
measured channel that fails and raises none where none fails; it notes its cycle. An echo marker joins the latest 16 round trips of its
channel, whose mean gives h_1 (echoHop) once node 1 has been identified; before that only the round trip is kept. A cycle-start frame
that comes back valid (returnValid) gives D of its channel, and counts a cycle in which D and the PATHDLY it carries differ by more than
20 ns, or do not; in ElkState 5 to 7 it gives the last hop too. Rests on 02_elkob_link.md (parts of R44, R56, R68). -/
def Obligations.RingEventsAct : Prop :=
  (∀ (t : Nat) (ch : Channel) (s : State),
      4 ≤ s.rd P.ElkState 0 →
      s.rd P.ElkState 0 ≤ 7 →
      bitOf (s.rd P.ElkRingState 0) (chNum ch) = true →
      4 ≤ cycDiff (s.link.lastRet.getD (chNum ch) 0) s.time.cycle →
      exec (.ringOpen t ch) s = .next ((((s.advance t).wrBit P.ElkRingState 0 (chNum ch) false).wrBit P.ElkRingState 0 (chNum ch + 2) false).raise
      (if chNum ch = 0 then E.ringOpenA else E.ringOpenB) (chNum ch) [])) ∧
  (∀ (t : Nat) (ch : Channel) (s : State),
      4 ≤ s.rd P.ElkState 0 →
      s.rd P.ElkState 0 ≤ 7 →
      bitOf (s.rd P.ElkRingState 0) (chNum ch) = false →
      exec (.ringClosed t ch) s = .next ((((s.advance t).wrBit P.ElkRingState 0 (chNum ch) true).wrBit P.ElkRingState 0 (chNum ch + 2) true).setLink { s.link with
      lastRet := s.link.lastRet.set (chNum ch) s.time.cycle, settleTo := s.link.settleTo.set (chNum ch) ((s.time.cycle + 64) % 2 ^ 32) })) ∧
  (∀ (t : Nat) (ch : Channel) (s : State),
      bitOf (s.rd P.ElkRingState 0) (chNum ch + 2) = true →
      0 ≤ cycDiff (s.link.settleTo.getD (chNum ch) 0) s.time.cycle →
      exec (.ringSettled t ch) s = .next ((s.advance t).wrBit P.ElkRingState 0 (chNum ch + 2) false)) ∧
  (∀ (t : Nat) (ch : Channel) (s : State),
      s.link.disagree.getD (chNum ch) 0 = 16 →
      exec (.ringDelayDisagreement t ch) s = .next (((s.advance t).setLink { s.link with disagree := s.link.disagree.set (chNum ch) 17 }).raise E.ringDelayDisagreement (chNum ch) [])) ∧
  (∀ (t : Nat) (ch : Channel) (s : State),
      s.rd P.ElkState 0 = 7 →
      1024 ≤ cycDiff s.link.recheckAt s.time.cycle →
      ((s.advance t).setLink { s.link with recheckAt := s.time.cycle }).measuredChans = [ch] →
      (((s.advance t).setLink { s.link with recheckAt := s.time.cycle }).checks456 ((s.advance t).setLink { s.link with recheckAt := s.time.cycle }).activeMode ((List.range 64).filter s.retired) [] ch).isSome = true →
      exec (.scheduleRecheck t) s = .next (((s.advance t).setLink { s.link with recheckAt := s.time.cycle }).raise E.scheduleMarginLost (chNum ch) [])) ∧
  (∀ (t : Nat) (s : State),
      s.rd P.ElkState 0 = 7 →
      1024 ≤ cycDiff s.link.recheckAt s.time.cycle →
      ((s.advance t).setLink { s.link with recheckAt := s.time.cycle }).measuredChans.all (fun ch => (((s.advance t).setLink { s.link with recheckAt := s.time.cycle }).checks456 ((s.advance t).setLink { s.link with recheckAt := s.time.cycle }).activeMode ((List.range 64).filter s.retired) [] ch).isNone) = true →
      exec (.scheduleRecheck t) s = .next ((s.advance t).setLink { s.link with recheckAt := s.time.cycle })) ∧
  (∀ (t : Nat) (ch : Channel) (d : Nat) (s : State),
      s.firstIdent ≠ [] →
      exec (.echoMarkerReceived t ch d) s = .next (((s.advance t).setLink { s.link with echo := s.link.echo.set (chNum ch) ((d :: s.link.echo.getD (chNum ch) []).take 16) }).wrF
      P.ElkHopDelay (chInst ch 1) (((s.advance t).setLink { s.link with echo := s.link.echo.set (chNum ch) ((d :: s.link.echo.getD (chNum ch) []).take 16) }).echoHop ((d :: s.link.echo.getD (chNum ch) []).take 16)))) ∧
  (∀ (t : Nat) (ch : Channel) (d : Nat) (s : State),
      s.firstIdent = [] →
      exec (.echoMarkerReceived t ch d) s = .next ((s.advance t).setLink { s.link with echo := s.link.echo.set (chNum ch) ((d :: s.link.echo.getD (chNum ch) []).take 16) })) ∧
  (∀ (t : Nat) (ch : Channel) (d : Nat) (b : List Byte) (s : State) (s1 : State),
      (s.advance t).returnValid ch d b = true →
      s1 = ((s.advance t).setLink { s.link with
      lastRet := s.link.lastRet.set (chNum ch) s.time.cycle,
      disagree := s.link.disagree.set (chNum ch) (runOn (decide (absR (mkRat d 65536 - (fldBE b 35 2 : Nat)) > 20)) (s.link.lastRet.getD (chNum ch) 0) s.time.cycle (s.link.disagree.getD (chNum ch) 0) 17),
      agree := s.link.agree.set (chNum ch) (runOn (!decide (absR (mkRat d 65536 - (fldBE b 35 2 : Nat)) > 20)) (s.link.lastRet.getD (chNum ch) 0) s.time.cycle (s.link.agree.getD (chNum ch) 0) 64) }).wrF
        P.ElkRingDelay (chNum ch) (mkRat d 65536) →
      exec (.cycleStartFrameReturned t ch d b) s = .next (if 5 ≤ s1.rd P.ElkState 0 then s1.wrF P.ElkHopDelay (chInst ch (s.link.ringCount + 1)) (max 0 (mkRat d 65536 - s1.delayOf ch s.link.ringCount)) else s1))

/-- What slots, place frames, sample and update instants, local feedback, engine jobs and the reload instant do: the cases listed. The
events of a cycle. The first valid slot copy (slotValid) of a present, not retired node on a channel that does not settle, in ElkState 4
to 7 with the island of the link not halted, is taken: Ubus and LSAFE of the node are the copy's, and the cycle is noted. At its place
(placeDue) the frame of an addressed, not retired node goes out in ElkState 7 with the edge records of the cycle when its slot has been
taken and every enabled axis has its command; when the slot has not been taken the place stays empty and ElkNotReady of each of its axes
increments; while LinkStop ends the link the frame carries HALT and records of KIND OFF. A sample instant begins the next cycle unless
the island of the timebase is halted: the cycle count rises by 1 modulo 2^32 and the sample lies where it was due. The update instant,
unless the island of the timebase or of the front end is halted, gives each of the 12 local pairs its edge set. The reload instant takes
each load-all that is due. A local transfer is received (portReceive) and becomes the sample of instance 128 + port, and latch units,
masters and compare units on it follow; where A and B changed in one tick the counter takes a free value. The first ready job, unless
the island of the engine is halted, leaves the ready jobs and joins the lane with the fewest jobs, if fewer than 16 axis jobs, or 8
front-end jobs, are under way; the job that follows a front-end job becomes ready when it ends. Rests on 00_scope.md,
01_architecture.md, 02_elkob_link.md, 03_feedback.md, 05_control_loops.md, 09_modulation.md (parts of R13, R20, R23, R49, R53, R61, R78,
R132, R244, R255). -/
def Obligations.CycleEventsAct : Prop :=
  (∀ (t : Nat) (ch : Channel) (k : Nat) (tau : Int) (b : List Byte) (s : State),
      1 ≤ k →
      k ≤ 63 →
      bitOf s.mod.halted 3 = false →
      4 ≤ s.rd P.ElkState 0 →
      s.rd P.ElkState 0 ≤ 7 →
      modePresent s.activeMode k = true →
      s.retired k = false →
      (s.advance t).slotValid ch k tau b = true →
      bitOf (s.rd P.ElkRingState 0) (2 + chNum ch) = false →
      (s.node k).taken ≠ s.time.cycle + 1 →
      tabSorted none s.link.nodes = true →
      ∃ s', exec (.upstreamSlotReceived t ch k tau b) s = .next s' ∧ (s'.node k).taken = s.time.cycle + 1 ∧ (s'.node k).ubus = fldBE b 4 2 ∧
      (s'.node k).lsafe = bitOf (fld b 0 1) 3 ∧ s'.link.modes = s.link.modes) ∧
  (∀ (t : Nat) (k : Nat) (s : State),
      1 ≤ k →
      k ≤ 63 →
      s.mod.halted = 0 →
      s.link.stopLeft = 0 →
      s.rd P.ElkState 0 = 7 →
      (s.advance t).placeDue k = true →
      s.addressed k = true →
      s.retired k = false →
      (s.node k).taken = s.time.cycle + 1 →
      tabSorted none s.link.nodes = true →
      (s.nodeAxes k).all (fun x => !s.axisOn x || (s.axis x).cmdCycle == s.time.cycle + 1) = true →
      exec (.placeFrameSend t k) s = .next (((s.advance t).setNode k { s.node k with placed := s.time.cycle + 1 }).sendPlace (placeFrame (if s.placeRun k ≠ 0 ∧ (s.node k).lsafe then 8 else 0) k (s.time.cycle % 256) (s.placeRun k) (s.placeRecs k false)))) ∧
  (∀ (t : Nat) (k : Nat) (s : State),
      1 ≤ k →
      k ≤ 63 →
      s.mod.halted = 0 →
      s.link.stopLeft = 0 →
      s.rd P.ElkState 0 = 7 →
      (s.advance t).placeDue k = true →
      s.addressed k = true →
      s.retired k = false →
      (s.node k).taken ≠ s.time.cycle + 1 →
      s.nodeAxes k ≠ [] →
      tabSorted none s.link.nodes = true →
      exec (.placeFrameSend t k) s = .next ((s.nodeAxes k).foldl (fun (s : State) x => s.inc P.ElkNotReady x) ((s.advance t).setNode k { s.node k with placed := s.time.cycle + 1 }))) ∧
  (∀ (t : Nat) (k : Nat) (s : State),
      1 ≤ k →
      k ≤ 63 →
      bitOf s.mod.halted 3 = false →
      0 < s.link.stopLeft →
      s.rd P.ElkState 0 = 7 →
      (s.advance t).placeDue k = true →
      s.addressed k = true →
      s.retired k = false →
      exec (.placeFrameSend t k) s = .next (((s.advance t).setNode k { s.node k with placed := s.time.cycle + 1 }).sendPlace (placeFrame 16 k (s.time.cycle % 256) 0 (s.placeRecs k true)))) ∧
  (∀ (t : Nat) (s : State),
      bitOf s.mod.halted 0 = false →
      ∃ s', exec (.sampleInstant t) s = .next s' ∧ s'.time.cycle = (s.time.cycle + 1) % 2 ^ 32 ∧ s'.time.lastS = s.time.nextS ∧ s'.time.tick = (s.advance t).time.tick ∧ s'.time.lt = (s.advance t).time.lt) ∧
  (∀ (t : Nat) (s : State),
      bitOf s.mod.halted 0 = false →
      bitOf s.mod.halted 2 = false →
      exec (.updateInstant t) s = .next ((List.range 12).foldl (fun (s : State) n => s.gpUpdate n (s.feCurrent n)) (s.advance t))) ∧
  (∀ (t : Nat) (s : State),
      exec (.loadAllReload t) s = .next (s.advance t).loadAllReload.tripsNow) ∧
  (∀ (t : Nat) (p : Nat) (f : LocalFb) (s : State),
      p < 8 →
      ((s.advance t).portReceive (128 + p) f).1.ambig = false →
      exec (.localFeedbackSample t p f) s = .next ((((s.advance t).setFb (128 + p) { s.fbk (128 + p) with
      port := ((s.advance t).portReceive (128 + p) f).2, ack := ((s.advance t).portReceive (128 + p) f).1.ack.getD (s.fbk (128 + p)).ack }).fbSample (128 + p)
      { raw := ((s.advance t).portReceive (128 + p) f).1.raw, wire := (s.advance t).portBroken p f, err := ((s.advance t).portReceive (128 + p) f).1.err, empty := false }).fbFollow (128 + p))) ∧
  (∀ (t : Nat) (p : Nat) (f : LocalFb) (s : State),
      p < 8 →
      ((s.advance t).portReceive (128 + p) f).1.ambig = true →
      exec (.localFeedbackSample t p f) s = .next (((((s.advance t).takeFree 5).2.setFb (128 + p) { s.fbk (128 + p) with
      port := { ((s.advance t).portReceive (128 + p) f).2 with cnt := ((s.advance t).takeFree 5).1 },
      ack := ((s.advance t).portReceive (128 + p) f).1.ack.getD (s.fbk (128 + p)).ack }).fbSample (128 + p)
      { raw := ((s.advance t).portReceive (128 + p) f).1.raw, wire := (s.advance t).portBroken p f, err := ((s.advance t).portReceive (128 + p) f).1.err, empty := false }).fbFollow (128 + p))) ∧
  (∀ (t : Nat) (j : Job) (s : State),
      bitOf s.mod.halted 1 = false →
      firstJob (s.eng.ready.filter fun j => decide (j.tick ≤ (s.advance t).time.tick)) = some j →
      ((s.eng.lanes.map fun l => l.filter (fun x => decide (engClock (s.advance t).time.tick < x.fin))).flatten.filter (·.fe == j.fe)).length < (if j.fe then 8 else 16) →
      ∃ s' job, exec (.engineJobDispatch t) s = .next s' ∧ s'.eng.ready = s.eng.ready.erase j ++ feNext j (clockTick job.fin) ∧ job.fe = j.fe ∧
      s'.eng.lanes = (s.eng.lanes.map fun l => l.filter (fun x => decide (engClock (s.advance t).time.tick < x.fin))).set (bestLane ((s.eng.lanes.map fun l => l.filter (fun x => decide (engClock (s.advance t).time.tick < x.fin))).map List.length)) ((s.eng.lanes.map fun l => l.filter (fun x => decide (engClock (s.advance t).time.tick < x.fin))).getD (bestLane ((s.eng.lanes.map fun l => l.filter (fun x => decide (engClock (s.advance t).time.tick < x.fin))).map List.length)) [] ++ [job]))

/-- What feedback time-outs, missing marks, latch records and the latch requests do: the cases listed. Axes are 0 to 127, feedback instances
0 to 135, latch units 0 to 63. An enabled axis whose following error has been above its limit for k + 1 samples, k the whole samples in
MonFollowErrTime rounded up, gets the condition with the event and the action MonFollowErrAction. An axis that meets the freeze
condition (frozen) and has FREEZE not yet latched: FREEZE is set and latched, VALID and SPEEDVALID clear, FbSpeed 0. An initialised
instance whose last edge lies FbZeroSpeedTime or more before the latest sample instant, which it has been sampled at: STANDSTILL set,
SPEEDVALID clear, FbSpeed and the estimate 0. An engaged axis with a registration latch whose master has travelled CplRegMissLimit
periods without a mark: REGMISS set, CplRegMissed increments, its event is raised, and the count of travel starts anew. A trigger of a
unit no coupling names, caught while armed, not too old, whose positions are held and which passes the window: in continuous mode with
fewer than 8 records the record joins the store and LatCaptures increments; in single mode the trigger's stamp disarms the unit besides;
with 8 records held in continuous mode the record is lost: LatLost increments, the overflow bit is set and its event raised; outside the
window LatRejected increments and no record forms. A caught trigger that is too old (latOld) is lost and counted in LatLost. A trigger
of a unit that a coupling names leaves no record in the store. LatchRead of a unit no coupling names, N from 1 to 8, answers the count
and the N oldest records, or all, and removes them; the overflow bit clears. LatchFlush empties the store. Rests on 03_feedback.md,
04_latch_compare_emulation.md, 08_gearing_cams_paths.md (parts of R91, R92, R96, R97, R101, R102, R111, R113, R225). -/
def Obligations.FeedbackAndLatchCommandsAct : Prop :=
  (∀ (t : Nat) (x : Nat) (s : State),
      x < 128 →
      s.axisOn x = true →
      (s.rf P.MonFollowErrTime x * 1000000 / s.cycleNs).ceil.toNat + 1 ≤ (s.fbk x).follow →
      exec (.followingErrorTimeout t x) s = .next ((s.advance t).monCond x fbFOLLOW true E.followingError (s.rd P.MonFollowErrAction x))) ∧
  (∀ (t : Nat) (x : Nat) (s : State),
      s.ordered →
      x < 128 →
      (s.advance t).frozen x (s.fbk x).frz = true →
      bitOf (s.rd P.FbLatched x) fbFREEZE = false →
      ∃ s', exec (.feedbackFreeze t x) s = .next s' ∧ bitOf (s'.rd P.FbState x) fbFREEZE = true ∧ bitOf (s'.rd P.FbState x) fbVALID = false ∧
      bitOf (s'.rd P.FbState x) fbSPEEDVALID = false ∧ bitOf (s'.rd P.FbLatched x) fbFREEZE = true ∧ s'.rp P.FbSpeed x = 0) ∧
  (∀ (t : Nat) (i : Nat) (e : HistEntry) (s : State),
      s.ordered →
      i < 136 →
      (s.fbk i).ready = true →
      (s.fbk i).tRef + (s.rf P.FbZeroSpeedTime i * 1000000).ceil.toNat ≤ s.time.lastS →
      (tabGet s.hist [] i).head? = some e →
      e.sNs = s.time.lastS →
      ∃ s', exec (.standstillTimeout t i) s = .next s' ∧ bitOf (s'.rd P.FbState i) fbSTANDSTILL = true ∧ bitOf (s'.rd P.FbState i) fbSPEEDVALID = false ∧ s'.rp P.FbSpeed i = 0 ∧
      s'.fb = tabSet s.fb FbRec.init i { s.fbk i with v := 0, nSame := 0 }) ∧
  (∀ (t : Nat) (x : Nat) (s : State),
      x < 128 →
      (s.cplr x).engaged = true →
      s.rd P.CplRegLatch x ≠ 0xFF →
      (s.rd P.CplRegMissLimit x : Int) * s.rp P.CplRegPeriod x ≤ (s.cplr x).missed →
      exec (.registrationMarkMissing t x) s = .next (((((s.advance t).setCpl x { s.cplr x with missed := 0 }).wrBit P.CplState x cREGMISS true).inc P.CplRegMissed x).raise E.registrationMarkMissing x [])) ∧
  (∀ (t : Nat) (u : Nat) (x : LatTrig) (p : Int) (fl : Nat) (cyc : Nat) (s : State),
      u < 64 →
      s.ordered →
      (List.range 128).all (fun x => s.rd P.CplRegLatch x != u) = true →
      (s.latch u).trigs.find? (fun x => ((s.advance t).latValue u x).isSome || (s.advance t).latOld u x.stamp) = some x →
      (s.latch u).caught x.stamp = true →
      (s.advance t).latOld u x.stamp = false →
      (s.advance t).latValue u x = some (p, fl, cyc) →
      (bitOf fl 7 || (s.advance t).latWindow u x.stamp p) = true →
      s.rd P.LatMode u = 1 →
      (s.latch u).fifo.length < 8 →
      exec (.latchRecordForm t u) s = .next (((s.advance t).inc P.LatCaptures u).setLatch u { s.latch u with
      trigs := (s.latch u).trigs.erase x, fifo := (s.latch u).fifo ++ [latRecord u x.stamp fl ((s.rd P.LatCaptures u + 1) % 2 ^ 32) p cyc] })) ∧
  (∀ (t : Nat) (u : Nat) (x : LatTrig) (p : Int) (fl : Nat) (cyc : Nat) (s : State),
      u < 64 →
      s.ordered →
      (List.range 128).all (fun x => s.rd P.CplRegLatch x != u) = true →
      (s.latch u).trigs.find? (fun x => ((s.advance t).latValue u x).isSome || (s.advance t).latOld u x.stamp) = some x →
      (s.latch u).caught x.stamp = true →
      (s.advance t).latOld u x.stamp = false →
      (s.advance t).latValue u x = some (p, fl, cyc) →
      (bitOf fl 7 || (s.advance t).latWindow u x.stamp p) = true →
      s.rd P.LatMode u = 0 →
      (s.latch u).fifo.length < 8 →
      exec (.latchRecordForm t u) s = .next (((s.advance t).inc P.LatCaptures u).setLatch u { (({ s.latch u with trigs := (s.latch u).trigs.erase x } : LatRec).single x.stamp) with fifo := (s.latch u).fifo ++ [latRecord u x.stamp fl ((s.rd P.LatCaptures u + 1) % 2 ^ 32) p cyc] })) ∧
  (∀ (t : Nat) (u : Nat) (x : LatTrig) (p : Int) (fl : Nat) (cyc : Nat) (s : State),
      u < 64 →
      s.ordered →
      (List.range 128).all (fun x => s.rd P.CplRegLatch x != u) = true →
      (s.latch u).trigs.find? (fun x => ((s.advance t).latValue u x).isSome || (s.advance t).latOld u x.stamp) = some x →
      (s.latch u).caught x.stamp = true →
      (s.advance t).latOld u x.stamp = false →
      (s.advance t).latValue u x = some (p, fl, cyc) →
      (bitOf fl 7 || (s.advance t).latWindow u x.stamp p) = true →
      s.rd P.LatMode u = 1 →
      8 ≤ (s.latch u).fifo.length →
      exec (.latchRecordForm t u) s = .next ((((((s.advance t).inc P.LatCaptures u).setLatch u { s.latch u with trigs := (s.latch u).trigs.erase x }).inc P.LatLost u).wrBit P.LatState u 2 true).raise E.latchOverflow u [])) ∧
  (∀ (t : Nat) (u : Nat) (x : LatTrig) (p : Int) (fl : Nat) (cyc : Nat) (s : State),
      u < 64 →
      (List.range 128).all (fun x => s.rd P.CplRegLatch x != u) = true →
      (s.latch u).trigs.find? (fun x => ((s.advance t).latValue u x).isSome || (s.advance t).latOld u x.stamp) = some x →
      (s.latch u).caught x.stamp = true →
      (s.advance t).latOld u x.stamp = false →
      (s.advance t).latValue u x = some (p, fl, cyc) →
      bitOf fl 7 = false →
      (s.advance t).latWindow u x.stamp p = false →
      exec (.latchRecordForm t u) s = .next (((s.advance t).setLatch u { s.latch u with trigs := (s.latch u).trigs.erase x }).inc P.LatRejected u)) ∧
  (∀ (t : Nat) (u : Nat) (x : LatTrig) (s : State),
      u < 64 →
      (List.range 128).all (fun x => s.rd P.CplRegLatch x != u) = true →
      (s.latch u).trigs.find? (fun x => ((s.advance t).latValue u x).isSome || (s.advance t).latOld u x.stamp) = some x →
      (s.latch u).caught x.stamp = true →
      (s.advance t).latOld u x.stamp = true →
      exec (.latchRecordForm t u) s = .next (((s.advance t).setLatch u { s.latch u with trigs := (s.latch u).trigs.erase x }).inc P.LatLost u)) ∧
  (∀ (t : Nat) (u : Nat) (s : State),
      u < 64 →
      (List.range 128).any (fun x => s.rd P.CplRegLatch x == u) = true →
      tabSorted none s.lat = true →
      ∃ s', exec (.latchRecordForm t u) s = .next s' ∧ (s'.latch u).fifo = []) ∧
  (∀ (t : Nat) (q : Req) (s : State),
      Served 0x0401 q s →
      1 ≤ fld q.body 0 1 →
      fld q.body 0 1 ≤ 8 →
      (List.range 128).all (fun x => s.rd P.CplRegLatch x != q.inst) = true →
      Answers (.latchRead t q) s q 0 (leBytes 1 ((s.latch q.inst).fifo.take (fld q.body 0 1)).length ++ [0, 0, 0] ++ ((s.latch q.inst).fifo.take (fld q.body 0 1)).flatten) (((s.advance t).setLatch q.inst { s.latch q.inst with fifo := (s.latch q.inst).fifo.drop (fld q.body 0 1) }).wrBit P.LatState q.inst 2 false)) ∧
  (∀ (t : Nat) (q : Req) (s : State),
      Served 0x0402 q s →
      Answers (.latchFlush t q) s q 0 ([]) ((s.advance t).setLatch q.inst { s.latch q.inst with fifo := [] }))

/-- AxisEnable, AxisDisable, the stepper hold delay and the gain-map requests: the cases listed. A target that meets its deadline is one for
which late is false; a commit is stored for its target cycle and answered 0x0102 with its CR block. AxisEnable is stored as a commit in
ElkState 7 for an axis without a hold reason that is ready (notReady 0) and whose node, where its identity is known, has the pairs its
motor type needs. AxisDisable is stored as a commit for any axis. A running axis in stepper mode whose velocity set-point is 0 and has
been for StepHoldDelay goes to the hold current. GainMapLoad of a map that passes its checks, with no GainMapCommit of the axis pending,
makes it the shadow map, and GmState says whether shadow and active map differ; where the axis belongs to an open staged set the map
joins the set besides. GainMapCommit of a loaded map is stored as a commit while no commit of that map is pending, alone or in a set.
GainMapOff is stored as a commit. GainMapRead answers the shadow map or the active one, as its flag asks. Rests on 05_control_loops.md,
06_gain_scheduling.md (parts of R147, R153, R154, R169, R172, R174, R175). -/
def Obligations.AxisAndGainMapCommandsAct : Prop :=
  (∀ (t : Nat) (q : Req) (s : State),
      Served 0x0501 q s →
      (s.advance t).late q.body 0 = false →
      (s.rd P.LoopMotorType q.inst ≠ 0 → s.ident (s.axisNode q.inst) ≠ [] → s.axisPairs q.inst = motorPairs (s.rd P.LoopMotorType q.inst)) →
      s.rd P.AxisHoldReason q.inst = 0 →
      s.notReady q.inst = 0 →
      s.rd P.ElkState 0 = 7 →
      Commits (.axisEnable t q) s q ((s.advance t).tgt q.body 0) ((s.advance t))) ∧
  (∀ (t : Nat) (q : Req) (s : State),
      Served 0x0502 q s →
      (s.advance t).late q.body 0 = false →
      Commits (.axisDisable t q) s q ((s.advance t).tgt q.body 0) ((s.advance t))) ∧
  (∀ (t : Nat) (x : Nat) (s : State),
      x < 128 →
      s.axisRuns x = true →
      s.effMode x = 4 →
      (s.axis x).vsp = 0 →
      s.rf P.StepHoldDelay x * 1000000 ≤ (s.axis x).stepTicks →
      exec (.stepHoldDelay t x) s = .next ((s.advance t).setAxis x { s.axis x with stepHold := true })) ∧
  (∀ (t : Nat) (q : Req) (s : State),
      Served 0x0510 q s →
      mapCheck q.body = 0 →
      s.hasCommit 0x0511 q.inst = false →
      s.axisStage q.inst = none →
      Answers (.gainMapLoad t q) s q 0 ([]) (((s.advance t).setGm q.inst { s.gmap q.inst with shadow := q.body, loaded := true }).gmStaged q.inst)) ∧
  (∀ (t : Nat) (q : Req) (s : State) (g : Staged),
      Served 0x0510 q s →
      mapCheck q.body = 0 →
      s.hasCommit 0x0511 q.inst = false →
      s.axisStage q.inst = some g →
      g.pending = none →
      Answers (.gainMapLoad t q) s q 0 ([]) ((((s.advance t).setGm q.inst { s.gmap q.inst with shadow := q.body, loaded := true }).joinSet g (mapKey q.inst)).gmStaged q.inst)) ∧
  (∀ (t : Nat) (q : Req) (s : State),
      Served 0x0511 q s →
      (s.advance t).late q.body 0 = false →
      s.hasCommit 0x0511 q.inst = false →
      ((s.axisStage q.inst).all fun g => g.pending.isNone || !g.keys.contains (mapKey q.inst)) = true →
      (s.gmap q.inst).loaded = true →
      Commits (.gainMapCommit t q) s q ((s.advance t).tgt q.body 0) ((s.advance t))) ∧
  (∀ (t : Nat) (q : Req) (s : State),
      Served 0x0512 q s →
      (s.advance t).late q.body 0 = false →
      Commits (.gainMapOff t q) s q ((s.advance t).tgt q.body 0) ((s.advance t))) ∧
  (∀ (t : Nat) (q : Req) (s : State),
      Served 0x0513 q s →
      Answers (.gainMapRead t q) s q 0 (if bitOf (fld q.body 0 1) 0 then (s.gmap q.inst).shadow else (s.gmap q.inst).act) ((s.advance t)))

/-- Moves, stops, homing and queue requests where they are accepted: the cases listed. A move condition is: the axis runs, its queue does
not run, TrjSource is 0. A commit is stored for its target cycle, which meets its deadline, and answered 0x0102. MoveAbs is a commit on
the move condition with its own limits and its target in range; MoveRel likewise, stored with its distance added to TrjTarget as the
target; MoveJog with a finite speed and its other limits in range; MoveStop on a running axis, whatever it does; MoveHome on the move
condition where methods 1 and 3 have feedback type 1 and methods 2 and 3 an input and edge no latch unit uses; MoveTest on the move
condition with a finite dwell of at least 0, its limits and both targets in range; MoveResume on the move condition with RESUMABLE set
and MonVerdict other than 1; QueueStart on the move condition. QueueAppend of 1 to 16 entries with finite end speeds of at least 0,
limits and targets in range, for which the queue has room, is answered as a commit for the next cycle and appends them: to the 16
entries the trajectory section holds as far as they fit, the rest spills; behind entries that have spilled they spill too. QueueClear of
a queue that does not run empties it and clears QPAUSED; where no single move was interrupted, RESUMABLE too. A refill, unless the
memory interface of the section is halted, brings spilled entries of an axis back until the section holds 16; those of a path group
likewise; one that meets an uncorrectable word discards the entries of the axis (queueDiscard). A homing under way fails (homeFail) when
it has travelled HomeMaxDistance in phase 1 or 2, at a position limit, or with the axis stopped. Rests on 07_setpoints_profiles.md
(parts of R188, R191, R192, R193, R194, R195, R198, R199, R200, R203). -/
def Obligations.MotionRequestsComplete : Prop :=
  (∀ (t : Nat) (q : Req) (s : State),
      Served 0x0601 q s →
      (s.advance t).limsBad q.inst (moveOwn q.body 8) = false →
      (s.advance t).beyond q.inst (fldI q.body 0 8) = false →
      (s.advance t).late q.body 28 = false →
      s.axisRuns q.inst = true →
      s.queueRuns q.inst = false →
      s.rd P.TrjSource q.inst = 0 →
      Commits (.moveAbs t q) s q ((s.advance t).tgt q.body 28) ((s.advance t))) ∧
  (∀ (t : Nat) (q : Req) (s : State),
      Served 0x0602 q s →
      (s.advance t).limsBad q.inst (moveOwn q.body 8) = false →
      (s.advance t).beyond q.inst (s.rp P.TrjTarget q.inst + fldI q.body 0 8) = false →
      (s.advance t).late q.body 28 = false →
      s.axisRuns q.inst = true →
      s.queueRuns q.inst = false →
      s.rd P.TrjSource q.inst = 0 →
      Answers (.moveRel t q) s q 0x0102 (crBytes ((s.advance t).tgt q.body 28) s.par.nextId)
      ((s.advance t).withCommit { q with body := patch q.body 0 (leBytes 8 (uNat 64 (s.rp P.TrjTarget q.inst + fldI q.body 0 8))) } ((s.advance t).tgt q.body 28))) ∧
  (∀ (t : Nat) (q : Req) (s : State),
      Served 0x0603 q s →
      f32Finite (fld q.body 0 4) = true →
      (s.advance t).limsBad q.inst (0 :: (moveOwn q.body 0).tail) = false →
      (s.advance t).late q.body 16 = false →
      s.axisRuns q.inst = true →
      s.queueRuns q.inst = false →
      s.rd P.TrjSource q.inst = 0 →
      Commits (.moveJog t q) s q ((s.advance t).tgt q.body 16) ((s.advance t))) ∧
  (∀ (t : Nat) (q : Req) (s : State),
      Served 0x0604 q s →
      (s.advance t).late q.body 4 = false →
      s.axisRuns q.inst = true →
      Commits (.moveStop t q) s q ((s.advance t).tgt q.body 4) ((s.advance t))) ∧
  (∀ (t : Nat) (q : Req) (s : State),
      Served 0x0605 q s →
      ((s.rd P.HomeMethod q.inst = 1 ∨ s.rd P.HomeMethod q.inst = 3) → s.rd P.FbType q.inst = 1) →
      ((s.rd P.HomeMethod q.inst = 2 ∨ s.rd P.HomeMethod q.inst = 3) → (s.advance t).latchUses (s.rd P.HomeInput q.inst) (s.rd P.HomeEdge q.inst) = false) →
      (s.advance t).late q.body 0 = false →
      s.axisRuns q.inst = true →
      s.queueRuns q.inst = false →
      s.rd P.TrjSource q.inst = 0 →
      Commits (.moveHome t q) s q ((s.advance t).tgt q.body 0) ((s.advance t))) ∧
  (∀ (t : Nat) (q : Req) (s : State),
      Served 0x0606 q s →
      f32Finite (fld q.body 20 4) = true →
      0 ≤ f32ToRat (fld q.body 20 4) →
      (s.advance t).limsBad q.inst (moveOwn q.body 24) = false →
      (s.advance t).beyond q.inst (fldI q.body 0 8) = false →
      (s.advance t).beyond q.inst (fldI q.body 8 8) = false →
      (s.advance t).late q.body 40 = false →
      s.axisRuns q.inst = true →
      s.queueRuns q.inst = false →
      s.rd P.TrjSource q.inst = 0 →
      Commits (.moveTest t q) s q ((s.advance t).tgt q.body 40) ((s.advance t))) ∧
  (∀ (t : Nat) (q : Req) (s : State),
      Served 0x0607 q s →
      (s.advance t).late q.body 0 = false →
      s.rd P.MonVerdict q.inst ≠ 1 →
      s.tBit q.inst tRESUMABLE = true →
      s.axisRuns q.inst = true →
      s.queueRuns q.inst = false →
      s.rd P.TrjSource q.inst = 0 →
      Commits (.moveResume t q) s q ((s.advance t).tgt q.body 0) ((s.advance t))) ∧
  (∀ (t : Nat) (q : Req) (s : State),
      Served 0x0609 q s →
      (s.advance t).late q.body 0 = false →
      s.axisRuns q.inst = true →
      s.queueRuns q.inst = false →
      s.rd P.TrjSource q.inst = 0 →
      Commits (.queueStart t q) s q ((s.advance t).tgt q.body 0) ((s.advance t))) ∧
  (∀ (t : Nat) (q : Req) (s : State) (n : Nat) (es : List QEntry),
      Served 0x0608 q s →
      n = fld q.body 0 1 →
      1 ≤ n →
      n ≤ 16 →
      q.body.length = 4 + 32 * n →
      es = (List.range n).map (fun i => { bytes := slice q.body (4 + 32 * i) 32, avail := (s.advance t).nextTarget }) →
      es.all (fun e => f32Finite (fld e.bytes 24 4) && decide (0 ≤ f32ToRat (fld e.bytes 24 4))) = true →
      es.all (fun e => !(s.advance t).limsBad q.inst (qOwn e)) = true →
      (s.advance t).entriesBeyond q.inst ((s.advance t).queueEnd q.inst) es = false →
      (s.traj q.inst).fill + n ≤ s.rd P.TrjQueueDepth q.inst →
      (s.traj q.inst).spill = [] →
      Commits (.queueAppend t q) s q (s.advance t).nextTarget (((s.advance t).setTraj q.inst { s.traj q.inst with
      sec := ((s.traj q.inst).sec ++ es).take 16, spill := ((s.traj q.inst).sec ++ es).drop 16 }).queueReport q.inst)) ∧
  (∀ (t : Nat) (q : Req) (s : State) (n : Nat) (es : List QEntry),
      Served 0x0608 q s →
      n = fld q.body 0 1 →
      1 ≤ n →
      n ≤ 16 →
      q.body.length = 4 + 32 * n →
      es = (List.range n).map (fun i => { bytes := slice q.body (4 + 32 * i) 32, avail := (s.advance t).nextTarget }) →
      es.all (fun e => f32Finite (fld e.bytes 24 4) && decide (0 ≤ f32ToRat (fld e.bytes 24 4))) = true →
      es.all (fun e => !(s.advance t).limsBad q.inst (qOwn e)) = true →
      (s.advance t).entriesBeyond q.inst ((s.advance t).queueEnd q.inst) es = false →
      (s.traj q.inst).fill + n ≤ s.rd P.TrjQueueDepth q.inst →
      (s.traj q.inst).spill ≠ [] →
      Commits (.queueAppend t q) s q (s.advance t).nextTarget (((s.advance t).setTraj q.inst { s.traj q.inst with spill := (s.traj q.inst).spill ++ es }).queueReport q.inst)) ∧
  (∀ (t : Nat) (q : Req) (s : State),
      Served 0x060A q s →
      s.queueRuns q.inst = false →
      (s.traj q.inst).res.isSome = true →
      Answers (.queueClear t q) s q 0 ([]) ((((s.advance t).setTraj q.inst { s.traj q.inst with sec := [], spill := [], exec_ := false }).tSet q.inst tQPAUSED false).queueReport q.inst)) ∧
  (∀ (t : Nat) (q : Req) (s : State),
      Served 0x060A q s →
      s.queueRuns q.inst = false →
      (s.traj q.inst).res = none →
      Answers (.queueClear t q) s q 0 ([]) (((((s.advance t).setTraj q.inst { s.traj q.inst with sec := [], spill := [], exec_ := false }).tSet q.inst tRESUMABLE false).tSet q.inst tQPAUSED false).queueReport q.inst)) ∧
  (∀ (t : Nat) (x : Nat) (s : State),
      x < 128 →
      bitOf s.boot.offHalt 5 = false →
      (s.traj x).spill ≠ [] →
      exec (.queueRefill t x false) s = .next (((s.advance t).setTraj x { s.traj x with
      sec := (s.traj x).sec ++ (s.traj x).spill.take (16 - (s.traj x).sec.length), spill := (s.traj x).spill.drop (16 - (s.traj x).sec.length) }).queueReport x)) ∧
  (∀ (t : Nat) (g : Nat) (s : State),
      g < 16 →
      bitOf s.boot.offHalt 5 = false →
      (s.pgr g).spill ≠ [] →
      exec (.queueRefill t (128 + g) false) s = .next (((s.advance t).setPg g { s.pgr g with
      sec := (s.pgr g).sec ++ (s.pgr g).spill.take (16 - (s.pgr g).sec.length), spill := (s.pgr g).spill.drop (16 - (s.pgr g).sec.length) }).pgReport g)) ∧
  (∀ (t : Nat) (x : Nat) (s : State),
      x < 128 →
      bitOf s.boot.offHalt 5 = false →
      (s.traj x).spill ≠ [] →
      exec (.queueRefill t x true) s = .next ((s.advance t).queueDiscard x 0)) ∧
  (∀ (t : Nat) (x : Nat) (s : State),
      x < 128 →
      (s.traj x).task = .home →
      0 < (s.traj x).hPhase →
      (((s.traj x).hPhase ≤ 2 ∧ s.rf P.HomeMaxDistance x * 65536 ≤ absR (((s.advance t).axPos x - (s.traj x).hStart : Int) : Rat)) ∨ s.tBit x tATLIMIT = true ∨
      bitOf (s.rd P.FbState x) fbLIMPOS = true ∨ bitOf (s.rd P.FbState x) fbLIMNEG = true ∨ s.axisRuns x = false) →
      exec (.homingFailed t x) s = .next ((s.advance t).homeFail x))

/-- What virtual-master requests, line requests, line frames and the line time-out do: the cases listed. A commit is stored for its target
cycle, which meets its deadline, and answered 0x0102. VmMove of a master that is not on the line is a commit where its own limits are in
range; VmStop too. LineMove of the line owner, with a finite target, limits in range and fewer than 4 commands pending, is answered
0x0101 with the instant at which it takes effect (the sample at or after the next frame and LineLead) and its number, and joins the
pending commands; LineStop likewise. At a multiple of LineFramePeriod (lineFrameDue), with LineEnable 1 and service core 2 running, the
line frame leaves on both ports and SEQ increments; LineDemand holds the scale demand; the owner issues a scale command first where the
wanted scale differs from the one asked for and fewer than 4 commands are pending. A valid frame of another unit to the line's address
and port that is not the owner's, with LineEnable 1: its scale demand is kept with its tick; the owner's, with LineEnable 0, is kept;
the owner's, with LineEnable 1 on a unit that is not the owner, is kept and followed (lineFollow). With LineState 1 or 2 and no owner
frame for LineTimeout, LineState becomes 4. Rests on 08_gearing_cams_paths.md (parts of R211, R226, R227, R228, R230, R231). -/
def Obligations.MastersAndLineCommandsAct : Prop :=
  (∀ (t : Nat) (q : Req) (s : State),
      Served 0x0701 q s →
      ownBad (moveOwn q.body 12) ((s.advance t).vmLims q.inst) = false →
      s.rd P.VmSource q.inst ≠ 2 →
      (s.advance t).late q.body 28 = false →
      Commits (.vmMove t q) s q ((s.advance t).tgt q.body 28) ((s.advance t))) ∧
  (∀ (t : Nat) (q : Req) (s : State),
      Served 0x0702 q s →
      s.rd P.VmSource q.inst ≠ 2 →
      (s.advance t).late q.body 4 = false →
      Commits (.vmStop t q) s q ((s.advance t).tgt q.body 4) ((s.advance t))) ∧
  (∀ (t : Nat) (q : Req) (s : State),
      Served 0x070E q s →
      f32Finite (fld q.body 0 4) = true →
      ownBad [0, fld q.body 4 4, fld q.body 8 4, fld q.body 12 4] (match s.lineVm with | some m => s.vmLims m | none => [0x7F7FFFFF, 0x7F7FFFFF, 0x7F7FFFFF, 0x7F7FFFFF]) = false →
      s.lineOwner = true →
      s.line.cmds.length < 4 →
      Answers (.lineMove t q) s q 0x0101 (leBytes 8 ((s.advance t).sampleAt ((s.advance t).lineSend + (roundHE (s.rf P.LineLead 0 * 1000000)).toNat)) ++ leBytes 4 ((s.line.no + 1) % 2 ^ 32) ++ [0, 0, 0, 0])
      ((s.advance t).setLine { s.line with no := (s.line.no + 1) % 2 ^ 32, cmds := s.line.cmds ++ [({ eff := (s.advance t).sampleAt ((s.advance t).lineSend + (roundHE (s.rf P.LineLead 0 * 1000000)).toNat), kind := 1, value := fld q.body 0 4, lims := [fld q.body 4 4, fld q.body 8 4, fld q.body 12 4], no := (s.line.no + 1) % 2 ^ 32, req := some (0, q) } : LineCmd)] })) ∧
  (∀ (t : Nat) (q : Req) (s : State),
      Served 0x070F q s →
      s.lineOwner = true →
      s.line.cmds.length < 4 →
      Answers (.lineStop t q) s q 0x0101 (leBytes 8 ((s.advance t).sampleAt ((s.advance t).lineSend + (roundHE (s.rf P.LineLead 0 * 1000000)).toNat)) ++ leBytes 4 ((s.line.no + 1) % 2 ^ 32) ++ [0, 0, 0, 0])
      ((s.advance t).setLine { s.line with no := (s.line.no + 1) % 2 ^ 32, cmds := s.line.cmds ++ [({ eff := (s.advance t).sampleAt ((s.advance t).lineSend + (roundHE (s.rf P.LineLead 0 * 1000000)).toNat), kind := 3, value := 0, lims := [0, 0, 0], no := (s.line.no + 1) % 2 ^ 32, req := some (0, q) } : LineCmd)] })) ∧
  (∀ (t : Nat) (s : State) (s2 : State) (s3 : State),
      s.rb P.LineEnable 0 = true →
      s.pr.restart = false →
      (s.advance t).lineFrameDue = true →
      s2 = ((s.advance t).setLine { s.line with sent := (s.advance t).time.lt / ((s.advance t).linePeriod * 2 ^ 24) + 1 }).wr P.LineDemand 0 ((s.advance t).setLine { s.line with sent := (s.advance t).time.lt / ((s.advance t).linePeriod * 2 ^ 24) + 1 }).lineDem →
      (s3 = if s2.lineOwner && decide (f32ToRat s2.lineWant ≠ f32ToRat s2.lineAsked) && decide (s2.line.cmds.length < 4) then (s2.lineIssue s2.lineNs 2 s2.lineWant [0, 0, 0] none).2 else s2) →
      exec (.lineFrameSend t) s = .next (((s3.setLine { s3.line with seq := (s3.line.seq + 1) % 2 ^ 32 }).frame .line 0 (s3.lineDest ++ s3.lineFrame)).frame .line 1 (s3.lineDest ++ s3.lineFrame))) ∧
  (∀ (t : Nat) (b : List Byte) (s : State),
      100 ≤ b.length →
      fld b 0 2 = 1 →
      fld b 88 1 ≤ 4 →
      b.length = 100 + 32 * fld b 88 1 →
      fld b (b.length - 4) 4 = crc32 (b.take (b.length - 4)) →
      fld b 2 1 ≠ s.rd P.LineAddress 0 →
      s.rb P.LineEnable 0 = true →
      bitOf (fld b 3 1) 0 = false →
      exec (.lineFrameReceived t ⟨s.rd P.LineGroupAddress 0, s.rd P.LinePort 0, b⟩) s = .next ((s.advance t).setLine { s.line with demands := (fld b 2 1, fld b 28 4, (s.advance t).time.tick) :: s.line.demands.filter fun d => d.1 != fld b 2 1 })) ∧
  (∀ (t : Nat) (b : List Byte) (s : State),
      100 ≤ b.length →
      fld b 0 2 = 1 →
      fld b 88 1 ≤ 4 →
      b.length = 100 + 32 * fld b 88 1 →
      fld b (b.length - 4) 4 = crc32 (b.take (b.length - 4)) →
      fld b 2 1 ≠ s.rd P.LineAddress 0 →
      s.rb P.LineEnable 0 = false →
      bitOf (fld b 3 1) 0 = true →
      exec (.lineFrameReceived t ⟨s.rd P.LineGroupAddress 0, s.rd P.LinePort 0, b⟩) s = .next ((s.advance t).setLine { s.line with owner := some ((s.advance t).time.tick, b) })) ∧
  (∀ (t : Nat) (b : List Byte) (s : State),
      100 ≤ b.length →
      fld b 0 2 = 1 →
      fld b 88 1 ≤ 4 →
      b.length = 100 + 32 * fld b 88 1 →
      fld b (b.length - 4) 4 = crc32 (b.take (b.length - 4)) →
      fld b 2 1 ≠ s.rd P.LineAddress 0 →
      s.rb P.LineEnable 0 = true →
      bitOf (fld b 3 1) 0 = true →
      s.lineOwner = false →
      exec (.lineFrameReceived t ⟨s.rd P.LineGroupAddress 0, s.rd P.LinePort 0, b⟩) s = .next (((s.advance t).setLine { s.line with owner := some ((s.advance t).time.tick, b), demands := (fld b 2 1, fld b 28 4, (s.advance t).time.tick) :: s.line.demands.filter fun d => d.1 != fld b 2 1 }).lineFollow b)) ∧
  (∀ (t : Nat) (s : State),
      s.ordered →
      (s.rd P.LineState 0 = 1 ∨ s.rd P.LineState 0 = 2) →
      roundHE (s.rf P.LineTimeout 0 * 1000000) ≤ ((s.advance t).time.tick : Int) - (if s.line.heard = 0 then s.line.on_ else s.line.heard - 1) →
      ∃ s', exec (.lineTimeout t) s = .next s' ∧ s'.rd P.LineState 0 = 4 ∧ s'.line = s.line)

/-- What the requests and events of couplings, cam tables and paths do: the cases listed. A commit is stored for its target cycle, which
meets its deadline, and answered 0x0102; the value blocks of the requests are in range. CouplingEngage (mode 0) of an axis that is not
coupled, without a running queue, locked copies or a pending change puts its values in the shadow copies and is a commit; at a master
position still ahead (mode 1) it is answered 0x0101 with 0xFFFFFFFF and a COMMITID and becomes a pending change with that position, and
CplState reads ENGPEND. CouplingDisengage (mode 0) of an engaged axis is a commit; at a master position still ahead, with no change
pending, it is answered 0x0101 and becomes a pending change, and CplState reads DISPEND. CouplingChange of an engaged axis in no open
set of its group, at a master position ahead and with no change pending, likewise, and CplState reads CHGPEND; in an open set of its
group it joins that set and is answered 0x0104. A pending change whose time is over goes and the coupling stays as it is. CamLoad of a
table that passes its checks, is not in use and fits is answered 0x0000: the table is stored and CamChecksum is its CRC-32. CamDelete of
a table not in use removes it; CamChecksum reads 0. CamRead answers the table. A prefetch, unless the memory interface is halted, holds
a segment of a table on the chip. A late fetch raises the event of cam data with cause 1 and disengages each engaged coupling on the
table. PathBind is a commit where the axes of the group are at least one, distinct and 0 to 127, none runs a queue, moves or is coupled.
PathAppend of 1 to 8 valid entries (pgEntries) with limits in range to a bound group with room is answered as a commit for the next
cycle and appends them: to the 16 the section holds as far as they fit, the rest spills, as all do behind entries that have spilled.
PathStart of a bound group is a commit when each of its axes runs and follows; PathStop of a bound group; PathRelease of a bound group
at rest. Rests on 08_gearing_cams_paths.md, 14_processor_memory.md (parts of R216, R218, R219, R220, R221, R222, R232, R233, R237, R402,
R403). -/
def Obligations.CouplingCamAndPathCommandsAct : Prop :=
  (∀ (t : Nat) (q : Req) (s : State),
      Served 0x0706 q s →
      (s.advance t).cplBlockBad q.body 0 = false →
      engBad q.body 40 = false →
      fld q.body 40 1 ≠ 1 →
      (s.advance t).cplLocked q.inst = false →
      (s.advance t).late q.body 56 = false →
      s.queueRuns q.inst = false →
      (s.advance t).coupled q.inst = false →
      (s.cplr q.inst).pend = none →
      Commits (.couplingEngage t q) s q ((s.advance t).tgt q.body 56) ((s.advance t).cplShadow q.inst q.body)) ∧
  (∀ (t : Nat) (q : Req) (s : State),
      Served 0x0706 q s →
      s.ordered →
      (s.advance t).cplBlockBad q.body 0 = false →
      engBad q.body 40 = false →
      fld q.body 40 1 = 1 →
      (s.advance t).cplLocked q.inst = false →
      (s.advance t).swLate (fld q.body 1 1) q.body 40 = false →
      s.queueRuns q.inst = false →
      (s.advance t).coupled q.inst = false →
      (s.cplr q.inst).pend = none →
      tabSorted none s.cpl = true →
      ∃ s', Answers (.couplingEngage t q) s q 0x0101 (crBytes 0xFFFFFFFF s.par.nextId) s' ∧ bitOf (s'.motionValue P.CplState q.inst) cENGPEND = true ∧
      ∃ p, (s'.cplr q.inst).pend = some p ∧ p.psw = fldI q.body 48 8 ∧ p.kind = 0) ∧
  (∀ (t : Nat) (q : Req) (s : State),
      Served 0x0707 q s →
      fld q.body 0 1 ≠ 1 →
      engBad q.body 0 = false →
      (s.advance t).late q.body 16 = false →
      (s.cplr q.inst).engaged = true →
      Commits (.couplingDisengage t q) s q ((s.advance t).tgt q.body 16) ((s.advance t))) ∧
  (∀ (t : Nat) (q : Req) (s : State),
      Served 0x0707 q s →
      s.ordered →
      fld q.body 0 1 = 1 →
      engBad q.body 0 = false →
      (s.advance t).swLate (s.rd P.CplMaster q.inst) q.body 0 = false →
      (s.cplr q.inst).engaged = true →
      (s.cplr q.inst).pend = none →
      tabSorted none s.cpl = true →
      ∃ s', Answers (.couplingDisengage t q) s q 0x0101 (crBytes 0xFFFFFFFF s.par.nextId) s' ∧ bitOf (s'.motionValue P.CplState q.inst) cDISPEND = true ∧ (s'.cplr q.inst).engaged = true) ∧
  (∀ (t : Nat) (q : Req) (s : State),
      Served 0x0708 q s →
      s.ordered →
      (if s.par.staged.any (fun g => g.scope == 0 && g.inst == q.inst) then none else s.par.staged.find? fun g => g.scope == 1 && g.inst == s.rd P.AxisGroup q.inst) = none →
      (s.advance t).cplBlockBad q.body 0 = false →
      engBad q.body 40 = false →
      fld q.body 40 1 = 1 →
      (s.advance t).cplLocked q.inst = false →
      (s.advance t).swLate (s.rd P.CplMaster q.inst) q.body 40 = false →
      (s.cplr q.inst).engaged = true →
      (s.cplr q.inst).pend = none →
      tabSorted none s.cpl = true →
      ∃ s', Answers (.couplingChange t q) s q 0x0101 (crBytes 0xFFFFFFFF s.par.nextId) s' ∧ bitOf (s'.motionValue P.CplState q.inst) cCHGPEND = true ∧ (s'.cplr q.inst).engaged = true) ∧
  (∀ (t : Nat) (q : Req) (s : State) (g : Staged),
      Served 0x0708 q s →
      s.par.staged.any (fun g => g.scope == 0 && g.inst == q.inst) = false →
      s.par.staged.find? (fun g => g.scope == 1 && g.inst == s.rd P.AxisGroup q.inst) = some g →
      g.pending = none →
      (s.advance t).cplBlockBad q.body 0 = false →
      fld q.body 40 1 = 1 →
      (s.cplr q.inst).engaged = true →
      (s.cplr q.inst).pend = none →
      Answers (.couplingChange t q) s q 0x0104 ([]) (((s.advance t).cplShadow q.inst q.body).joinSet g (pkey 0x0708 q.inst))) ∧
  (∀ (t : Nat) (x : Nat) (p : CplPend) (s : State),
      x < 128 →
      (s.cplr x).pend = some p →
      p.lapse ≤ (s.advance t).time.tick →
      tabSorted none s.cpl = true →
      ∃ s', exec (.couplingChangeLapsed t x) s = .next s' ∧ (s'.cplr x).pend = none ∧ (s'.cplr x).engaged = (s.cplr x).engaged) ∧
  (∀ (t : Nat) (q : Req) (s : State),
      Served 0x0703 q s →
      camCheck q.body = 0 →
      (s.advance t).camUsed q.inst = false →
      ((s.cams.filter (fun e => e.1 ≠ q.inst)).map fun e => camUnits e.2).sum + camUnits q.body ≤ (s.advance t).camSize →
      s.ordered →
      tabSorted none s.cams = true →
      ∃ s', Answers (.camLoad t q) s q 0 [] s' ∧ s'.camTab q.inst = q.body ∧ s'.rd P.CamChecksum q.inst = crc32 q.body) ∧
  (∀ (t : Nat) (q : Req) (s : State),
      Served 0x0704 q s →
      (s.advance t).camUsed q.inst = false →
      s.ordered →
      tabSorted none s.cams = true →
      ∃ s', Answers (.camDelete t q) s q 0 [] s' ∧ s'.camTab q.inst = [] ∧ s'.rd P.CamChecksum q.inst = 0) ∧
  (∀ (t : Nat) (q : Req) (s : State),
      Served 0x0705 q s →
      Answers (.camRead t q) s q 0 (s.camTab q.inst) ((s.advance t))) ∧
  (∀ (t : Nat) (n : Nat) (seg : Nat) (s : State),
      n < 256 →
      seg < camPts (s.camTab n) →
      bitOf s.boot.offHalt 5 = false →
      exec (.camPrefetch t n seg) s = .next { (s.advance t) with camHeld := tabMod s.camHeld [] n fun l => insNat seg l }) ∧
  (∀ (t : Nat) (n : Nat) (s : State),
      n < 256 →
      (List.range 128).all (fun x => !((s.cplr x).engaged || (s.cplr x).pend.isSome)) = true →
      exec (.camFetchLate t n) s = .next ((s.advance t).raise E.camDataError n (leBytes 4 1))) ∧
  (∀ (t : Nat) (n : Nat) (x : Nat) (s : State),
      n < 256 →
      x < 128 →
      (s.cplr x).engaged = true →
      s.rd P.CplKind x = 2 →
      s.rd P.CplCamTable x = n →
      s.ordered →
      tabSorted none s.cpl = true →
      ∃ s', exec (.camFetchLate t n) s = .next s' ∧ (s'.cplr x).engaged = false) ∧
  (∀ (t : Nat) (q : Req) (s : State),
      Served 0x0709 q s →
      s.pgList q.inst ≠ [] →
      hasDup (s.pgList q.inst) = false →
      (s.pgList q.inst).all (fun x => decide (x ≤ 127)) = true →
      (s.advance t).late q.body 0 = false →
      (s.pgList q.inst).all (fun x => !s.queueRuns x && !s.tBit x tMOVING && !(s.advance t).coupled x) = true →
      Commits (.pathBind t q) s q ((s.advance t).tgt q.body 0) ((s.advance t))) ∧
  (∀ (t : Nat) (q : Req) (s : State) (n : Nat) (l : List PEntry) (z : List Int),
      Served 0x070A q s →
      n = fld q.body 0 1 →
      1 ≤ n →
      n ≤ 8 →
      q.body.length = 4 + 160 * n →
      (List.range n).all (fun i => !ownBad [fld q.body (8 + 160 * i) 4, fld q.body (12 + 160 * i) 4] [s.rd P.PgVelMax q.inst, s.rd P.PgAccMax q.inst]) = true →
      (s.advance t).pgEntries q.inst (s.advance t).nextTarget q.body n 4 (s.pgr q.inst).last = some (l, z) →
      (s.pgr q.inst).bound = true →
      (s.pgr q.inst).sec.length + (s.pgr q.inst).spill.length + n ≤ s.rd P.PgQueueDepth q.inst →
      Commits (.pathAppend t q) s q (s.advance t).nextTarget (((s.advance t).setPg q.inst { (if (s.pgr q.inst).spill = [] then { s.pgr q.inst with
      sec := ((s.pgr q.inst).sec ++ l).take 16, spill := ((s.pgr q.inst).sec ++ l).drop 16 } else { s.pgr q.inst with spill := (s.pgr q.inst).spill ++ l }) with last := z }).pgReport q.inst)) ∧
  (∀ (t : Nat) (q : Req) (s : State),
      Served 0x070B q s →
      (s.advance t).late q.body 0 = false →
      (s.pgList q.inst).all (fun x => s.axisRuns x && s.rd P.TrjChain x == 2) = true →
      (s.pgr q.inst).bound = true →
      Commits (.pathStart t q) s q ((s.advance t).tgt q.body 0) ((s.advance t))) ∧
  (∀ (t : Nat) (q : Req) (s : State),
      Served 0x070C q s →
      (s.advance t).late q.body 4 = false →
      (s.pgr q.inst).bound = true →
      Commits (.pathStop t q) s q ((s.advance t).tgt q.body 4) ((s.advance t))) ∧
  (∀ (t : Nat) (q : Req) (s : State),
      Served 0x070D q s →
      (s.advance t).late q.body 0 = false →
      (s.pgr q.inst).mode = .idle →
      (s.pgr q.inst).k.v = 0 →
      (s.pgr q.inst).k.a = 0 →
      (s.pgr q.inst).bound = true →
      Commits (.pathRelease t q) s q ((s.advance t).tgt q.body 0) ((s.advance t)))

/-- What load-all, trip clear, microstep tables, gate trips, trip inputs, local data and delay lines do: the cases listed. Pairs are 0 to
11, of instance 128 + pair, trip inputs 0 and 1. LoadAll for the next reload, for groups that no waiting load-all and no locked staged
set holds: it waits for the reload of this cycle, or of the next where this one is too near (loadInTime), takes the next COMMITID, and
ModLoadAllState of its groups reads 1; with a target cycle that is not too early likewise, for that cycle. TripClear of one pair with a
latched trip whose inputs both read inactive and have for GpTripFilter: both latches clear, bit 5 (waiting for a load-all) is set. A
trip edge of an input that GpTripEnable enables, active for its filter time (tripDue) and not yet latched, on a pair the front end does
not own (GpMode not 1) with trip scope 0: the input and its latch are set, GpTripTime is the time of the edge, and the pair ends off. An
input that is not enabled, active for its filter time, sets that input's bit, and the other's stays. Before its filter time has passed
an active input changes nothing. When an input becomes inactive its bit clears and its latch stays. From 100 ns before the reload, a
duty that the front-end section has not made ready (dutiesReady) for a pair to which it gives one increments GpNotReady and raises its
event, once. A delay-line count outside 100 to 250 of an output: the count is kept for the idle line, the run of failures goes on up to
4, at 4 the output is coarse; GpCalState holds the count and whether an output of the pair is coarse, as bit 4 of ModStatus does. A
count from 100 to 250 likewise starts the failures anew and lets the run of successes go on up to 16, at which the output is no longer
coarse; bit 0 of GpCalState is set. MicrostepLoad of a valid table that no enabled axis selects stores its 4,096 bytes; MicrostepShape
with harmonics in range stores the table of its wave, scaled to full amplitude; MicrostepRead answers a table in the layout of a load.
Rests on 09_modulation.md (parts of R255, R257, R258, R259, R261, R266, R268, R270, R271, R272, R273). -/
def Obligations.ModulationCommandsAct : Prop :=
  (∀ (t : Nat) (q : Req) (s : State),
      Served 0x0801 q s →
      bitOf (fld q.body 8 1) 0 = false →
      s.mod.loads.all (fun l => l.groups.land (fld q.body 0 2) == 0) = true →
      s.par.staged.any (fun g => g.pending.isSome && g.keys.any fun k => loadSet.contains (k / 65536) && bitOf (fld q.body 0 2) (s.rd P.ModLoadGroup (k % 65536))) = false →
      Answers (.loadAll t q) s q 0x0102 (crBytes (if (s.advance t).loadInTime then s.time.cycle else (s.time.cycle + 1) % 2 ^ 32) s.par.nextId) ((bitList 16 (fld q.body 0 2)).foldl (fun s g => s.wr P.ModLoadAllState g 1)
        { (s.advance t) with par := { s.par with nextId := bumpId s.par.nextId }, mod := { s.mod with loads := s.mod.loads ++
          [({ groups := fld q.body 0 2, cycle := if (s.advance t).loadInTime then s.time.cycle else (s.time.cycle + 1) % 2 ^ 32,
              tick := (s.advance t).time.tick, id := s.par.nextId, req := q } : LoadReq)] } })) ∧
  (∀ (t : Nat) (q : Req) (s : State),
      Served 0x0801 q s →
      bitOf (fld q.body 8 1) 0 = true →
      0 ≤ cycDiff (if (s.advance t).loadInTime then s.time.cycle else (s.time.cycle + 1) % 2 ^ 32) (fld q.body 4 4) →
      s.mod.loads.all (fun l => l.groups.land (fld q.body 0 2) == 0) = true →
      s.par.staged.any (fun g => g.pending.isSome && g.keys.any fun k => loadSet.contains (k / 65536) && bitOf (fld q.body 0 2) (s.rd P.ModLoadGroup (k % 65536))) = false →
      Answers (.loadAll t q) s q 0x0102 (crBytes (fld q.body 4 4) s.par.nextId) ((bitList 16 (fld q.body 0 2)).foldl (fun s g => s.wr P.ModLoadAllState g 1)
        { (s.advance t) with par := { s.par with nextId := bumpId s.par.nextId }, mod := { s.mod with loads := s.mod.loads ++
          [({ groups := fld q.body 0 2, cycle := fld q.body 4 4, tick := (s.advance t).time.tick, id := s.par.nextId, req := q } : LoadReq)] } })) ∧
  (∀ (t : Nat) (q : Req) (s : State) (n : Nat),
      Served 0x0802 q s →
      s.ordered →
      n < 12 →
      fld q.body 0 2 = 2 ^ n →
      (s.rd P.GpTripState (128 + n)).land 15 = 4 →
      (s.rf P.GpTripFilter (128 + n)).ceil ≤ ((s.advance t).time.tick : Int) - (s.gp n).inact.getD 0 0 →
      (s.rf P.GpTripFilter (128 + n)).ceil ≤ ((s.advance t).time.tick : Int) - (s.gp n).inact.getD 1 0 →
      ∃ s', Answers (.tripClear t q) s q 0 ([]) s' ∧ bitOf (s'.rd P.GpTripState (128 + n)) 2 = false ∧ bitOf (s'.rd P.GpTripState (128 + n)) 5 = true) ∧
  (∀ (t : Nat) (n : Nat) (k : Nat) (e : Nat) (s : State),
      s.ordered →
      tabSorted none s.mod.gp = true →
      n < 12 →
      k < 2 →
      (s.advance t).tripDue n e = true →
      s.rd P.GpMode (128 + n) ≠ 1 →
      s.rd P.GpTripScope (128 + n) = 0 →
      bitOf (s.rd P.GpTripEnable (128 + n)) k = true →
      bitOf (s.rd P.GpTripState (128 + n)) (2 + k) = false →
      ∃ s', exec (.gateTrip t n k e) s = .next s' ∧ bitOf (s'.rd P.GpTripState (128 + n)) k = true ∧ bitOf (s'.rd P.GpTripState (128 + n)) (2 + k) = true ∧ s'.rd P.GpTripTime (128 + n) = e ∧ (s'.gp n).endLv = 2) ∧
  (∀ (t : Nat) (n : Nat) (k : Nat) (e : Nat) (s : State),
      s.ordered →
      n < 12 →
      k < 2 →
      (s.advance t).tripDue n e = true →
      bitOf (s.rd P.GpTripEnable (128 + n)) k = false →
      ∃ s', exec (.gateTrip t n k e) s = .next s' ∧ bitOf (s'.rd P.GpTripState (128 + n)) k = true ∧ bitOf (s'.rd P.GpTripState (128 + n)) (1 - k) = bitOf (s.rd P.GpTripState (128 + n)) (1 - k)) ∧
  (∀ (t : Nat) (n : Nat) (k : Nat) (e : Nat) (s : State),
      n < 12 →
      k < 2 →
      (s.advance t).tripDue n e = false →
      exec (.gateTrip t n k e) s = .next ((s.advance t))) ∧
  (∀ (t : Nat) (n : Nat) (k : Nat) (s : State),
      s.ordered →
      n < 12 →
      k < 2 →
      bitOf (s.rd P.GpTripState (128 + n)) k = true →
      ∃ s', exec (.tripInputInactive t n k) s = .next s' ∧ bitOf (s'.rd P.GpTripState (128 + n)) k = false ∧ bitOf (s'.rd P.GpTripState (128 + n)) (2 + k) = bitOf (s.rd P.GpTripState (128 + n)) (2 + k)) ∧
  (∀ (t : Nat) (n : Nat) (s : State),
      n < 12 →
      s.modVal P.GpMode (128 + n) = 1 →
      s.rb P.FePairRole (128 + n) = true →
      (s.advance t).reloadNs ≤ (s.advance t).lineNs + 100 →
      (s.advance t).dutiesReady = false →
      (s.gp n).missed = false →
      exec (.localDataNotReady t n) s = .next ((((s.advance t).setGp n { s.gp n with missed := true }).inc P.GpNotReady (128 + n)).raise E.localDataNotReady (128 + n) (leBytes 4 n ++ leBytes 4 s.time.cycle))) ∧
  (∀ (t : Nat) (n : Nat) (h : Bool) (m : Nat) (c : OutCal) (s : State),
      s.ordered →
      tabSorted none s.mod.gp = true →
      n < 12 →
      m < 100 ∨ 250 < m →
      c = (s.gp n).cal.getD (if h then 1 else 0) OutCal.init →
      ∃ s', exec (.delayLineCalibration t n h m) s = .next s' ∧ (s'.gp n).cal = (s.gp n).cal.set (if h then 1 else 0) { c with n := c.n.set (1 - c.serv) m, bad := min 4 (c.bad + 1), good := 0, coarse := decide (min 4 (c.bad + 1) = 4) || c.coarse } ∧
      bitOf (s'.rd P.ModStatus (128 + n)) 4 = (s'.gp n).cal.any (·.coarse) ∧ s'.rd P.GpCalState (128 + n) = m % 65536 * 65536 + (if (s'.gp n).cal.any (·.coarse) then 2 else 0)) ∧
  (∀ (t : Nat) (n : Nat) (h : Bool) (m : Nat) (c : OutCal) (s : State),
      s.ordered →
      tabSorted none s.mod.gp = true →
      n < 12 →
      100 ≤ m →
      m ≤ 250 →
      c = (s.gp n).cal.getD (if h then 1 else 0) OutCal.init →
      ∃ s', exec (.delayLineCalibration t n h m) s = .next s' ∧ (s'.gp n).cal = (s.gp n).cal.set (if h then 1 else 0) { c with n := c.n.set (1 - c.serv) m, bad := 0, good := min 16 (c.good + 1), coarse := decide (min 16 (c.good + 1) ≠ 16) && c.coarse } ∧
      bitOf (s'.rd P.ModStatus (128 + n)) 4 = (s'.gp n).cal.any (·.coarse) ∧ s'.rd P.GpCalState (128 + n) = m * 65536 + (if (s'.gp n).cal.any (·.coarse) then 2 else 0) + 1) ∧
  (∀ (t : Nat) (q : Req) (s : State),
      Served 0x0803 q s →
      q.body.length = 4112 →
      mstValid q.body = true →
      s.mstInUse q.inst = false →
      Answers (.microstepLoad t q) s q 0 ([]) ((s.advance t).setMod { s.mod with mst := tabSet s.mod.mst [] q.inst (slice q.body 16 4096) })) ∧
  (∀ (t : Nat) (q : Req) (s : State),
      Served 0x0804 q s →
      (∀ o ∈ [0, 8], f32Finite (fld q.body o 4) = true ∧ -3 / 10 ≤ f32ToRat (fld q.body o 4) ∧ f32ToRat (fld q.body o 4) ≤ 3 / 10) →
      (∀ o ∈ [4, 12], f32Finite (fld q.body o 4) = true ∧ 0 ≤ f32ToRat (fld q.body o 4) ∧ f32ToRat (fld q.body o 4) ≤ 360) →
      s.mstInUse q.inst = false →
      Answers (.microstepShape t q) s q 0 ([]) ((s.advance t).setMod { s.mod with mst := tabSet s.mod.mst [] q.inst ((List.range 1024).flatMap fun i =>
        mstPair ((mstWave q.body).getD i 0 / (mstWave q.body).foldl (fun m x => max m (absR x)) 0)
          ((mstWave q.body).getD ((i + 768) % 1024) 0 / (mstWave q.body).foldl (fun m x => max m (absR x)) 0)) })) ∧
  (∀ (t : Nat) (q : Req) (s : State),
      Served 0x0805 q s →
      Answers (.microstepRead t q) s q 0 (leBytes 2 1 ++ leBytes 2 1024 ++ List.replicate 12 0 ++ s.mstBytes q.inst) ((s.advance t)))

/-- What front-end jobs, the grid monitor's events, ride-through and sigma-delta inputs do: the cases listed. A fault c puts the front end
into FeState 7 with FeFaultCause c, ride demand 0 and the bridge off. The front-end jobs note the cycle they make data for and hold the
bus voltage that the streams of the sample gave (sdTake), in the state format. A dip that has lasted FeDipDetectTime (spans) sets DIP in
FeState 0 to 3; in FeState 4 where the target of ride-through lies below the demand, ride-through begins besides: FeState 5, the tick
noted; in FeState 5 while it recovers, RECOVER clears besides. A grid that has recovered for FeRecoverTime clears DIP. Phase loss for
FePhaseLossTime is fault 8. A frequency at its limit for 100 ms is fault 7. A recovery step in FeState 4 or 5 with RECOVER set, the
virtual masters of rank 1 settled (rideReached), the bus at FeRideLevel or above and the current at 4/5 of its limit or less raises the
ride demand by FeScaleStep, at most to 1; at 1 FeState is 4. A ride of FeRideMax without recovery is exhausted: demand 0, EXHAUSTED set,
its event raised. A sigma-delta input that fails and has no function has its fault bit set and its event raised; with a function it is
fault 4 besides. A stream that resumes clears the fault bit. Rests on 10_front_end.md (parts of R282, R283, R285, R286, R295, R296,
R298, R299, R301). -/
def Obligations.FrontEndSamplesAct : Prop :=
  (∀ (t : Nat) (sd : List (List Bool)) (s : State),
      ∃ s', exec (.frontEndJobs t sd) s = .next s' ∧ s'.fe.made = s.time.cycle + 1 ∧ s'.fe.bus = toState ((((s.advance t).jobReady { tick := (s.advance t).time.tick, fe := true, id := 1, passes := fePasses.getD 0 0 }).sdTake sd).sdVal 6)) ∧
  (∀ (t : Nat) (s : State),
      s.ordered →
      s.feFlag feDIP = false →
      0 < s.fe.nDip →
      s.spans s.fe.nDip (s.rf P.FeDipDetectTime 0 * 1000000) = true →
      s.feState ≤ 3 →
      exec (.dipDetected t) s = .next ((s.advance t).feBit feDIP true)) ∧
  (∀ (t : Nat) (s : State),
      s.ordered →
      s.feFlag feDIP = false →
      0 < s.fe.nDip →
      s.spans s.fe.nDip (s.rf P.FeDipDetectTime 0 * 1000000) = true →
      s.feState = 4 →
      (((s.advance t).feBit feDIP true).rideTarget).1 < s.rf P.FeRideDemand 0 →
      ∃ s', exec (.dipDetected t) s = .next s' ∧ bitOf (s'.rd P.FeFlags 0) feDIP = true ∧ s'.feState = 5 ∧ s'.fe.rideAt = (s.advance t).time.tick) ∧
  (∀ (t : Nat) (s : State),
      s.ordered →
      s.feFlag feDIP = false →
      0 < s.fe.nDip →
      s.spans s.fe.nDip (s.rf P.FeDipDetectTime 0 * 1000000) = true →
      s.feState = 5 →
      s.feFlag feRECOVER = true →
      ∃ s', exec (.dipDetected t) s = .next s' ∧ bitOf (s'.rd P.FeFlags 0) feDIP = true ∧ bitOf (s'.rd P.FeFlags 0) feRECOVER = false ∧ s'.feState = 5) ∧
  (∀ (t : Nat) (s : State),
      s.ordered →
      s.feFlag feDIP = true →
      0 < s.fe.nRec →
      s.spans s.fe.nRec (s.rf P.FeRecoverTime 0 * 1000000) = true →
      ∃ s', exec (.dipCleared t) s = .next s' ∧ bitOf (s'.rd P.FeFlags 0) feDIP = false ∧ s'.feState = s.feState) ∧
  (∀ (t : Nat) (s : State),
      s.ordered →
      s.feFlag fePHASELOSS = true →
      s.rf P.FePhaseLossTime 0 * 1000000000 ≤ (((s.advance t).time.tick - s.fe.lossAt : Nat) : Rat) →
      s.feState ≠ 7 →
      ∃ s', exec (.phaseLossTimeout t) s = .next s' ∧ s'.rd P.FeState 0 = 7 ∧ s'.rd P.FeFaultCause 0 = 8 ∧ s'.rd P.FeRideDemand 0 = ratToF32 0 ∧ s'.fe.bridge = false) ∧
  (∀ (t : Nat) (s : State),
      s.ordered →
      s.spans s.fe.nFreq 100000000 = true →
      s.feState ≠ 7 →
      ∃ s', exec (.frequencyFault t) s = .next s' ∧ s'.rd P.FeState 0 = 7 ∧ s'.rd P.FeFaultCause 0 = 7 ∧ s'.rd P.FeRideDemand 0 = ratToF32 0 ∧ s'.fe.bridge = false) ∧
  (∀ (t : Nat) (s : State),
      s.ordered →
      s.feFlag feRECOVER = true →
      4 ≤ s.feState →
      s.feState ≤ 5 →
      (((List.range 16).filter fun m => s.rb P.VmRideThrough m && s.rd P.FeRideRank m == 1).all (s.advance t).rideReached) = true →
      s.rf P.FeRideLevel 0 ≤ ofState s.fe.bus →
      absR (ofState s.fe.id_) ≤ 4 / 5 * s.rf P.FeCurLimit 0 →
      ∃ s', exec (.rideRecoveryStep t) s = .next s' ∧ s'.rd P.FeRideDemand 0 = ratToF32 (min 1 (s.rf P.FeRideDemand 0 + s.rf P.FeScaleStep 0)) ∧ (s'.rf P.FeRideDemand 0 = 1 → s'.feState = 4)) ∧
  (∀ (t : Nat) (s : State),
      s.feState = 5 →
      s.feFlag feRECOVER = false →
      s.feFlag feEXHAUSTED = false →
      s.rf P.FeRideMax 0 * 1000000000 ≤ (((s.advance t).time.tick - s.fe.rideAt : Nat) : Rat) →
      exec (.rideThroughExhausted t) s = .next ((((s.advance t).setDemand 0).feBit feEXHAUSTED true).feRaise E.rideThroughExhausted 0 [])) ∧
  (∀ (t : Nat) (k : Nat) (s : State),
      s.ordered →
      k < 12 →
      bitOf (s.rd P.FeSdState k) 1 = false →
      s.rd P.FeSdFunction k = 0 →
      exec (.sigmaDeltaFault t k) s = .next (((s.advance t).wr P.FeSdState k 2).feRaise E.sigmaDeltaInputFault k [])) ∧
  (∀ (t : Nat) (k : Nat) (s : State),
      s.ordered →
      k < 12 →
      bitOf (s.rd P.FeSdState k) 1 = false →
      s.rd P.FeSdFunction k ≠ 0 →
      s.feState ≠ 7 →
      ∃ s', exec (.sigmaDeltaFault t k) s = .next s' ∧ s'.rd P.FeState 0 = 7 ∧ s'.rd P.FeFaultCause 0 = 4 ∧ s'.rd P.FeRideDemand 0 = ratToF32 0 ∧ s'.fe.bridge = false ∧ s'.rd P.FeSdState k = 2) ∧
  (∀ (t : Nat) (k : Nat) (s : State),
      k < 12 →
      exec (.sigmaDeltaStreamResumed t k) s = .next ((s.advance t).wrBit P.FeSdState k 1 false))

/-- What FeStart, the start sequence, FeStop and FeFaultClear do: the cases listed. A fault c puts the front end into FeState 7 with
FeFaultCause c, ride demand 0 and the bridge off. FeStart with complete settings, mains ready for 100 ms, FeState 0 and no fault is
answered 0x0101: FeState 1, step 1, or step 2 where the precharge feedback already reads closed, the request waits for the end of the
start. The precharge feedback, the level that the standard input of FePreFeedback reads (diLevel), that follows its output in step 1
leads to step 2; the main feedback that follows in step 3 to step 4; the precharge feedback that opens in step 5 to the synchronisation
(feSync). A row whose contact the input does not name, or of a level that the input does not read or that is already held, has no
effect. A feedback that changes without its output is fault 5. At the precharge level in step 2 FeState is 2 and step 3 begins, or step
4 where the main feedback already reads closed. After FePreOpenDelay in step 4 step 5 begins; where the precharge feedback already reads
open the loops are synchronised at once: FeState 3, step 6, the ramp of the set-point starts at the bus voltage. A step 1, 3 or 5 of
FeContactorTime is fault 5; a precharge of FePrechargeTime fault 6. When the bus lies within 2 % of FeBusSet in FeState 3, FeState is 4
and no start waits. FeStop in FeState 6 is answered 0x0101 and waits with the one before; in any other state it is answered 0x0101:
FeState 6, the request waits, no start waits, the tick is noted. 10 ms later FeState is 0, no stop waits and the bridge is off.
FeFaultClear of a cause that is over is answered 0x0000: FeFaultCause 0, FeState 0, and no stop waits; with no cause it is answered
0x0000 and nothing else changes. Rests on 10_front_end.md (parts of R291, R292, R301, R302). -/
def Obligations.FrontEndSequencesAct : Prop :=
  (∀ (t : Nat) (q : Req) (s : State),
      Served 0x0901 q s →
      s.ordered →
      s.feSettings = true →
      s.spans s.fe.nReady 100000000 = true →
      s.fe.nReady ≠ 0 →
      s.feState = 0 →
      s.rd P.FeFaultCause 0 = 0 →
      ∃ s', Answers (.feStart t q) s q 0x0101 ([]) s' ∧ s'.feState = 1 ∧ s'.fe.start = some q ∧ s'.fe.step = (if s.fe.preFb then 2 else 1) ∧ s'.fe.t0 = (s.advance t).time.tick) ∧
  (∀ (t : Nat) (s : State),
      s.rd P.FePreFeedback 0 ≠ 0xFF →
      (s.advance t).diLevel (s.rd P.FePreFeedback 0) = true →
      s.fe.preFb = false →
      s.fe.preWait = true →
      bitOf s.dqFe (s.rd P.FePreOutput 0) = true →
      s.fe.step = 1 →
      exec (.contactorFeedbackChange t false true) s = .next ((s.advance t).setFe { s.fe with preFb := true, preWait := false, step := 2, tStep := (s.advance t).time.tick })) ∧
  (∀ (t : Nat) (s : State),
      s.rd P.FeMainFeedback 0 ≠ 0xFF →
      (s.advance t).diLevel (s.rd P.FeMainFeedback 0) = true →
      s.fe.mainFb = false →
      s.fe.mainWait = true →
      bitOf s.dqFe (s.rd P.FeMainOutput 0) = true →
      s.fe.step = 3 →
      exec (.contactorFeedbackChange t true true) s = .next ((s.advance t).setFe { s.fe with mainFb := true, mainWait := false, step := 4, tStep := (s.advance t).time.tick })) ∧
  (∀ (t : Nat) (s : State),
      s.rd P.FePreFeedback 0 ≠ 0xFF →
      (s.advance t).diLevel (s.rd P.FePreFeedback 0) = false →
      s.fe.preFb = true →
      s.fe.preWait = true →
      bitOf s.dqFe (s.rd P.FePreOutput 0) = false →
      s.fe.step = 5 →
      exec (.contactorFeedbackChange t false false) s = .next (((s.advance t).setFe { s.fe with preFb := false, preWait := false }).feSync)) ∧
  (∀ (t : Nat) (m : Bool) (c : Bool) (s : State),
      s.rd (if m then P.FeMainFeedback else P.FePreFeedback) 0 = 0xFF ∨ (s.advance t).diLevel (s.rd (if m then P.FeMainFeedback else P.FePreFeedback) 0) ≠ c ∨ (if m then s.fe.mainFb else s.fe.preFb) = c →
      exec (.contactorFeedbackChange t m c) s = .next ((s.advance t))) ∧
  (∀ (t : Nat) (m : Bool) (c : Bool) (s : State),
      s.ordered →
      s.rd (if m then P.FeMainFeedback else P.FePreFeedback) 0 ≠ 0xFF →
      (s.advance t).diLevel (s.rd (if m then P.FeMainFeedback else P.FePreFeedback) 0) = c →
      (if m then s.fe.mainFb else s.fe.preFb) ≠ c →
      (if m then s.fe.mainWait else s.fe.preWait) = false →
      s.feState ≠ 7 →
      ∃ s', exec (.contactorFeedbackChange t m c) s = .next s' ∧ s'.rd P.FeState 0 = 7 ∧ s'.rd P.FeFaultCause 0 = 5 ∧ s'.rd P.FeRideDemand 0 = ratToF32 0 ∧ s'.fe.bridge = false) ∧
  (∀ (t : Nat) (s : State),
      s.ordered →
      s.fe.step = 2 →
      s.rf P.FePrechargeLevel 0 * sqrtR 2 * s.rf P.FeMainsNominal 0 ≤ ofState s.fe.bus →
      ∃ s', exec (.prechargeLevelReached t) s = .next s' ∧ s'.feState = 2 ∧ s'.fe.step = (if s.fe.mainFb then 4 else 3)) ∧
  (∀ (t : Nat) (s : State),
      s.fe.step = 4 →
      s.fe.preFb = true →
      s.rf P.FePreOpenDelay 0 * 1000000 ≤ (s.advance t).feElapsed →
      ∃ s', exec (.preOpenDelayExpiry t) s = .next s' ∧ s'.fe.step = 5 ∧ s'.fe.tStep = (s.advance t).time.tick) ∧
  (∀ (t : Nat) (s : State),
      s.ordered →
      s.fe.step = 4 →
      s.fe.preFb = false →
      s.rf P.FePreOpenDelay 0 * 1000000 ≤ (s.advance t).feElapsed →
      ∃ s', exec (.preOpenDelayExpiry t) s = .next s' ∧ s'.feState = 3 ∧ s'.fe.step = 6 ∧ s'.fe.uRef = s.fe.bus) ∧
  (∀ (t : Nat) (s : State),
      s.ordered →
      s.fe.step = 1 ∨ s.fe.step = 3 ∨ s.fe.step = 5 →
      s.rf P.FeContactorTime 0 * 1000000 ≤ (s.advance t).feElapsed →
      s.feState ≠ 7 →
      ∃ s', exec (.feSequenceTimeout t) s = .next s' ∧ s'.rd P.FeState 0 = 7 ∧ s'.rd P.FeFaultCause 0 = 5 ∧ s'.rd P.FeRideDemand 0 = ratToF32 0 ∧ s'.fe.bridge = false) ∧
  (∀ (t : Nat) (s : State),
      s.ordered →
      s.fe.step = 2 →
      s.rf P.FePrechargeTime 0 * 1000000000 ≤ (((s.advance t).time.tick - s.fe.t0 : Nat) : Rat) →
      s.feState ≠ 7 →
      ∃ s', exec (.feSequenceTimeout t) s = .next s' ∧ s'.rd P.FeState 0 = 7 ∧ s'.rd P.FeFaultCause 0 = 6 ∧ s'.rd P.FeRideDemand 0 = ratToF32 0 ∧ s'.fe.bridge = false) ∧
  (∀ (t : Nat) (s : State),
      s.ordered →
      s.feState = 3 →
      absR (ofState s.fe.bus - s.rf P.FeBusSet 0) ≤ s.rf P.FeBusSet 0 / 50 →
      ∃ s', exec (.busSettled t) s = .next s' ∧ s'.feState = 4 ∧ s'.fe.step = 0 ∧ s'.fe.start = none) ∧
  (∀ (t : Nat) (q : Req) (s : State),
      Served 0x0902 q s →
      s.feState = 6 →
      Answers (.feStop t q) s q 0x0101 ([]) ((s.advance t).setFe { s.fe with stops := s.fe.stops ++ [q] })) ∧
  (∀ (t : Nat) (q : Req) (s : State),
      Served 0x0902 q s →
      s.ordered →
      s.feState ≠ 6 →
      ∃ s', Answers (.feStop t q) s q 0x0101 ([]) s' ∧ s'.feState = 6 ∧ s'.fe.stops = s.fe.stops ++ [q] ∧ s'.fe.start = none ∧ s'.fe.stopAt = (s.advance t).time.tick) ∧
  (∀ (t : Nat) (s : State),
      s.ordered →
      s.feState = 6 →
      s.fe.stopAt + 10000000 ≤ (s.advance t).time.tick →
      ∃ s', exec (.feStopRampEnd t) s = .next s' ∧ s'.feState = 0 ∧ s'.fe.stops = [] ∧ s'.fe.bridge = false) ∧
  (∀ (t : Nat) (q : Req) (s : State),
      Served 0x0903 q s →
      s.ordered →
      s.rd P.FeFaultCause 0 ≠ 0 →
      (s.advance t).fePresent (s.rd P.FeFaultCause 0) = false →
      ∃ s', Answers (.feFaultClear t q) s q 0 ([]) s' ∧ s'.rd P.FeFaultCause 0 = 0 ∧ s'.feState = 0 ∧ s'.fe.stops = []) ∧
  (∀ (t : Nat) (q : Req) (s : State),
      Served 0x0903 q s →
      s.rd P.FeFaultCause 0 = 0 →
      Answers (.feFaultClear t q) s q 0 ([]) ((s.advance t)))

/-- What safety inputs, test pulses, processor checks, supply and start-up do: the cases listed. Inputs are SI00 to SI11, groups 0 to 7. An
internal fault c, where none was, makes the fault number c and puts every group in state 5 in both processors. A sample of a processor
moves the filters of the 12 inputs on its channel, its own test pulse left out, and what follows from their levels (State.sampled). A
discrepancy that has lasted its time becomes the input fault it stands for. A test pulse of channel A (b false) or B that an input with
test pulses does not follow is input fault 3, noted for that channel, and the tick of the pulse is kept; a readback fault is internal
fault 8. A safety cycle in which link, banks, states, supply and temperature are right and no output is on that its processor holds off:
the sequence number rises by 1 modulo 256, the levels are exchanged and the groups evaluated (safExchange, safEvals), a reset that was
given acts (safReset), and both status frames go out. The second cycle in a row whose link fails, or whose processors' group states
differ, is internal fault 3. A cycle whose supply is outside its limits is internal fault 5. An output test pulse that both readbacks
follow changes nothing; one that the first does not follow is internal fault 6; one that only the second does not follow internal fault
7. A self-test that passes changes nothing; one that fails is internal fault 4. Loss of the supply is internal fault 5, and the STO
lines of all groups, and no SS1 line, read active. Start-up with equal switch banks whose parity is odd takes the configuration and
notes the tick; the bank is noted whatever comes of it; with parity even it is internal fault 2. Rests on 11_safety.md (parts of R308,
R309, R311, R312, R313, R315, R316, R323, R326, R331). -/
def Obligations.SafetyInputsAndProcessorsAct : Prop :=
  (∀ (t : Nat) (p : Nat) (l : Nat) (s : State),
      p < 2 →
      tabSorted none s.saf.ins = true →
      ∃ s', exec (.safetyInputSample t p l) s = .next s' ∧ (∀ i, i < 12 → s'.safIn i = (s.advance t).sampled p i (bitOf l i))) ∧
  (∀ (t : Nat) (n : Nat) (s : State),
      n < 12 →
      tabSorted none s.saf.ins = true →
      (s.safIn n).dis ≠ 0 →
      (s.safIn n).disAt + discNs s.saf.bank < (s.advance t).time.tick →
      ∃ s', exec (.discrepancyTimeout t n) s = .next s' ∧ (s'.safIn n).code = (s.safIn n).dis ∧ (s'.safIn n).dis = 0 ∧ (s'.safIn n).stage = 0) ∧
  (∀ (t : Nat) (b : Bool) (w : Nat) (i : Nat) (s : State),
      bitOf w 24 = false →
      i < 12 →
      tabSorted none s.saf.ins = true →
      s.saf.sw (i / 2 + 1) = false →
      bitOf w i = true →
      ∃ s', exec (.testPulse t b w) s = .next s' ∧ (s'.safIn i).code = 3 ∧ (s'.safIn i).short = (s.safIn i).short.set b.toNat true ∧ s'.saf.tpAt = s.saf.tpAt.set b.toNat (some (s.advance t).time.tick)) ∧
  (∀ (t : Nat) (b : Bool) (w : Nat) (s : State),
      bitOf w 24 = true →
      s.saf.fault = 0 →
      ∃ s', exec (.testPulse t b w) s = .next s' ∧ s'.saf.fault = 8 ∧ (∀ x ∈ s'.saf.prs, x.gs = List.replicate 8 5)) ∧
  (∀ (t : Nat) (i : SafetyObs) (s : State) (s2 : State) (s3 : State),
      i.linkOk = true →
      (s.proc 0).gs = (s.proc 1).gs →
      i.bankA = s.saf.bank →
      i.bankB = s.saf.bank →
      i.supplyOk = true →
      i.tempOk = true →
      ((List.range 8).all fun g => (s.stoOn 0 g || !bitOf i.readA g) && (s.stoOn 1 g || !bitOf i.readB g)) = true →
      s2 = ((s.advance t).setSaf { s.saf with linkBad := 0, differ := 0, outRb := i.readA % 256 + 256 * (i.readB % 256), seq := (s.saf.seq + 1) % 256 }).safExchange.safEvals →
      (s3 = if s2.saf.rstDue then s2.safReset else s2) →
      exec (.safetyCycle t i) s = .next ((s3.frame .safety 0 (s3.safFrame 0)).frame .safety 1 (s3.safFrame 1))) ∧
  (∀ (t : Nat) (i : SafetyObs) (s : State),
      i.bankA = s.saf.bank →
      i.bankB = s.saf.bank →
      s.saf.fault = 0 →
      (i.linkOk = false ∧ 1 ≤ s.saf.linkBad) ∨ (i.linkOk = true ∧ (s.proc 0).gs ≠ (s.proc 1).gs ∧ 1 ≤ s.saf.differ) →
      ∃ s', exec (.safetyCycle t i) s = .next s' ∧ s'.saf.fault = 3 ∧ (∀ x ∈ s'.saf.prs, x.gs = List.replicate 8 5)) ∧
  (∀ (t : Nat) (i : SafetyObs) (s : State),
      i.linkOk = true →
      (s.proc 0).gs = (s.proc 1).gs →
      i.bankA = s.saf.bank →
      i.bankB = s.saf.bank →
      i.supplyOk = false →
      s.saf.fault = 0 →
      ∃ s', exec (.safetyCycle t i) s = .next s' ∧ s'.saf.fault = 5 ∧ (∀ x ∈ s'.saf.prs, x.gs = List.replicate 8 5)) ∧
  (∀ (t : Nat) (o : Nat) (b : Bool) (s : State),
      o < 8 →
      exec (.stoTestPulse t o b true true) s = .next ((s.advance t))) ∧
  (∀ (t : Nat) (o : Nat) (b : Bool) (d : Bool) (s : State),
      o < 8 →
      s.saf.fault = 0 →
      ∃ s', exec (.stoTestPulse t o b false d) s = .next s' ∧ s'.saf.fault = 6 ∧ (∀ x ∈ s'.saf.prs, x.gs = List.replicate 8 5)) ∧
  (∀ (t : Nat) (o : Nat) (b : Bool) (s : State),
      o < 8 →
      s.saf.fault = 0 →
      ∃ s', exec (.stoTestPulse t o b true false) s = .next s' ∧ s'.saf.fault = 7 ∧ (∀ x ∈ s'.saf.prs, x.gs = List.replicate 8 5)) ∧
  (∀ (t : Nat) (p : Nat) (s : State),
      p < 2 →
      exec (.safetySelfTest t p true) s = .next ((s.advance t))) ∧
  (∀ (t : Nat) (p : Nat) (s : State),
      p < 2 →
      s.saf.fault = 0 →
      ∃ s', exec (.safetySelfTest t p false) s = .next s' ∧ s'.saf.fault = 4 ∧ (∀ x ∈ s'.saf.prs, x.gs = List.replicate 8 5)) ∧
  (∀ (t : Nat) (s : State),
      s.ordered →
      s.saf.fault = 0 →
      ∃ s', exec (.safetySupplyLoss t) s = .next s' ∧ s'.saf.fault = 5 ∧ (∀ x ∈ s'.saf.prs, x.gs = List.replicate 8 5) ∧ s'.saf.powered = false ∧ s'.rd P.SafLines 0 = 0xFF) ∧
  (∀ (t : Nat) (b : Nat) (s : State),
      s.saf.started = false →
      s.saf.fault = 0 →
      bankParity b = true →
      ∃ s', exec (.safetyStartupComplete t true b b true) s = .next s' ∧ s'.saf.started = true ∧ s'.saf.bankOk = true ∧ s'.saf.bank = b % 65536 ∧ s'.saf.up = (s.advance t).time.tick) ∧
  (∀ (t : Nat) (b : Nat) (s : State),
      s.saf.started = false →
      s.saf.fault = 0 →
      bankParity b = false →
      ∃ s', exec (.safetyStartupComplete t true b b true) s = .next s' ∧ s'.saf.fault = 2 ∧ (∀ x ∈ s'.saf.prs, x.gs = List.replicate 8 5) ∧ s'.saf.bank = b % 65536)

/-- What stop delays, the reset key, status frames, the wiring check and the safety requests do: the cases listed. Groups are 0 to 7,
processors 0 and 1. A group in state 3 of a processor whose SS1-t delay is over goes to state 0 while a demand stands, and its stop line
is active. A press of SRST is taken, with its tick. One released before 50 ms is reported and resets nothing; one released from 50 ms to
3 s, after start-up and without internal fault, is a valid reset: the groups that are ready are noted for the end of the safety cycle
(safAsk); one held longer than 3 s is reported as held. A valid status frame of the first processor gives SafGroupState, SafInputFault
and SafFault. A frame of the wrong length or check value increments SafFrameErrors. No frame for 10 ms is reported, once. A node whose
STO bit has differed for 20 ms is marked as reported. StoMapSet of groups 0 to 7 or 0xFF, equal for the axes of a node and unchanged for
enabled axes, is stored as a commit for its target cycle, which meets its deadline, and answered 0x0102. SafStatusRead answers the two
latest frames. Rests on 11_safety.md (parts of R318, R319, R321, R328, R330, R333, R334). -/
def Obligations.SafetyGroupsAndFramesAct : Prop :=
  (∀ (t : Nat) (g : Nat) (p : Nat) (s : State),
      g < 8 →
      p < 2 →
      s.saf.prs.length = 2 →
      (s.proc p).gs.length = 8 →
      s.gState p g = 3 →
      (s.proc p).ss1At.getD g 0 + ss1Ns s.saf.bank ≤ (s.advance t).time.tick →
      s.demands p g ≠ 0 →
      ∃ s', exec (.ss1DelayExpiry t g) s = .next s' ∧ s'.gState p g = 0 ∧ s'.stoLine g = true) ∧
  (∀ (t : Nat) (s : State),
      s.saf.srst = 0 →
      s.saf.relAt = none →
      exec (.srstPress t) s = .next ((s.advance t).setSaf { s.saf with srst := 1, srstAt := (s.advance t).time.tick, srstOk := true, relAt := none })) ∧
  (∀ (t : Nat) (s : State),
      s.saf.srst = 1 →
      s.saf.srstOk = true →
      (s.advance t).time.tick - s.saf.srstAt < 50000000 →
      exec (.srstRelease t) s = .next (((s.advance t).setSaf { s.saf with srst := 0 }).raise E.resetTooShort 0 [])) ∧
  (∀ (t : Nat) (s : State),
      s.saf.srst = 1 →
      s.saf.srstOk = true →
      50000000 ≤ (s.advance t).time.tick - s.saf.srstAt →
      (s.advance t).time.tick - s.saf.srstAt ≤ 3000000000 →
      s.saf.started = true →
      s.saf.fault = 0 →
      exec (.srstRelease t) s = .next (((s.advance t).setSaf { s.saf with srst := 0 }).safAsk)) ∧
  (∀ (t : Nat) (s : State),
      s.saf.srst = 1 →
      s.saf.srstAt + 3000000000 < (s.advance t).time.tick →
      exec (.resetHeld t) s = .next (((s.advance t).setSaf { s.saf with srst := 2 }).raise E.resetHeld 0 [])) ∧
  (∀ (t : Nat) (b : List Byte) (s : State),
      s.ordered →
      b.length = 32 →
      fld b 28 4 = crc32 (b.take 28) →
      s.saf.refs.getD 0 0 = 0 →
      ∃ s', exec (.safetyStatusFrame t 0 b) s = .next s' ∧ (∀ g, g < 8 → s'.rd P.SafGroupState g = bitsOf (fld b 2 4) (4 * g + 3) (4 * g)) ∧ (∀ i, i < 12 → s'.rd P.SafInputFault i = bitsOf (fld b 18 6) (4 * i + 3) (4 * i)) ∧ s'.rd P.SafFault 0 = fld b 16 1) ∧
  (∀ (t : Nat) (p : Nat) (b : List Byte) (s : State),
      p < 2 →
      b.length ≠ 32 ∨ fld b 28 4 ≠ crc32 (b.take 28) →
      exec (.safetyStatusFrame t p b) s = .next ((s.advance t).inc P.SafFrameErrors 0)) ∧
  (∀ (t : Nat) (s : State),
      s.saf.lost = false →
      s.saf.shownAt + 9999999 ≤ (s.advance t).time.tick →
      exec (.safetyStatusLost t) s = .next (((s.advance t).setSaf { s.saf with lost := true }).raise E.safetyStatusLost 0 [])) ∧
  (∀ (t : Nat) (k : Nat) (s : State),
      1 ≤ k →
      k ≤ 63 →
      tabSorted none s.link.nodes = true →
      (s.node k).mismatch ≠ 0 →
      (s.node k).misDone = false →
      (s.node k).mismatch + 19999999 ≤ (s.advance t).time.tick →
      ∃ s', exec (.stoWiringMismatch t k) s = .next s' ∧ (s'.node k).misDone = true ∧ (s'.node k).mismatch = (s.node k).mismatch) ∧
  (∀ (t : Nat) (q : Req) (s : State),
      Served 0x0E01 q s →
      ((List.range 128).all fun a => decide (mapOf q.body a < 8) || mapOf q.body a == 0xFF) = true →
      ((List.range 128).all fun a => s.axisNode a == 0 || (s.nodeAxes (s.axisNode a)).all fun c => mapOf q.body c == mapOf q.body a) = true →
      (s.advance t).late q.body 144 = false →
      ((List.range 128).any fun a => s.axisOn a && mapOf q.body a != s.rd P.SafStoGroup a) = false →
      Commits (.stoMapSet t q) s q ((s.advance t).tgt q.body 144) ((s.advance t))) ∧
  (∀ (t : Nat) (q : Req) (s : State),
      Served 0x0E02 q s →
      Answers (.safStatusRead t q) s q 0 (padTo 32 (s.saf.frames.getD 0 []) ++ padTo 32 (s.saf.frames.getD 1 [])) ((s.advance t)))

/-- What ferry frames, stale data, the field side's watchdog and due entries do: the cases listed. Groups are 0 to 3. At its instant
(downDue), unless the section is halted, a down frame takes the next sequence number and up to 4 waiting entries within the free places,
and the release with it. A down frame of the wrong length or check value increments FerryCheckErrors and ends the run of valid ones. A
valid one within its cycle and with a link delay of at most 300 ns is to be answered with its SEQ and G, and restarts the watchdog. With
nothing to answer no up frame is sent; otherwise from 1 µs after G on the field side one of 46 bytes goes out, and nothing is left to
answer. An up frame of the wrong length or check value increments FerryCheckErrors and FerryMissed. A valid one without edges that
answers a down frame gives the levels of its group in DiState and LiState, and the time they stand for. Data as old as FerryStaleTime is
stale: STALE set, READY clear. A field side without a down frame for its watchdog time is held off, its pending entries gone, its
outputs low. The one pending entry of a field side not held off, once its instant has come, gives its level and leaves. Rests on
12_field_io.md (parts of R342, R344, R347, R348, R349, R350). -/
def Obligations.FerryLinksAct : Prop :=
  (∀ (t : Nat) (g : Nat) (s : State),
      g < 4 →
      bitOf s.boot.offHalt 7 = false →
      (s.advance t).downDue g = true →
      tabSorted none s.ferry = true →
      ∃ s', exec (.ferryDownFrame t g) s = .next s' ∧ (s'.group g).seq = ((s.group g).seq + 1) % 256 ∧ (s'.group g).wait = (s.group g).wait.drop (min 4 (min (s.group g).free (s.group g).wait.length)) ∧ (s'.group g).release = false) ∧
  (∀ (t : Nat) (g : Nat) (b : List Byte) (s : State),
      g < 4 →
      b.length ≠ 40 ∨ fld b 38 2 ≠ crc16 (b.take 38) →
      exec (.ferryDownFrameReceived t g b) s = .next ((((s.advance t).inc P.FerryCheckErrors g).setGroup g { s.group g with downOk := 0, lockRun := 0 }).ferryReady g)) ∧
  (∀ (t : Nat) (g : Nat) (b : List Byte) (s : State),
      g < 4 →
      tabSorted none s.ferry = true →
      b.length = 40 →
      fld b 38 2 = crc16 (b.take 38) →
      fld b 10 2 ≤ 300 →
      (s.advance t).fieldNow g ≤ fld b 2 8 + 1000 →
      ∃ s', exec (.ferryDownFrameReceived t g b) s = .next s' ∧ (s'.group g).answer = some (fld b 0 1, fld b 2 8) ∧ (s'.group g).lastDown = (s.advance t).time.tick ∧ (s'.group g).wait = (s.group g).wait) ∧
  (∀ (t : Nat) (g : Nat) (s : State),
      g < 4 →
      (s.group g).answer = none →
      exec (.ferryUpFrame t g) s = .next ((s.advance t))) ∧
  (∀ (t : Nat) (g : Nat) (a : Nat × Nat) (s : State),
      g < 4 →
      tabSorted none s.ferry = true →
      (s.group g).answer = some a →
      a.2 + 1000 ≤ (s.advance t).fieldNow g →
      ∃ s', exec (.ferryUpFrame t g) s = .next s' ∧ (s'.group g).answer = none ∧ ∃ b, s'.sent = .frame .ferryUp g b :: s.sent ∧ b.length = 46) ∧
  (∀ (t : Nat) (g : Nat) (b : List Byte) (s : State),
      g < 4 →
      b.length ≠ 46 ∨ fld b 44 2 ≠ crc16 (b.take 44) →
      exec (.ferryUpFrameReceived t g b) s = .next (((((s.advance t).inc P.FerryCheckErrors g).inc P.FerryMissed g).setGroup g { s.group g with upOk := 0, downs := (s.group g).downs.tail }).ferryReady g)) ∧
  (∀ (t : Nat) (g : Nat) (b : List Byte) (d : Nat × Nat × Nat × Nat) (s : State),
      g < 4 →
      tabSorted none s.ferry = true →
      s.ordered →
      b.length = 46 →
      fld b 44 2 = crc16 (b.take 44) →
      fld b 10 1 % 16 = 0 →
      (s.group g).downs.find? (fun d => d.1 == fld b 0 1) = some d →
      ∃ s', exec (.ferryUpFrameReceived t g b) s = .next s' ∧ (s'.group g).upG = d.2.1 ∧ (s'.group g).upTick = (s.advance t).time.tick ∧ s'.rd P.DiState 0 = putBits (s.rd P.DiState 0) (8 * g) 8 (fld b 2 1) ∧ s'.rd P.LiState 0 = putBits (s.rd P.LiState 0) (4 * g) 4 (fld b 3 1)) ∧
  (∀ (t : Nat) (g : Nat) (s : State),
      g < 4 →
      tabSorted none s.ferry = true →
      s.ordered →
      bitOf (s.rd P.FerryState g) fySTALE = false →
      roundHE (s.rf P.FerryStaleTime g * 1000) ≤ ((s.advance t).time.tick : Int) - (s.group g).upTick →
      ∃ s', exec (.ferryStale t g) s = .next s' ∧ bitOf (s'.rd P.FerryState g) fySTALE = true ∧ bitOf (s'.rd P.FerryState g) fyREADY = false ∧ (s'.group g).upOk = 0) ∧
  (∀ (t : Nat) (g : Nat) (s : State),
      g < 4 →
      tabSorted none s.ferry = true →
      10 * (s.group g).setting 14 10000 ≤ (s.advance t).time.tick - (s.group g).lastDown →
      ∃ s', exec (.ferryWatchdog t g) s = .next s' ∧ (s'.group g).held = true ∧ (s'.group g).pend = [] ∧ (s'.group g).drive = 0) ∧
  (∀ (t : Nat) (g : Nat) (e : FEntry) (s : State),
      g < 4 →
      tabSorted none s.ferry = true →
      (s.group g).pend = [e] →
      e.at_ ≤ (s.advance t).fieldNow g →
      (s.group g).held = false →
      ∃ s', exec (.fieldEntryApply t g) s = .next s' ∧ (s'.group g).pend = [] ∧ (s'.group g).lvl = setBit (s.group g).lvl e.out e.level)

/-- What field inputs, output diagnosis, the field supply and the field I/O requests do: the cases listed. Fast inputs and outputs are 0 to
15, inputs 0 to 47 (from 32 on the fast ones), groups 0 to 3. A fast-input edge with fewer than 64 held gives the level (setLevels) and
is held with its time less the filter time; with 64 held LiLost increments and its event is raised. A level of an input 0 to 31 that has
stood for its filter time or of a fast input becomes the group's; before that it has no effect. A wire break of an input 0 to 31 that is
checked is noted and reported, once; the end of one of a fast input is noted. An overload not yet latched is latched, counted and
reported. It clears when the level has been off for 10 ms. A fed-back output whose level is off is noted and reported, once; its end is
noted. A low supply is noted and reported, once; its end is noted. IoSnapshot answers DiState, LiState, DqState, the four FerryState and
the time of each group's levels. DqWrite of outputs that no locked or staged copy, compare unit or front end holds is stored as a commit
for its target cycle, which meets its deadline, and answered 0x0102; DqRelease of settled groups likewise. Rests on 12_field_io.md
(parts of R337, R338, R339, R340, R341, R345, R346, R351, R354). -/
def Obligations.FieldInputsAndOutputsAct : Prop :=
  (∀ (t : Nat) (i : Nat) (v : Bool) (s : State),
      i < 16 →
      (s.group (i / 4)).edges.length < 64 →
      exec (.fastInputEdge t i v) s = .next ((s.advance t).setGroup (i / 4) { (s.group (i / 4)).setLevels ((s.advance t).fieldNow (i / 4)) (s.group (i / 4)).di (setBit (s.group (i / 4)).li (i % 4) v) with edges := (s.group (i / 4)).edges ++
      [{ stamp := (s.advance t).fieldNow (i / 4) - 10 * (s.group (i / 4)).setting (9 + i % 4) 20, inp := i % 4, rising := v }] })) ∧
  (∀ (t : Nat) (i : Nat) (v : Bool) (s : State),
      i < 16 →
      64 ≤ (s.group (i / 4)).edges.length →
      exec (.fastInputEdge t i v) s = .next ((((s.advance t).setGroup (i / 4) ((s.group (i / 4)).setLevels ((s.advance t).fieldNow (i / 4)) (s.group (i / 4)).di (setBit (s.group (i / 4)).li (i % 4) v))).inc P.LiLost i).raise E.fastInputEdgesLost i [])) ∧
  (∀ (t : Nat) (i : Nat) (x : InputLevel) (s : State),
      i < 32 →
      x.since + 10 * (s.group (i / 8)).setting (1 + i % 8) 300000 ≤ (s.advance t).time.tick →
      exec (.inputFilterExpiry t i x) s = .next ((s.advance t).setGroup (i / 8) ((s.group (i / 8)).setLevels ((s.advance t).fieldNow (i / 8)) (setBit (s.group (i / 8)).di (i % 8) x.level) (s.group (i / 8)).li))) ∧
  (∀ (t : Nat) (i : Nat) (x : InputLevel) (s : State),
      32 ≤ i →
      i < 48 →
      x.since + 10 * (s.group ((i - 32) / 4)).setting (9 + (i - 32) % 4) 20 ≤ (s.advance t).time.tick →
      exec (.inputFilterExpiry t i x) s = .next ((s.advance t).setGroup ((i - 32) / 4) ((s.group ((i - 32) / 4)).setLevels ((s.advance t).fieldNow ((i - 32) / 4)) (s.group ((i - 32) / 4)).di (setBit (s.group ((i - 32) / 4)).li ((i - 32) % 4) x.level)))) ∧
  (∀ (t : Nat) (i : Nat) (x : InputLevel) (s : State),
      i < 32 →
      (s.advance t).time.tick < x.since + 10 * (s.group (i / 8)).setting (1 + i % 8) 300000 →
      exec (.inputFilterExpiry t i x) s = .next ((s.advance t))) ∧
  (∀ (t : Nat) (i : Nat) (s : State),
      i < 32 →
      bitOf ((s.group (i / 8)).setting 13 0) (i % 8) = true →
      bitOf (s.group (i / 8)).diWire (i % 8) = false →
      exec (.inputWireBreak t i true) s = .next (((s.advance t).setGroup (i / 8) { s.group (i / 8) with diWire := setBit (s.group (i / 8)).diWire (i % 8) true }).raise E.inputWireBreak i [])) ∧
  (∀ (t : Nat) (i : Nat) (s : State),
      32 ≤ i →
      i < 48 →
      exec (.inputWireBreak t i false) s = .next ((s.advance t).setGroup ((i - 32) / 4) { s.group ((i - 32) / 4) with liWire := setBit (s.group ((i - 32) / 4)).liWire ((i - 32) % 4) false })) ∧
  (∀ (t : Nat) (o : Nat) (s : State),
      o < 16 →
      bitOf (s.group (o / 4)).ovl (o % 4) = false →
      exec (.outputOverload t o) s = .next ((((s.advance t).putGroup (o / 4) { s.group (o / 4) with ovl := setBit (s.group (o / 4)).ovl (o % 4) true }).inc P.DqOverloads o).raise E.outputOverload o [])) ∧
  (∀ (t : Nat) (o : Nat) (s : State),
      o < 16 →
      bitOf (s.group (o / 4)).lvl (o % 4) = false →
      (s.group (o / 4)).offAt.getD (o % 4) 0 + 10000000 ≤ (s.advance t).time.tick →
      exec (.outputOverloadClear t o) s = .next ((s.advance t).putGroup (o / 4) { s.group (o / 4) with ovl := setBit (s.group (o / 4)).ovl (o % 4) false })) ∧
  (∀ (t : Nat) (o : Nat) (s : State),
      o < 16 →
      bitOf (s.group (o / 4)).lvl (o % 4) = false →
      bitOf (s.group (o / 4)).feed (o % 4) = false →
      exec (.outputFedBack t o true) s = .next (((s.advance t).setGroup (o / 4) { s.group (o / 4) with feed := setBit (s.group (o / 4)).feed (o % 4) true }).raise E.outputFedBack o [])) ∧
  (∀ (t : Nat) (o : Nat) (s : State),
      o < 16 →
      exec (.outputFedBack t o false) s = .next ((s.advance t).setGroup (o / 4) { s.group (o / 4) with feed := setBit (s.group (o / 4)).feed (o % 4) false })) ∧
  (∀ (t : Nat) (g : Nat) (s : State),
      g < 4 →
      (s.group g).low = false →
      exec (.fieldSupplyLow t g) s = .next (((s.advance t).setGroup g { s.group g with low := true }).raise E.fieldSupplyLow g [])) ∧
  (∀ (t : Nat) (g : Nat) (s : State),
      g < 4 →
      exec (.fieldSupplyRestored t g) s = .next ((s.advance t).setGroup g { s.group g with low := false })) ∧
  (∀ (t : Nat) (q : Req) (s : State),
      Served 0x0A01 q s →
      Answers (.ioSnapshot t q) s q 0 (leBytes 4 (s.rd P.DiState 0) ++ leBytes 4 (s.rd P.LiState 0) ++ leBytes 4 (s.rd P.DqState 0) ++
      ((List.range 4).flatMap fun g => leBytes 4 (s.rd P.FerryState g)) ++ ((List.range 4).flatMap fun g => leBytes 8 (s.group g).upG)) ((s.advance t))) ∧
  (∀ (t : Nat) (q : Req) (s : State),
      Served 0x0A02 q s →
      (s.advance t).late q.body 4 = false →
      ((bitList 16 (fld q.body 0 2)).all fun o => !(s.lockedCopy P.DqCommand o || s.dqOwner o == 1 || s.dqOwner o == 2 || s.stagedCopy P.DqCommand o)) = true →
      Commits (.dqWrite t q) s q ((s.advance t).tgt q.body 4) ((s.advance t))) ∧
  (∀ (t : Nat) (q : Req) (s : State),
      Served 0x0A03 q s →
      (s.advance t).late q.body 4 = false →
      ((bitList 4 (fld q.body 0 1)).all s.settled) = true →
      Commits (.dqRelease t q) s q ((s.advance t).tgt q.body 4) ((s.advance t)))

/-- How packets arrive, start, are assembled and time out, and how replies and events leave: the cases listed. The device is ready, service
core 2 and the interpreter run. A packet of good form and check value (parsePacket) for whose flow the queue has room joins the waiting
packets (joined), nothing is sent, and HostPackets of its transport increments; in recovery USB alone counts, and RS-485 not within its
gap. The packet whose turn it is (nextStart), within its TIMEOUT, no duplicate, undamaged, with an opcode of the table, and without MORE
or an open assembly, leaves the waiting packets and runs; with MORE it begins an assembly and is answered 0x0103; one that continues an
assembly of its sender, opcode, instance and next SEQ, without MORE, runs with the body assembled. A waiting packet whose TIMEOUT has
expired is answered 0x0201 and leaves. The oldest reply that waits for the reply ring is written where there is room (ringReply). The
oldest event of a USB or UDP destination with none lost leaves with the next number of its destination; one of PCI Express is written
into the event ring where there is room (ringPut): the tail moves, and the shadow of the ring pointers follows it; nothing goes to
RS-485. With a descriptor to fetch and fewer than 256 replies waiting, a descriptor is consumed, the shadow of the pointers is written,
and its packet arrives. Rests on 13_command_protocol.md (parts of R358, R361, R363, R364, R370, R373, R375, R376, R377). -/
def Obligations.HostPacketsMove : Prop :=
  (∀ (t : Nat) (tr : Transport) (sender : Nat) (bytes : List Byte) (q : Req) (s : State),
      s.wf →
      s.boot.ready = true →
      s.pr.restart = false →
      s.interpHalted = false →
      (s.boot.recovery = true → tr = .usb) →
      ¬(tr = .rs485 ∧ s.host.rsFrom ≤ (s.advance t).time.tick ∧ (s.advance t).time.tick < s.host.rsTo) →
      parsePacket ⟨tr, sender⟩ (s.advance t).time.tick bytes = some q →
      s.host.queueFull q = false →
      ∃ s', exec (.packetArrival t tr sender bytes) s = .next s' ∧ s'.host = { s.host with waiting := s.host.joined q } ∧
      s'.sent = s.sent ∧ s'.rd P.HostPackets (trNum tr) = (s.rd P.HostPackets (trNum tr) + 1) % 2 ^ 32) ∧
  (∀ (t : Nat) (flow : Nat) (q : Req) (r : OpRow) (s : State),
      s.host.nextStart = some q →
      q.flow = flow →
      s.interpHalted = false →
      s.host.running.length < 8 →
      (q.timeout = 0 ∨ (s.advance t).time.tick ≤ expiry q) →
      s.host.dupOf q = none →
      s.pr.damaged.contains q = false →
      opRow q.opcode = some r →
      ¬(q.gen = 1 ∧ (!r.g1 || q.more || q.noEvent) = true) →
      s.host.assemblies.find? (fun x => x.flow == q.flow) = none →
      q.more = false →
      q.body.length ≤ 262112 →
      exec (.packetStart t flow) s = .next ((s.advance t).setHost { s.host with
      waiting := s.host.waiting.erase q,
      assemblies := s.host.assemblies.filter (fun x => x.flow != q.flow),
      running := s.host.running ++ [q] })) ∧
  (∀ (t : Nat) (flow : Nat) (q : Req) (r : OpRow) (s : State),
      s.host.nextStart = some q →
      q.flow = flow →
      s.interpHalted = false →
      s.host.running.length < 8 →
      (q.timeout = 0 ∨ (s.advance t).time.tick ≤ expiry q) →
      s.host.dupOf q = none →
      s.pr.damaged.contains q = false →
      opRow q.opcode = some r →
      q.gen = 2 →
      instOk q.opcode q = true →
      s.host.assemblies.find? (fun x => x.flow == q.flow) = none →
      q.more = true →
      q.body.length ≤ 262112 →
      exec (.packetStart t flow) s = .next (((s.advance t).setHost { s.host with
      waiting := s.host.waiting.erase q, assemblies := { dest := q.dest, flow := q.flow, opcode := q.opcode, inst := q.inst, nextSeq := (q.seq + 1) % 2 ^ 32, body := q.body } ::
        s.host.assemblies.filter (fun x => x.flow != q.flow) }).reply q 0x0103 [])) ∧
  (∀ (t : Nat) (flow : Nat) (q : Req) (r : OpRow) (s : State) (a : Assembly),
      s.host.nextStart = some q →
      q.flow = flow →
      s.interpHalted = false →
      s.host.running.length < 8 →
      (q.timeout = 0 ∨ (s.advance t).time.tick ≤ expiry q) →
      s.host.dupOf q = none →
      s.pr.damaged.contains q = false →
      opRow q.opcode = some r →
      q.gen = 2 →
      s.host.assemblies.find? (fun x => x.flow == q.flow) = some a →
      a.dest = q.dest →
      a.opcode = q.opcode →
      a.inst = q.inst →
      a.nextSeq = q.seq →
      q.more = false →
      a.body.length + q.body.length ≤ 262112 →
      exec (.packetStart t flow) s = .next ((s.advance t).setHost { s.host with
      waiting := s.host.waiting.erase q, assemblies := s.host.assemblies.filter (fun x => x.flow != q.flow), running := s.host.running ++ [{ q with body := a.body ++ q.body }] })) ∧
  (∀ (t : Nat) (flow : Nat) (pos : Nat) (q : Req) (s : State),
      (s.host.waiting.filter (fun x => x.flow == flow))[pos]? = some q →
      q.timeout ≠ 0 →
      expiry q ≤ (s.advance t).time.tick →
      Answers (.commandTimedOut t flow pos) s q 0x0201 (refBytes 0 0 0) ((s.advance t).setHost { s.host with waiting := s.host.waiting.erase q })) ∧
  (∀ (t : Nat) (r : Reply) (rs : List Reply) (s : State) (s1 : State),
      s.host.replyWait = r :: rs →
      (s.advance t).ringReply r = some s1 →
      exec (.replyRelease t) s = .next (s1.setHost { s1.host with replyWait := rs })) ∧
  (∀ (t : Nat) (d : Dest) (e : Ev) (es : List Ev) (s : State),
      (d.tr = .usb ∨ d.tr = .udp) →
      (s.host.queue d).evs = e :: es →
      (s.host.queue d).dropped = 0 →
      exec (.eventSend t d) s = .next (((s.advance t).setHost (s.host.setQueue { s.host.queue d with
      evs := es, sentSeq := ((s.host.queue d).sentSeq + 1) % 2 ^ 32 })).out (.packet d (e.packet (((s.host.queue d).sentSeq + 1) % 2 ^ 32))))) ∧
  (∀ (t : Nat) (d : Dest) (e : Ev) (es : List Ev) (o : List Out) (tl : Nat) (s : State),
      d.tr = .pcie →
      s.host.regs.running = true →
      (s.host.queue d).evs = e :: es →
      (s.host.queue d).dropped = 0 →
      ringPut s.host.regs.evtBase s.host.regs.evtSize s.host.regs.evtHead s.host.regs.evtTail (e.packet (((s.host.queue d).sentSeq + 1) % 2 ^ 32)) = some (o, tl) →
      ∃ s', exec (.eventSend t d) s = .next s' ∧ s'.host.regs.evtTail = tl ∧ (s'.host.queue d).evs = es ∧
      s'.sent = ({ s.host.regs with evtTail := tl } : HostRegs).mirror ++ o ++ s.sent) ∧
  (∀ (t : Nat) (d : Dest) (s : State),
      d.tr = .rs485 →
      exec (.eventSend t d) s = .next (s.advance t)) ∧
  (∀ (t : Nat) (addr : Nat) (len : Nat) (bytes : List Byte) (s : State),
      s.host.regs.running = true →
      s.boot.ready = true →
      s.pr.restart = false →
      bitOf s.boot.offHalt 6 = false →
      s.host.regs.reqHead ≠ s.host.regs.reqTail →
      s.host.replyWait.length < 256 →
      bytes.length = len →
      exec (.descriptorFetch t addr len bytes) s =
      .next ((({ (s.advance t) with sent := ({ s.host.regs with reqHead := (s.host.regs.reqHead + 1) % s.host.regs.reqCount } : HostRegs).mirror ++ s.sent } : State).setRegs
        { s.host.regs with reqHead := (s.host.regs.reqHead + 1) % s.host.regs.reqCount }).arrive ⟨.pcie, 0⟩ bytes))

/-- What the registers of the PCI Express host block, its vectors and errors, host settings, ARP and ICMP echo do: the cases listed. A
doorbell acts while ENABLE is 1. The request doorbell sets the request tail, modulo the count of the ring; the reply doorbell the reply
head, modulo the size of its ring; the event doorbell the event head likewise. While ENABLE is 0 the three do nothing. The reset of the
host block gives every register its value after reset and discards the waiting replies and events, counted in HostRepliesLost and
HostEventsLost. A write of HB_ENABLE sets ENABLE, and RUNNING unless an error stands; 0 clears both. A read of EVT_LOST answers the
count and clears it. While ENABLE is 0: REQ_COUNT takes a power of 2 from 16 to 65,536; RPL_SIZE and EVT_SIZE take one from 65,536 to
16,777,216; a write of 8 bytes sets REQ_BASE and SHADOW_BASE, aligned to 16 bytes, RPL_BASE and EVT_BASE, aligned to 4,096; one of 4
bytes at their upper half sets that half. While ENABLE is 1 a write of these registers does nothing. IRQ_DELAY takes 0 to 1,000 at any
time. A write at the vector table sets the bytes of the vector from its offset on, at any time. A wanted vector that is not masked and
whose delay has passed since it last fired, fires: its pending and wanted bits clear and the time is noted. A bus error of cause 1 to 4
sets ERR, its cause and address, and stops RUNNING; no parameter changes. Once its reply has been sent, a host setting that waits takes
effect. An ARP request for the own IPv4 address is answered with the MAC address of port 0 and that address, most significant byte
first; an ICMP echo request for it with its bytes. Rests on 13_command_protocol.md (parts of R374, R376, R378, R379, R380, Table 13.10). -/
def Obligations.HostBlockRegistersAct : Prop :=
  (∀ (t : Nat) (v : Nat) (s : State),
      s.host.regs.enable = true →
      exec (.dbReqTailWrite t v) s = .next ((s.advance t).setRegs { s.host.regs with reqTail := v % s.host.regs.reqCount })) ∧
  (∀ (t : Nat) (v : Nat) (s : State),
      s.host.regs.enable = true →
      exec (.dbRplHeadWrite t v) s = .next ((s.advance t).setRegs { s.host.regs with rplHead := v % s.host.regs.rplSize })) ∧
  (∀ (t : Nat) (v : Nat) (s : State),
      s.host.regs.enable = true →
      exec (.dbEvtHeadWrite t v) s = .next ((s.advance t).setRegs { s.host.regs with evtHead := v % s.host.regs.evtSize })) ∧
  (∀ (t : Nat) (v : Nat) (s : State),
      s.host.regs.enable = false →
      exec (.dbReqTailWrite t v) s = .next (s.advance t) ∧ exec (.dbRplHeadWrite t v) s = .next (s.advance t) ∧ exec (.dbEvtHeadWrite t v) s = .next (s.advance t)) ∧
  (∀ (t : Nat) (s : State),
      s.wf →
      ∃ s', exec (.hbReset t) s = .next s' ∧ s'.host.regs = HostRegs.reset ∧ s'.host.replyWait = [] ∧ (s'.host.queue ⟨.pcie, 0⟩).evs = [] ∧
      s'.rd P.HostRepliesLost 0 = (s.rd P.HostRepliesLost 0 + s.host.replyWait.length) % 2 ^ 32 ∧
      s'.rd P.HostEventsLost 0 = (s.rd P.HostEventsLost 0 + (s.host.queue ⟨.pcie, 0⟩).evs.length) % 2 ^ 32) ∧
  (∀ (t : Nat) (on : Bool) (s : State),
      exec (.hbEnable t on) s = .next ((s.advance t).setRegs { s.host.regs with enable := on, running := on && !s.host.regs.err })) ∧
  (∀ (t : Nat) (s : State),
      exec (.hbEvtLostRead t) s = .next (((s.advance t).frame .regRead 0x0054 (leBytes 4 s.host.regs.evtLost)).setRegs { s.host.regs with evtLost := 0 })) ∧
  (∀ (t : Nat) (v : Nat) (s : State),
      s.host.regs.enable = false →
      pow2Between 16 65536 (v % 2 ^ 32) = true →
      exec (.registerWrite t 0x20 4 v) s = .next ((s.advance t).setRegs { s.host.regs with reqCount := v % 2 ^ 32 })) ∧
  (∀ (t : Nat) (v : Nat) (s : State),
      s.host.regs.enable = false →
      pow2Between 65536 16777216 (v % 2 ^ 32) = true →
      exec (.registerWrite t 0x30 4 v) s = .next ((s.advance t).setRegs { s.host.regs with rplSize := v % 2 ^ 32 }) ∧
      exec (.registerWrite t 0x40 4 v) s = .next ((s.advance t).setRegs { s.host.regs with evtSize := v % 2 ^ 32 })) ∧
  (∀ (t : Nat) (v : Nat) (s : State),
      s.host.regs.enable = false →
      v < 2 ^ 64 →
      exec (.registerWrite t 0x18 8 v) s = .next ((s.advance t).setRegs { s.host.regs with reqBase := v / 16 * 16 }) ∧
      exec (.registerWrite t 0x28 8 v) s = .next ((s.advance t).setRegs { s.host.regs with rplBase := v / 4096 * 4096 }) ∧
      exec (.registerWrite t 0x38 8 v) s = .next ((s.advance t).setRegs { s.host.regs with evtBase := v / 4096 * 4096 }) ∧
      exec (.registerWrite t 0x48 8 v) s = .next ((s.advance t).setRegs { s.host.regs with shadowBase := v / 16 * 16 })) ∧
  (∀ (t : Nat) (v : Nat) (s : State),
      s.host.regs.enable = false →
      v < 2 ^ 32 →
      s.host.regs.reqBase < 2 ^ 64 →
      s.host.regs.rplBase < 2 ^ 64 →
      s.host.regs.evtBase < 2 ^ 64 →
      s.host.regs.shadowBase < 2 ^ 64 →
      exec (.registerWrite t 0x1C 4 v) s = .next ((s.advance t).setRegs { s.host.regs with reqBase := (s.host.regs.reqBase % 2 ^ 32 + v * 2 ^ 32) / 16 * 16 }) ∧
      exec (.registerWrite t 0x2C 4 v) s = .next ((s.advance t).setRegs { s.host.regs with rplBase := (s.host.regs.rplBase % 2 ^ 32 + v * 2 ^ 32) / 4096 * 4096 }) ∧
      exec (.registerWrite t 0x3C 4 v) s = .next ((s.advance t).setRegs { s.host.regs with evtBase := (s.host.regs.evtBase % 2 ^ 32 + v * 2 ^ 32) / 4096 * 4096 }) ∧
      exec (.registerWrite t 0x4C 4 v) s = .next ((s.advance t).setRegs { s.host.regs with shadowBase := (s.host.regs.shadowBase % 2 ^ 32 + v * 2 ^ 32) / 16 * 16 })) ∧
  (∀ (t : Nat) (off : Nat) (size : Nat) (v : Nat) (s : State),
      s.host.regs.enable = true →
      off ∈ [0x18, 0x1C, 0x20, 0x28, 0x2C, 0x30, 0x38, 0x3C, 0x40, 0x48, 0x4C] →
      exec (.registerWrite t off size v) s = .next (s.advance t)) ∧
  (∀ (t : Nat) (v : Nat) (s : State),
      v % 2 ^ 32 % 1024 ≤ 1000 →
      exec (.registerWrite t 0x50 4 v) s = .next ((s.advance t).setRegs { s.host.regs with irqDelay := v % 2 ^ 32 % 1024 })) ∧
  (∀ (t : Nat) (k : Nat) (o : Nat) (size : Nat) (v : Nat) (s : State),
      k < 32 →
      o < 16 →
      exec (.registerWrite t (0x2000 + 16 * k + o) size v) s = .next ((s.advance t).setRegs { s.host.regs with
      mx := tabSet s.host.regs.mx (2 ^ 96) k (leNat (patch (leBytes 16 (tabGet s.host.regs.mx (2 ^ 96) k)) o (leBytes (min size (16 - o)) v))) })) ∧
  (∀ (t : Nat) (k : Nat) (s : State),
      k < 32 →
      bitOf s.host.regs.want k = true →
      bitOf (tabGet s.host.regs.mx (2 ^ 96) k) 96 = false →
      (tabGet s.host.regs.lastFire 0 k ≠ 0 → tabGet s.host.regs.lastFire 0 k - 1 + s.host.regs.irqDelay * 1000 ≤ (s.advance t).time.tick) →
      exec (.msixFire t k) s = .next (((s.advance t).out (.msix k)).setRegs { s.host.regs with
      pba := setBit s.host.regs.pba k false,
      want := setBit s.host.regs.want k false,
      lastFire := tabSet s.host.regs.lastFire 0 k ((s.advance t).time.tick + 1) })) ∧
  (∀ (t : Nat) (cause : Nat) (addr : Nat) (s : State),
      1 ≤ cause →
      cause ≤ 4 →
      ∃ s', exec (.hostBlockDmaError t cause addr) s = .next s' ∧ s'.host.regs.err = true ∧ s'.host.regs.cause = cause ∧
      s'.host.regs.errAddr = addr % 2 ^ 64 ∧ s'.host.regs.running = false ∧ s'.par = s.par) ∧
  (∀ (t : Nat) (idx : Nat) (i : Nat) (v : Nat) (s : State),
      idx ∈ [P.HostIpAddress, P.HostNetmask, P.HostGateway, P.HostUdpPort, P.HostRs485Baud, P.HostRs485Gap] →
      i < 65536 →
      s.host.pendingCfg = [(pkey idx i, v)] →
      exec (.hostConfigApply t) s = .next (((s.advance t).setHost { s.host with pendingCfg := [] }).wr idx i v)) ∧
  (∀ (t : Nat) (ip : Nat) (sender : Nat) (s : State),
      ip = s.rd P.HostIpAddress 0 →
      exec (.arpRequest t ip sender) s = .next ((s.advance t).frame .arp sender (beBytes 6 (s.rd P.SysMacBase 0) ++ beBytes 4 ip))) ∧
  (∀ (t : Nat) (ip : Nat) (sender : Nat) (bytes : List Byte) (s : State),
      ip = s.rd P.HostIpAddress 0 →
      exec (.icmpEchoRequest t ip sender bytes) s = .next ((s.advance t).frame .icmp sender bytes))

/-- What the parameter, staging, event and identity requests do where they are accepted: the cases listed. Each request has the form its
opcode takes. A row is that of the parameter named, which has the instance named; a write passes the checks of its parameter (writeBad)
and is stored in the form of its engine (writeForm). EventSubscribe with a family replaces the subscription of its sender, of which
there are at most 8, and over PCI Express names vector 1 or 3 to 31; without a family, not over PCI Express, it takes the sender's
subscription away. EventRead, M from 1 to 16, not over PCI Express and with none lost, answers the number and the M oldest events, or
all, and removes them. Identify answers unit ID, firmware version, protocol generation fields, transport, line address and the largest
packet. ParamRead answers index, type, size and value (readOf), and clears an RC parameter (afterRead). ParamReadList of 1 to 64 entries
answers each in turn (readEntry); for one entry with an existing instance, status 0, size and value. ParamWrite of an RW parameter
without STAGED, of those that take effect by a commit, puts the value in the shadow copy and is a commit for the next cycle that meets
the deadline; one of the load-all set, where it does not act at once, puts it in the shadow copy and is answered 0x0000; a host setting
waits for its reply; NtIncrement acts at once; LatArm acts at once. With STAGED the value goes to the shadow copy, joins the set it
belongs to, and is answered 0x0104. A W1C parameter loses the bits written 1 (clearBits). StageOpen opens an empty set of its scope
where none of that name is open; StageCommit of an open set that is not a group's, none of whose keys is locked, is a commit for its
target cycle, and locks the set with that COMMITID; that of a group sets GroupCycle of the group to the target besides; StageDiscard of
an open set restores the shadow copies it held and closes it. Rests on 00_scope.md, 01_architecture.md, 13_command_protocol.md (parts of
R12, R33, R35, R36, R366, R367, R372, R373). -/
def Obligations.InterpreterRequestsComplete : Prop :=
  (∀ (t : Nat) (q : Req) (s : State),
      Served 0x0107 q s →
      fld q.body 0 2 / 2 * 2 ≠ 0 →
      (q.dest.tr = .pcie → (fld q.body 3 1 == 1 || (decide (3 ≤ fld q.body 3 1) && decide (fld q.body 3 1 ≤ 31))) = true) →
      (s.host.subs.filter fun b => !(b.dest == q.dest)).length < 8 →
      Answers (.eventSubscribe t q) s q 0 ([]) ((s.advance t).setHost { s.host with subs := (s.host.subs.filter fun b => !(b.dest == q.dest)) ++ [{ dest := q.dest, families := fld q.body 0 2 / 2 * 2, level := fld q.body 2 1, vector := fld q.body 3 1 }] })) ∧
  (∀ (t : Nat) (q : Req) (s : State),
      Served 0x0107 q s →
      fld q.body 0 2 / 2 * 2 = 0 →
      q.dest.tr ≠ .pcie →
      Answers (.eventSubscribe t q) s q 0 ([]) ((s.advance t).setHost { s.host with subs := s.host.subs.filter fun b => !(b.dest == q.dest) })) ∧
  (∀ (t : Nat) (q : Req) (s : State),
      Served 0x0108 q s →
      1 ≤ fld q.body 0 1 →
      fld q.body 0 1 ≤ 16 →
      q.dest.tr ≠ .pcie →
      (s.host.queue q.dest).evs ≠ [] →
      (s.host.queue q.dest).dropped = 0 →
      Answers (.eventRead t q) s q 0 (leBytes 1 ((s.host.queue q.dest).evs.take (fld q.body 0 1)).length ++ [0, 0, 0] ++
      (((s.host.queue q.dest).evs.take (fld q.body 0 1)).map fun e => leBytes 2 e.code ++ leBytes 2 e.inst ++ pad4 e.body).flatten) ((s.advance t).setHost (s.host.setQueue { s.host.queue q.dest with evs := (s.host.queue q.dest).evs.drop (fld q.body 0 1) }))) ∧
  (∀ (t : Nat) (q : Req) (s : State),
      Served 0x0109 q s →
      Answers (.identify t q) s q 0 (leBytes 8 (s.rd P.SysUnitId 0) ++ leBytes 4 (s.rd P.SysFirmwareVersion 0) ++ leBytes 2 1 ++
      leBytes 1 (match q.dest.tr with | .pcie => 0 | .udp => 1 | .rs485 => 2 | .usb => 3) ++ leBytes 1 (s.rd P.LineAddress 0) ++ leBytes 4 (maxLen q.dest.tr q.gen)) ((s.advance t))) ∧
  (∀ (t : Nat) (q : Req) (s : State) (r : ParamRow),
      s.boot.recovery = false →
      s.host.broken.contains q = false →
      q.body.length = 4 →
      paramRow (fld q.body 0 2) = some r →
      hasInst r q.inst = true →
      Answers (.paramRead t q) s q 0 (leBytes 2 r.index ++ leBytes 1 (typeCode r.type) ++ leBytes 1 (typeSize r.type) ++
      leBytes (typeSize r.type) ((s.advance t).readOf r q.inst (bitOf (fld q.body 2 1) 0))) ((s.advance t).afterRead r q.inst)) ∧
  (∀ (t : Nat) (q : Req) (s : State) (n : Nat) (x : List Byte × State),
      Served 0x0103 q s →
      n = fld q.body 0 2 →
      1 ≤ n →
      n ≤ 64 →
      q.body.length = 4 + 8 * n →
      (x = (List.range n).foldl (fun (acc : List Byte × State) k =>
        (acc.1 ++ (acc.2.readEntry (fld q.body (4 + 8 * k) 2) (fld q.body (6 + 8 * k) 2) (bitOf (fld q.body (8 + 8 * k) 1) 0)).1,
          (acc.2.readEntry (fld q.body (4 + 8 * k) 2) (fld q.body (6 + 8 * k) 2) (bitOf (fld q.body (8 + 8 * k) 1) 0)).2)) ([], (s.advance t))) →
      Answers (.paramReadList t q) s q 0 (leBytes 2 n ++ [0, 0] ++ x.1) x.2) ∧
  (∀ (t : Nat) (q : Req) (s : State) (r : ParamRow),
      Served 0x0103 q s →
      q.body.length = 12 →
      fld q.body 0 2 = 1 →
      paramRow (fld q.body 4 2) = some r →
      hasInst r (fld q.body 6 2) = true →
      Answers (.paramReadList t q) s q 0 ([1, 0, 0, 0] ++ ([0, 0] ++ leBytes 1 (typeSize r.type) ++ [0] ++
      pad4 (leBytes (typeSize r.type) ((s.advance t).readOf r (fld q.body 6 2) (bitOf (fld q.body 8 1) 0))))) ((s.advance t).afterRead r (fld q.body 6 2))) ∧
  (∀ (t : Nat) (q : Req) (s : State) (r : ParamRow),
      s.boot.recovery = false →
      s.host.broken.contains q = false →
      paramRow (fld q.body 0 2) = some r →
      hasInst r q.inst = true →
      r.access = .rw →
      fld q.body 3 1 = typeSize r.type →
      q.body.length = 4 + typeSize r.type →
      bitOf (fld q.body 2 1) 0 = false →
      firstBad ((s.advance t).writeBad r q.inst (fld q.body 4 (typeSize r.type)) false) = none →
      r.index ≠ P.LatArm →
      r.index ≠ P.NtIncrement →
      loadSet.contains r.index = false →
      afterReply r.index = false →
      Commits (.paramWrite t q) s q (s.advance t).nextTarget ((s.advance t).wrShadow r.index q.inst ((s.advance t).writeForm r q.inst (fld q.body 4 (typeSize r.type))))) ∧
  (∀ (t : Nat) (q : Req) (s : State) (r : ParamRow),
      s.boot.recovery = false →
      s.host.broken.contains q = false →
      paramRow (fld q.body 0 2) = some r →
      hasInst r q.inst = true →
      r.access = .rw →
      fld q.body 3 1 = typeSize r.type →
      q.body.length = 4 + typeSize r.type →
      bitOf (fld q.body 2 1) 0 = false →
      firstBad ((s.advance t).writeBad r q.inst (fld q.body 4 (typeSize r.type)) false) = none →
      loadSet.contains r.index = true →
      s.modAtOnce q.inst = false →
      Answers (.paramWrite t q) s q 0 [] ((s.advance t).wrShadow r.index q.inst ((s.advance t).writeForm r q.inst (fld q.body 4 (typeSize r.type))))) ∧
  (∀ (t : Nat) (q : Req) (s : State) (r : ParamRow),
      s.boot.recovery = false →
      s.host.broken.contains q = false →
      paramRow (fld q.body 0 2) = some r →
      hasInst r q.inst = true →
      r.access = .rw →
      fld q.body 3 1 = typeSize r.type →
      q.body.length = 4 + typeSize r.type →
      bitOf (fld q.body 2 1) 0 = false →
      firstBad ((s.advance t).writeBad r q.inst (fld q.body 4 (typeSize r.type)) false) = none →
      afterReply r.index = true →
      Answers (.paramWrite t q) s q 0 [] ((s.advance t).setHost { s.host with pendingCfg := s.host.pendingCfg ++ [(pkey r.index q.inst, ((s.advance t).writeForm r q.inst (fld q.body 4 (typeSize r.type))))] })) ∧
  (∀ (t : Nat) (q : Req) (s : State) (r : ParamRow),
      s.boot.recovery = false →
      s.host.broken.contains q = false →
      paramRow (fld q.body 0 2) = some r →
      hasInst r q.inst = true →
      r.access = .rw →
      fld q.body 3 1 = typeSize r.type →
      q.body.length = 4 + typeSize r.type →
      bitOf (fld q.body 2 1) 0 = false →
      firstBad ((s.advance t).writeBad r q.inst (fld q.body 4 (typeSize r.type)) false) = none →
      r.index = P.NtIncrement →
      Answers (.paramWrite t q) s q 0 [] ((s.advance t).wr P.NtIncrement q.inst ((s.advance t).writeForm r q.inst (fld q.body 4 (typeSize r.type))))) ∧
  (∀ (t : Nat) (q : Req) (s : State) (r : ParamRow),
      s.boot.recovery = false →
      s.host.broken.contains q = false →
      paramRow (fld q.body 0 2) = some r →
      hasInst r q.inst = true →
      r.access = .rw →
      fld q.body 3 1 = typeSize r.type →
      q.body.length = 4 + typeSize r.type →
      bitOf (fld q.body 2 1) 0 = false →
      firstBad ((s.advance t).writeBad r q.inst (fld q.body 4 (typeSize r.type)) false) = none →
      r.index = P.LatArm →
      Answers (.paramWrite t q) s q 0 [] (((s.advance t).latArm q.inst ((s.advance t).writeForm r q.inst (fld q.body 4 (typeSize r.type)))).wr P.LatArm q.inst ((s.advance t).writeForm r q.inst (fld q.body 4 (typeSize r.type))))) ∧
  (∀ (t : Nat) (q : Req) (s : State) (r : ParamRow) (g : Staged),
      s.boot.recovery = false →
      s.host.broken.contains q = false →
      paramRow (fld q.body 0 2) = some r →
      hasInst r q.inst = true →
      r.access = .rw →
      fld q.body 3 1 = typeSize r.type →
      q.body.length = 4 + typeSize r.type →
      bitOf (fld q.body 2 1) 0 = true →
      firstBad ((s.advance t).writeBad r q.inst (fld q.body 4 (typeSize r.type)) true) = none →
      (s.advance t).setFor r q.inst = some g →
      Answers (.paramWrite t q) s q 0x0104 [] (((s.advance t).wrShadow r.index q.inst ((s.advance t).writeForm r q.inst (fld q.body 4 (typeSize r.type)))).joinSet g (pkey r.index q.inst))) ∧
  (∀ (t : Nat) (q : Req) (s : State) (r : ParamRow),
      s.boot.recovery = false →
      s.host.broken.contains q = false →
      paramRow (fld q.body 0 2) = some r →
      hasInst r q.inst = true →
      r.access = .w1c →
      fld q.body 3 1 = typeSize r.type →
      q.body.length = 4 + typeSize r.type →
      Answers (.paramWrite t q) s q 0 [] ((s.advance t).clearBits r.index q.inst ((s.advance t).writeForm r q.inst (fld q.body 4 (typeSize r.type))))) ∧
  (∀ (t : Nat) (q : Req) (s : State),
      Served 0x0104 q s →
      scopeBad q.body = false →
      s.namedSet (fld q.body 0 1) q.inst (fld q.body 1 1) = none →
      Answers (.stageOpen t q) s q 0 ([]) ({ (s.advance t) with par := { s.par with staged := s.par.staged ++ [{ scope := fld q.body 0 1, inst := q.inst, fam := fld q.body 1 1, keys := [], pending := none }] } })) ∧
  (∀ (t : Nat) (q : Req) (s : State) (g : Staged),
      Served 0x0105 q s →
      scopeBad q.body = false →
      s.namedSet (fld q.body 0 1) q.inst (fld q.body 1 1) = some g →
      g.scope ≠ 1 →
      (s.advance t).late q.body 4 = false →
      g.pending = none →
      g.keys.any (s.advance t).keyLocked = false →
      Commits (.stageCommit t q) s q ((s.advance t).tgt q.body 4) ((s.advance t).commitSet g s.par.nextId)) ∧
  (∀ (t : Nat) (q : Req) (s : State) (g : Staged),
      Served 0x0105 q s →
      scopeBad q.body = false →
      s.namedSet (fld q.body 0 1) q.inst (fld q.body 1 1) = some g →
      g.scope = 1 →
      (s.advance t).late q.body 4 = false →
      g.pending = none →
      g.keys.any (s.advance t).keyLocked = false →
      Commits (.stageCommit t q) s q ((s.advance t).tgt q.body 4) (((s.advance t).commitSet g s.par.nextId).wr P.GroupCycle g.inst ((s.advance t).tgt q.body 4))) ∧
  (∀ (t : Nat) (q : Req) (s : State) (g : Staged),
      Served 0x0106 q s →
      scopeBad q.body = false →
      s.namedSet (fld q.body 0 1) q.inst (fld q.body 1 1) = some g →
      g.pending = none →
      Answers (.stageDiscard t q) s q 0 ([]) (g.keys.foldl State.dropKey { (s.advance t) with par := { s.par with staged := s.par.staged.erase g } }))

/-- What threads, time slices, budgets, work items and service restarts do: the cases listed. Threads are 0 to 1,023, cores 0 to 5, flows 0
to 4,095. A firmware thread that is not running and becomes ready with a priority from 1 to 31 enters the ready order with it, for the
service cores alone unless the priority is 31. The first thread of a loaded and started task becomes ready with the priority of its
image, for the cores of its task. A time slice that ends on an idle core changes nothing; one of 100 µs, with a thread of the same
priority ready, gives the core to that thread, and the one it ends goes to the end of its order. A task thread that has used its budget
on an application core within the window leaves the core for the rest of it, and TaskOverruns of the task increments. A new window gives
every thread its budget again. A work item of a flow whose tag the poster may use (tagOk) joins the items of the flow; the item at the
front leaves when it ends. A service restart marks the services as restarting, discards the packets that wait or run, and increments
ProcServiceRestarts. When it is complete the mark goes and the event is raised. Rests on 14_processor_memory.md (parts of R387, R388,
R389, R390, R393). -/
def Obligations.SchedulerAndFlowsAct : Prop :=
  (∀ (t : Nat) (n : Nat) (p : Nat) (c : Nat) (s : State),
      tabSorted none s.pr.thr = true →
      n < 256 →
      s.threadIdle n = true →
      1 ≤ p →
      p ≤ 31 →
      ∃ s', exec (.threadReady t n 0xFE p c) s = .next s' ∧ ∃ r, s'.thread n = some r ∧ r.owner = fwOwner ∧ r.prio = p ∧ r.cores = (if p = 31 then c.land 0x3F else c.land 0x30) ∧ r.seq = s.pr.seq) ∧
  (∀ (t : Nat) (n : Nat) (k : Nat) (p : Nat) (c : Nat) (s : State),
      tabSorted none s.pr.thr = true →
      256 ≤ n →
      n < 1024 →
      k < 64 →
      s.rd P.TaskState k = 3 →
      s.threadIdle n = true →
      (s.pr.thr.any fun e => e.2.elim false (·.owner == k)) = false →
      ∃ s', exec (.threadReady t n k p c) s = .next s' ∧ ∃ r, s'.thread n = some r ∧ r.owner = k ∧ r.prio = fld ((s.taskR k).parts.flatMap (·.2)) 28 1 ∧ r.cores = s.rd P.TaskCores k) ∧
  (∀ (t : Nat) (c : Nat) (s : State),
      c < 6 →
      (s.coreR c).run = none →
      exec (.timeSliceExpiry t c) s = .next ((s.advance t))) ∧
  (∀ (t : Nat) (c : Nat) (m : Nat) (n : Nat) (r : ThrRec) (b : ThrRec) (r2 : ThrRec) (s : State),
      c < 6 →
      (s.coreR c).run = some m →
      s.thread m = some r →
      (s.advance t).bestThread c = some (n, b) →
      b.prio = r.prio →
      (s.coreR c).slice + 100000 ≤ (s.advance t).time.tick →
      ((s.advance t).coreRun c (some n)).thread m = some r2 →
      exec (.timeSliceExpiry t c) s = .next (((((s.advance t).coreRun c (some n)).setThread m (some { r2 with seq := ((s.advance t).coreRun c (some n)).pr.seq })).setPr
      { (((s.advance t).coreRun c (some n)).setThread m (some { r2 with seq := ((s.advance t).coreRun c (some n)).pr.seq })).pr with seq := ((s.advance t).coreRun c (some n)).pr.seq + 1 }).dispatch)) ∧
  (∀ (t : Nat) (n : Nat) (c : Nat) (r : ThrRec) (s : State),
      tabSorted none s.pr.thr = true →
      s.ordered →
      n < 1024 →
      c < 4 →
      c < s.pr.cores.length →
      s.thread n = some r →
      (s.coreR c).run = some n →
      r.owner < 64 →
      (s.advance t).lineNs % 1000000 ≠ 0 →
      s.rf P.TaskBudget r.owner * 10000 ≤ ((r.used.getD c 0 + ((s.advance t).time.tick - (s.coreR c).at_) : Nat) : Rat) →
      ∃ s', exec (.budgetExhausted t n c) s = .next s' ∧ s'.rd P.TaskOverruns r.owner = (s.rd P.TaskOverruns r.owner + 1) % 2 ^ 32 ∧ ∃ r', s'.thread n = some r' ∧ bitOf r'.spent c = true) ∧
  (∀ (t : Nat) (s : State),
      exec (.budgetWindow t) s = .next (((s.advance t).setPr { s.pr with
      thr := s.pr.thr.map fun e => (e.1, e.2.map fun r => { r with spent := 0, used := [0, 0, 0, 0] })
      cores := s.pr.cores.map fun c => { c with at_ := (s.advance t).time.tick } }).dispatch)) ∧
  (∀ (t : Nat) (f : Nat) (h : Nat) (x : Nat) (s : State),
      f < 4096 →
      tabSorted none s.pr.flows = true →
      (s.advance t).tagOk f ((s.thread h).elim fwOwner (·.owner)) = true →
      ∃ s', exec (.workItemPost t f h x) s = .next s' ∧ (s'.flow f).items = (s.flow f).items ++ [itemBytes f h x]) ∧
  (∀ (t : Nat) (f : Nat) (s : State),
      f < 4096 →
      tabSorted none s.pr.flows = true →
      ∃ s', exec (.workItemEnd t f) s = .next s' ∧ (s'.flow f).items = (s.flow f).items.tail) ∧
  (∀ (t : Nat) (s : State),
      s.ordered →
      ∃ s', exec (.serviceRestart t) s = .next s' ∧ s'.pr.restart = true ∧ s'.host.waiting = [] ∧ s'.host.running = [] ∧ s'.rd P.ProcServiceRestarts 0 = (s.rd P.ProcServiceRestarts 0 + 1) % 2 ^ 32) ∧
  (∀ (t : Nat) (s : State),
      s.pr.restart = true →
      s.boot.switch = none →
      exec (.serviceRestartComplete t) s = .next (((s.advance t).setPr { s.pr with restart := false }).raise E.serviceRestart 0 []))

/-- What user tasks, DMA channels, memory information and memory errors do: the cases listed. Task conditions name TaskState: 0 empty, 1
loading, 2 loaded, 3 running, 4 stopped, 5 faulted. TaskLoad of the first part of an image, at least its header and fewer bytes than its
size, into an empty task with memory for it keeps the part: state 1; one that is whole and passes its checks gives state 2. TaskStart of
a loaded, stopped or faulted task with memory for it is answered 0x0101: state 3, the request waits, its watchdog starts. TaskStop of a
running task is answered 0x0101: state 4, no start waits. TaskUnload of a task neither empty nor running empties it. TaskMap of whole
pages of a running task within its limit maps them. TaskMemRead of 1 to 65,536 mapped bytes answers them. MemInfo answers size, use and
retired pages of each partition. A fault of code 1 to 8 of a running task gives state 5. A watchdog that has expired, on a running task
that has one, gives state 5. A kick starts it anew. DMA channels 0 to 3 take a linked chain (dmaLinked) of the firmware when they are
not active; channels 4 to 15 one of a running task that owns the channel, or fewer than 4 while it has no owner. With no channel due a
burst moves nothing; otherwise, 1 µs after the last one, the channel due (dmaNext) moves the bytes up to the next page of source or
target, here for a channel of the firmware that does not reach the end of its descriptor. A corrected memory error increments the count
of its partition and of its page. One that is not correctable, in memory that nothing uses, is counted, its address kept and its page
retired. A patrol scrub notes its time. Rests on 14_processor_memory.md (parts of R391, R392, R394, R396, R397, R398, R400, R404, R405,
R408). -/
def Obligations.TasksAndMemoryAct : Prop :=
  (∀ (t : Nat) (q : Req) (s : State),
      Served 0x0D01 q s →
      tabSorted none s.pr.tasks = true →
      s.ordered →
      s.rd P.TaskState q.inst = 0 →
      fld q.body 0 4 = 0 →
      56 ≤ q.body.length →
      q.body.length - 8 < fld (q.body.drop 8) 4 4 →
      fld (q.body.drop 8) 4 4 ≤ s.partFree 4 →
      ∃ s', Answers (.taskLoad t q) s q 0 ([]) s' ∧ s'.rd P.TaskState q.inst = 1 ∧ (s'.taskR q.inst).parts = [(0, q.body.drop 8)]) ∧
  (∀ (t : Nat) (q : Req) (s : State),
      Served 0x0D01 q s →
      tabSorted none s.pr.tasks = true →
      s.ordered →
      s.rd P.TaskState q.inst = 0 →
      fld q.body 0 4 = 0 →
      56 ≤ q.body.length →
      fld (q.body.drop 8) 4 4 = q.body.length - 8 →
      imageBad (q.body.drop 8) = none →
      q.body.length - 8 ≤ s.partFree 4 →
      ∃ s', Answers (.taskLoad t q) s q 0 ([]) s' ∧ s'.rd P.TaskState q.inst = 2 ∧ (s'.taskR q.inst).parts = [(0, q.body.drop 8)]) ∧
  (∀ (t : Nat) (q : Req) (s : State),
      Served 0x0D02 q s →
      tabSorted none s.pr.tasks = true →
      s.ordered →
      s.rd P.TaskState q.inst = 2 ∨ s.rd P.TaskState q.inst = 4 ∨ s.rd P.TaskState q.inst = 5 →
      fld ((s.taskR q.inst).parts.flatMap (·.2)) 32 4 ≤ s.rd P.TaskMemLimit q.inst →
      fld ((s.taskR q.inst).parts.flatMap (·.2)) 32 4 * 1048576 ≤ s.partFree 4 + 4096 * (s.taskR q.inst).pages.length →
      ∃ s', Answers (.taskStart t q) s q 0x0101 ([]) s' ∧ s'.rd P.TaskState q.inst = 3 ∧ (s'.taskR q.inst).start = some q ∧ (s'.taskR q.inst).kick = (s.advance t).time.tick) ∧
  (∀ (t : Nat) (q : Req) (s : State),
      Served 0x0D03 q s →
      tabSorted none s.pr.tasks = true →
      s.ordered →
      s.rd P.TaskState q.inst = 3 →
      ∃ s', Answers (.taskStop t q) s q 0x0101 ([]) s' ∧ s'.rd P.TaskState q.inst = 4 ∧ (s'.taskR q.inst).start = none) ∧
  (∀ (t : Nat) (q : Req) (s : State),
      Served 0x0D04 q s →
      s.rd P.TaskState q.inst ≠ 0 →
      s.rd P.TaskState q.inst ≠ 3 →
      Answers (.taskUnload t q) s q 0 ([]) (((((s.advance t).setTask q.inst TaskRec.init).wr P.TaskState q.inst 0).wr P.TaskImageCrc q.inst 0).taskReport q.inst)) ∧
  (∀ (t : Nat) (q : Req) (s : State) (ps : Tab (Option Page)),
      Served 0x0D05 q s →
      tabSorted none s.pr.tasks = true →
      fld q.body 0 8 % 4096 = 0 →
      fld q.body 8 4 % 4096 = 0 →
      fld q.body 8 4 ≠ 0 →
      s.rd P.TaskState q.inst = 3 →
      ps = mapPages (s.taskR q.inst).pages (fld q.body 0 8 / 4096) (bitOf (fld q.body 12 1) 0) false (List.replicate (fld q.body 8 4 / 4096) []) →
      ps.length ≤ s.rd P.TaskMemLimit q.inst * 256 →
      4096 * (ps.length - (s.taskR q.inst).pages.length) ≤ s.partFree 4 →
      ∃ s', Answers (.taskMap t q) s q 0 ([]) s' ∧ (s'.taskR q.inst).pages = ps) ∧
  (∀ (t : Nat) (q : Req) (s : State) (b : List Byte),
      Served 0x0D06 q s →
      1 ≤ fld q.body 8 4 →
      fld q.body 8 4 ≤ 65536 →
      3 ≤ s.rd P.TaskState q.inst →
      s.taskBytes q.inst (fld q.body 0 8) (fld q.body 8 4) = some b →
      Answers (.taskMemRead t q) s q 0 (b) ((s.advance t))) ∧
  (∀ (t : Nat) (q : Req) (s : State),
      Served 0x0D07 q s →
      Answers (.memInfo t q) s q 0 ((List.range 5).flatMap (fun p => leBytes 4 (s.rd P.MemPartitionSize p)) ++ (List.range 5).flatMap (fun p => leBytes 4 (s.partUsedMb p)) ++
      (List.range 5).flatMap fun p => leBytes 4 (s.rd P.MemRetiredPages p)) ((s.advance t))) ∧
  (∀ (t : Nat) (k : Nat) (c : Nat) (n : Nat) (h : Nat) (pc : Nat) (x : Nat) (s : State),
      s.ordered →
      k < 64 →
      s.rd P.TaskState k = 3 →
      1 ≤ c →
      c ≤ 8 →
      ∃ s', exec (.taskFault t k c n h pc x) s = .next s' ∧ s'.rd P.TaskState k = 5) ∧
  (∀ (t : Nat) (k : Nat) (s : State),
      s.ordered →
      k < 64 →
      s.rd P.TaskState k = 3 →
      s.rf P.TaskWatchdog k ≠ 0 →
      s.rf P.TaskWatchdog k * 1000000 ≤ (((s.advance t).time.tick - (s.taskR k).kick : Nat) : Rat) →
      ∃ s', exec (.taskWatchdogExpiry t k) s = .next s' ∧ s'.rd P.TaskState k = 5) ∧
  (∀ (t : Nat) (k : Nat) (s : State),
      k < 64 →
      s.rd P.TaskState k = 3 →
      exec (.taskWatchdogKick t k) s = .next ((s.advance t).setTask k { s.taskR k with kick := (s.advance t).time.tick })) ∧
  (∀ (t : Nat) (c : Nat) (p : Nat) (l : List DmaDesc) (s : State),
      c < 4 →
      bitOf (s.rd P.DmaState c) 1 = false →
      dmaLinked l = true →
      exec (.dmaStart t c 0xFE p l) s = .next ((((((s.advance t).setChain c l).wr P.DmaOwner c 0xFE).wr P.DmaPriority c (min p 3)).wr P.DmaState c 3).wr P.DmaBytes c 0)) ∧
  (∀ (t : Nat) (c : Nat) (k : Nat) (p : Nat) (l : List DmaDesc) (s : State),
      4 ≤ c →
      c < 16 →
      k < 64 →
      s.rd P.TaskState k = 3 →
      s.rd P.DmaOwner c = k ∨ (s.rd P.DmaOwner c = 0xFF ∧ ((List.range 16).filter fun x => s.rd P.DmaOwner x == k).length < 4) →
      bitOf (s.rd P.DmaState c) 1 = false →
      dmaLinked l = true →
      exec (.dmaStart t c k p l) s = .next ((((((s.advance t).setChain c l).wr P.DmaOwner c k).wr P.DmaPriority c (min p 3)).wr P.DmaState c 3).wr P.DmaBytes c 0)) ∧
  (∀ (t : Nat) (s : State),
      s.dmaNext = none →
      exec (.dmaBurst t) s = .next ((s.advance t))) ∧
  (∀ (t : Nat) (c : Nat) (d : DmaDesc) (l : List DmaDesc) (n : Nat) (s : State),
      s.ordered →
      bitOf s.boot.offHalt 5 = false →
      s.pr.dmaAt = 0 ∨ s.pr.dmaAt + 999 ≤ (s.advance t).time.tick →
      s.dmaNext = some c →
      s.dmaChain c = d :: l →
      64 ≤ s.rd P.DmaOwner c →
      n = min (4096 - (dmaSrc d + s.rd P.DmaBytes c) % 4096) (4096 - (dmaDst d + s.rd P.DmaBytes c) % 4096) →
      s.rd P.DmaBytes c + n < dmaLen d →
      ∃ s', exec (.dmaBurst t) s = .next s' ∧ s'.rd P.DmaBytes c = s.rd P.DmaBytes c + n ∧ s'.pr.dmaLast = s.pr.dmaLast.set (s.rd P.DmaPriority c) c ∧ s'.pr.dmaAt = (s.advance t).time.tick + 1) ∧
  (∀ (t : Nat) (x : Nat) (b : Bool) (h : MemHit) (p : Nat) (s : State),
      s.ordered →
      tabSorted none s.pr.ecc = true →
      s.partOf x = some p →
      ∃ s', exec (.memoryEccError t x true b h) s = .next s' ∧ s'.rd P.MemEccCorrected p = (s.rd P.MemEccCorrected p + 1) % 2 ^ 32 ∧ tabGet s'.pr.ecc 0 (x / 4096) = tabGet s.pr.ecc 0 (x / 4096) + 1) ∧
  (∀ (t : Nat) (x : Nat) (b : Bool) (p : Nat) (s : State),
      s.ordered →
      s.partOf x = some p →
      ∃ s', exec (.memoryEccError t x false b .unused) s = .next s' ∧ s'.rd P.MemEccUncorrected p = (s.rd P.MemEccUncorrected p + 1) % 2 ^ 32 ∧ s'.rd P.MemEccLastAddr 0 = x ∧ s'.pr.retired.contains (x / 4096) = true) ∧
  (∀ (t : Nat) (s : State),
      exec (.patrolScrub t) s = .next ((s.advance t).setPr { s.pr with scrubAt := (s.advance t).time.tick }))

/-- Acquisition requests, frames, triggers, staging and read-out: the cases listed. AcqArm of a unit without a bad channel or bad settings,
at a cycle that is not too late, is a commit at its target cycle. AcqStop of a running unit is answered 0x0000 and marks the unit for
the stop at its next base sample. AcqStop of a unit that does not run is answered 0x0000 and changes nothing else. AcqForce of a unit in
AqState 1 or 2 is answered 0x0000 and marks the unit for the forced trigger. A unit in AqState 2 with a trigger found takes it at its
frame and time. A class 0 unit in AqState 2 and AqMode 2 whose AqAutoTimeout has passed at S(n) with no trigger found takes its present
frame at S(n), with the flags of a timeout. A class 1 unit does so at the last multiple of 10 ns of line time. A class 1 unit that runs
takes one base sample of its operands at the last multiple of 10 ns of line time, when it is inside a frame or its arming time has come.
A unit in AqState 2 and AqMode 2 whose AqAutoTimeout has passed with a trigger found takes that trigger. A block write takes the oldest
staged block out of the staging store and leaves the held blocks. A running unit whose staging store holds 65,536 bytes or more goes to
AqState 5 with flag 1 set and flag 0 clear. A running unit whose staging store has been below 16,384 bytes for 1 ms, with its divider
above AqDivider, is marked to halve it. AcqRead of 1 to 64 blocks of a capture the unit holds returns those blocks, each padded to 4,096
bytes. AcqCaptures returns the list of the captures held. AcqGrant to a thread in TaskState 3, with a base address that is a whole
multiple of 2,097,152, of a unit not granted to another, sets AqGrant, the window and flag 3. AcqRevoke is answered 0x0000 and takes the
grant back. Rests on 15_acquisition.md (parts of R411, R412, R416, R417, R418, R419, R420, R422, R425). -/
def Obligations.AcquisitionUnitsAct : Prop :=
  (∀ (t : Nat) (q : Req) (s : State),
      Served 0x0B01 q s →
      (s.advance t).badChan q.inst = none →
      (s.advance t).aqBad q.inst = false →
      (s.advance t).late q.body 0 = false →
      Commits (.acqArm t q) s q ((s.advance t).tgt q.body 0) ((s.advance t))) ∧
  (∀ (t : Nat) (q : Req) (s : State),
      Served 0x0B02 q s →
      s.aqRuns q.inst = true →
      Answers (.acqStop t q) s q 0 ([]) ((s.advance t).setAq q.inst { s.aqu q.inst with stop := true })) ∧
  (∀ (t : Nat) (q : Req) (s : State),
      Served 0x0B02 q s →
      s.aqRuns q.inst = false →
      Answers (.acqStop t q) s q 0 ([]) ((s.advance t))) ∧
  (∀ (t : Nat) (q : Req) (s : State),
      Served 0x0B03 q s →
      s.rd P.AqState q.inst = 1 ∨ s.rd P.AqState q.inst = 2 →
      Answers (.acqForce t q) s q 0 ([]) ((s.advance t).setAq q.inst { s.aqu q.inst with force := true })) ∧
  (∀ (t : Nat) (u : Nat) (f : Nat) (x : Nat) (s : State),
      u < 4 →
      (s.aqu u).cand = some (f, x) →
      s.rd P.AqState u = 2 →
      exec (.acqTrigger t u) s = .next ((s.advance t).aqTake u f x 32)) ∧
  (∀ (t : Nat) (u : Nat) (s : State),
      u < 4 →
      s.rd P.AqState u = 2 →
      s.rd P.AqMode u = 2 →
      s.rf P.AqAutoTimeout u * 1000000 ≤ ((s.time.lastS - (s.aqu u).waitAt : Nat) : Rat) →
      (s.aqu u).cand = none →
      s.rd P.AqClass u = 0 →
      exec (.acqAutoTimeout t u) s = .next ((s.advance t).aqTake u (s.aqu u).frame s.time.lastS (32 + 16))) ∧
  (∀ (t : Nat) (u : Nat) (s : State),
      u < 4 →
      s.rd P.AqState u = 2 →
      s.rd P.AqMode u = 2 →
      s.rf P.AqAutoTimeout u * 1000000 ≤ (((s.advance t).lineNs / 10 * 10 - (s.aqu u).waitAt : Nat) : Rat) →
      (s.aqu u).cand = none →
      s.rd P.AqClass u = 1 →
      exec (.acqAutoTimeout t u) s = .next ((s.advance t).aqTake u (s.aqu u).frame ((s.advance t).lineNs / 10 * 10) (32 + 16))) ∧
  (∀ (t : Nat) (u : Nat) (r : List Nat) (s : State),
      u < 4 →
      s.rd P.AqClass u = 1 →
      (s.advance t).aqRuns u = true →
      ¬(((s.advance t).aqu u).idx = 0 ∧ (s.advance t).lineNs / 10 * 10 < ((s.advance t).aqu u).waitAt) →
      exec (.acqFrameFormed t u [r]) s = .next (((s.advance t).fastRow u ((s.advance t).lineNs / 10 * 10) r).2.baseSample u ((s.advance t).fastRow u ((s.advance t).lineNs / 10 * 10) r).1 ((s.advance t).lineNs / 10 * 10) s.time.cycle false)) ∧
  (∀ (t : Nat) (u : Nat) (f : Nat) (x : Nat) (s : State),
      u < 4 →
      s.rd P.AqState u = 2 →
      s.rd P.AqMode u = 2 →
      s.rf P.AqAutoTimeout u * 1000000 ≤ (((s.advance t).baseTime u - (s.aqu u).waitAt : Nat) : Rat) →
      (s.aqu u).cand = some (f, x) →
      exec (.acqAutoTimeout t u) s = .next ((s.advance t).aqTake u f x 32)) ∧
  (∀ (t : Nat) (u : Nat) (s : State),
      u < 4 →
      tabSorted none s.aq = true →
      ∃ s', exec (.acqBlockWrite t u) s = .next s' ∧ (s'.aqu u).staged = (s.aqu u).staged.drop 1 ∧ (s'.aqu u).blocks = (s.aqu u).blocks) ∧
  (∀ (t : Nat) (u : Nat) (s : State),
      tabSorted none s.par.active = true →
      u < 4 →
      s.aqRuns u = true →
      65536 ≤ (s.aqu u).held →
      ∃ s', exec (.acqOverrun t u) s = .next s' ∧ s'.rd P.AqState u = 5 ∧ bitOf (s'.rd P.AqFlags u) 1 = true ∧ bitOf (s'.rd P.AqFlags u) 0 = false) ∧
  (∀ (t : Nat) (u : Nat) (s : State),
      u < 4 →
      s.aqRuns u = true →
      (s.aqu u).held < 16384 →
      (s.aqu u).lowAt + 1000000 ≤ (s.advance t).time.tick →
      s.rd P.AqDivider u < (s.aqu u).d →
      exec (.acqRateRestore t u) s = .next ((s.advance t).setAq u { s.aqu u with halve := true, lowAt := (s.advance t).time.tick })) ∧
  (∀ (t : Nat) (q : Req) (s : State) (c : AqCap),
      Served 0x0B04 q s →
      1 ≤ fld q.body 6 2 →
      fld q.body 6 2 ≤ 64 →
      (s.aqu q.inst).caps.find? (fun c => c.seq == fld q.body 0 4) = some c →
      Answers (.acqRead t q) s q 0 (leBytes 2 ((c.blocks.drop (fld q.body 4 2)).take (fld q.body 6 2)).length ++ [0, 0] ++
      ((c.blocks.drop (fld q.body 4 2)).take (fld q.body 6 2)).flatMap (fun b => padTo 4096 (tabGet (s.aqu q.inst).blocks [] b))) ((s.advance t))) ∧
  (∀ (t : Nat) (q : Req) (s : State),
      Served 0x0B05 q s →
      Answers (.acqCaptures t q) s q 0 (leBytes 2 (s.aqu q.inst).caps.length ++ [0, 0] ++
      (s.aqu q.inst).caps.flatMap fun c => leBytes 4 c.seq ++ leBytes 1 c.seg ++ leBytes 1 c.flags ++ [0, 0] ++ leBytes 8 c.ttrig) ((s.advance t))) ∧
  (∀ (t : Nat) (q : Req) (s : State),
      Served 0x0B06 q s →
      fld q.body 0 1 ≤ 63 →
      fld q.body 4 8 % 2097152 = 0 →
      s.rd P.TaskState (fld q.body 0 1) = 3 →
      s.rd P.AqGrant q.inst = 0xFF ∨ s.rd P.AqGrant q.inst = fld q.body 0 1 →
      Answers (.acqGrant t q) s q 0 ([]) ((((s.advance t).setAq q.inst { s.aqu q.inst with win := fld q.body 4 8 }).wr P.AqGrant q.inst (fld q.body 0 1)).wrBit P.AqFlags q.inst 3 true)) ∧
  (∀ (t : Nat) (q : Req) (s : State),
      Served 0x0B07 q s →
      Answers (.acqRevoke t q) s q 0 ([]) ((s.advance t).aqRevoke q.inst))

/-- The CAN requests: the cases listed. CanSend of a legal length on a free transmit object of a controller in mode 1 or 2 is answered
0x0101 and the send is pending with its data and its deadline. CanCancel of a pending send that is not being transmitted ends it with
0x0205 at once. CanCancel of a pending send that is being transmitted is answered 0x0101 and waits. CanRead of an object that holds
nothing answers four zero bytes. CanRead of an object that holds a record answers it and clears NEW and OVR. CanRxAllRead without filter
pairs, of a queue no longer than MAX, answers its records and empties it. CanRecover in bus off is answered 0x0101 and waits for the
recovery. Rests on 16_can.md (parts of R432, R434, R435, R437, R439, R445). -/
def Obligations.CanRequestsComplete : Prop :=
  (∀ (t : Nat) (q : Req) (s : State),
      Served 0x0C01 q s →
      q.body.length = 8 + fld q.body 1 1 →
      lenLegal (bitOf (s.rd P.CanObjFlags q.inst) 2) (fld q.body 1 1) = true →
      s.rd P.CanObjKind q.inst = 1 →
      bitOf (s.rd P.CanObjState q.inst) coPENDING = false →
      s.rd P.CanMode (q.inst / 100) = 1 ∨ s.rd P.CanMode (q.inst / 100) = 2 →
      Answers (.canSend t q) s q 0x0101 (crBytes 0xFFFFFFFF s.par.nextId) (((({ (s.advance t) with par := { s.par with nextId := bumpId s.par.nextId } } : State).setCanO q.inst { s.canO q.inst with
      data := q.body.drop 8, send := some (s.par.nextId, q),
      deadline := if fld q.body 4 4 = 0 then none else some ((s.advance t).time.tick + 1000 * fld q.body 4 4), cancels := [], consec := 0 }).wrBit
        P.CanObjState q.inst coPENDING true).wrBit P.CanObjState q.inst coSTOPPED false)) ∧
  (∀ (t : Nat) (q : Req) (s : State),
      Served 0x0C02 q s →
      bitOf (s.rd P.CanObjState q.inst) coPENDING = true →
      (s.canC (q.inst / 100)).cur ≠ some (q.inst % 100) →
      Answers (.canCancel t q) s q 0 ([]) ((s.advance t).canSendEnd q.inst 0x0205 0xFFFFFFFF 0 0)) ∧
  (∀ (t : Nat) (q : Req) (s : State),
      Served 0x0C02 q s →
      bitOf (s.rd P.CanObjState q.inst) coPENDING = true →
      (s.canC (q.inst / 100)).cur = some (q.inst % 100) →
      Answers (.canCancel t q) s q 0x0101 (crBytes 0xFFFFFFFF s.par.nextId) ((({ (s.advance t) with par := { s.par with nextId := bumpId s.par.nextId } } : State).setCanO q.inst { s.canO q.inst with
      cancels := (s.canO q.inst).cancels ++ [(s.par.nextId, q)] }).wrBit P.CanObjState q.inst coCANCEL true)) ∧
  (∀ (t : Nat) (q : Req) (s : State),
      Served 0x0C03 q s →
      (s.canO q.inst).held = none →
      Answers (.canRead t q) s q 0 ([0, 0, 0, 0]) ((s.advance t))) ∧
  (∀ (t : Nat) (q : Req) (s : State) (b : List Byte),
      Served 0x0C03 q s →
      (s.canO q.inst).held = some b →
      Answers (.canRead t q) s q 0 ([1, 0, 0, 0] ++ b) (((s.advance t).wrBit P.CanObjState q.inst coNEW false).wrBit P.CanObjState q.inst coOVR false)) ∧
  (∀ (t : Nat) (q : Req) (s : State),
      Served 0x0C04 q s →
      tabSorted none s.par.active = true →
      tabSorted none s.can = true →
      q.body.length = 4 →
      fld q.body 3 1 = 0 →
      1 ≤ fld q.body 0 2 →
      fld q.body 0 2 ≤ 64 →
      (s.canC q.inst).rx.length ≤ fld q.body 0 2 →
      ∃ s', Answers (.canRxAllRead t q) s q 0 (leBytes 2 (s.canC q.inst).rx.length ++ leBytes 1 (if (s.canC q.inst).ovf then 1 else 0) ++ [0] ++ (s.canC q.inst).rx.flatten) s' ∧ (s'.canC q.inst).rx = [] ∧ s'.rd P.CanRxAllFill q.inst = 0) ∧
  (∀ (t : Nat) (q : Req) (s : State),
      Served 0x0C05 q s →
      s.rd P.CanState q.inst = 4 →
      Answers (.canRecover t q) s q 0x0101 ([]) ((s.advance t).setCanC q.inst { s.canC q.inst with recovers := (s.canC q.inst).recovers ++ [q] }))

/-- CAN frames, attempts, errors, recovery and the Bellman reference: the cases listed. A frame received by a controller that is not on the
bus changes nothing. A frame received on the bus goes to the object that takes it, which holds its record and sets NEW. A transmission
starts with the waiting object that the arbitration of the controller's own frames chooses. A transmission that completes ends its send
and is counted. A send that loses arbitration, has no cancel waiting and is not one-shot waits to start again. Arbitration lost without
a transmission changes nothing. An error on a controller that is not on the bus changes nothing. An error on a frame received is kept in
CanLastError and adds 1 to the receive error counter. A send whose TIMEOUT has passed while it is not being transmitted ends with
0x0239. Bus integration leads to state 2. A bus-off recovery that is automatic or asked for leads to state 2, with no recovery waiting
and the error counters 0. A Bellman reference that is due waits to be sent. Rests on 16_can.md (parts of R427, R431, R432, R435, R436,
R439, R440). -/
def Obligations.CanTrafficActs : Prop :=
  (∀ (t : Nat) (c : Nat) (f : CanFrame) (s : State),
      c < 2 →
      s.canOn c = false →
      exec (.canFrameReceived t c f) s = .next ((s.advance t))) ∧
  (∀ (t : Nat) (c : Nat) (f : CanFrame) (o : Nat) (s : State),
      c < 2 →
      tabSorted none s.par.active = true →
      tabSorted none s.canObj = true →
      s.canOn c = true →
      (s.canC c).cur = none →
      s.rd P.CanMode c ≠ 1 ∨ f.fdf = false →
      f.rtr = false →
      s.canTaker c f = some o →
      ∃ s', exec (.canFrameReceived t c f) s = .next s' ∧ (s'.canO (100 * c + o)).held = some (canRecord f.stamp f.id f.ide f.fdf f.brs f.esi f.rtr f.dlc o f.data) ∧ bitOf (s'.rd P.CanObjState (100 * c + o)) coNEW = true) ∧
  (∀ (t : Nat) (c : Nat) (d : Nat) (o : Nat) (s : State),
      c < 2 →
      tabSorted none s.can = true →
      s.canSends c = true →
      (s.canC c).cur = none →
      (s.advance t).canBest c = some o →
      ∃ s', exec (.canTransmitStart t ⟨c, d⟩) s = .next s' ∧ (s'.canC c).cur = some o ∧ (s'.canC c).cycle = s.time.cycle) ∧
  (∀ (t : Nat) (c : Nat) (o : Nat) (s : State),
      c < 2 →
      tabSorted none s.par.active = true →
      tabSorted none s.can = true →
      tabSorted none s.canObj = true →
      (s.canC c).cur = some o →
      o < 100 →
      ∃ s', exec (.canTxComplete t c) s = .next s' ∧ (s'.canC c).cur = none ∧ (s'.canO (100 * c + o)).send = none ∧ s'.rd P.CanFramesTx c = (s.rd P.CanFramesTx c + 1) % 2 ^ 32) ∧
  (∀ (t : Nat) (c : Nat) (o : Nat) (s : State),
      c < 2 →
      (s.canC c).cur = some o →
      o < 100 →
      (s.canO (100 * c + o)).cancels = [] →
      bitOf (s.rd P.CanObjFlags (100 * c + o)) 1 = false →
      exec (.canArbitrationLost t c) s = .next (((s.advance t).attemptOver c).wrBit P.CanObjState (100 * c + o) coSTARTED false)) ∧
  (∀ (t : Nat) (c : Nat) (s : State),
      c < 2 →
      (s.canC c).cur = none →
      exec (.canArbitrationLost t c) s = .next ((s.advance t))) ∧
  (∀ (t : Nat) (c : Nat) (e : CanErr) (s : State),
      c < 2 →
      s.canOn c = false →
      exec (.canError t c e) s = .next ((s.advance t))) ∧
  (∀ (t : Nat) (c : Nat) (e : CanErr) (s : State),
      c < 2 →
      tabSorted none s.par.active = true →
      s.canOn c = true →
      e.tx = false →
      e.fast = none →
      exec (.canError t c e) s = .next ((((s.advance t).wr P.CanLastError c e.kind).setCounters c (s.tec c) (s.rec' c + 1)).canRestate c)) ∧
  (∀ (t : Nat) (c : Nat) (o : Nat) (d : Nat) (s : State),
      c < 2 →
      o < 100 →
      (s.canO (100 * c + o)).send.isSome = true →
      (s.canO (100 * c + o)).deadline = some d →
      d ≤ (s.advance t).time.tick →
      (s.canC c).cur ≠ some o →
      exec (.canTxTimeout t c o) s = .next ((s.advance t).canSendEnd (100 * c + o) 0x0239 0xFFFFFFFF 0 0)) ∧
  (∀ (t : Nat) (c : Nat) (s : State),
      c < 2 →
      tabSorted none s.par.active = true →
      s.rd P.CanState c = 1 →
      s.tec c < 128 →
      s.rec' c < 128 →
      ∃ s', exec (.canBusIntegration t c) s = .next s' ∧ s'.rd P.CanState c = 2) ∧
  (∀ (t : Nat) (c : Nat) (s : State),
      c < 2 →
      tabSorted none s.par.active = true →
      tabSorted none s.can = true →
      s.rd P.CanState c = 4 →
      s.rd P.CanAutoRecover c ≠ 0 ∨ (s.canC c).recovers ≠ [] →
      ∃ s', exec (.canBusOffRecovery t c) s = .next s' ∧ s'.rd P.CanState c = 2 ∧ (s'.canC c).recovers = [] ∧ s'.rd P.CanErrorCounters c = 0) ∧
  (∀ (t : Nat) (c : Nat) (s : State),
      c < 2 →
      tabSorted none s.can = true →
      bitOf (s.rd P.BellState c) 0 = true →
      (((s.advance t).lineNs : Int) - roundHE (s.rf P.BellPhase c * 1000)) % (s.bellNs c) ≤ 1 →
      (s.canC c).bLast ≠ some ((((s.advance t).lineNs : Int) - roundHE (s.rf P.BellPhase c * 1000)) / (s.bellNs c)) →
      (s.canC c).cur = none →
      (s.canC c).bWait = 0 →
      ∃ s', exec (.bellmanDue t c) s = .next s' ∧ (s'.canC c).bWait = 1 ∧ (s'.canC c).bLast = some ((((s.advance t).lineNs : Int) - roundHE (s.rf P.BellPhase c * 1000)) / (s.bellNs c)))

/-- TimeStep and the PTP messages of the time service: the cases listed. The qualification of a master and the message layout are the
model's choices (log entries 55 and 56). TimeStep of at most NtJumpThreshold without FORCE, outside NtServoMode 2, adds DELTA to line
time. TimeStep with FORCE adds DELTA and clears JUMPHELD. TimeStep above NtJumpThreshold without FORCE is refused with 0x023E and
reported. A Sync of a source that is not selected changes nothing. A two-step Sync of the selected master is kept with its ingress time
for its Follow_Up. A one-step Sync outside NtServoMode 2 is kept as the last pair of times and leaves NtOffset. A one-step Sync in
NtServoMode 2 sets NtOffset to the difference of its two times less the path delay. A Follow_Up without a Sync that waits changes
nothing. The Follow_Up of the Sync that waits completes it with its corrected origin. A Delay_Resp without an exchange changes nothing.
The Delay_Resp of the open exchange closes it and sets the path delay to half the round trip. An Announce records its master and the
times of its last two Announces. A master heard twice within the announce interval, the only one, is selected and stands in
NtGrandmaster when the own clock is not a candidate. A selected master not announced for NtAnnounceTimeout is lost: HOLDOVER is set,
LOCKED is clear and the master is forgotten. With the own clock selected the loss check changes nothing. A first message of a kind whose
role the unit has is sent and its time kept. The grandmaster answers a Delay_Req. Rests on 17_network_time.md (parts of R449, R450,
R452, R453). -/
def Obligations.TimeServiceActs : Prop :=
  (∀ (t : Nat) (q : Req) (s : State),
      Served 0x0C20 q s →
      s.rd P.NtServoMode 0 ≠ 2 →
      bitOf (fld q.body 10 1) 0 = false →
      absR ((fldI q.body 0 8 * 65536 + fld q.body 8 2) : Rat) ≤ s.jump16 →
      Answers (.timeStep t q) s q 0 ([]) ((s.advance t).timeStep (fldI q.body 0 8 * 65536 + fld q.body 8 2))) ∧
  (∀ (t : Nat) (q : Req) (s : State),
      Served 0x0C20 q s →
      bitOf (fld q.body 10 1) 0 = true →
      Answers (.timeStep t q) s q 0 ([]) (((s.advance t).timeStep (fldI q.body 0 8 * 65536 + fld q.body 8 2)).wrBit P.NtState 0 ntJUMPHELD false)) ∧
  (∀ (t : Nat) (q : Req) (s : State),
      Served 0x0C20 q s →
      s.rd P.NtServoMode 0 ≠ 2 →
      bitOf (fld q.body 10 1) 0 = false →
      s.jump16 < absR ((fldI q.body 0 8 * 65536 + fld q.body 8 2) : Rat) →
      Answers (.timeStep t q) s q 0x023E (refBytes 0 0 0) ((s.advance t).stepRefused (fldI q.body 0 8 * 65536 + fld q.body 8 2))) ∧
  (∀ (t : Nat) (m : PtpMsg) (s : State),
      s.nt.sel ≠ some m.source →
      exec (.ptpSyncReceived t m) s = .next ((s.advance t))) ∧
  (∀ (t : Nat) (m : PtpMsg) (s : State),
      m.domain = s.rd P.NtDomain 0 →
      s.pr.restart = false →
      s.boot.ready = true →
      s.nt.sel = some m.source →
      m.twoStep = true →
      ∃ s', exec (.ptpSyncReceived t m) s = .next s' ∧ s'.nt.sync = some (m.seq, m.stamp, m.corr) ∧ s'.nt.syncAt = (s.advance t).time.tick ∧ s'.nt.lost = false) ∧
  (∀ (t : Nat) (m : PtpMsg) (s : State),
      m.domain = s.rd P.NtDomain 0 →
      s.pr.restart = false →
      s.boot.ready = true →
      tabSorted none s.par.active = true →
      s.nt.sel = some m.source →
      m.twoStep = false →
      s.rd P.NtServoMode 0 ≠ 2 →
      ∃ s', exec (.ptpSyncReceived t m) s = .next s' ∧ s'.nt.lastPair = some (((m.origin : Int) + m.corr).toNat, m.stamp) ∧ s'.rd P.NtOffset 0 = s.rd P.NtOffset 0) ∧
  (∀ (t : Nat) (m : PtpMsg) (s : State),
      m.domain = s.rd P.NtDomain 0 →
      s.pr.restart = false →
      s.boot.ready = true →
      tabSorted none s.par.active = true →
      s.nt.sel = some m.source →
      m.twoStep = false →
      s.rd P.NtServoMode 0 = 2 →
      ∃ s', exec (.ptpSyncReceived t m) s = .next s' ∧ s'.rd P.NtOffset 0 = ratToF32 (mkRat ((m.stamp : Int) - ((m.origin : Int) + m.corr) - s.nt.delay) 65536)) ∧
  (∀ (t : Nat) (m : PtpMsg) (s : State),
      s.nt.sync = none →
      exec (.followUpReceived t m) s = .next ((s.advance t))) ∧
  (∀ (t : Nat) (m : PtpMsg) (i : Nat) (c : Int) (s : State),
      m.domain = s.rd P.NtDomain 0 →
      s.pr.restart = false →
      s.boot.ready = true →
      s.nt.sel = some m.source →
      s.nt.sync = some (m.seq, i, c) →
      exec (.followUpReceived t m) s = .next (((s.advance t).setNt { s.nt with sync := none }).syncDone ((m.origin : Int) + m.corr + c) i)) ∧
  (∀ (t : Nat) (m : PtpMsg) (s : State),
      s.nt.req = none →
      exec (.delayRespReceived t m) s = .next ((s.advance t))) ∧
  (∀ (t : Nat) (m : PtpMsg) (out : Nat) (p : Nat × Nat) (s : State),
      m.domain = s.rd P.NtDomain 0 →
      s.pr.restart = false →
      s.boot.ready = true →
      s.nt.sel = some m.source →
      m.requester = Config.clockIdentity.toNat →
      s.nt.req = some (m.seq, out) →
      s.nt.lastPair = some p →
      ∃ s', exec (.delayRespReceived t m) s = .next s' ∧ s'.nt.req = none ∧ s'.nt.delay = (((p.2 : Int) - p.1) + ((m.origin : Int) - m.corr - out)) / 2) ∧
  (∀ (t : Nat) (m : PtpMsg) (s : State),
      m.domain = s.rd P.NtDomain 0 →
      s.pr.restart = false →
      s.boot.ready = true →
      m.source ≠ Config.clockIdentity.toNat →
      ∃ s', exec (.ptpAnnounceReceived t m) s = .next s' ∧ s'.nt.masters.head? = some { gm := m.gm, source := m.source, prevAt := (s.nt.masters.find? (fun x => x.source == m.source)).map (·.at_), at_ := (s.advance t).time.tick }) ∧
  (∀ (t : Nat) (m : PtpMsg) (x : PtpMaster) (s : State),
      m.domain = s.rd P.NtDomain 0 →
      s.pr.restart = false →
      s.boot.ready = true →
      m.source ≠ Config.clockIdentity.toNat →
      tabSorted none s.par.active = true →
      s.rd P.NtRole 0 = 0 →
      s.nt.masters = [x] →
      x.source = m.source →
      (s.advance t).time.tick ≤ x.at_ + 4000000000 →
      ∃ s', exec (.ptpAnnounceReceived t m) s = .next s' ∧ s'.nt.sel = some m.source ∧ s'.rd P.NtGrandmaster 0 = m.gm.getD 5 0) ∧
  (∀ (t : Nat) (x : Nat) (s : State),
      s.pr.restart = false →
      s.boot.ready = true →
      tabSorted none s.par.active = true →
      s.nt.sel = some x →
      s.nt.lost = false →
      s.nt.annAt + s.rd P.NtAnnounceTimeout 0 * 1000000000 ≤ (s.advance t).time.tick →
      ∃ s', exec (.ptpMasterLoss t) s = .next s' ∧ bitOf (s'.rd P.NtState 0) ntHOLDOVER = true ∧ bitOf (s'.rd P.NtState 0) ntLOCKED = false ∧ ∀ m ∈ s'.nt.masters, m.source ≠ x) ∧
  (∀ (t : Nat) (s : State),
      s.nt.sel = none →
      s.nt.own = true →
      exec (.ptpMasterLoss t) s = .next ((s.advance t))) ∧
  (∀ (t : Nat) (k : Nat) (s : State),
      k < 3 →
      s.pr.restart = false →
      s.boot.ready = true →
      s.nt.sentAt.length = 3 →
      s.nt.sentAt.getD k none = none →
      (if k = 2 then s.nt.sel.isSome else s.nt.own) = true →
      ∃ s', exec (.ptpMessageSend t k) s = .next s' ∧ s'.nt.sentAt.getD k none = some (s.advance t).time.tick ∧ ∃ b, s'.sent = .frame .ptp 2 b :: s.sent) ∧
  (∀ (t : Nat) (m : PtpMsg) (s : State),
      m.domain = s.rd P.NtDomain 0 →
      s.pr.restart = false →
      s.boot.ready = true →
      s.nt.own = true →
      exec (.delayReqReceived t m) s = .next ((s.advance t).frame .ptp m.port (ptpBytes 9 (s.ri P.NtDelayReqInterval 0) m.domain m.seq m.source m.corr m.stamp [])))

/-- The transparent clock, beacons and the line roll call: the cases listed. With the transparent clock off a message passes the switch
unchanged. With it on a one-step event message takes its residence time on. With it on a Follow_Up takes the residence time of its Sync
on, which is then forgotten. A Follow_Up time-out drops what is overdue. A Sync whose Follow_Up has not come for more than 100 ms is
dropped and counted. A beacon is sent on both ports when the last one is 100 ms or more ago. A beacon received names the neighbour at
its port and is timed. A neighbour not heard for more than 350 ms is lost and the line is not stable from then on. A neighbour heard
within the last 350 ms stays. A head on a line that has been stable for 2 s and has not called sends the start frames of a new call on
both ports. A unit with a neighbour behind it takes the next address, from a list below 32, and hands the list on. The last unit of the
line takes the next address, knows the count and answers with the end frame. A request frame at the head asks for a call; the first
request counts. A head whose own call runs and that receives the start frame of a lower unit ID becomes a follower. A call at the head
without an end frame for 100 ms is over, incomplete, and nobody waits. Without a call running a time-out changes nothing. A unit whose
retry is due sends a request frame. LineRollCall at the head is answered 0x0101, waits, and asks for a call. LineRollCall elsewhere is
answered 0x0101, waits, and sends a request frame towards the head. Rests on 17_network_time.md (parts of R455, R457, R458, R459, R463). -/
def Obligations.TransparentClockAndRollCallAct : Prop :=
  (∀ (t : Nat) (m : PtpMsg) (p r : Nat) (s : State),
      p < 2 →
      s.rb P.NtTcEnable 0 = false →
      exec (.ptpTransit t m p r) s = .next ((s.advance t).frame .ptp (1 - p) (transitBytes m m.corr))) ∧
  (∀ (t : Nat) (m : PtpMsg) (p r : Nat) (s : State),
      p < 2 →
      s.rb P.NtTcEnable 0 = true →
      m.kind = 0 ∧ m.twoStep = false ∨ m.kind = 1 ∨ m.kind = 9 →
      ∃ s', exec (.ptpTransit t m p r) s = .next s' ∧ s'.sent = .frame .ptp (1 - p) (transitBytes m (m.corr + r)) :: s.sent) ∧
  (∀ (t : Nat) (m : PtpMsg) (p r x : Nat) (s : State),
      p < 2 →
      s.rb P.NtTcEnable 0 = true →
      m.kind = 8 →
      s.nt.transit = [([m.source, m.seq, m.domain, p], x, (s.advance t).time.tick)] →
      ∃ s', exec (.ptpTransit t m p r) s = .next s' ∧ s'.sent = .frame .ptp (1 - p) (transitBytes m (m.corr + x)) :: s.sent ∧ s'.nt.transit = []) ∧
  (∀ (t : Nat) (s : State),
      exec (.followUpTimeout t) s = .next ((s.advance t).transitDrop)) ∧
  (∀ (t : Nat) (e : List Nat × Nat × Nat) (s : State),
      tabSorted none s.par.active = true →
      s.nt.transit = [e] →
      e.2.2 + 100000000 < (s.advance t).time.tick →
      ∃ s', exec (.followUpTimeout t) s = .next s' ∧ s'.nt.transit = [] ∧ s'.rd P.NtTcUnmatched 0 = (s.rd P.NtTcUnmatched 0 + 1) % 2 ^ 32) ∧
  (∀ (t : Nat) (s : State),
      s.roll.startAt = none →
      (∀ x ∈ s.roll.beaconAt, x + 100000000 ≤ (s.advance t).time.tick) →
      exec (.beaconSend t) s = .next ((((s.advance t).setRoll { s.roll with beaconAt := some (s.advance t).time.tick }).frame .beacon 0 (rollBytes 1 0 s.unitId 0)).frame .beacon 1 (rollBytes 1 0 s.unitId 0))) ∧
  (∀ (t : Nat) (p i : Nat) (s : State),
      p < 2 →
      s.roll.startAt = none →
      tabSorted none s.par.active = true →
      s.roll.seen.length = 2 →
      ∃ s', exec (.beaconReceived t p i) s = .next s' ∧ s'.rd P.LineNeighbour p = i ∧ s'.roll.seen.getD p none = some (s.advance t).time.tick) ∧
  (∀ (t : Nat) (p x : Nat) (s : State),
      p < 2 →
      s.roll.startAt = none →
      tabSorted none s.par.active = true →
      s.roll.seen.getD p none = some x →
      x + 350000000 < (s.advance t).time.tick →
      s.rd P.LineNeighbour p ≠ 0 →
      ∃ s', exec (.neighbourLost t p) s = .next s' ∧ s'.rd P.LineNeighbour p = 0 ∧ s'.roll.stableAt = (s.advance t).time.tick ∧ s'.roll.called = false) ∧
  (∀ (t : Nat) (p x : Nat) (s : State),
      p < 2 →
      s.roll.startAt = none →
      s.roll.seen.getD p none = some x →
      (s.advance t).time.tick ≤ x + 350000000 →
      exec (.neighbourLost t p) s = .next ((s.advance t))) ∧
  (∀ (t : Nat) (s : State),
      tabSorted none s.par.active = true →
      s.roll.startAt = none →
      s.rd P.LineNeighbour 0 = 0 →
      s.roll.called = false →
      s.roll.stableAt + 2000000000 ≤ (s.advance t).time.tick →
      ∃ s', exec (.rollCallStart t) s = .next s' ∧ s'.rd P.LineRollCallState 0 = 1 ∧ s'.roll.startAt = some (s.advance t).time.tick ∧ s'.roll.called = true ∧
        s'.sent = .frame .rollCall 1 (rollBytes 2 0 s.unitId s.roll.nextNum) :: .frame .rollCall 0 (rollBytes 2 0 s.unitId s.roll.nextNum) :: s.sent) ∧
  (∀ (t : Nat) (p : Nat) (f : RollFrame) (s : State),
      p = 0 →
      s.roll.startAt = none →
      tabSorted none s.par.active = true →
      f.kind = 3 →
      f.addr < 32 →
      s.rd P.LineNeighbour 1 ≠ 0 →
      s.rd P.LineEnable 0 = 0 →
      ∃ s', exec (.rollCallFrameReceived t p f) s = .next s' ∧ s'.rd P.LineAddress 0 = f.addr + 1 ∧ s'.sent = .frame .rollCall 1 (rollBytes 3 (f.addr + 1) s.unitId s.roll.num) :: s.sent) ∧
  (∀ (t : Nat) (p : Nat) (f : RollFrame) (s : State),
      p = 0 →
      s.roll.startAt = none →
      tabSorted none s.par.active = true →
      f.kind = 3 →
      f.addr < 32 →
      s.rd P.LineNeighbour 1 = 0 →
      s.rd P.LineNeighbour 0 ≠ 0 →
      s.rd P.LineEnable 0 = 0 →
      ∃ s', exec (.rollCallFrameReceived t p f) s = .next s' ∧ s'.rd P.LineAddress 0 = f.addr + 1 ∧ s'.rd P.LineCount 0 = f.addr + 1 ∧ s'.rd P.LineRollCallState 0 = 2 ∧
        .frame .rollCall 0 (rollBytes 4 (f.addr + 1) s.unitId s.roll.num) ∈ s'.sent) ∧
  (∀ (t : Nat) (p : Nat) (f : RollFrame) (s : State),
      p < 2 →
      s.roll.startAt = none →
      f.kind = 5 →
      s.rd P.LineNeighbour 0 = 0 →
      exec (.rollCallFrameReceived t p f) s = .next ((s.advance t).setRoll { s.roll with reqAt := some (s.roll.reqAt.getD (s.advance t).time.tick) })) ∧
  (∀ (t : Nat) (p : Nat) (f : RollFrame) (x : Nat) (s : State),
      p < 2 →
      tabSorted none s.par.active = true →
      s.roll.startAt = some x →
      s.roll.addrSent = true →
      s.rd P.LineNeighbour 0 = 0 →
      f.kind = 2 →
      f.id < s.unitId →
      ∃ s', exec (.rollCallFrameReceived t p f) s = .next s' ∧ s'.roll.follow = true ∧ s'.roll.startAt = none ∧ s'.rd P.LineRollCallState 0 = 3) ∧
  (∀ (t : Nat) (x : Nat) (s : State),
      tabSorted none s.par.active = true →
      s.roll.startAt = some x →
      s.roll.addrSent = true →
      s.rd P.LineNeighbour 0 = 0 →
      x + 100000000 ≤ (s.advance t).time.tick →
      ∃ s', exec (.rollCallTimeout t) s = .next s' ∧ s'.rd P.LineRollCallState 0 = 4 ∧ s'.roll.startAt = none ∧ s'.roll.waiting = []) ∧
  (∀ (t : Nat) (s : State),
      s.roll.startAt = none →
      exec (.rollCallTimeout t) s = .next ((s.advance t))) ∧
  (∀ (t : Nat) (x : Nat) (s : State),
      s.roll.startAt = none →
      s.roll.retryAt = some x →
      x ≤ (s.advance t).time.tick →
      exec (.rollCallRetry t) s = .next (((s.advance t).setRoll { s.roll with retryAt := none }).rollSend 0 5 0 s.unitId 0)) ∧
  (∀ (t : Nat) (q : Req) (s : State),
      Served 0x0C21 q s →
      s.rd P.LineNeighbour 0 = 0 →
      Answers (.lineRollCall t q) s q 0x0101 ([]) ((s.advance t).setRoll { s.roll with waiting := s.roll.waiting ++ [q], reqAt := some (s.roll.reqAt.getD (s.advance t).time.tick) })) ∧
  (∀ (t : Nat) (q : Req) (s : State),
      Served 0x0C21 q s →
      s.rd P.LineNeighbour 0 ≠ 0 →
      Answers (.lineRollCall t q) s q 0x0101 ([]) (((s.advance t).setRoll { s.roll with waiting := s.roll.waiting ++ [q] }).rollSend 0 5 0 s.unitId 0))

/-- Resets and the start of the image: the cases listed. After a reset the chip is in its ROM and not ready, with SysResetCause as said, no
commit and no shadow copy pending; the image store survives. That the queue of commands survives is the model's choice (log entry 1). A
power-up resets the chip with cause 1. A brown-out resets it with cause 3. A supply interruption of 5 ms or more resets it with cause 3.
A shorter one changes nothing. A system watchdog that is due resets it with cause 4. One that is not due changes nothing. SysReset with
FORCE resets it with cause 2 after its reply. SysReset without FORCE is refused 0x0217 while a front end runs. The ROM starts the
selected slot if it is valid, otherwise the other one with FALLBACK, otherwise recovery. A boot outside the ROM changes nothing. At
ready, with every island in its limits, the block accepts packets. With an island out of its limits it is not ready. A ready outside the
start of the firmware changes nothing. Rests on 18_startup.md, 20_module_hardware.md (parts of R464, R465, R468, R469, R471, R474,
R497). -/
def Obligations.ResetsAct : Prop :=
  (∀ (t : Nat) (s : State),
      ∃ s', exec (.powerUp t) s = .next s' ∧ s'.boot.phase = 0 ∧ s'.boot.ready = false ∧ s'.rd P.SysResetCause 0 = 1 ∧ s'.par.commits = [] ∧ s'.par.shadow = [] ∧ s'.boot.slots = s.boot.slots ∧ s'.pending = s.pending) ∧
  (∀ (t : Nat) (s : State),
      ∃ s', exec (.brownOut t) s = .next s' ∧ s'.boot.phase = 0 ∧ s'.boot.ready = false ∧ s'.rd P.SysResetCause 0 = 3 ∧ s'.par.commits = [] ∧ s'.par.shadow = [] ∧ s'.boot.slots = s.boot.slots ∧ s'.pending = s.pending) ∧
  (∀ (t : Nat) (ns : Nat) (s : State),
      5000000 ≤ ns →
      ∃ s', exec (.supplyInterruption t ns) s = .next s' ∧ s'.boot.phase = 0 ∧ s'.boot.ready = false ∧ s'.rd P.SysResetCause 0 = 3 ∧ s'.par.commits = [] ∧ s'.par.shadow = [] ∧ s'.boot.slots = s.boot.slots ∧ s'.pending = s.pending) ∧
  (∀ (t : Nat) (ns : Nat) (s : State),
      ns < 5000000 →
      exec (.supplyInterruption t ns) s = .next ((s.advance t))) ∧
  (∀ (t : Nat) (s : State),
      (s.advance t).watchdogDue = true →
      ∃ s', exec (.systemWatchdog t) s = .next s' ∧ s'.boot.phase = 0 ∧ s'.boot.ready = false ∧ s'.rd P.SysResetCause 0 = 4 ∧ s'.par.commits = [] ∧ s'.par.shadow = [] ∧ s'.boot.slots = s.boot.slots ∧ s'.pending = s.pending) ∧
  (∀ (t : Nat) (s : State),
      (s.advance t).watchdogDue = false →
      exec (.systemWatchdog t) s = .next ((s.advance t))) ∧
  (∀ (t : Nat) (q : Req) (s : State),
      Served 0x010A q s →
      bitOf (fld q.body 0 1) 0 = true →
      exec (.sysReset t q) s = .next ((((s.advance t).setBoot { s.boot with due := 1 }).reply q 0 []).chipReset 2 false)) ∧
  (∀ (t : Nat) (q : Req) (s : State),
      Served 0x010A q s →
      bitOf (fld q.body 0 1) 0 = false →
      s.rb P.FeState 0 = true →
      s.boot.due ≠ 1 →
      Answers (.sysReset t q) s q 0x0217 (refBytes 0 0 0) ((s.advance t))) ∧
  (∀ (t : Nat) (s : State),
      s.boot.phase = 0 →
      tabSorted none s.par.active = true →
      ∃ s', exec (.boot t) s = .next s' ∧ s'.boot.phase = 1 ∧ s'.time.lt = 0 ∧ s'.boot.recovery = (!s.slotOk (s.stored 0) && !s.slotOk (1 - s.stored 0)) ∧
        s'.rd P.SysBootState 0 = (if s.slotOk (s.stored 0) then 0 else if s.slotOk (1 - s.stored 0) then 1 else 2) ∧
        (s.slotOk (s.stored 0) = true → s'.rd P.SysBootSlot 0 = s.stored 0)) ∧
  (∀ (t : Nat) (s : State),
      s.boot.phase ≠ 0 →
      exec (.boot t) s = .next ((s.advance t))) ∧
  (∀ (t : Nat) (s : State),
      s.boot.phase = 1 →
      s.rd P.SysIslandState 0 = 0 →
      s.boot.islBadAt = none →
      ∃ s', exec (.ready t) s = .next s' ∧ s'.boot.phase = 2 ∧ s'.boot.ready = true) ∧
  (∀ (t : Nat) (s : State),
      s.rd P.SysIslandState 0 ≠ 0 →
      exec (.ready t) s = .next ((s.advance t))) ∧
  (∀ (t : Nat) (s : State),
      s.boot.phase ≠ 1 →
      exec (.ready t) s = .next ((s.advance t)))

/-- Boot record, auxiliary supplies and transceivers: the cases listed. SysBootStore is answered 0x0101 and puts the values, or the values
after reset, on their way into the boot record. When the record is written, the oldest copy holds the next sequence number and the
values. With nothing to store nothing changes. An overloaded auxiliary supply switches off, and its bit is set. It tries again 1 s
later, and its bit is clear when it is no longer overloaded. Before 1 s nothing changes. A transceiver put into a cage is reported as
present with its rate in the lock range, or as present with its transmitter off. A cage whose transceiver is taken out without a
transmit fault reads 0. Rests on 18_startup.md, 20_module_hardware.md (parts of R470, R479, R500, R503). -/
def Obligations.BootRecordSuppliesAndCagesAct : Prop :=
  (∀ (t : Nat) (q : Req) (s : State),
      Served 0x010B q s →
      Answers (.sysBootStore t q) s q 0x0101 ([]) ((s.advance t).setBoot { s.boot with storing := s.boot.storing ++ [{ vals := s.bootVals (bitOf (fld q.body 0 1) 0), req := some q }] })) ∧
  (∀ (t : Nat) (j : StoreJob) (r : List StoreJob) (s : State),
      s.boot.storing = j :: r →
      ∃ s', exec (.bootRecordWritten t) s = .next s' ∧ s'.boot.storing = r ∧ s'.boot.copies = s.boot.copies.set s.copyTarget (some { seq := s.bootCopy.elim 0 (fun x => x.2.seq + 1), vals := j.vals })) ∧
  (∀ (t : Nat) (s : State),
      s.boot.storing = [] →
      exec (.bootRecordWritten t) s = .next ((s.advance t))) ∧
  (∀ (t : Nat) (n : Nat) (s : State),
      n < 10 →
      bitOf (s.rd P.SysAuxSupplyState 0) n = false →
      exec (.auxSupplyOverload t n) s = .next (((s.advance t).setBoot { s.boot with auxAt := s.boot.auxAt.set n (s.advance t).time.tick }).wrBit P.SysAuxSupplyState 0 n true)) ∧
  (∀ (t : Nat) (n : Nat) (o : Bool) (s : State),
      n < 10 →
      bitOf (s.rd P.SysAuxSupplyState 0) n = true →
      s.boot.auxAt.getD n 0 + 1000000000 ≤ (s.advance t).time.tick →
      o = false →
      exec (.auxSupplyRetry t n o) s = .next ((s.advance t).wrBit P.SysAuxSupplyState 0 n false)) ∧
  (∀ (t : Nat) (n : Nat) (o : Bool) (s : State),
      n < 10 →
      (s.advance t).time.tick < s.boot.auxAt.getD n 0 + 1000000000 →
      exec (.auxSupplyRetry t n o) s = .next ((s.advance t))) ∧
  (∀ (t : Nat) (n : Nat) (r : Bool) (i : List Byte) (s : State),
      n < 4 →
      exec (.sfpInserted t n r i) s = .next ((s.advance t).setCage n (if r && sfpRateOk i then 3 else 5))) ∧
  (∀ (t : Nat) (n : Nat) (f : Bool) (s : State),
      n < 4 →
      f = false →
      exec (.sfpRemoved t n f) s = .next ((s.advance t).setCage n 0))

/-- Island measurements, halts and resumptions: the cases listed. A full measurement with every island within its limits leaves
SysIslandState 0 and makes no fault. A clock measurement out of limits is an island fault with its bits and its time. The halt of an
island on the loop path is held. The resumption of an island off the loop path ends its halt. The resumption of an island on the loop
path that is not halted changes nothing. The resumption of one that is halted ends its halt. The halt of an island off the loop path
other than the processor's is held and touches nothing else. The halt of the processor's island puts its cores into state 3. Rests on
01_architecture.md, 09_modulation.md (parts of R17, R19, R26, R27, R264). -/
def Obligations.IslandsAct : Prop :=
  (∀ (t : Nat) (m : IslandMeas) (s : State),
      m.full = true →
      clockBits m.clock = 0 →
      apart m.supply 60 = 0 →
      apart m.temp 20000 = 0 →
      tabSorted none s.par.active = true →
      ∃ s', exec (.islandMeasurement t m) s = .next s' ∧ s'.rd P.SysIslandState 0 = 0 ∧ s'.boot.islFault = s.boot.islFault ∧ s'.mod = s.mod) ∧
  (∀ (t : Nat) (m : IslandMeas) (s : State),
      tabSorted none s.par.active = true →
      m.full = false →
      s.rd P.SysIslandState 0 = 0 →
      clockBits m.clock ≠ 0 →
      ∃ s', exec (.islandMeasurement t m) s = .next s' ∧ s'.rd P.SysIslandState 0 = clockBits m.clock ∧ s'.boot.islFault = true ∧ s'.boot.islBadAt = some (s.advance t).time.tick) ∧
  (∀ (t : Nat) (i : Nat) (s : State),
      i < 4 →
      ∃ s', exec (.islandHalt t i) s = .next s' ∧ s'.mod.halted = setBit s.mod.halted i true) ∧
  (∀ (t : Nat) (i : Nat) (s : State),
      5 ≤ i →
      i < 9 →
      exec (.islandResume t i) s = .next ((s.advance t).setBoot { s.boot with offHalt := setBit s.boot.offHalt i false })) ∧
  (∀ (t : Nat) (i : Nat) (s : State),
      i < 4 →
      bitOf s.mod.halted i = false →
      exec (.islandResume t i) s = .next ((s.advance t))) ∧
  (∀ (t : Nat) (i : Nat) (s : State),
      i < 4 →
      bitOf s.mod.halted i = true →
      ∃ s', exec (.islandResume t i) s = .next s' ∧ s'.mod.halted = setBit s.mod.halted i false) ∧
  (∀ (t : Nat) (i : Nat) (s : State),
      5 ≤ i →
      i < 8 →
      exec (.islandHaltOffLoopPath t i) s = .next ((s.advance t).setBoot { s.boot with offHalt := setBit s.boot.offHalt i true })) ∧
  (∀ (t : Nat) (i : Nat) (s : State),
      i = 4 →
      tabSorted none s.par.active = true →
      ∃ s', exec (.islandHaltOffLoopPath t i) s = .next s' ∧ s'.boot.offHalt = setBit s.boot.offHalt i true ∧ ∀ c < 6, s'.rd P.ProcCoreState c = 3)

/-- Image store and firmware update: the cases listed. ImageWrite without BEGIN writes its bytes into a slot that is not in use and raises
UpdWritten. ImageWrite of no bytes with BEGIN empties the slot, which is no longer reported valid. ImageCheck reports whether the slot
is valid and answers 0x0331 where it is not. FirmwareSwitch to a valid slot of the same major version starts the switch, and to an
invalid slot it is answered 0x0331 and starts nothing. When the switch is done the trial begins in the new slot. Without a switch
nothing changes. A trial that held for 60 s selects and stores the new slot. Before 60 s nothing changes. Rests on 18_startup.md,
19_live_change_faults.md (parts of R467, R484, R485, R486, R487). -/
def Obligations.FirmwareRequestsAct : Prop :=
  (∀ (t : Nat) (q : Req) (s : State),
      Served 0x0F10 q s →
      8 ≤ q.body.length →
      (fld q.body 0 1) < 2 →
      fld q.body 4 4 + (q.body.length - 8) ≤ 134217728 →
      s.slotBusy (fld q.body 0 1) = false →
      bitOf (fld q.body 1 1) 0 = false →
      Answers (.imageWrite t q) s q 0 ([]) ((((s.advance t).setBoot { s.boot with slots := s.boot.slots.set (fld q.body 0 1) { s.boot.slots.getD (fld q.body 0 1) ⟨true, []⟩ with
        bytes := (List.range (q.body.length - 8)).foldl (fun b i => tabSet b none (fld q.body 4 4 + i) ((q.body.drop 8)[i]?)) (s.boot.slots.getD (fld q.body 0 1) ⟨true, []⟩).bytes } }).wr P.UpdState 0 1).wr P.UpdWritten 0
      (max (s.rd P.UpdWritten 0) (fld q.body 4 4 + (q.body.length - 8))))) ∧
  (∀ (t : Nat) (q : Req) (s : State),
      Served 0x0F10 q s →
      q.body.length = 8 →
      (fld q.body 0 1) < 2 →
      fld q.body 4 4 ≤ 134217728 →
      s.slotBusy (fld q.body 0 1) = false →
      bitOf (fld q.body 1 1) 0 = true →
      s.boot.slots.length = 2 →
      tabSorted none s.par.active = true →
      ∃ s', Answers (.imageWrite t q) s q 0 ([]) s' ∧ s'.boot.slots.getD (fld q.body 0 1) ⟨false, []⟩ = ⟨true, []⟩ ∧ s'.rd P.SysImageState (fld q.body 0 1) = 0) ∧
  (∀ (t : Nat) (q : Req) (s : State),
      Served 0x0F11 q s →
      (fld q.body 0 1) < 2 →
      Answers (.imageCheck t q) s q (if s.slotOk (fld q.body 0 1) then 0 else 0x0331) (if s.slotOk (fld q.body 0 1) then [] else refBytes 0 0 0) (if ((s.advance t).slotReport (fld q.body 0 1)).rd P.UpdState 0 = 1 then ((s.advance t).slotReport (fld q.body 0 1)).wr P.UpdState 0 0 else (s.advance t).slotReport (fld q.body 0 1))) ∧
  (∀ (t : Nat) (q : Req) (s : State),
      Served 0x0F12 q s →
      (fld q.body 0 1) < 2 →
      s.rd P.SysBootSlot 0 ≠ (fld q.body 0 1) →
      s.openRequests = false →
      s.host.assemblies = [] →
      s.par.staged = [] →
      s.boot.switch = none →
      s.boot.due ≠ 2 →
      tabSorted none s.par.active = true →
      ∃ s', exec (.firmwareSwitch t q) s = .next s' ∧
        (s.slotOk (fld q.body 0 1) = true → s.slotVersion (fld q.body 0 1) / 2 ^ 24 = s.rd P.SysFirmwareVersion 0 / 2 ^ 24 → s'.boot.switch = some ((fld q.body 0 1), q, (s.advance t).time.tick) ∧ s'.rd P.UpdState 0 = 2 ∧ s'.pr.restart = true) ∧
        (s.slotOk (fld q.body 0 1) = false → s' = (s.advance t).reply q 0x0331 (refBytes 0 0 0))) ∧
  (∀ (t : Nat) (k : Nat) (q : Req) (x : Nat) (s : State),
      tabSorted none s.par.active = true →
      s.boot.switch = some (k, q, x) →
      ∃ s', exec (.firmwareSwitched t) s = .next s' ∧ s'.boot.switch = none ∧ s'.boot.trial = some (s.advance t).time.tick ∧ s'.pr.restart = false ∧ s'.rd P.UpdState 0 = 3 ∧ s'.rd P.SysBootSlot 0 = k) ∧
  (∀ (t : Nat) (s : State),
      s.boot.switch = none →
      exec (.firmwareSwitched t) s = .next ((s.advance t))) ∧
  (∀ (t : Nat) (x : Nat) (s : State),
      tabSorted none s.par.active = true →
      s.boot.trial = some x →
      x + 60000000000 ≤ (s.advance t).time.tick →
      (s.advance t).watchdogDue = false →
      ∃ s', exec (.firmwareTrialEnd t) s = .next s' ∧ s'.boot.trial = none ∧ s'.rd P.SysBootSelect 0 = s.rd P.SysBootSlot 0 ∧ s'.rd P.UpdState 0 = 0 ∧ s'.boot.storing.length = s.boot.storing.length + 1) ∧
  (∀ (t : Nat) (x : Nat) (s : State),
      s.boot.trial = some x →
      (s.advance t).time.tick < x + 60000000000 →
      exec (.firmwareTrialEnd t) s = .next ((s.advance t)))

/-- FaultClear, FaultLogRead and GroupChange: the cases listed. FaultClear of an axis without a present fault condition (axisFaultHolds)
clears the axis (clearAxis). FaultClear of an axis whose feedback has a loss present is refused with 0x0241. FaultClear with SCOPE 1
while every island is within its limits clears the island fault (clearIsland). FaultLogRead of 1 to 16 entries returns the newest and
empties the log only with CLEAR. GroupChange without a mode change, for a target that meets its deadline, commits the staged set of the
group: the set is locked, GroupCycle reads the target, and the request is stored as a commit and answered 0x0102, when no key of the set
is locked and no axis of the group has a master-position commit pending. Rests on 19_live_change_faults.md (parts of R481, R482, R489,
R490). -/
def Obligations.FaultAndGroupRequestsAct : Prop :=
  (∀ (t : Nat) (q : Req) (s : State),
      Served 0x0F01 q s →
      fld q.body 0 1 = 0 →
      (s.advance t).axisFaultHolds q.inst = none →
      Answers (.faultClear t q) s q 0 ([]) ((s.advance t).clearAxis q.inst)) ∧
  (∀ (t : Nat) (q : Req) (s : State),
      Served 0x0F01 q s →
      fld q.body 0 1 = 0 →
      bitOf (s.rd P.FbState q.inst) fbLOSS = true →
      Answers (.faultClear t q) s q 0x0241 (refBytes 0 0 0) ((s.advance t))) ∧
  (∀ (t : Nat) (q : Req) (s : State),
      Served 0x0F01 q s →
      fld q.body 0 1 = 1 →
      s.islandState = 0 →
      Answers (.faultClear t q) s q 0 ([]) ((s.advance t).clearIsland)) ∧
  (∀ (t : Nat) (q : Req) (s : State),
      Served 0x0F02 q s →
      1 ≤ fld q.body 0 1 →
      fld q.body 0 1 ≤ 16 →
      Answers (.faultLogRead t q) s q 0 (eventList (s.host.log.take (fld q.body 0 1))) ((if bitOf (fld q.body 1 1) 0 then (s.advance t).setHost { s.host with log := [] } else (s.advance t)))) ∧
  (∀ (t : Nat) (q : Req) (s : State) (x : Staged),
      Served 0x0F03 q s →
      fld q.body 0 1 = 0xFF →
      (s.advance t).late q.body 4 = false →
      s.groupSet q.inst = some x →
      x.pending = none →
      x.keys.any s.keyLocked = false →
      (∀ a < 128, s.rd P.AxisGroup a = q.inst → (s.cplr a).pend = none) →
      Commits (.groupChange t q) s q ((s.advance t).tgt q.body 4) (((s.advance t).commitSet x s.par.nextId).wr P.GroupCycle q.inst ((s.advance t).tgt q.body 4)))

/-- What a FaultClear leaves and what a GroupChange with a mode does: the cases listed. An accepted FaultClear of an axis is answered
0x0000: LOSS and FREEZE in FbLatched are clear, a MonVerdict of 2 or 3 is 0 and any other stays, BLOCK and CELL in AxisHoldReason are
clear; one of an axis that another axis blocks is refused with 0x0241 and WHERE the lowest such axis, where no loss, freeze or cell
fault is present. With SCOPE 1 it is refused with 0x0241 while SysIslandState shows a bit. GroupChange of a group without an open set is
refused with 0x0203. With a loaded mode 0 to 7, the link in run, no switch announced, a target at least ten cycles ahead (switchTgt), no
key of the open set locked, no axis of the group with a master-position commit pending and no other enabled axis moved (movesOthers),
GroupChange locks the set, GroupCycle reads the target, the switch is announced for the group with the next COMMITID, and it is answered
0x0102 with its CR block. Rests on 01_architecture.md, 19_live_change_faults.md (parts of R38, R482, R489). -/
def Obligations.FaultClearAndGroupChangeTakeEffect : Prop :=
  (∀ (t : Nat) (q : Req) (s : State),
      Served 0x0F01 q s →
      s.ordered →
      fld q.body 0 1 = 0 →
      (s.advance t).axisFaultHolds q.inst = none →
      ∃ s', Answers (.faultClear t q) s q 0 ([]) s' ∧ bitOf (s'.rd P.FbLatched q.inst) fbLOSS = false ∧ bitOf (s'.rd P.FbLatched q.inst) fbFREEZE = false ∧
      s'.rd P.MonVerdict q.inst = (if s.rd P.MonVerdict q.inst = 2 ∨ s.rd P.MonVerdict q.inst = 3 then 0 else s.rd P.MonVerdict q.inst) ∧
      bitOf (s'.rd P.AxisHoldReason q.inst) holdBLOCK = false ∧ bitOf (s'.rd P.AxisHoldReason q.inst) holdCELL = false) ∧
  (∀ (t : Nat) (q : Req) (s : State) (b : Nat) (l : List Nat),
      Served 0x0F01 q s →
      fld q.body 0 1 = 0 →
      bitOf (s.rd P.FbState q.inst) fbLOSS = false →
      bitOf (s.rd P.FbState q.inst) fbFREEZE = false →
      s.cellFault q.inst = false →
      sortNat (s.axis q.inst).blockedBy = b :: l →
      Answers (.faultClear t q) s q 0x0241 (refBytes 0 b 0) ((s.advance t))) ∧
  (∀ (t : Nat) (q : Req) (s : State),
      Served 0x0F01 q s →
      fld q.body 0 1 = 1 →
      s.islandState ≠ 0 →
      Answers (.faultClear t q) s q 0x0241 (refBytes 0 0 0) ((s.advance t))) ∧
  (∀ (t : Nat) (q : Req) (s : State),
      Served 0x0F03 q s →
      fld q.body 0 1 = 0xFF →
      (s.advance t).late q.body 4 = false →
      s.groupSet q.inst = none →
      Answers (.groupChange t q) s q 0x0203 (refBytes 0 0 0) ((s.advance t))) ∧
  (∀ (t : Nat) (q : Req) (s : State) (c : Nat) (x : Staged),
      Served 0x0F03 q s →
      fld q.body 0 1 ≤ 7 →
      (s.advance t).switchTgt q.body 4 = (c, false) →
      s.groupSet q.inst = some x →
      x.pending = none →
      x.keys.any s.keyLocked = false →
      (∀ a < 128, s.rd P.AxisGroup a = q.inst → (s.cplr a).pend = none) →
      s.link.ann = none →
      s.mode (fld q.body 0 1) ≠ [] →
      s.rd P.ElkState 0 = elkRun →
      s.movesOthers q.inst (fld q.body 0 1) = false →
      Answers (.groupChange t q) s q 0x0102 (crBytes c s.par.nextId) ({ ((s.advance t).commitSet x s.par.nextId).wr P.GroupCycle q.inst c with
        par := { (((s.advance t).commitSet x s.par.nextId).wr P.GroupCycle q.inst c).par with nextId := bumpId s.par.nextId },
        link := { s.link with ann := some { mode := fld q.body 0 1, cycle := c, id := s.par.nextId, req := q, acks := 0, decided := none, missing := [], group := some q.inst } } }))
end

