-- ==== Sys2Proof/Laws/Advance.lean ====
section
/-!
SUPPORT. What no reading of the state but the clock's depends on: time moving on changes none of these values.
-/
namespace Sys2Proof.Machine

@[simp] theorem State.aqu_advance (s : State) (t : Nat) (u : Nat) : (s.advance t).aqu u = s.aqu u := by
  unfold State.advance; split <;> rfl
@[simp] theorem State.aqRuns_advance (s : State) (t : Nat) (u : Nat) : (s.advance t).aqRuns u = s.aqRuns u := by
  unfold State.advance; split <;> rfl
@[simp] theorem State.aqChans_advance (s : State) (t : Nat) (u : Nat) : (s.advance t).aqChans u = s.aqChans u := by
  unfold State.advance; split <;> rfl
@[simp] theorem State.chanOk_advance (s : State) (t : Nat) (fast : Bool) (v : Nat) : (s.advance t).chanOk fast v = s.chanOk fast v := by
  unfold State.advance; split <;> rfl
@[simp] theorem State.sincTake_advance (s : State) (t : Nat) (m input : Nat) (r : SincRec) (b : Bool) :
    (s.advance t).sincTake m input r b = s.sincTake m input r b := by
  unfold State.advance; split <;> rfl
@[simp] theorem State.segBlocks_advance (s : State) (t : Nat) (u : Nat) : (s.advance t).segBlocks u = s.segBlocks u := by
  unfold State.advance; split <;> rfl
@[simp] theorem State.segRoom_advance (s : State) (t : Nat) (u : Nat) : (s.advance t).segRoom u = s.segRoom u := by
  unfold State.advance; split <;> rfl
@[simp] theorem State.capEnd_advance (s : State) (tk : Nat) (u t : Nat) : (s.advance tk).capEnd u t = s.capEnd u t := by
  unfold State.advance; split <;> rfl
@[simp] theorem State.basePeriod_advance (s : State) (t : Nat) (u : Nat) : (s.advance t).basePeriod u = s.basePeriod u := by
  unfold State.advance; split <;> rfl
@[simp] theorem State.durationOk_advance (s : State) (t : Nat) (u : Nat) (w : Rat) : (s.advance t).durationOk u w = s.durationOk u w := by
  unfold State.advance; split <;> rfl
@[simp] theorem State.trigStep_advance (s : State) (t : Nat) (u : Nat) (v : Rat) : (s.advance t).trigStep u v = s.trigStep u v := by
  unfold State.advance; split <;> rfl
@[simp] theorem State.levelNow_advance (s : State) (t : Nat) (code pin time : Nat) :
    (s.advance t).levelNow code pin time = s.levelNow code pin time := by
  unfold State.advance; split <;> rfl
@[simp] theorem State.aqDemand_advance (s : State) (t : Nat) (u : Nat) : (s.advance t).aqDemand u = s.aqDemand u := by
  unfold State.advance; split <;> rfl
@[simp] theorem State.badChan_advance (s : State) (t : Nat) (u : Nat) : (s.advance t).badChan u = s.badChan u := by
  unfold State.advance; split <;> rfl
@[simp] theorem State.aqBad_advance (s : State) (t : Nat) (u : Nat) : (s.advance t).aqBad u = s.aqBad u := by
  unfold State.advance; split <;> rfl
@[simp] theorem State.aqWriteBad_advance (s : State) (t : Nat) (idx i v : Nat) :
    (s.advance t).aqWriteBad idx i v = s.aqWriteBad idx i v := by
  unfold State.advance; split <;> rfl
@[simp] theorem State.canC_advance (s : State) (t : Nat) (c : Nat) : (s.advance t).canC c = s.canC c := by
  unfold State.advance; split <;> rfl
@[simp] theorem State.canO_advance (s : State) (t : Nat) (i : Nat) : (s.advance t).canO i = s.canO i := by
  unfold State.advance; split <;> rfl
@[simp] theorem State.tec_advance (s : State) (t : Nat) (c : Nat) : (s.advance t).tec c = s.tec c := by
  unfold State.advance; split <;> rfl
@[simp] theorem State.rec'_advance (s : State) (t : Nat) (c : Nat) : (s.advance t).rec' c = s.rec' c := by
  unfold State.advance; split <;> rfl
@[simp] theorem State.canOn_advance (s : State) (t : Nat) (c : Nat) : (s.advance t).canOn c = s.canOn c := by
  unfold State.advance; split <;> rfl
@[simp] theorem State.canSends_advance (s : State) (t : Nat) (c : Nat) : (s.advance t).canSends c = s.canSends c := by
  unfold State.advance; split <;> rfl
@[simp] theorem State.bellData_advance (s : State) (t : Nat) (c : Nat) : (s.advance t).bellData c = s.bellData c := by
  unfold State.advance; split <;> rfl
@[simp] theorem State.canIdWord_advance (s : State) (t : Nat) (c o : Nat) : (s.advance t).canIdWord c o = s.canIdWord c o := by
  unfold State.advance; split <;> rfl
@[simp] theorem State.canPayload_advance (s : State) (t : Nat) (c o : Nat) : (s.advance t).canPayload c o = s.canPayload c o := by
  unfold State.advance; split <;> rfl
@[simp] theorem State.canBusFrame_advance (s : State) (t : Nat) (c o stamp : Nat) :
    (s.advance t).canBusFrame c o stamp = s.canBusFrame c o stamp := by
  unfold State.advance; split <;> rfl
@[simp] theorem State.cycleAt_advance (s : State) (t : Nat) (ns : Nat) : (s.advance t).cycleAt ns = s.cycleAt ns := by
  unfold State.advance; split <;> rfl
@[simp] theorem State.canFast_advance (s : State) (t : Nat) (c o : Nat) : (s.advance t).canFast c o = s.canFast c o := by
  unfold State.advance; split <;> rfl
@[simp] theorem State.canCheckAt_advance (s : State) (t : Nat) (c : Nat) : (s.advance t).canCheckAt c = s.canCheckAt c := by
  unfold State.advance; split <;> rfl
@[simp] theorem State.canFastErr_advance (s : State) (t : Nat) (c : Nat) (b : OwnBit) :
    (s.advance t).canFastErr c b = s.canFastErr c b := by
  unfold State.advance; split <;> rfl
@[simp] theorem State.canErrKind_advance (s : State) (t : Nat) (c : Nat) (e : CanErr) :
    (s.advance t).canErrKind c e = s.canErrKind c e := by
  unfold State.advance; split <;> rfl
@[simp] theorem State.canTaker_advance (s : State) (t : Nat) (c : Nat) (f : CanFrame) : (s.advance t).canTaker c f = s.canTaker c f := by
  unfold State.advance; split <;> rfl
@[simp] theorem State.canSettingsBad_advance (s : State) (t : Nat) (c mode : Nat) :
    (s.advance t).canSettingsBad c mode = s.canSettingsBad c mode := by
  unfold State.advance; split <;> rfl
@[simp] theorem State.canTxIds_advance (s : State) (t : Nat) (c : Nat) (skip : Nat) :
    (s.advance t).canTxIds c skip = s.canTxIds c skip := by
  unfold State.advance; split <;> rfl
@[simp] theorem State.canWriteBad_advance (s : State) (t : Nat) (idx inst v : Nat) :
    (s.advance t).canWriteBad idx inst v = s.canWriteBad idx inst v := by
  unfold State.advance; split <;> rfl
@[simp] theorem State.cplr_advance (s : State) (t : Nat) (a : Nat) : (s.advance t).cplr a = s.cplr a := by
  unfold State.advance; split <;> rfl
@[simp] theorem State.camTab_advance (s : State) (t : Nat) (n : Nat) : (s.advance t).camTab n = s.camTab n := by
  unfold State.advance; split <;> rfl
@[simp] theorem State.camOk_advance (s : State) (t : Nat) (n : Nat) : (s.advance t).camOk n = s.camOk n := by
  unfold State.advance; split <;> rfl
@[simp] theorem State.camSize_advance (s : State) (t : Nat) : (s.advance t).camSize = s.camSize := by
  unfold State.advance; split <;> rfl
@[simp] theorem State.cplStaged_advance (s : State) (t : Nat) : (s.advance t).cplStaged = s.cplStaged := by
  unfold State.advance; split <;> rfl
@[simp] theorem State.cplLocked_advance (s : State) (t : Nat) (a : Nat) : (s.advance t).cplLocked a = s.cplLocked a := by
  unfold State.advance; split <;> rfl
@[simp] theorem State.camUsed_advance (s : State) (t : Nat) (n : Nat) : (s.advance t).camUsed n = s.camUsed n := by
  unfold State.advance; split <;> rfl
@[simp] theorem State.cplX_advance (s : State) (t : Nat) (a : Nat) : (s.advance t).cplX a = s.cplX a := by
  unfold State.advance; split <;> rfl
@[simp] theorem State.cplSource_advance (s : State) (t : Nat) (a : Nat) : (s.advance t).cplSource a = s.cplSource a := by
  unfold State.advance; split <;> rfl
@[simp] theorem State.cplBlockBad_advance (s : State) (t : Nat) (b : List Byte) (off : Nat) :
    (s.advance t).cplBlockBad b off = s.cplBlockBad b off := by
  unfold State.advance; split <;> rfl
@[simp] theorem State.swLate_advance (s : State) (t : Nat) (m : Nat) (b : List Byte) (off : Nat) :
    (s.advance t).swLate m b off = s.swLate m b off := by
  unfold State.advance; split <;> rfl
@[simp] theorem State.coupled_advance (s : State) (t : Nat) (a : Nat) : (s.advance t).coupled a = s.coupled a := by
  unfold State.advance; split <;> rfl
@[simp] theorem State.queueRuns_advance (s : State) (t : Nat) (a : Nat) : (s.advance t).queueRuns a = s.queueRuns a := by
  unfold State.advance; split <;> rfl
@[simp] theorem State.masterAt_advance (s : State) (t : Nat) (m stamp : Nat) : (s.advance t).masterAt m stamp = s.masterAt m stamp := by
  unfold State.advance; split <;> rfl
@[simp] theorem State.stampCycle_advance (s : State) (t : Nat) (m stamp : Nat) :
    (s.advance t).stampCycle m stamp = s.stampCycle m stamp := by
  unfold State.advance; split <;> rfl
@[simp] theorem State.dueCommits_advance (s : State) (t : Nat) : (s.advance t).dueCommits = s.dueCommits := by
  unfold State.advance; split <;> rfl
@[simp] theorem State.followed_advance (s : State) (t : Nat) : (s.advance t).followed = s.followed := by
  unfold State.advance; split <;> rfl
@[simp] theorem State.ident_advance (s : State) (t : Nat) (k : Nat) : (s.advance t).ident k = s.ident k := by
  unfold State.advance; split <;> rfl
@[simp] theorem State.addressed_advance (s : State) (t : Nat) (k : Nat) : (s.advance t).addressed k = s.addressed k := by
  unfold State.advance; split <;> rfl
@[simp] theorem State.retired_advance (s : State) (t : Nat) (k : Nat) : (s.advance t).retired k = s.retired k := by
  unfold State.advance; split <;> rfl
@[simp] theorem State.axisNode_advance (s : State) (t : Nat) (a : Nat) : (s.advance t).axisNode a = s.axisNode a := by
  unfold State.advance; split <;> rfl
@[simp] theorem State.cellAxis_advance (s : State) (t : Nat) (a : Nat) : (s.advance t).cellAxis a = s.cellAxis a := by
  unfold State.advance; split <;> rfl
@[simp] theorem State.nodeAxes_advance (s : State) (t : Nat) (k : Nat) : (s.advance t).nodeAxes k = s.nodeAxes k := by
  unfold State.advance; split <;> rfl
@[simp] theorem State.axisOf_advance (s : State) (t : Nat) (k i : Nat) : (s.advance t).axisOf k i = s.axisOf k i := by
  unfold State.advance; split <;> rfl
@[simp] theorem State.node_advance (s : State) (t : Nat) (k : Nat) : (s.advance t).node k = s.node k := by
  unfold State.advance; split <;> rfl
@[simp] theorem State.hops_advance (s : State) (t : Nat) (ch : Channel) (gone : List Nat) :
    (s.advance t).hops ch gone = s.hops ch gone := by
  unfold State.advance; split <;> rfl
@[simp] theorem State.schedFrames_advance (s : State) (t : Nat) (m : List Byte) (h : List Rat) (nodes : List Nat) :
    (s.advance t).schedFrames m h nodes = s.schedFrames m h nodes := by
  unfold State.advance; split <;> rfl
@[simp] theorem State.measuredChans_advance (s : State) (t : Nat) : (s.advance t).measuredChans = s.measuredChans := by
  unfold State.advance; split <;> rfl
@[simp] theorem State.closedChans_advance (s : State) (t : Nat) : (s.advance t).closedChans = s.closedChans := by
  unfold State.advance; split <;> rfl
@[simp] theorem State.checks456_advance (s : State) (t : Nat) (m : List Byte) (skip gone : List Nat) (ch : Channel) :
    (s.advance t).checks456 m skip gone ch = s.checks456 m skip gone ch := by
  unfold State.advance; split <;> rfl
@[simp] theorem State.checks23_advance (s : State) (t : Nat) (m : List Byte) : (s.advance t).checks23 m = s.checks23 m := by
  unfold State.advance; split <;> rfl
@[simp] theorem State.checks2to6_advance (s : State) (t : Nat) (m : List Byte) : (s.advance t).checks2to6 m = s.checks2to6 m := by
  unfold State.advance; split <;> rfl
@[simp] theorem State.modeCheck_advance (s : State) (t : Nat) (m : List Byte) : (s.advance t).modeCheck m = s.modeCheck m := by
  unfold State.advance; split <;> rfl
@[simp] theorem State.mode_advance (s : State) (t : Nat) (m : Nat) : (s.advance t).mode m = s.mode m := by
  unfold State.advance; split <;> rfl
@[simp] theorem State.activeMode_advance (s : State) (t : Nat) : (s.advance t).activeMode = s.activeMode := by
  unfold State.advance; split <;> rfl
@[simp] theorem State.cells_advance (s : State) (t : Nat) : (s.advance t).cells = s.cells := by
  unfold State.advance; split <;> rfl
@[simp] theorem State.coldFrame_advance (s : State) (t : Nat) (phase : Nat) : (s.advance t).coldFrame phase = s.coldFrame phase := by
  unfold State.advance; split <;> rfl
@[simp] theorem State.modeParts_advance (s : State) (t : Nat) (h k : Nat) : (s.advance t).modeParts h k = s.modeParts h k := by
  unfold State.advance; split <;> rfl
@[simp] theorem State.svcRequest_advance (s : State) (t : Nat) (op : SvcOp) (n : Nat) :
    (s.advance t).svcRequest op n = s.svcRequest op n := by
  unfold State.advance; split <;> rfl
@[simp] theorem State.svcWindow_advance (s : State) (t : Nat) : (s.advance t).svcWindow = s.svcWindow := by
  unfold State.advance; split <;> rfl
@[simp] theorem State.windowDelay_advance (s : State) (t : Nat) (ch : Channel) : (s.advance t).windowDelay ch = s.windowDelay ch := by
  unfold State.advance; split <;> rfl
@[simp] theorem State.switchBad_advance (s : State) (t : Nat) (m : Nat) (late : Bool) :
    (s.advance t).switchBad m late = s.switchBad m late := by
  unfold State.advance; split <;> rfl
@[simp] theorem State.switchTgt_advance (s : State) (t : Nat) (b : List Byte) (off : Nat) :
    (s.advance t).switchTgt b off = s.switchTgt b off := by
  unfold State.advance; split <;> rfl
@[simp] theorem State.retiredBelow_advance (s : State) (t : Nat) (k : Nat) : (s.advance t).retiredBelow k = s.retiredBelow k := by
  unfold State.advance; split <;> rfl
@[simp] theorem State.phaseLimit_advance (s : State) (t : Nat) (st : Nat) : (s.advance t).phaseLimit st = s.phaseLimit st := by
  unfold State.advance; split <;> rfl
@[simp] theorem State.keyAge_advance (s : State) (t : Nat) (m : List Byte) (a : Nat) : (s.advance t).keyAge m a = s.keyAge m a := by
  unfold State.advance; split <;> rfl
@[simp] theorem State.addrCount_advance (s : State) (t : Nat) (fs : List (List Byte)) : (s.advance t).addrCount fs = s.addrCount fs := by
  unfold State.advance; split <;> rfl
@[simp] theorem State.coldChans_advance (s : State) (t : Nat) : (s.advance t).coldChans = s.coldChans := by
  unfold State.advance; split <;> rfl
@[simp] theorem State.cellsFound_advance (s : State) (t : Nat) (refused : Bool) :
    (s.advance t).cellsFound refused = s.cellsFound refused := by
  unfold State.advance; split <;> rfl
@[simp] theorem State.cellsSynced_advance (s : State) (t : Nat) : (s.advance t).cellsSynced = s.cellsSynced := by
  unfold State.advance; split <;> rfl
@[simp] theorem State.firstIdent_advance (s : State) (t : Nat) : (s.advance t).firstIdent = s.firstIdent := by
  unfold State.advance; split <;> rfl
@[simp] theorem State.echoHop_advance (s : State) (t : Nat) (l : List Nat) : (s.advance t).echoHop l = s.echoHop l := by
  unfold State.advance; split <;> rfl
@[simp] theorem State.delayOf_advance (s : State) (t : Nat) (ch : Channel) (k : Nat) : (s.advance t).delayOf ch k = s.delayOf ch k := by
  unfold State.advance; split <;> rfl
@[simp] theorem State.ringDelay_advance (s : State) (t : Nat) (ch : Channel) : (s.advance t).ringDelay ch = s.ringDelay ch := by
  unfold State.advance; split <;> rfl
@[simp] theorem State.returnValid_advance (s : State) (t : Nat) (ch : Channel) (trip : Nat) (b : List Byte) :
    (s.advance t).returnValid ch trip b = s.returnValid ch trip b := by
  unfold State.advance; split <;> rfl
@[simp] theorem State.linkSending_advance (s : State) (t : Nat) : (s.advance t).linkSending = s.linkSending := by
  unfold State.advance; split <;> rfl
@[simp] theorem State.slotDev_advance (s : State) (t : Nat) (ch : Channel) (node : Nat) (tau : Int) :
    (s.advance t).slotDev ch node tau = s.slotDev ch node tau := by
  unfold State.advance; split <;> rfl
@[simp] theorem State.slotValid_advance (s : State) (t : Nat) (ch : Channel) (node : Nat) (tau : Int) (b : List Byte) :
    (s.advance t).slotValid ch node tau b = s.slotValid ch node tau b := by
  unfold State.advance; split <;> rfl
@[simp] theorem State.rxpdChan_advance (s : State) (t : Nat) (k : Nat) (r : Rat) : (s.advance t).rxpdChan k r = s.rxpdChan k r := by
  unfold State.advance; split <;> rfl
@[simp] theorem State.answersIn_advance (s : State) (t : Nat) (ch : Channel) (f : RingFrame) (x : SvcSent) :
    (s.advance t).answersIn ch f x = s.answersIn ch f x := by
  unfold State.advance; split <;> rfl
@[simp] theorem State.cycleStart_advance (s : State) (t : Nat) (ch : Channel) (halt : Bool) :
    (s.advance t).cycleStart ch halt = s.cycleStart ch halt := by
  unfold State.advance; split <;> rfl
@[simp] theorem State.filtCoefs_advance (s : State) (t : Nat) (a k : Nat) : (s.advance t).filtCoefs a k = s.filtCoefs a k := by
  unfold State.advance; split <;> rfl
@[simp] theorem State.loopDue_advance (s : State) (t : Nat) (a d : Nat) : (s.advance t).loopDue a d = s.loopDue a d := by
  unfold State.advance; split <;> rfl
@[simp] theorem State.effMode_advance (s : State) (t : Nat) (a : Nat) : (s.advance t).effMode a = s.effMode a := by
  unfold State.advance; split <;> rfl
@[simp] theorem State.velBefore_advance (s : State) (t : Nat) (a nv : Nat) (v : Int) :
    (s.advance t).velBefore a nv v = s.velBefore a nv v := by
  unfold State.advance; split <;> rfl
@[simp] theorem State.elAngle_advance (s : State) (t : Nat) (a : Nat) (p : Rat) (c : Rat) :
    (s.advance t).elAngle a p c = s.elAngle a p c := by
  unfold State.advance; split <;> rfl
@[simp] theorem State.anglePos_advance (s : State) (t : Nat) (a : Nat) : (s.advance t).anglePos a = s.anglePos a := by
  unfold State.advance; split <;> rfl
@[simp] theorem State.elSpeed_advance (s : State) (t : Nat) (a : Nat) (v c : Rat) : (s.advance t).elSpeed a v c = s.elSpeed a v c := by
  unfold State.advance; split <;> rfl
@[simp] theorem State.engCounts_advance (s : State) (t : Nat) (a : Nat) : (s.advance t).engCounts a = s.engCounts a := by
  unfold State.advance; split <;> rfl
@[simp] theorem State.passMeas_advance (s : State) (t : Nat) (a : Nat) : (s.advance t).passMeas a = s.passMeas a := by
  unfold State.advance; split <;> rfl
@[simp] theorem State.engUb_advance (s : State) (t : Nat) (a : Nat) : (s.advance t).engUb a = s.engUb a := by
  unfold State.advance; split <;> rfl
@[simp] theorem State.stepRefs_advance (s : State) (t : Nat) (a : Nat) (th : Rat) : (s.advance t).stepRefs a th = s.stepRefs a th := by
  unfold State.advance; split <;> rfl
@[simp] theorem State.jobPasses_advance (s : State) (t : Nat) (a : Nat) : (s.advance t).jobPasses a = s.jobPasses a := by
  unfold State.advance; split <;> rfl
@[simp] theorem State.aboveFs_advance (s : State) (t : Nat) (idx a v : Nat) : (s.advance t).aboveFs idx a v = s.aboveFs idx a v := by
  unfold State.advance; split <;> rfl
@[simp] theorem State.cellForm_advance (s : State) (t : Nat) (idx a v : Nat) : (s.advance t).cellForm idx a v = s.cellForm idx a v := by
  unfold State.advance; split <;> rfl
@[simp] theorem State.nodeThere_advance (s : State) (t : Nat) (k : Nat) : (s.advance t).nodeThere k = s.nodeThere k := by
  unfold State.advance; split <;> rfl
@[simp] theorem State.notReady_advance (s : State) (t : Nat) (a : Nat) : (s.advance t).notReady a = s.notReady a := by
  unfold State.advance; split <;> rfl
@[simp] theorem State.openEnds_advance (s : State) (t : Nat) (a : Nat) : (s.advance t).openEnds a = s.openEnds a := by
  unfold State.advance; split <;> rfl
@[simp] theorem State.filtersFit_advance (s : State) (t : Nat) (a nv T : Nat) : (s.advance t).filtersFit a nv T = s.filtersFit a nv T := by
  unfold State.advance; split <;> rfl
@[simp] theorem State.loopWriteBad_advance (s : State) (t : Nat) (idx i v : Nat) :
    (s.advance t).loopWriteBad idx i v = s.loopWriteBad idx i v := by
  unfold State.advance; split <;> rfl
@[simp] theorem State.cellFault_advance (s : State) (t : Nat) (a : Nat) : (s.advance t).cellFault a = s.cellFault a := by
  unfold State.advance; split <;> rfl
@[simp] theorem State.axisFaultHolds_advance (s : State) (t : Nat) (a : Nat) : (s.advance t).axisFaultHolds a = s.axisFaultHolds a := by
  unfold State.advance; split <;> rfl
@[simp] theorem State.axisFaulted_advance (s : State) (t : Nat) (a : Nat) : (s.advance t).axisFaulted a = s.axisFaulted a := by
  unfold State.advance; split <;> rfl
@[simp] theorem State.faultAxes_advance (s : State) (t : Nat) : (s.advance t).faultAxes = s.faultAxes := by
  unfold State.advance; split <;> rfl
@[simp] theorem State.fieldFault_advance (s : State) (t : Nat) : (s.advance t).fieldFault = s.fieldFault := by
  unfold State.advance; split <;> rfl
@[simp] theorem State.faultActive_advance (s : State) (t : Nat) : (s.advance t).faultActive = s.faultActive := by
  unfold State.advance; split <;> rfl
@[simp] theorem State.lampRun_advance (s : State) (t : Nat) : (s.advance t).lampRun = s.lampRun := by
  unfold State.advance; split <;> rfl
@[simp] theorem State.lampFault_advance (s : State) (t : Nat) : (s.advance t).lampFault = s.lampFault := by
  unfold State.advance; split <;> rfl
@[simp] theorem State.lampElk_advance (s : State) (t : Nat) (c : Nat) : (s.advance t).lampElk c = s.lampElk c := by
  unfold State.advance; split <;> rfl
@[simp] theorem State.lampSto_advance (s : State) (t : Nat) : (s.advance t).lampSto = s.lampSto := by
  unfold State.advance; split <;> rfl
@[simp] theorem State.pciIds_advance (s : State) (t : Nat) : (s.advance t).pciIds = s.pciIds := by
  unfold State.advance; split <;> rfl
@[simp] theorem State.axis_advance (s : State) (t : Nat) (a : Nat) : (s.advance t).axis a = s.axis a := by
  unfold State.advance; split <;> rfl
@[simp] theorem State.fbk_advance (s : State) (t : Nat) (i : Nat) : (s.advance t).fbk i = s.fbk i := by
  unfold State.advance; split <;> rfl
@[simp] theorem State.axisOn_advance (s : State) (t : Nat) (a : Nat) : (s.advance t).axisOn a = s.axisOn a := by
  unfold State.advance; split <;> rfl
@[simp] theorem State.axisRuns_advance (s : State) (t : Nat) (a : Nat) : (s.advance t).axisRuns a = s.axisRuns a := by
  unfold State.advance; split <;> rfl
@[simp] theorem State.groupAxes_advance (s : State) (t : Nat) (a : Nat) : (s.advance t).groupAxes a = s.groupAxes a := by
  unfold State.advance; split <;> rfl
@[simp] theorem State.fbDecode_advance (s : State) (t : Nat) (i raw : Nat) (serr : Bool) :
    (s.advance t).fbDecode i raw serr = s.fbDecode i raw serr := by
  unfold State.advance; split <;> rfl
@[simp] theorem State.fbSign_advance (s : State) (t : Nat) (i : Nat) : (s.advance t).fbSign i = s.fbSign i := by
  unfold State.advance; split <;> rfl
@[simp] theorem State.fbOffset_advance (s : State) (t : Nat) (i : Nat) : (s.advance t).fbOffset i = s.fbOffset i := by
  unfold State.advance; split <;> rfl
@[simp] theorem State.fbPos_advance (s : State) (t : Nat) (i : Nat) (c : Int) : (s.advance t).fbPos i c = s.fbPos i c := by
  unfold State.advance; split <;> rfl
@[simp] theorem State.fbLow_advance (s : State) (t : Nat) (i : Nat) (old new : Int) :
    (s.advance t).fbLow i old new = s.fbLow i old new := by
  unfold State.advance; split <;> rfl
@[simp] theorem State.faultFree_advance (s : State) (t : Nat) (a : Nat) : (s.advance t).faultFree a = s.faultFree a := by
  unfold State.advance; split <;> rfl
@[simp] theorem State.curAbove_advance (s : State) (t : Nat) (a : Nat) : (s.advance t).curAbove a = s.curAbove a := by
  unfold State.advance; split <;> rfl
@[simp] theorem State.posClosed_advance (s : State) (t : Nat) (a : Nat) : (s.advance t).posClosed a = s.posClosed a := by
  unfold State.advance; split <;> rfl
@[simp] theorem State.freezeCycles_advance (s : State) (t : Nat) (a : Nat) : (s.advance t).freezeCycles a = s.freezeCycles a := by
  unfold State.advance; split <;> rfl
@[simp] theorem State.freezeRun_advance (s : State) (t : Nat) (a : Nat) (same : Bool) :
    (s.advance t).freezeRun a same = s.freezeRun a same := by
  unfold State.advance; split <;> rfl
@[simp] theorem State.frozen_advance (s : State) (t : Nat) (a run : Nat) : (s.advance t).frozen a run = s.frozen a run := by
  unfold State.advance; split <;> rfl
@[simp] theorem State.overspeed_advance (s : State) (t : Nat) (a : Nat) : (s.advance t).overspeed a = s.overspeed a := by
  unfold State.advance; split <;> rfl
@[simp] theorem State.limPos_advance (s : State) (t : Nat) (a : Nat) : (s.advance t).limPos a = s.limPos a := by
  unfold State.advance; split <;> rfl
@[simp] theorem State.aboveLim_advance (s : State) (t : Nat) (a : Nat) : (s.advance t).aboveLim a = s.aboveLim a := by
  unfold State.advance; split <;> rfl
@[simp] theorem State.belowLim_advance (s : State) (t : Nat) (a : Nat) : (s.advance t).belowLim a = s.belowLim a := by
  unfold State.advance; split <;> rfl
@[simp] theorem State.portFits_advance (s : State) (t : Nat) (idx i v T : Nat) :
    (s.advance t).portFits idx i v T = s.portFits idx i v T := by
  unfold State.advance; split <;> rfl
@[simp] theorem State.cycleLens_advance (s : State) (t : Nat) : (s.advance t).cycleLens = s.cycleLens := by
  unfold State.advance; split <;> rfl
@[simp] theorem State.portUsed_advance (s : State) (t : Nat) (i : Nat) : (s.advance t).portUsed i = s.portUsed i := by
  unfold State.advance; split <;> rfl
@[simp] theorem State.fbWriteBad_advance (s : State) (t : Nat) (idx i v : Nat) :
    (s.advance t).fbWriteBad idx i v = s.fbWriteBad idx i v := by
  unfold State.advance; split <;> rfl
@[simp] theorem State.settled_advance (s : State) (t : Nat) (g : Nat) : (s.advance t).settled g = s.settled g := by
  unfold State.advance; split <;> rfl
@[simp] theorem State.fieldWriteBad_advance (s : State) (t : Nat) (idx i : Nat) :
    (s.advance t).fieldWriteBad idx i = s.fieldWriteBad idx i := by
  unfold State.advance; split <;> rfl
@[simp] theorem State.wireMask_advance (s : State) (t : Nat) (g : Nat) : (s.advance t).wireMask g = s.wireMask g := by
  unfold State.advance; split <;> rfl
@[simp] theorem State.feFlag_advance (s : State) (t : Nat) (k : Nat) : (s.advance t).feFlag k = s.feFlag k := by
  unfold State.advance; split <;> rfl
@[simp] theorem State.feState_advance (s : State) (t : Nat) : (s.advance t).feState = s.feState := by
  unfold State.advance; split <;> rfl
@[simp] theorem State.feRole_advance (s : State) (t : Nat) (n : Nat) : (s.advance t).feRole n = s.feRole n := by
  unfold State.advance; split <;> rfl
@[simp] theorem State.rolePairs_advance (s : State) (t : Nat) (r : Nat) : (s.advance t).rolePairs r = s.rolePairs r := by
  unfold State.advance; split <;> rfl
@[simp] theorem State.dutyPairs_advance (s : State) (t : Nat) (r : Nat) : (s.advance t).dutyPairs r = s.dutyPairs r := by
  unfold State.advance; split <;> rfl
@[simp] theorem State.currentPairs_advance (s : State) (t : Nat) (r : Nat) : (s.advance t).currentPairs r = s.currentPairs r := by
  unfold State.advance; split <;> rfl
@[simp] theorem State.bridgePairs_advance (s : State) (t : Nat) : (s.advance t).bridgePairs = s.bridgePairs := by
  unfold State.advance; split <;> rfl
@[simp] theorem State.diLevel_advance (s : State) (t : Nat) (i : Nat) : (s.advance t).diLevel i = s.diLevel i := by
  unfold State.advance; split <;> rfl
@[simp] theorem State.fePresent_advance (s : State) (t : Nat) (cause : Nat) : (s.advance t).fePresent cause = s.fePresent cause := by
  unfold State.advance; split <;> rfl
@[simp] theorem State.tauSd_advance (s : State) (t : Nat) : (s.advance t).tauSd = s.tauSd := by
  unfold State.advance; split <;> rfl
@[simp] theorem State.sdScaled_advance (s : State) (t : Nat) (i : Nat) (rho : Rat) : (s.advance t).sdScaled i rho = s.sdScaled i rho := by
  unfold State.advance; split <;> rfl
@[simp] theorem State.sdInput_advance (s : State) (t : Nat) (f : Nat) : (s.advance t).sdInput f = s.sdInput f := by
  unfold State.advance; split <;> rfl
@[simp] theorem State.sdVal_advance (s : State) (t : Nat) (f : Nat) : (s.advance t).sdVal f = s.sdVal f := by
  unfold State.advance; split <;> rfl
@[simp] theorem State.legCurrent_advance (s : State) (t : Nat) (leg : Nat) : (s.advance t).legCurrent leg = s.legCurrent leg := by
  unfold State.advance; split <;> rfl
@[simp] theorem State.feCurrent_advance (s : State) (t : Nat) (n : Nat) : (s.advance t).feCurrent n = s.feCurrent n := by
  unfold State.advance; split <;> rfl
@[simp] theorem State.uNom_advance (s : State) (t : Nat) : (s.advance t).uNom = s.uNom := by
  unfold State.advance; split <;> rfl
@[simp] theorem State.spans_advance (s : State) (t : Nat) (n : Nat) (ns : Rat) : (s.advance t).spans n ns = s.spans n ns := by
  unfold State.advance; split <;> rfl
@[simp] theorem State.feAlBe_advance (s : State) (t : Nat) : (s.advance t).feAlBe = s.feAlBe := by
  unfold State.advance; split <;> rfl
@[simp] theorem State.feIAlBe_advance (s : State) (t : Nat) : (s.advance t).feIAlBe = s.feIAlBe := by
  unfold State.advance; split <;> rfl
@[simp] theorem State.pAvail_advance (s : State) (t : Nat) : (s.advance t).pAvail = s.pAvail := by
  unfold State.advance; split <;> rfl
@[simp] theorem State.rideLoad_advance (s : State) (t : Nat) : (s.advance t).rideLoad = s.rideLoad := by
  unfold State.advance; split <;> rfl
@[simp] theorem State.rideSigma_advance (s : State) (t : Nat) : (s.advance t).rideSigma = s.rideSigma := by
  unfold State.advance; split <;> rfl
@[simp] theorem State.axisPower_advance (s : State) (t : Nat) : (s.advance t).axisPower = s.axisPower := by
  unfold State.advance; split <;> rfl
@[simp] theorem State.resonate_advance (s : State) (t : Nat) (kc e : Rat) (j : Nat) (res : List (Int × Int)) :
    (s.advance t).resonate kc e j res = s.resonate kc e j res := by
  unfold State.advance; split <;> rfl
@[simp] theorem State.rideReached_advance (s : State) (t : Nat) (m : Nat) : (s.advance t).rideReached m = s.rideReached m := by
  unfold State.advance; split <;> rfl
@[simp] theorem State.rideMinBus_advance (s : State) (t : Nat) : (s.advance t).rideMinBus = s.rideMinBus := by
  unfold State.advance; split <;> rfl
@[simp] theorem State.feSettings_advance (s : State) (t : Nat) : (s.advance t).feSettings = s.feSettings := by
  unfold State.advance; split <;> rfl
@[simp] theorem State.feWriteBad_advance (s : State) (t : Nat) (idx i v : Nat) :
    (s.advance t).feWriteBad idx i v = s.feWriteBad idx i v := by
  unfold State.advance; split <;> rfl
@[simp] theorem State.gmap_advance (s : State) (t : Nat) (a : Nat) : (s.advance t).gmap a = s.gmap a := by
  unfold State.advance; split <;> rfl
@[simp] theorem State.loopDelay_advance (s : State) (t : Nat) (a : Nat) : (s.advance t).loopDelay a = s.loopDelay a := by
  unfold State.advance; split <;> rfl
@[simp] theorem State.tauI_advance (s : State) (t : Nat) (a : Nat) : (s.advance t).tauI a = s.tauI a := by
  unfold State.advance; split <;> rfl
@[simp] theorem State.curGainMax_advance (s : State) (t : Nat) (a : Nat) : (s.advance t).curGainMax a = s.curGainMax a := by
  unfold State.advance; split <;> rfl
@[simp] theorem State.applied_advance (s : State) (t : Nat) (a j : Nat) : (s.advance t).applied a j = s.applied a j := by
  unfold State.advance; split <;> rfl
@[simp] theorem State.gain_advance (s : State) (t : Nat) (a j : Nat) : (s.advance t).gain a j = s.gain a j := by
  unfold State.advance; split <;> rfl
@[simp] theorem State.keyRaw_advance (s : State) (t : Nat) (a code : Nat) : (s.advance t).keyRaw a code = s.keyRaw a code := by
  unfold State.advance; split <;> rfl
@[simp] theorem State.keyValue_advance (s : State) (t : Nat) (a code : Nat) (abs : Bool) :
    (s.advance t).keyValue a code abs = s.keyValue a code abs := by
  unfold State.advance; split <;> rfl
@[simp] theorem State.appliedAll_advance (s : State) (t : Nat) (a : Nat) : (s.advance t).appliedAll a = s.appliedAll a := by
  unfold State.advance; split <;> rfl
@[simp] theorem State.appliedBefore_advance (s : State) (t : Nat) (a : Nat) : (s.advance t).appliedBefore a = s.appliedBefore a := by
  unfold State.advance; split <;> rfl
@[simp] theorem State.axisStage_advance (s : State) (t : Nat) (a : Nat) : (s.advance t).axisStage a = s.axisStage a := by
  unfold State.advance; split <;> rfl
@[simp] theorem State.mapLocked_advance (s : State) (t : Nat) (a : Nat) : (s.advance t).mapLocked a = s.mapLocked a := by
  unfold State.advance; split <;> rfl
@[simp] theorem State.interpHalted_advance (s : State) (t : Nat) : (s.advance t).interpHalted = s.interpHalted := by
  unfold State.advance; split <;> rfl
@[simp] theorem State.latch_advance (s : State) (t : Nat) (u : Nat) : (s.advance t).latch u = s.latch u := by
  unfold State.advance; split <;> rfl
@[simp] theorem State.cmpU_advance (s : State) (t : Nat) (u : Nat) : (s.advance t).cmpU u = s.cmpU u := by
  unfold State.advance; split <;> rfl
@[simp] theorem State.emuU_advance (s : State) (t : Nat) (e : Nat) : (s.advance t).emuU e = s.emuU e := by
  unfold State.advance; split <;> rfl
@[simp] theorem State.group_advance (s : State) (t : Nat) (g : Nat) : (s.advance t).group g = s.group g := by
  unfold State.advance; split <;> rfl
@[simp] theorem State.nextS2_advance (s : State) (t : Nat) : (s.advance t).nextS2 = s.nextS2 := by
  unfold State.advance; split <;> rfl
@[simp] theorem State.dqOwner_advance (s : State) (t : Nat) (o : Nat) : (s.advance t).dqOwner o = s.dqOwner o := by
  unfold State.advance; split <;> rfl
@[simp] theorem State.unitsLevel_advance (s : State) (t : Nat) (o x : Nat) : (s.advance t).unitsLevel o x = s.unitsLevel o x := by
  unfold State.advance; split <;> rfl
@[simp] theorem State.dqLevel_advance (s : State) (t : Nat) (o x : Nat) : (s.advance t).dqLevel o x = s.dqLevel o x := by
  unfold State.advance; split <;> rfl
@[simp] theorem State.history_advance (s : State) (t : Nat) (src : Nat) : (s.advance t).history src = s.history src := by
  unfold State.advance; split <;> rfl
@[simp] theorem State.indexStamp_advance (s : State) (t : Nat) (inst : Nat) (ci : Int) :
    (s.advance t).indexStamp inst ci = s.indexStamp inst ci := by
  unfold State.advance; split <;> rfl
@[simp] theorem State.latValue_advance (s : State) (t : Nat) (u : Nat) (x : LatTrig) : (s.advance t).latValue u x = s.latValue u x := by
  unfold State.advance; split <;> rfl
@[simp] theorem State.latLimits_advance (s : State) (t : Nat) (u stamp : Nat) : (s.advance t).latLimits u stamp = s.latLimits u stamp := by
  unfold State.advance; split <;> rfl
@[simp] theorem State.latWindow_advance (s : State) (t : Nat) (u stamp : Nat) (p : Int) :
    (s.advance t).latWindow u stamp p = s.latWindow u stamp p := by
  unfold State.advance; split <;> rfl
@[simp] theorem State.latOld_advance (s : State) (t : Nat) (u stamp : Nat) : (s.advance t).latOld u stamp = s.latOld u stamp := by
  unfold State.advance; split <;> rfl
@[simp] theorem State.emuZ_advance (s : State) (t : Nat) (e : Nat) (c : Int) : (s.advance t).emuZ e c = s.emuZ e c := by
  unfold State.advance; split <;> rfl
@[simp] theorem State.srcEmpty_advance (s : State) (t : Nat) (src : Nat) : (s.advance t).srcEmpty src = s.srcEmpty src := by
  unfold State.advance; split <;> rfl
@[simp] theorem State.latWriteBad_advance (s : State) (t : Nat) (idx i v : Nat) :
    (s.advance t).latWriteBad idx i v = s.latWriteBad idx i v := by
  unfold State.advance; split <;> rfl
@[simp] theorem State.safIn_advance (s : State) (t : Nat) (i : Nat) : (s.advance t).safIn i = s.safIn i := by
  unfold State.advance; split <;> rfl
@[simp] theorem State.proc_advance (s : State) (t : Nat) (p : Nat) : (s.advance t).proc p = s.proc p := by
  unfold State.advance; split <;> rfl
@[simp] theorem State.safV_advance (s : State) (t : Nat) (p i : Nat) : (s.advance t).safV p i = s.safV p i := by
  unfold State.advance; split <;> rfl
@[simp] theorem State.chanWord_advance (s : State) (t : Nat) (ch : Nat) : (s.advance t).chanWord ch = s.chanWord ch := by
  unfold State.advance; split <;> rfl
@[simp] theorem State.gState_advance (s : State) (t : Nat) (p g : Nat) : (s.advance t).gState p g = s.gState p g := by
  unfold State.advance; split <;> rfl
@[simp] theorem State.stoOn_advance (s : State) (t : Nat) (p g : Nat) : (s.advance t).stoOn p g = s.stoOn p g := by
  unfold State.advance; split <;> rfl
@[simp] theorem State.stoLineOf_advance (s : State) (t : Nat) (p g : Nat) : (s.advance t).stoLineOf p g = s.stoLineOf p g := by
  unfold State.advance; split <;> rfl
@[simp] theorem State.ss1LineOf_advance (s : State) (t : Nat) (p g : Nat) : (s.advance t).ss1LineOf p g = s.ss1LineOf p g := by
  unfold State.advance; split <;> rfl
@[simp] theorem State.stoLine_advance (s : State) (t : Nat) (g : Nat) : (s.advance t).stoLine g = s.stoLine g := by
  unfold State.advance; split <;> rfl
@[simp] theorem State.ss1Line_advance (s : State) (t : Nat) (g : Nat) : (s.advance t).ss1Line g = s.ss1Line g := by
  unfold State.advance; split <;> rfl
@[simp] theorem State.safLineWord_advance (s : State) (t : Nat) : (s.advance t).safLineWord = s.safLineWord := by
  unfold State.advance; split <;> rfl
@[simp] theorem State.setupMode_advance (s : State) (t : Nat) (p : Nat) : (s.advance t).setupMode p = s.setupMode p := by
  unfold State.advance; split <;> rfl
@[simp] theorem State.enabling_advance (s : State) (t : Nat) (p : Nat) : (s.advance t).enabling p = s.enabling p := by
  unfold State.advance; split <;> rfl
@[simp] theorem State.estops_advance (s : State) (t : Nat) : (s.advance t).estops = s.estops := by
  unfold State.advance; split <;> rfl
@[simp] theorem State.demands_advance (s : State) (t : Nat) (p g : Nat) : (s.advance t).demands p g = s.demands p g := by
  unfold State.advance; split <;> rfl
@[simp] theorem State.inputFault_advance (s : State) (t : Nat) (g : Nat) : (s.advance t).inputFault g = s.inputFault g := by
  unfold State.advance; split <;> rfl
@[simp] theorem State.openWord_advance (s : State) (t : Nat) (p : Nat) : (s.advance t).openWord p = s.openWord p := by
  unfold State.advance; split <;> rfl
@[simp] theorem State.setupOff_advance (s : State) (t : Nat) (p : Nat) : (s.advance t).setupOff p = s.setupOff p := by
  unfold State.advance; split <;> rfl
@[simp] theorem State.asksSto_advance (s : State) (t : Nat) (i : Nat) (moved : Bool) :
    (s.advance t).asksSto i moved = s.asksSto i moved := by
  unfold State.advance; split <;> rfl
@[simp] theorem State.openFilter_advance (s : State) (t : Nat) (i : Nat) : (s.advance t).openFilter i = s.openFilter i := by
  unfold State.advance; split <;> rfl
@[simp] theorem State.axisGroup_advance (s : State) (t : Nat) (a : Nat) : (s.advance t).axisGroup a = s.axisGroup a := by
  unfold State.advance; split <;> rfl
@[simp] theorem State.vmr_advance (s : State) (t : Nat) (m : Nat) : (s.advance t).vmr m = s.vmr m := by
  unfold State.advance; split <;> rfl
@[simp] theorem State.vmLims_advance (s : State) (t : Nat) (m : Nat) : (s.advance t).vmLims m = s.vmLims m := by
  unfold State.advance; split <;> rfl
@[simp] theorem State.vmStops_advance (s : State) (t : Nat) (m : Nat) : (s.advance t).vmStops m = s.vmStops m := by
  unfold State.advance; split <;> rfl
@[simp] theorem State.rideDemand_advance (s : State) (t : Nat) (m : Nat) : (s.advance t).rideDemand m = s.rideDemand m := by
  unfold State.advance; split <;> rfl
@[simp] theorem State.ownDemand_advance (s : State) (t : Nat) (m : Nat) : (s.advance t).ownDemand m = s.ownDemand m := by
  unfold State.advance; split <;> rfl
@[simp] theorem State.scaleDemand_advance (s : State) (t : Nat) (m : Nat) : (s.advance t).scaleDemand m = s.scaleDemand m := by
  unfold State.advance; split <;> rfl
@[simp] theorem State.scaleStep_advance (s : State) (t : Nat) (m : Nat) (sg sd want : Int) :
    (s.advance t).scaleStep m sg sd want = s.scaleStep m sg sd want := by
  unfold State.advance; split <;> rfl
@[simp] theorem State.vmGen_advance (s : State) (t : Nat) (m : Nat) (r : VmRec) : (s.advance t).vmGen m r = s.vmGen m r := by
  unfold State.advance; split <;> rfl
@[simp] theorem State.vmRatio_advance (s : State) (t : Nat) (m : Nat) : (s.advance t).vmRatio m = s.vmRatio m := by
  unfold State.advance; split <;> rfl
@[simp] theorem State.vmFollow_advance (s : State) (t : Nat) (m : Nat) (r : VmRec) : (s.advance t).vmFollow m r = s.vmFollow m r := by
  unfold State.advance; split <;> rfl
@[simp] theorem State.lineVm_advance (s : State) (t : Nat) : (s.advance t).lineVm = s.lineVm := by
  unfold State.advance; split <;> rfl
@[simp] theorem State.lineOwner_advance (s : State) (t : Nat) : (s.advance t).lineOwner = s.lineOwner := by
  unfold State.advance; split <;> rfl
@[simp] theorem State.sampleAt_advance (s : State) (t : Nat) (x : Nat) : (s.advance t).sampleAt x = s.sampleAt x := by
  unfold State.advance; split <;> rfl
@[simp] theorem State.linePeriod_advance (s : State) (t : Nat) : (s.advance t).linePeriod = s.linePeriod := by
  unfold State.advance; split <;> rfl
@[simp] theorem State.lineCrc_advance (s : State) (t : Nat) : (s.advance t).lineCrc = s.lineCrc := by
  unfold State.advance; split <;> rfl
@[simp] theorem State.lineDem_advance (s : State) (t : Nat) : (s.advance t).lineDem = s.lineDem := by
  unfold State.advance; split <;> rfl
@[simp] theorem State.lineAsked_advance (s : State) (t : Nat) : (s.advance t).lineAsked = s.lineAsked := by
  unfold State.advance; split <;> rfl
@[simp] theorem State.lineDest_advance (s : State) (t : Nat) : (s.advance t).lineDest = s.lineDest := by
  unfold State.advance; split <;> rfl
@[simp] theorem State.lineDiffers_advance (s : State) (t : Nat) (b : List Byte) : (s.advance t).lineDiffers b = s.lineDiffers b := by
  unfold State.advance; split <;> rfl
@[simp] theorem State.gp_advance (s : State) (t : Nat) (n : Nat) : (s.advance t).gp n = s.gp n := by
  unfold State.advance; split <;> rfl
@[simp] theorem State.modVal_advance (s : State) (t : Nat) (idx i : Nat) : (s.advance t).modVal idx i = s.modVal idx i := by
  unfold State.advance; split <;> rfl
@[simp] theorem State.modDt_advance (s : State) (t : Nat) (i : Nat) : (s.advance t).modDt i = s.modDt i := by
  unfold State.advance; split <;> rfl
@[simp] theorem State.axisDuties_advance (s : State) (t : Nat) (a : Nat) (mA mB : Rat) :
    (s.advance t).axisDuties a mA mB = s.axisDuties a mA mB := by
  unfold State.advance; split <;> rfl
@[simp] theorem State.curFs_advance (s : State) (t : Nat) (a : Nat) : (s.advance t).curFs a = s.curFs a := by
  unfold State.advance; split <;> rfl
@[simp] theorem State.voltFs_advance (s : State) (t : Nat) (a : Nat) : (s.advance t).voltFs a = s.voltFs a := by
  unfold State.advance; split <;> rfl
@[simp] theorem State.pairCurrents_advance (s : State) (t : Nat) (a : Nat) : (s.advance t).pairCurrents a = s.pairCurrents a := by
  unfold State.advance; split <;> rfl
@[simp] theorem State.engCurrents_advance (s : State) (t : Nat) (a : Nat) : (s.advance t).engCurrents a = s.engCurrents a := by
  unfold State.advance; split <;> rfl
@[simp] theorem State.axisPairs_advance (s : State) (t : Nat) (a : Nat) : (s.advance t).axisPairs a = s.axisPairs a := by
  unfold State.advance; split <;> rfl
@[simp] theorem State.modAtOnce_advance (s : State) (t : Nat) (i : Nat) : (s.advance t).modAtOnce i = s.modAtOnce i := by
  unfold State.advance; split <;> rfl
@[simp] theorem State.modLocked_advance (s : State) (t : Nat) (i : Nat) : (s.advance t).modLocked i = s.modLocked i := by
  unfold State.advance; split <;> rfl
@[simp] theorem State.inStaged_advance (s : State) (t : Nat) (k : Nat) : (s.advance t).inStaged k = s.inStaged k := by
  unfold State.advance; split <;> rfl
@[simp] theorem State.members_advance (s : State) (t : Nat) (mask : Nat) : (s.advance t).members mask = s.members mask := by
  unfold State.advance; split <;> rfl
@[simp] theorem State.reloadNs_advance (s : State) (t : Nat) : (s.advance t).reloadNs = s.reloadNs := by
  unfold State.advance; split <;> rfl
@[simp] theorem State.gpFree_advance (s : State) (t : Nat) (n : Nat) : (s.advance t).gpFree n = s.gpFree n := by
  unfold State.advance; split <;> rfl
@[simp] theorem State.tripScope_advance (s : State) (t : Nat) (pair : Nat) : (s.advance t).tripScope pair = s.tripScope pair := by
  unfold State.advance; split <;> rfl
@[simp] theorem State.mstEntry_advance (s : State) (t : Nat) (tab i : Nat) : (s.advance t).mstEntry tab i = s.mstEntry tab i := by
  unfold State.advance; split <;> rfl
@[simp] theorem State.mstBytes_advance (s : State) (t : Nat) (tab : Nat) : (s.advance t).mstBytes tab = s.mstBytes tab := by
  unfold State.advance; split <;> rfl
@[simp] theorem State.mstInUse_advance (s : State) (t : Nat) (tab : Nat) : (s.advance t).mstInUse tab = s.mstInUse tab := by
  unfold State.advance; split <;> rfl
@[simp] theorem State.modWriteBad_advance (s : State) (t : Nat) (idx i v : Nat) :
    (s.advance t).modWriteBad idx i v = s.modWriteBad idx i v := by
  unfold State.advance; split <;> rfl
@[simp] theorem State.moveBad_advance (s : State) (t : Nat) (a : Nat) : (s.advance t).moveBad a = s.moveBad a := by
  unfold State.advance; split <;> rfl
@[simp] theorem State.moveAx_advance (s : State) (t : Nat) (a : Nat) : (s.advance t).moveAx a = s.moveAx a := by
  unfold State.advance; split <;> rfl
@[simp] theorem State.limsBad_advance (s : State) (t : Nat) (a : Nat) (own : List Nat) : (s.advance t).limsBad a own = s.limsBad a own := by
  unfold State.advance; split <;> rfl
@[simp] theorem State.latchUses_advance (s : State) (t : Nat) (inp edge : Nat) :
    (s.advance t).latchUses inp edge = s.latchUses inp edge := by
  unfold State.advance; split <;> rfl
@[simp] theorem State.queueEnd_advance (s : State) (t : Nat) (a : Nat) : (s.advance t).queueEnd a = s.queueEnd a := by
  unfold State.advance; split <;> rfl
@[simp] theorem State.stepFits_advance (s : State) (t : Nat) (a idx v : Nat) (T : Nat) :
    (s.advance t).stepFits a idx v T = s.stepFits a idx v T := by
  unfold State.advance; split <;> rfl
@[simp] theorem State.trjWriteBad_advance (s : State) (t : Nat) (idx a v : Nat) :
    (s.advance t).trjWriteBad idx a v = s.trjWriteBad idx a v := by
  unfold State.advance; split <;> rfl
@[simp] theorem State.vmUsed_advance (s : State) (t : Nat) (m : Nat) : (s.advance t).vmUsed m = s.vmUsed m := by
  unfold State.advance; split <;> rfl
@[simp] theorem State.gearWriteBad_advance (s : State) (t : Nat) (idx i v : Nat) :
    (s.advance t).gearWriteBad idx i v = s.gearWriteBad idx i v := by
  unfold State.advance; split <;> rfl
@[simp] theorem State.stopWay_advance (s : State) (t : Nat) (a : Nat) (g : Gen) : (s.advance t).stopWay a g = s.stopWay a g := by
  unfold State.advance; split <;> rfl
@[simp] theorem State.stopsAt_advance (s : State) (t : Nat) (a : Nat) (g : Gen) : (s.advance t).stopsAt a g = s.stopsAt a g := by
  unfold State.advance; split <;> rfl
@[simp] theorem State.ntBit_advance (s : State) (t : Nat) (k : Nat) : (s.advance t).ntBit k = s.ntBit k := by
  unfold State.advance; split <;> rfl
@[simp] theorem State.jump16_advance (s : State) (t : Nat) : (s.advance t).jump16 = s.jump16 := by
  unfold State.advance; split <;> rfl
@[simp] theorem State.ptpMine_advance (s : State) (t : Nat) (m : PtpMsg) : (s.advance t).ptpMine m = s.ptpMine m := by
  unfold State.advance; split <;> rfl
@[simp] theorem State.ownGm_advance (s : State) (t : Nat) : (s.advance t).ownGm = s.ownGm := by
  unfold State.advance; split <;> rfl
@[simp] theorem State.unitId_advance (s : State) (t : Nat) : (s.advance t).unitId = s.unitId := by
  unfold State.advance; split <;> rfl
@[simp] theorem State.neighbour_advance (s : State) (t : Nat) (port : Nat) : (s.advance t).neighbour port = s.neighbour port := by
  unfold State.advance; split <;> rfl
@[simp] theorem State.isHead_advance (s : State) (t : Nat) : (s.advance t).isHead = s.isHead := by
  unfold State.advance; split <;> rfl
@[simp] theorem State.netWriteBad_advance (s : State) (t : Nat) (idx : Nat) : (s.advance t).netWriteBad idx = s.netWriteBad idx := by
  unfold State.advance; split <;> rfl
@[simp] theorem State.rf_advance (s : State) (t : Nat) (idx inst : Nat) : (s.advance t).rf idx inst = s.rf idx inst := by
  unfold State.advance; split <;> rfl
@[simp] theorem State.rp_advance (s : State) (t : Nat) (idx inst : Nat) : (s.advance t).rp idx inst = s.rp idx inst := by
  unfold State.advance; split <;> rfl
@[simp] theorem State.ri_advance (s : State) (t : Nat) (idx inst : Nat) : (s.advance t).ri idx inst = s.ri idx inst := by
  unfold State.advance; split <;> rfl
@[simp] theorem State.rb_advance (s : State) (t : Nat) (idx inst : Nat) : (s.advance t).rb idx inst = s.rb idx inst := by
  unfold State.advance; split <;> rfl
@[simp] theorem State.rdShadow_advance (s : State) (t : Nat) (idx inst : Nat) : (s.advance t).rdShadow idx inst = s.rdShadow idx inst := by
  unfold State.advance; split <;> rfl
@[simp] theorem State.copies_advance (s : State) (t : Nat) (p i : Nat) : (s.advance t).copies p i = s.copies p i := by
  unfold State.advance; split <;> rfl
@[simp] theorem State.breaks_advance (s : State) (t : Nat) (idx i v : Nat) (ps : List Nat) (bad : (Nat → Nat) → Bool) :
    (s.advance t).breaks idx i v ps bad = s.breaks idx i v ps bad := by
  unfold State.advance; split <;> rfl
@[simp] theorem State.cycleNs_advance (s : State) (t : Nat) : (s.advance t).cycleNs = s.cycleNs := by
  unfold State.advance; split <;> rfl
@[simp] theorem State.rsChars_advance (s : State) (t : Nat) (n : Rat) : (s.advance t).rsChars n = s.rsChars n := by
  unfold State.advance; split <;> rfl
@[simp] theorem State.nextTarget_advance (s : State) (t : Nat) : (s.advance t).nextTarget = s.nextTarget := by
  unfold State.advance; split <;> rfl
@[simp] theorem State.inTime_advance (s : State) (t : Nat) (c : Nat) : (s.advance t).inTime c = s.inTime c := by
  unfold State.advance; split <;> rfl
@[simp] theorem State.tgt_advance (s : State) (t : Nat) (b : List Byte) (off : Nat) : (s.advance t).tgt b off = s.tgt b off := by
  unfold State.advance; split <;> rfl
@[simp] theorem State.late_advance (s : State) (t : Nat) (b : List Byte) (off : Nat) : (s.advance t).late b off = s.late b off := by
  unfold State.advance; split <;> rfl
@[simp] theorem State.hasCommit_advance (s : State) (t : Nat) (op inst : Nat) : (s.advance t).hasCommit op inst = s.hasCommit op inst := by
  unfold State.advance; split <;> rfl
@[simp] theorem State.engForm_advance (s : State) (t : Nat) (idx i v : Nat) : (s.advance t).engForm idx i v = s.engForm idx i v := by
  unfold State.advance; split <;> rfl
@[simp] theorem State.writeForm_advance (s : State) (t : Nat) (r : ParamRow) (i v : Nat) :
    (s.advance t).writeForm r i v = s.writeForm r i v := by
  unfold State.advance; split <;> rfl
@[simp] theorem State.groupSet_advance (s : State) (t : Nat) (g : Nat) : (s.advance t).groupSet g = s.groupSet g := by
  unfold State.advance; split <;> rfl
@[simp] theorem State.setFor_advance (s : State) (t : Nat) (r : ParamRow) (i : Nat) : (s.advance t).setFor r i = s.setFor r i := by
  unfold State.advance; split <;> rfl
@[simp] theorem State.stagedCopy_advance (s : State) (t : Nat) (idx i : Nat) : (s.advance t).stagedCopy idx i = s.stagedCopy idx i := by
  unfold State.advance; split <;> rfl
@[simp] theorem State.loadStaged_advance (s : State) (t : Nat) (i : Nat) : (s.advance t).loadStaged i = s.loadStaged i := by
  unfold State.advance; split <;> rfl
@[simp] theorem State.lockedCopy_advance (s : State) (t : Nat) (idx i : Nat) : (s.advance t).lockedCopy idx i = s.lockedCopy idx i := by
  unfold State.advance; split <;> rfl
@[simp] theorem State.namedSet_advance (s : State) (t : Nat) (scope inst fam : Nat) :
    (s.advance t).namedSet scope inst fam = s.namedSet scope inst fam := by
  unfold State.advance; split <;> rfl
@[simp] theorem State.keyLocked_advance (s : State) (t : Nat) (k : Nat) : (s.advance t).keyLocked k = s.keyLocked k := by
  unfold State.advance; split <;> rfl
@[simp] theorem State.gridAfter_advance (s : State) (t : Nat) (x : Nat) : (s.advance t).gridAfter x = s.gridAfter x := by
  unfold State.advance; split <;> rfl
@[simp] theorem State.hostAddrBad_advance (s : State) (t : Nat) (idx v : Nat) : (s.advance t).hostAddrBad idx v = s.hostAddrBad idx v := by
  unfold State.advance; split <;> rfl
@[simp] theorem State.sysWriteBad_advance (s : State) (t : Nat) (idx i v : Nat) :
    (s.advance t).sysWriteBad idx i v = s.sysWriteBad idx i v := by
  unfold State.advance; split <;> rfl
@[simp] theorem State.hostWriteBad_advance (s : State) (t : Nat) (idx v : Nat) :
    (s.advance t).hostWriteBad idx v = s.hostWriteBad idx v := by
  unfold State.advance; split <;> rfl
@[simp] theorem State.writeBad1_advance (s : State) (t : Nat) (idx i v : Nat) : (s.advance t).writeBad1 idx i v = s.writeBad1 idx i v := by
  unfold State.advance; split <;> rfl
@[simp] theorem State.writeBad2_advance (s : State) (t : Nat) (idx i v : Nat) : (s.advance t).writeBad2 idx i v = s.writeBad2 idx i v := by
  unfold State.advance; split <;> rfl
@[simp] theorem State.stageBad_advance (s : State) (t : Nat) (r : ParamRow) (i : Nat) (staged : Bool) :
    (s.advance t).stageBad r i staged = s.stageBad r i staged := by
  unfold State.advance; split <;> rfl
@[simp] theorem State.groupBad_advance (s : State) (t : Nat) (r : ParamRow) (i : Nat) (staged : Bool) :
    (s.advance t).groupBad r i staged = s.groupBad r i staged := by
  unfold State.advance; split <;> rfl
@[simp] theorem State.writeBad_advance (s : State) (t : Nat) (r : ParamRow) (i v : Nat) (staged : Bool) :
    (s.advance t).writeBad r i v staged = s.writeBad r i v staged := by
  unfold State.advance; split <;> rfl
@[simp] theorem State.movesOthers_advance (s : State) (t : Nat) (g m : Nat) : (s.advance t).movesOthers g m = s.movesOthers g m := by
  unfold State.advance; split <;> rfl
@[simp] theorem State.pgr_advance (s : State) (t : Nat) (g : Nat) : (s.advance t).pgr g = s.pgr g := by
  unfold State.advance; split <;> rfl
@[simp] theorem State.pgAxes_advance (s : State) (t : Nat) (g : Nat) : (s.advance t).pgAxes g = s.pgAxes g := by
  unfold State.advance; split <;> rfl
@[simp] theorem State.peBad_advance (s : State) (t : Nat) (g : Nat) (b : List Byte) (start : List Int) (len : Int) :
    (s.advance t).peBad g b start len = s.peBad g b start len := by
  unfold State.advance; split <;> rfl
@[simp] theorem State.peLim_advance (s : State) (t : Nat) (g : Nat) (e : PEntry) (n j : Nat) :
    (s.advance t).peLim g e n j = s.peLim g e n j := by
  unfold State.advance; split <;> rfl
@[simp] theorem State.peParts_advance (s : State) (tk : Nat) (g : Nat) (t : Int) (e : PEntry) (p : Int) (cap : Option Int) :
    (s.advance tk).peParts g t e p cap = s.peParts g t e p cap := by
  unfold State.advance; split <;> rfl
@[simp] theorem State.pgJoint_advance (s : State) (t : Nat) (g : Nat) (e n : PEntry) : (s.advance t).pgJoint g e n = s.pgJoint g e n := by
  unfold State.advance; split <;> rfl
@[simp] theorem State.pgLook_advance (s : State) (t : Nat) (g : Nat) : (s.advance t).pgLook g = s.pgLook g := by
  unfold State.advance; split <;> rfl
@[simp] theorem State.pgScale_advance (s : State) (t : Nat) (g : Nat) : (s.advance t).pgScale g = s.pgScale g := by
  unfold State.advance; split <;> rfl
@[simp] theorem State.pgSource_advance (s : State) (t : Nat) (g i : Nat) : (s.advance t).pgSource g i = s.pgSource g i := by
  unfold State.advance; split <;> rfl
@[simp] theorem State.pgOf_advance (s : State) (t : Nat) (a : Nat) : (s.advance t).pgOf a = s.pgOf a := by
  unfold State.advance; split <;> rfl
@[simp] theorem State.pgList_advance (s : State) (t : Nat) (g : Nat) : (s.advance t).pgList g = s.pgList g := by
  unfold State.advance; split <;> rfl
@[simp] theorem State.pgUnbound_advance (s : State) (t : Nat) (g : Nat) : (s.advance t).pgUnbound g = s.pgUnbound g := by
  unfold State.advance; split <;> rfl
@[simp] theorem State.thread_advance (s : State) (t : Nat) (n : Nat) : (s.advance t).thread n = s.thread n := by
  unfold State.advance; split <;> rfl
@[simp] theorem State.coreR_advance (s : State) (t : Nat) (c : Nat) : (s.advance t).coreR c = s.coreR c := by
  unfold State.advance; split <;> rfl
@[simp] theorem State.flow_advance (s : State) (t : Nat) (f : Nat) : (s.advance t).flow f = s.flow f := by
  unfold State.advance; split <;> rfl
@[simp] theorem State.taskR_advance (s : State) (t : Nat) (k : Nat) : (s.advance t).taskR k = s.taskR k := by
  unfold State.advance; split <;> rfl
@[simp] theorem State.threadIdle_advance (s : State) (t : Nat) (n : Nat) : (s.advance t).threadIdle n = s.threadIdle n := by
  unfold State.advance; split <;> rfl
@[simp] theorem State.bestThread_advance (s : State) (t : Nat) (c : Nat) : (s.advance t).bestThread c = s.bestThread c := by
  unfold State.advance; split <;> rfl
@[simp] theorem State.tagOk_advance (s : State) (t : Nat) (f owner : Nat) : (s.advance t).tagOk f owner = s.tagOk f owner := by
  unfold State.advance; split <;> rfl
@[simp] theorem State.partUsed_advance (s : State) (t : Nat) (p : Nat) : (s.advance t).partUsed p = s.partUsed p := by
  unfold State.advance; split <;> rfl
@[simp] theorem State.partOf_advance (s : State) (t : Nat) (addr : Nat) : (s.advance t).partOf addr = s.partOf addr := by
  unfold State.advance; split <;> rfl
@[simp] theorem State.partFree_advance (s : State) (t : Nat) (p : Nat) : (s.advance t).partFree p = s.partFree p := by
  unfold State.advance; split <;> rfl
@[simp] theorem State.windowAt_advance (s : State) (t : Nat) (k vpage : Nat) : (s.advance t).windowAt k vpage = s.windowAt k vpage := by
  unfold State.advance; split <;> rfl
@[simp] theorem State.pageAt_advance (s : State) (t : Nat) (k vpage : Nat) : (s.advance t).pageAt k vpage = s.pageAt k vpage := by
  unfold State.advance; split <;> rfl
@[simp] theorem State.taskBytes_advance (s : State) (t : Nat) (k addr len : Nat) :
    (s.advance t).taskBytes k addr len = s.taskBytes k addr len := by
  unfold State.advance; split <;> rfl
@[simp] theorem State.dmaChain_advance (s : State) (t : Nat) (c : Nat) : (s.advance t).dmaChain c = s.dmaChain c := by
  unfold State.advance; split <;> rfl
@[simp] theorem State.dmaNext_advance (s : State) (t : Nat) : (s.advance t).dmaNext = s.dmaNext := by
  unfold State.advance; split <;> rfl
@[simp] theorem State.partUsedMb_advance (s : State) (t : Nat) (p : Nat) : (s.advance t).partUsedMb p = s.partUsedMb p := by
  unfold State.advance; split <;> rfl
@[simp] theorem State.procWriteBad_advance (s : State) (t : Nat) (idx i v : Nat) :
    (s.advance t).procWriteBad idx i v = s.procWriteBad idx i v := by
  unfold State.advance; split <;> rfl
@[simp] theorem State.portReceive_advance (s : State) (t : Nat) (i : Nat) (f : LocalFb) :
    (s.advance t).portReceive i f = s.portReceive i f := by
  unfold State.advance; split <;> rfl
@[simp] theorem State.portBroken_advance (s : State) (t : Nat) (port : Nat) (f : LocalFb) :
    (s.advance t).portBroken port f = s.portBroken port f := by
  unfold State.advance; split <;> rfl
@[simp] theorem State.slotSeen_advance (s : State) (t : Nat) (k : Nat) : (s.advance t).slotSeen k = s.slotSeen k := by
  unfold State.advance; split <;> rfl
@[simp] theorem State.placeRecs_advance (s : State) (t : Nat) (k : Nat) (off : Bool) :
    (s.advance t).placeRecs k off = s.placeRecs k off := by
  unfold State.advance; split <;> rfl
@[simp] theorem State.placeRun_advance (s : State) (t : Nat) (k : Nat) : (s.advance t).placeRun k = s.placeRun k := by
  unfold State.advance; split <;> rfl
@[simp] theorem State.slotByte_advance (s : State) (t : Nat) (k off : Nat) : (s.advance t).slotByte k off = s.slotByte k off := by
  unfold State.advance; split <;> rfl
@[simp] theorem State.slotBytes_advance (s : State) (t : Nat) (k off n : Nat) : (s.advance t).slotBytes k off n = s.slotBytes k off n := by
  unfold State.advance; split <;> rfl
@[simp] theorem State.slotVersion_advance (s : State) (t : Nat) (k : Nat) : (s.advance t).slotVersion k = s.slotVersion k := by
  unfold State.advance; split <;> rfl
@[simp] theorem State.slotOk_advance (s : State) (t : Nat) (k : Nat) : (s.advance t).slotOk k = s.slotOk k := by
  unfold State.advance; split <;> rfl
@[simp] theorem State.bootVals_advance (s : State) (t : Nat) (defaults : Bool) : (s.advance t).bootVals defaults = s.bootVals defaults := by
  unfold State.advance; split <;> rfl
@[simp] theorem State.bootCopy_advance (s : State) (t : Nat) : (s.advance t).bootCopy = s.bootCopy := by
  unfold State.advance; split <;> rfl
@[simp] theorem State.copyTarget_advance (s : State) (t : Nat) : (s.advance t).copyTarget = s.copyTarget := by
  unfold State.advance; split <;> rfl
@[simp] theorem State.stored_advance (s : State) (t : Nat) (j : Nat) : (s.advance t).stored j = s.stored j := by
  unfold State.advance; split <;> rfl
@[simp] theorem State.islandState_advance (s : State) (t : Nat) : (s.advance t).islandState = s.islandState := by
  unfold State.advance; split <;> rfl
@[simp] theorem State.slotBusy_advance (s : State) (t : Nat) (k : Nat) : (s.advance t).slotBusy k = s.slotBusy k := by
  unfold State.advance; split <;> rfl
@[simp] theorem State.openRequests_advance (s : State) (t : Nat) : (s.advance t).openRequests = s.openRequests := by
  unfold State.advance; split <;> rfl
@[simp] theorem State.bootWriteBad_advance (s : State) (t : Nat) (idx inst v : Nat) :
    (s.advance t).bootWriteBad idx inst v = s.bootWriteBad idx inst v := by
  unfold State.advance; split <;> rfl
@[simp] theorem State.traj_advance (s : State) (t : Nat) (a : Nat) : (s.advance t).traj a = s.traj a := by
  unfold State.advance; split <;> rfl
@[simp] theorem State.tBit_advance (s : State) (t : Nat) (a k : Nat) : (s.advance t).tBit a k = s.tBit a k := by
  unfold State.advance; split <;> rfl
@[simp] theorem State.axLims_advance (s : State) (t : Nat) (a : Nat) : (s.advance t).axLims a = s.axLims a := by
  unfold State.advance; split <;> rfl
@[simp] theorem State.axStops_advance (s : State) (t : Nat) (a : Nat) : (s.advance t).axStops a = s.axStops a := by
  unfold State.advance; split <;> rfl
@[simp] theorem State.ramp_advance (s : State) (t : Nat) (a : Nat) (g : Gen) : (s.advance t).ramp a g = s.ramp a g := by
  unfold State.advance; split <;> rfl
@[simp] theorem State.monBound_advance (s : State) (t : Nat) (a : Nat) (up : Bool) : (s.advance t).monBound a up = s.monBound a up := by
  unfold State.advance; split <;> rfl
@[simp] theorem State.clip_advance (s : State) (t : Nat) (a : Nat) (x : Int) : (s.advance t).clip a x = s.clip a x := by
  unfold State.advance; split <;> rfl
@[simp] theorem State.genNext_advance (s : State) (t : Nat) (a : Nat) (g : Gen) : (s.advance t).genNext a g = s.genNext a g := by
  unfold State.advance; split <;> rfl
@[simp] theorem State.beyond_advance (s : State) (t : Nat) (a : Nat) (x : Int) : (s.advance t).beyond a x = s.beyond a x := by
  unfold State.advance; split <;> rfl
@[simp] theorem State.jogNext_advance (s : State) (t : Nat) (a : Nat) (g : Gen) : (s.advance t).jogNext a g = s.jogNext a g := by
  unfold State.advance; split <;> rfl
@[simp] theorem State.lookahead_advance (s : State) (t : Nat) (a : Nat) : (s.advance t).lookahead a = s.lookahead a := by
  unfold State.advance; split <;> rfl
@[simp] theorem State.entryLim_advance (s : State) (t : Nat) (a : Nat) (keep : List Nat) (e : QEntry) :
    (s.advance t).entryLim a keep e = s.entryLim a keep e := by
  unfold State.advance; split <;> rfl
@[simp] theorem State.entryRamp_advance (s : State) (t : Nat) (a : Nat) (keep : List Nat) (e : QEntry) :
    (s.advance t).entryRamp a keep e = s.entryRamp a keep e := by
  unfold State.advance; split <;> rfl
@[simp] theorem State.wayOk_advance (s : State) (t : Nat) (a : Nat) (g : Gen) (sg : Int) (l : List Leg) :
    (s.advance t).wayOk a g sg l = s.wayOk a g sg l := by
  unfold State.advance; split <;> rfl
@[simp] theorem State.jogCut_advance (s : State) (t : Nat) (a : Nat) : (s.advance t).jogCut a = s.jogCut a := by
  unfold State.advance; split <;> rfl
@[simp] theorem State.srcAcc_advance (s : State) (t : Nat) (a : Nat) : (s.advance t).srcAcc a = s.srcAcc a := by
  unfold State.advance; split <;> rfl
@[simp] theorem State.srcFits_advance (s : State) (t : Nat) (a : Nat) (k : Kin) : (s.advance t).srcFits a k = s.srcFits a k := by
  unfold State.advance; split <;> rfl
@[simp] theorem State.axPos_advance (s : State) (t : Nat) (a : Nat) : (s.advance t).axPos a = s.axPos a := by
  unfold State.advance; split <;> rfl
@[simp] theorem State.measured_advance (s : State) (t : Nat) (a : Nat) : (s.advance t).measured a = s.measured a := by
  unfold State.advance; split <;> rfl
@[simp] theorem State.chase_advance (s : State) (t : Nat) (a : Nat) (c b q : Kin) : (s.advance t).chase a c b q = s.chase a c b q := by
  unfold State.advance; split <;> rfl
@[simp] theorem State.trjOn_advance (s : State) (t : Nat) (a : Nat) : (s.advance t).trjOn a = s.trjOn a := by
  unfold State.advance; split <;> rfl

end Sys2Proof.Machine
end

