-- ==== Sys2Proof/Laws/State.lean ====
section
/-!
SUPPORT. The frame of each update of State: the field it changes, and that every other field stays. Each is true by rfl; tagged simp, so
that no proof unfolds a record update.
-/
namespace Sys2Proof.Machine

@[simp] theorem State.setHost_host (s : State) (h : HostState) : (s.setHost h).host = h := rfl
@[simp] theorem State.setHost_frame (s : State) (h : HostState) :
    (s.setHost h).time = s.time ∧ (s.setHost h).par = s.par ∧ (s.setHost h).sent = s.sent ∧ (s.setHost h).free = s.free
    ∧ (s.setHost h).link = s.link ∧ (s.setHost h).fb = s.fb ∧ (s.setHost h).hist = s.hist ∧ (s.setHost h).lat = s.lat
    ∧ (s.setHost h).cmp = s.cmp ∧ (s.setHost h).emu = s.emu ∧ (s.setHost h).ax = s.ax ∧ (s.setHost h).eng = s.eng
    ∧ (s.setHost h).gm = s.gm ∧ (s.setHost h).trj = s.trj ∧ (s.setHost h).vm = s.vm ∧ (s.setHost h).cpl = s.cpl
    ∧ (s.setHost h).cams = s.cams ∧ (s.setHost h).camHeld = s.camHeld ∧ (s.setHost h).pg = s.pg ∧ (s.setHost h).line = s.line
    ∧ (s.setHost h).mod = s.mod ∧ (s.setHost h).fe = s.fe ∧ (s.setHost h).saf = s.saf ∧ (s.setHost h).ferry = s.ferry
    ∧ (s.setHost h).dqFe = s.dqFe ∧ (s.setHost h).pr = s.pr ∧ (s.setHost h).aq = s.aq ∧ (s.setHost h).can = s.can
    ∧ (s.setHost h).canObj = s.canObj ∧ (s.setHost h).nt = s.nt ∧ (s.setHost h).roll = s.roll ∧ (s.setHost h).boot = s.boot
    ∧ (s.setHost h).pending = s.pending := ⟨rfl, rfl, rfl, rfl, rfl, rfl, rfl, rfl, rfl, rfl, rfl, rfl, rfl, rfl, rfl, rfl, rfl, rfl, rfl, rfl, rfl, rfl, rfl, rfl, rfl, rfl, rfl, rfl, rfl, rfl, rfl, rfl, rfl⟩

@[simp] theorem State.setRegs_host (s : State) (r : HostRegs) : (s.setRegs r).host = { s.host with regs := r } := rfl
@[simp] theorem State.setRegs_frame (s : State) (r : HostRegs) :
    (s.setRegs r).time = s.time ∧ (s.setRegs r).par = s.par ∧ (s.setRegs r).sent = s.sent ∧ (s.setRegs r).free = s.free
    ∧ (s.setRegs r).link = s.link ∧ (s.setRegs r).fb = s.fb ∧ (s.setRegs r).hist = s.hist ∧ (s.setRegs r).lat = s.lat
    ∧ (s.setRegs r).cmp = s.cmp ∧ (s.setRegs r).emu = s.emu ∧ (s.setRegs r).ax = s.ax ∧ (s.setRegs r).eng = s.eng
    ∧ (s.setRegs r).gm = s.gm ∧ (s.setRegs r).trj = s.trj ∧ (s.setRegs r).vm = s.vm ∧ (s.setRegs r).cpl = s.cpl
    ∧ (s.setRegs r).cams = s.cams ∧ (s.setRegs r).camHeld = s.camHeld ∧ (s.setRegs r).pg = s.pg ∧ (s.setRegs r).line = s.line
    ∧ (s.setRegs r).mod = s.mod ∧ (s.setRegs r).fe = s.fe ∧ (s.setRegs r).saf = s.saf ∧ (s.setRegs r).ferry = s.ferry
    ∧ (s.setRegs r).dqFe = s.dqFe ∧ (s.setRegs r).pr = s.pr ∧ (s.setRegs r).aq = s.aq ∧ (s.setRegs r).can = s.can
    ∧ (s.setRegs r).canObj = s.canObj ∧ (s.setRegs r).nt = s.nt ∧ (s.setRegs r).roll = s.roll ∧ (s.setRegs r).boot = s.boot
    ∧ (s.setRegs r).pending = s.pending := ⟨rfl, rfl, rfl, rfl, rfl, rfl, rfl, rfl, rfl, rfl, rfl, rfl, rfl, rfl, rfl, rfl, rfl, rfl, rfl, rfl, rfl, rfl, rfl, rfl, rfl, rfl, rfl, rfl, rfl, rfl, rfl, rfl, rfl⟩

@[simp] theorem State.out_sent (s : State) (o : Out) : (s.out o).sent = o :: s.sent := rfl
@[simp] theorem State.out_frame (s : State) (o : Out) :
    (s.out o).time = s.time ∧ (s.out o).par = s.par ∧ (s.out o).host = s.host ∧ (s.out o).free = s.free ∧ (s.out o).link = s.link
    ∧ (s.out o).fb = s.fb ∧ (s.out o).hist = s.hist ∧ (s.out o).lat = s.lat ∧ (s.out o).cmp = s.cmp ∧ (s.out o).emu = s.emu
    ∧ (s.out o).ax = s.ax ∧ (s.out o).eng = s.eng ∧ (s.out o).gm = s.gm ∧ (s.out o).trj = s.trj ∧ (s.out o).vm = s.vm
    ∧ (s.out o).cpl = s.cpl ∧ (s.out o).cams = s.cams ∧ (s.out o).camHeld = s.camHeld ∧ (s.out o).pg = s.pg
    ∧ (s.out o).line = s.line ∧ (s.out o).mod = s.mod ∧ (s.out o).fe = s.fe ∧ (s.out o).saf = s.saf ∧ (s.out o).ferry = s.ferry
    ∧ (s.out o).dqFe = s.dqFe ∧ (s.out o).pr = s.pr ∧ (s.out o).aq = s.aq ∧ (s.out o).can = s.can ∧ (s.out o).canObj = s.canObj
    ∧ (s.out o).nt = s.nt ∧ (s.out o).roll = s.roll ∧ (s.out o).boot = s.boot ∧ (s.out o).pending = s.pending := ⟨rfl, rfl, rfl, rfl, rfl, rfl, rfl, rfl, rfl, rfl, rfl, rfl, rfl, rfl, rfl, rfl, rfl, rfl, rfl, rfl, rfl, rfl, rfl, rfl, rfl, rfl, rfl, rfl, rfl, rfl, rfl, rfl, rfl⟩

@[simp] theorem State.frame_sent (s : State) (k : FrameKind) (p : Nat) (b : List Byte) : (s.frame k p b).sent = .frame k p b :: s.sent := rfl
@[simp] theorem State.frame_frame (s : State) (k : FrameKind) (p : Nat) (b : List Byte) :
    (s.frame k p b).time = s.time ∧ (s.frame k p b).par = s.par ∧ (s.frame k p b).host = s.host ∧ (s.frame k p b).free = s.free
    ∧ (s.frame k p b).link = s.link ∧ (s.frame k p b).fb = s.fb ∧ (s.frame k p b).hist = s.hist ∧ (s.frame k p b).lat = s.lat
    ∧ (s.frame k p b).cmp = s.cmp ∧ (s.frame k p b).emu = s.emu ∧ (s.frame k p b).ax = s.ax ∧ (s.frame k p b).eng = s.eng
    ∧ (s.frame k p b).gm = s.gm ∧ (s.frame k p b).trj = s.trj ∧ (s.frame k p b).vm = s.vm ∧ (s.frame k p b).cpl = s.cpl
    ∧ (s.frame k p b).cams = s.cams ∧ (s.frame k p b).camHeld = s.camHeld ∧ (s.frame k p b).pg = s.pg
    ∧ (s.frame k p b).line = s.line ∧ (s.frame k p b).mod = s.mod ∧ (s.frame k p b).fe = s.fe ∧ (s.frame k p b).saf = s.saf
    ∧ (s.frame k p b).ferry = s.ferry ∧ (s.frame k p b).dqFe = s.dqFe ∧ (s.frame k p b).pr = s.pr ∧ (s.frame k p b).aq = s.aq
    ∧ (s.frame k p b).can = s.can ∧ (s.frame k p b).canObj = s.canObj ∧ (s.frame k p b).nt = s.nt ∧ (s.frame k p b).roll = s.roll
    ∧ (s.frame k p b).boot = s.boot ∧ (s.frame k p b).pending = s.pending := ⟨rfl, rfl, rfl, rfl, rfl, rfl, rfl, rfl, rfl, rfl, rfl, rfl, rfl, rfl, rfl, rfl, rfl, rfl, rfl, rfl, rfl, rfl, rfl, rfl, rfl, rfl, rfl, rfl, rfl, rfl, rfl, rfl, rfl⟩

@[simp] theorem State.wr_par (s : State) (idx inst v : Nat) : (s.wr idx inst v).par = { s.par with active := tabSet s.par.active (keyReset (pkey idx inst)) (pkey idx inst) v } := rfl
@[simp] theorem State.wr_frame (s : State) (idx inst v : Nat) :
    (s.wr idx inst v).time = s.time ∧ (s.wr idx inst v).host = s.host ∧ (s.wr idx inst v).sent = s.sent
    ∧ (s.wr idx inst v).free = s.free ∧ (s.wr idx inst v).link = s.link ∧ (s.wr idx inst v).fb = s.fb
    ∧ (s.wr idx inst v).hist = s.hist ∧ (s.wr idx inst v).lat = s.lat ∧ (s.wr idx inst v).cmp = s.cmp
    ∧ (s.wr idx inst v).emu = s.emu ∧ (s.wr idx inst v).ax = s.ax ∧ (s.wr idx inst v).eng = s.eng ∧ (s.wr idx inst v).gm = s.gm
    ∧ (s.wr idx inst v).trj = s.trj ∧ (s.wr idx inst v).vm = s.vm ∧ (s.wr idx inst v).cpl = s.cpl ∧ (s.wr idx inst v).cams = s.cams
    ∧ (s.wr idx inst v).camHeld = s.camHeld ∧ (s.wr idx inst v).pg = s.pg ∧ (s.wr idx inst v).line = s.line
    ∧ (s.wr idx inst v).mod = s.mod ∧ (s.wr idx inst v).fe = s.fe ∧ (s.wr idx inst v).saf = s.saf
    ∧ (s.wr idx inst v).ferry = s.ferry ∧ (s.wr idx inst v).dqFe = s.dqFe ∧ (s.wr idx inst v).pr = s.pr
    ∧ (s.wr idx inst v).aq = s.aq ∧ (s.wr idx inst v).can = s.can ∧ (s.wr idx inst v).canObj = s.canObj
    ∧ (s.wr idx inst v).nt = s.nt ∧ (s.wr idx inst v).roll = s.roll ∧ (s.wr idx inst v).boot = s.boot
    ∧ (s.wr idx inst v).pending = s.pending := ⟨rfl, rfl, rfl, rfl, rfl, rfl, rfl, rfl, rfl, rfl, rfl, rfl, rfl, rfl, rfl, rfl, rfl, rfl, rfl, rfl, rfl, rfl, rfl, rfl, rfl, rfl, rfl, rfl, rfl, rfl, rfl, rfl, rfl⟩

@[simp] theorem State.wrShadow_par (s : State) (idx inst v : Nat) : (s.wrShadow idx inst v).par = { s.par with shadow := tabSet s.par.shadow none (pkey idx inst) (some v) } := rfl
@[simp] theorem State.wrShadow_frame (s : State) (idx inst v : Nat) :
    (s.wrShadow idx inst v).time = s.time ∧ (s.wrShadow idx inst v).host = s.host ∧ (s.wrShadow idx inst v).sent = s.sent
    ∧ (s.wrShadow idx inst v).free = s.free ∧ (s.wrShadow idx inst v).link = s.link ∧ (s.wrShadow idx inst v).fb = s.fb
    ∧ (s.wrShadow idx inst v).hist = s.hist ∧ (s.wrShadow idx inst v).lat = s.lat ∧ (s.wrShadow idx inst v).cmp = s.cmp
    ∧ (s.wrShadow idx inst v).emu = s.emu ∧ (s.wrShadow idx inst v).ax = s.ax ∧ (s.wrShadow idx inst v).eng = s.eng
    ∧ (s.wrShadow idx inst v).gm = s.gm ∧ (s.wrShadow idx inst v).trj = s.trj ∧ (s.wrShadow idx inst v).vm = s.vm
    ∧ (s.wrShadow idx inst v).cpl = s.cpl ∧ (s.wrShadow idx inst v).cams = s.cams ∧ (s.wrShadow idx inst v).camHeld = s.camHeld
    ∧ (s.wrShadow idx inst v).pg = s.pg ∧ (s.wrShadow idx inst v).line = s.line ∧ (s.wrShadow idx inst v).mod = s.mod
    ∧ (s.wrShadow idx inst v).fe = s.fe ∧ (s.wrShadow idx inst v).saf = s.saf ∧ (s.wrShadow idx inst v).ferry = s.ferry
    ∧ (s.wrShadow idx inst v).dqFe = s.dqFe ∧ (s.wrShadow idx inst v).pr = s.pr ∧ (s.wrShadow idx inst v).aq = s.aq
    ∧ (s.wrShadow idx inst v).can = s.can ∧ (s.wrShadow idx inst v).canObj = s.canObj ∧ (s.wrShadow idx inst v).nt = s.nt
    ∧ (s.wrShadow idx inst v).roll = s.roll ∧ (s.wrShadow idx inst v).boot = s.boot ∧ (s.wrShadow idx inst v).pending = s.pending := ⟨rfl, rfl, rfl, rfl, rfl, rfl, rfl, rfl, rfl, rfl, rfl, rfl, rfl, rfl, rfl, rfl, rfl, rfl, rfl, rfl, rfl, rfl, rfl, rfl, rfl, rfl, rfl, rfl, rfl, rfl, rfl, rfl, rfl⟩

@[simp] theorem State.dropShadow_par (s : State) (key : Nat) : (s.dropShadow key).par = { s.par with shadow := tabSet s.par.shadow none key none } := rfl
@[simp] theorem State.dropShadow_frame (s : State) (key : Nat) :
    (s.dropShadow key).time = s.time ∧ (s.dropShadow key).host = s.host ∧ (s.dropShadow key).sent = s.sent
    ∧ (s.dropShadow key).free = s.free ∧ (s.dropShadow key).link = s.link ∧ (s.dropShadow key).fb = s.fb
    ∧ (s.dropShadow key).hist = s.hist ∧ (s.dropShadow key).lat = s.lat ∧ (s.dropShadow key).cmp = s.cmp
    ∧ (s.dropShadow key).emu = s.emu ∧ (s.dropShadow key).ax = s.ax ∧ (s.dropShadow key).eng = s.eng ∧ (s.dropShadow key).gm = s.gm
    ∧ (s.dropShadow key).trj = s.trj ∧ (s.dropShadow key).vm = s.vm ∧ (s.dropShadow key).cpl = s.cpl
    ∧ (s.dropShadow key).cams = s.cams ∧ (s.dropShadow key).camHeld = s.camHeld ∧ (s.dropShadow key).pg = s.pg
    ∧ (s.dropShadow key).line = s.line ∧ (s.dropShadow key).mod = s.mod ∧ (s.dropShadow key).fe = s.fe
    ∧ (s.dropShadow key).saf = s.saf ∧ (s.dropShadow key).ferry = s.ferry ∧ (s.dropShadow key).dqFe = s.dqFe
    ∧ (s.dropShadow key).pr = s.pr ∧ (s.dropShadow key).aq = s.aq ∧ (s.dropShadow key).can = s.can
    ∧ (s.dropShadow key).canObj = s.canObj ∧ (s.dropShadow key).nt = s.nt ∧ (s.dropShadow key).roll = s.roll
    ∧ (s.dropShadow key).boot = s.boot ∧ (s.dropShadow key).pending = s.pending := ⟨rfl, rfl, rfl, rfl, rfl, rfl, rfl, rfl, rfl, rfl, rfl, rfl, rfl, rfl, rfl, rfl, rfl, rfl, rfl, rfl, rfl, rfl, rfl, rfl, rfl, rfl, rfl, rfl, rfl, rfl, rfl, rfl, rfl⟩

@[simp] theorem State.setLink_link (s : State) (l : LinkState) : (s.setLink l).link = l := rfl
@[simp] theorem State.setLink_frame (s : State) (l : LinkState) :
    (s.setLink l).time = s.time ∧ (s.setLink l).par = s.par ∧ (s.setLink l).host = s.host ∧ (s.setLink l).sent = s.sent
    ∧ (s.setLink l).free = s.free ∧ (s.setLink l).fb = s.fb ∧ (s.setLink l).hist = s.hist ∧ (s.setLink l).lat = s.lat
    ∧ (s.setLink l).cmp = s.cmp ∧ (s.setLink l).emu = s.emu ∧ (s.setLink l).ax = s.ax ∧ (s.setLink l).eng = s.eng
    ∧ (s.setLink l).gm = s.gm ∧ (s.setLink l).trj = s.trj ∧ (s.setLink l).vm = s.vm ∧ (s.setLink l).cpl = s.cpl
    ∧ (s.setLink l).cams = s.cams ∧ (s.setLink l).camHeld = s.camHeld ∧ (s.setLink l).pg = s.pg ∧ (s.setLink l).line = s.line
    ∧ (s.setLink l).mod = s.mod ∧ (s.setLink l).fe = s.fe ∧ (s.setLink l).saf = s.saf ∧ (s.setLink l).ferry = s.ferry
    ∧ (s.setLink l).dqFe = s.dqFe ∧ (s.setLink l).pr = s.pr ∧ (s.setLink l).aq = s.aq ∧ (s.setLink l).can = s.can
    ∧ (s.setLink l).canObj = s.canObj ∧ (s.setLink l).nt = s.nt ∧ (s.setLink l).roll = s.roll ∧ (s.setLink l).boot = s.boot
    ∧ (s.setLink l).pending = s.pending := ⟨rfl, rfl, rfl, rfl, rfl, rfl, rfl, rfl, rfl, rfl, rfl, rfl, rfl, rfl, rfl, rfl, rfl, rfl, rfl, rfl, rfl, rfl, rfl, rfl, rfl, rfl, rfl, rfl, rfl, rfl, rfl, rfl, rfl⟩

@[simp] theorem State.setFb_fb (s : State) (i : Nat) (r : FbRec) : (s.setFb i r).fb = tabSet s.fb FbRec.init i r := rfl
@[simp] theorem State.setFb_frame (s : State) (i : Nat) (r : FbRec) :
    (s.setFb i r).time = s.time ∧ (s.setFb i r).par = s.par ∧ (s.setFb i r).host = s.host ∧ (s.setFb i r).sent = s.sent
    ∧ (s.setFb i r).free = s.free ∧ (s.setFb i r).link = s.link ∧ (s.setFb i r).hist = s.hist ∧ (s.setFb i r).lat = s.lat
    ∧ (s.setFb i r).cmp = s.cmp ∧ (s.setFb i r).emu = s.emu ∧ (s.setFb i r).ax = s.ax ∧ (s.setFb i r).eng = s.eng
    ∧ (s.setFb i r).gm = s.gm ∧ (s.setFb i r).trj = s.trj ∧ (s.setFb i r).vm = s.vm ∧ (s.setFb i r).cpl = s.cpl
    ∧ (s.setFb i r).cams = s.cams ∧ (s.setFb i r).camHeld = s.camHeld ∧ (s.setFb i r).pg = s.pg ∧ (s.setFb i r).line = s.line
    ∧ (s.setFb i r).mod = s.mod ∧ (s.setFb i r).fe = s.fe ∧ (s.setFb i r).saf = s.saf ∧ (s.setFb i r).ferry = s.ferry
    ∧ (s.setFb i r).dqFe = s.dqFe ∧ (s.setFb i r).pr = s.pr ∧ (s.setFb i r).aq = s.aq ∧ (s.setFb i r).can = s.can
    ∧ (s.setFb i r).canObj = s.canObj ∧ (s.setFb i r).nt = s.nt ∧ (s.setFb i r).roll = s.roll ∧ (s.setFb i r).boot = s.boot
    ∧ (s.setFb i r).pending = s.pending := ⟨rfl, rfl, rfl, rfl, rfl, rfl, rfl, rfl, rfl, rfl, rfl, rfl, rfl, rfl, rfl, rfl, rfl, rfl, rfl, rfl, rfl, rfl, rfl, rfl, rfl, rfl, rfl, rfl, rfl, rfl, rfl, rfl, rfl⟩

@[simp] theorem State.setAxis_ax (s : State) (a : Nat) (r : AxisRec) : (s.setAxis a r).ax = tabSet s.ax AxisRec.init a r := rfl
@[simp] theorem State.setAxis_frame (s : State) (a : Nat) (r : AxisRec) :
    (s.setAxis a r).time = s.time ∧ (s.setAxis a r).par = s.par ∧ (s.setAxis a r).host = s.host ∧ (s.setAxis a r).sent = s.sent
    ∧ (s.setAxis a r).free = s.free ∧ (s.setAxis a r).link = s.link ∧ (s.setAxis a r).fb = s.fb ∧ (s.setAxis a r).hist = s.hist
    ∧ (s.setAxis a r).lat = s.lat ∧ (s.setAxis a r).cmp = s.cmp ∧ (s.setAxis a r).emu = s.emu ∧ (s.setAxis a r).eng = s.eng
    ∧ (s.setAxis a r).gm = s.gm ∧ (s.setAxis a r).trj = s.trj ∧ (s.setAxis a r).vm = s.vm ∧ (s.setAxis a r).cpl = s.cpl
    ∧ (s.setAxis a r).cams = s.cams ∧ (s.setAxis a r).camHeld = s.camHeld ∧ (s.setAxis a r).pg = s.pg
    ∧ (s.setAxis a r).line = s.line ∧ (s.setAxis a r).mod = s.mod ∧ (s.setAxis a r).fe = s.fe ∧ (s.setAxis a r).saf = s.saf
    ∧ (s.setAxis a r).ferry = s.ferry ∧ (s.setAxis a r).dqFe = s.dqFe ∧ (s.setAxis a r).pr = s.pr ∧ (s.setAxis a r).aq = s.aq
    ∧ (s.setAxis a r).can = s.can ∧ (s.setAxis a r).canObj = s.canObj ∧ (s.setAxis a r).nt = s.nt ∧ (s.setAxis a r).roll = s.roll
    ∧ (s.setAxis a r).boot = s.boot ∧ (s.setAxis a r).pending = s.pending := ⟨rfl, rfl, rfl, rfl, rfl, rfl, rfl, rfl, rfl, rfl, rfl, rfl, rfl, rfl, rfl, rfl, rfl, rfl, rfl, rfl, rfl, rfl, rfl, rfl, rfl, rfl, rfl, rfl, rfl, rfl, rfl, rfl, rfl⟩

@[simp] theorem State.setCmp_cmp (s : State) (u : Nat) (r : CmpRec) : (s.setCmp u r).cmp = tabSet s.cmp CmpRec.init u r := rfl
@[simp] theorem State.setCmp_frame (s : State) (u : Nat) (r : CmpRec) :
    (s.setCmp u r).time = s.time ∧ (s.setCmp u r).par = s.par ∧ (s.setCmp u r).host = s.host ∧ (s.setCmp u r).sent = s.sent
    ∧ (s.setCmp u r).free = s.free ∧ (s.setCmp u r).link = s.link ∧ (s.setCmp u r).fb = s.fb ∧ (s.setCmp u r).hist = s.hist
    ∧ (s.setCmp u r).lat = s.lat ∧ (s.setCmp u r).emu = s.emu ∧ (s.setCmp u r).ax = s.ax ∧ (s.setCmp u r).eng = s.eng
    ∧ (s.setCmp u r).gm = s.gm ∧ (s.setCmp u r).trj = s.trj ∧ (s.setCmp u r).vm = s.vm ∧ (s.setCmp u r).cpl = s.cpl
    ∧ (s.setCmp u r).cams = s.cams ∧ (s.setCmp u r).camHeld = s.camHeld ∧ (s.setCmp u r).pg = s.pg ∧ (s.setCmp u r).line = s.line
    ∧ (s.setCmp u r).mod = s.mod ∧ (s.setCmp u r).fe = s.fe ∧ (s.setCmp u r).saf = s.saf ∧ (s.setCmp u r).ferry = s.ferry
    ∧ (s.setCmp u r).dqFe = s.dqFe ∧ (s.setCmp u r).pr = s.pr ∧ (s.setCmp u r).aq = s.aq ∧ (s.setCmp u r).can = s.can
    ∧ (s.setCmp u r).canObj = s.canObj ∧ (s.setCmp u r).nt = s.nt ∧ (s.setCmp u r).roll = s.roll ∧ (s.setCmp u r).boot = s.boot
    ∧ (s.setCmp u r).pending = s.pending := ⟨rfl, rfl, rfl, rfl, rfl, rfl, rfl, rfl, rfl, rfl, rfl, rfl, rfl, rfl, rfl, rfl, rfl, rfl, rfl, rfl, rfl, rfl, rfl, rfl, rfl, rfl, rfl, rfl, rfl, rfl, rfl, rfl, rfl⟩

@[simp] theorem State.setEmu_emu (s : State) (e : Nat) (r : EmuRec) : (s.setEmu e r).emu = tabSet s.emu EmuRec.init e r := rfl
@[simp] theorem State.setEmu_frame (s : State) (e : Nat) (r : EmuRec) :
    (s.setEmu e r).time = s.time ∧ (s.setEmu e r).par = s.par ∧ (s.setEmu e r).host = s.host ∧ (s.setEmu e r).sent = s.sent
    ∧ (s.setEmu e r).free = s.free ∧ (s.setEmu e r).link = s.link ∧ (s.setEmu e r).fb = s.fb ∧ (s.setEmu e r).hist = s.hist
    ∧ (s.setEmu e r).lat = s.lat ∧ (s.setEmu e r).cmp = s.cmp ∧ (s.setEmu e r).ax = s.ax ∧ (s.setEmu e r).eng = s.eng
    ∧ (s.setEmu e r).gm = s.gm ∧ (s.setEmu e r).trj = s.trj ∧ (s.setEmu e r).vm = s.vm ∧ (s.setEmu e r).cpl = s.cpl
    ∧ (s.setEmu e r).cams = s.cams ∧ (s.setEmu e r).camHeld = s.camHeld ∧ (s.setEmu e r).pg = s.pg ∧ (s.setEmu e r).line = s.line
    ∧ (s.setEmu e r).mod = s.mod ∧ (s.setEmu e r).fe = s.fe ∧ (s.setEmu e r).saf = s.saf ∧ (s.setEmu e r).ferry = s.ferry
    ∧ (s.setEmu e r).dqFe = s.dqFe ∧ (s.setEmu e r).pr = s.pr ∧ (s.setEmu e r).aq = s.aq ∧ (s.setEmu e r).can = s.can
    ∧ (s.setEmu e r).canObj = s.canObj ∧ (s.setEmu e r).nt = s.nt ∧ (s.setEmu e r).roll = s.roll ∧ (s.setEmu e r).boot = s.boot
    ∧ (s.setEmu e r).pending = s.pending := ⟨rfl, rfl, rfl, rfl, rfl, rfl, rfl, rfl, rfl, rfl, rfl, rfl, rfl, rfl, rfl, rfl, rfl, rfl, rfl, rfl, rfl, rfl, rfl, rfl, rfl, rfl, rfl, rfl, rfl, rfl, rfl, rfl, rfl⟩

@[simp] theorem State.setGroup_ferry (s : State) (g : Nat) (r : FerryRec) : (s.setGroup g r).ferry = tabSet s.ferry FerryRec.init g r := rfl
@[simp] theorem State.setGroup_frame (s : State) (g : Nat) (r : FerryRec) :
    (s.setGroup g r).time = s.time ∧ (s.setGroup g r).par = s.par ∧ (s.setGroup g r).host = s.host ∧ (s.setGroup g r).sent = s.sent
    ∧ (s.setGroup g r).free = s.free ∧ (s.setGroup g r).link = s.link ∧ (s.setGroup g r).fb = s.fb ∧ (s.setGroup g r).hist = s.hist
    ∧ (s.setGroup g r).lat = s.lat ∧ (s.setGroup g r).cmp = s.cmp ∧ (s.setGroup g r).emu = s.emu ∧ (s.setGroup g r).ax = s.ax
    ∧ (s.setGroup g r).eng = s.eng ∧ (s.setGroup g r).gm = s.gm ∧ (s.setGroup g r).trj = s.trj ∧ (s.setGroup g r).vm = s.vm
    ∧ (s.setGroup g r).cpl = s.cpl ∧ (s.setGroup g r).cams = s.cams ∧ (s.setGroup g r).camHeld = s.camHeld
    ∧ (s.setGroup g r).pg = s.pg ∧ (s.setGroup g r).line = s.line ∧ (s.setGroup g r).mod = s.mod ∧ (s.setGroup g r).fe = s.fe
    ∧ (s.setGroup g r).saf = s.saf ∧ (s.setGroup g r).dqFe = s.dqFe ∧ (s.setGroup g r).pr = s.pr ∧ (s.setGroup g r).aq = s.aq
    ∧ (s.setGroup g r).can = s.can ∧ (s.setGroup g r).canObj = s.canObj ∧ (s.setGroup g r).nt = s.nt
    ∧ (s.setGroup g r).roll = s.roll ∧ (s.setGroup g r).boot = s.boot ∧ (s.setGroup g r).pending = s.pending := ⟨rfl, rfl, rfl, rfl, rfl, rfl, rfl, rfl, rfl, rfl, rfl, rfl, rfl, rfl, rfl, rfl, rfl, rfl, rfl, rfl, rfl, rfl, rfl, rfl, rfl, rfl, rfl, rfl, rfl, rfl, rfl, rfl, rfl⟩

@[simp] theorem State.setGm_gm (s : State) (a : Nat) (r : GmRec) : (s.setGm a r).gm = tabSet s.gm GmRec.init a r := rfl
@[simp] theorem State.setGm_frame (s : State) (a : Nat) (r : GmRec) :
    (s.setGm a r).time = s.time ∧ (s.setGm a r).par = s.par ∧ (s.setGm a r).host = s.host ∧ (s.setGm a r).sent = s.sent
    ∧ (s.setGm a r).free = s.free ∧ (s.setGm a r).link = s.link ∧ (s.setGm a r).fb = s.fb ∧ (s.setGm a r).hist = s.hist
    ∧ (s.setGm a r).lat = s.lat ∧ (s.setGm a r).cmp = s.cmp ∧ (s.setGm a r).emu = s.emu ∧ (s.setGm a r).ax = s.ax
    ∧ (s.setGm a r).eng = s.eng ∧ (s.setGm a r).trj = s.trj ∧ (s.setGm a r).vm = s.vm ∧ (s.setGm a r).cpl = s.cpl
    ∧ (s.setGm a r).cams = s.cams ∧ (s.setGm a r).camHeld = s.camHeld ∧ (s.setGm a r).pg = s.pg ∧ (s.setGm a r).line = s.line
    ∧ (s.setGm a r).mod = s.mod ∧ (s.setGm a r).fe = s.fe ∧ (s.setGm a r).saf = s.saf ∧ (s.setGm a r).ferry = s.ferry
    ∧ (s.setGm a r).dqFe = s.dqFe ∧ (s.setGm a r).pr = s.pr ∧ (s.setGm a r).aq = s.aq ∧ (s.setGm a r).can = s.can
    ∧ (s.setGm a r).canObj = s.canObj ∧ (s.setGm a r).nt = s.nt ∧ (s.setGm a r).roll = s.roll ∧ (s.setGm a r).boot = s.boot
    ∧ (s.setGm a r).pending = s.pending := ⟨rfl, rfl, rfl, rfl, rfl, rfl, rfl, rfl, rfl, rfl, rfl, rfl, rfl, rfl, rfl, rfl, rfl, rfl, rfl, rfl, rfl, rfl, rfl, rfl, rfl, rfl, rfl, rfl, rfl, rfl, rfl, rfl, rfl⟩

@[simp] theorem State.jobReady_eng (s : State) (j : Job) : (s.jobReady j).eng = { s.eng with ready := s.eng.ready ++ [j] } := rfl
@[simp] theorem State.jobReady_frame (s : State) (j : Job) :
    (s.jobReady j).time = s.time ∧ (s.jobReady j).par = s.par ∧ (s.jobReady j).host = s.host ∧ (s.jobReady j).sent = s.sent
    ∧ (s.jobReady j).free = s.free ∧ (s.jobReady j).link = s.link ∧ (s.jobReady j).fb = s.fb ∧ (s.jobReady j).hist = s.hist
    ∧ (s.jobReady j).lat = s.lat ∧ (s.jobReady j).cmp = s.cmp ∧ (s.jobReady j).emu = s.emu ∧ (s.jobReady j).ax = s.ax
    ∧ (s.jobReady j).gm = s.gm ∧ (s.jobReady j).trj = s.trj ∧ (s.jobReady j).vm = s.vm ∧ (s.jobReady j).cpl = s.cpl
    ∧ (s.jobReady j).cams = s.cams ∧ (s.jobReady j).camHeld = s.camHeld ∧ (s.jobReady j).pg = s.pg ∧ (s.jobReady j).line = s.line
    ∧ (s.jobReady j).mod = s.mod ∧ (s.jobReady j).fe = s.fe ∧ (s.jobReady j).saf = s.saf ∧ (s.jobReady j).ferry = s.ferry
    ∧ (s.jobReady j).dqFe = s.dqFe ∧ (s.jobReady j).pr = s.pr ∧ (s.jobReady j).aq = s.aq ∧ (s.jobReady j).can = s.can
    ∧ (s.jobReady j).canObj = s.canObj ∧ (s.jobReady j).nt = s.nt ∧ (s.jobReady j).roll = s.roll ∧ (s.jobReady j).boot = s.boot
    ∧ (s.jobReady j).pending = s.pending := ⟨rfl, rfl, rfl, rfl, rfl, rfl, rfl, rfl, rfl, rfl, rfl, rfl, rfl, rfl, rfl, rfl, rfl, rfl, rfl, rfl, rfl, rfl, rfl, rfl, rfl, rfl, rfl, rfl, rfl, rfl, rfl, rfl, rfl⟩

@[simp] theorem State.setTraj_trj (s : State) (a : Nat) (r : TrjRec) : (s.setTraj a r).trj = tabSet s.trj TrjRec.init a r := rfl
@[simp] theorem State.setTraj_frame (s : State) (a : Nat) (r : TrjRec) :
    (s.setTraj a r).time = s.time ∧ (s.setTraj a r).par = s.par ∧ (s.setTraj a r).host = s.host ∧ (s.setTraj a r).sent = s.sent
    ∧ (s.setTraj a r).free = s.free ∧ (s.setTraj a r).link = s.link ∧ (s.setTraj a r).fb = s.fb ∧ (s.setTraj a r).hist = s.hist
    ∧ (s.setTraj a r).lat = s.lat ∧ (s.setTraj a r).cmp = s.cmp ∧ (s.setTraj a r).emu = s.emu ∧ (s.setTraj a r).ax = s.ax
    ∧ (s.setTraj a r).eng = s.eng ∧ (s.setTraj a r).gm = s.gm ∧ (s.setTraj a r).vm = s.vm ∧ (s.setTraj a r).cpl = s.cpl
    ∧ (s.setTraj a r).cams = s.cams ∧ (s.setTraj a r).camHeld = s.camHeld ∧ (s.setTraj a r).pg = s.pg
    ∧ (s.setTraj a r).line = s.line ∧ (s.setTraj a r).mod = s.mod ∧ (s.setTraj a r).fe = s.fe ∧ (s.setTraj a r).saf = s.saf
    ∧ (s.setTraj a r).ferry = s.ferry ∧ (s.setTraj a r).dqFe = s.dqFe ∧ (s.setTraj a r).pr = s.pr ∧ (s.setTraj a r).aq = s.aq
    ∧ (s.setTraj a r).can = s.can ∧ (s.setTraj a r).canObj = s.canObj ∧ (s.setTraj a r).nt = s.nt ∧ (s.setTraj a r).roll = s.roll
    ∧ (s.setTraj a r).boot = s.boot ∧ (s.setTraj a r).pending = s.pending := ⟨rfl, rfl, rfl, rfl, rfl, rfl, rfl, rfl, rfl, rfl, rfl, rfl, rfl, rfl, rfl, rfl, rfl, rfl, rfl, rfl, rfl, rfl, rfl, rfl, rfl, rfl, rfl, rfl, rfl, rfl, rfl, rfl, rfl⟩

@[simp] theorem State.setVm_vm (s : State) (m : Nat) (r : VmRec) : (s.setVm m r).vm = tabSet s.vm VmRec.init m r := rfl
@[simp] theorem State.setVm_frame (s : State) (m : Nat) (r : VmRec) :
    (s.setVm m r).time = s.time ∧ (s.setVm m r).par = s.par ∧ (s.setVm m r).host = s.host ∧ (s.setVm m r).sent = s.sent
    ∧ (s.setVm m r).free = s.free ∧ (s.setVm m r).link = s.link ∧ (s.setVm m r).fb = s.fb ∧ (s.setVm m r).hist = s.hist
    ∧ (s.setVm m r).lat = s.lat ∧ (s.setVm m r).cmp = s.cmp ∧ (s.setVm m r).emu = s.emu ∧ (s.setVm m r).ax = s.ax
    ∧ (s.setVm m r).eng = s.eng ∧ (s.setVm m r).gm = s.gm ∧ (s.setVm m r).trj = s.trj ∧ (s.setVm m r).cpl = s.cpl
    ∧ (s.setVm m r).cams = s.cams ∧ (s.setVm m r).camHeld = s.camHeld ∧ (s.setVm m r).pg = s.pg ∧ (s.setVm m r).line = s.line
    ∧ (s.setVm m r).mod = s.mod ∧ (s.setVm m r).fe = s.fe ∧ (s.setVm m r).saf = s.saf ∧ (s.setVm m r).ferry = s.ferry
    ∧ (s.setVm m r).dqFe = s.dqFe ∧ (s.setVm m r).pr = s.pr ∧ (s.setVm m r).aq = s.aq ∧ (s.setVm m r).can = s.can
    ∧ (s.setVm m r).canObj = s.canObj ∧ (s.setVm m r).nt = s.nt ∧ (s.setVm m r).roll = s.roll ∧ (s.setVm m r).boot = s.boot
    ∧ (s.setVm m r).pending = s.pending := ⟨rfl, rfl, rfl, rfl, rfl, rfl, rfl, rfl, rfl, rfl, rfl, rfl, rfl, rfl, rfl, rfl, rfl, rfl, rfl, rfl, rfl, rfl, rfl, rfl, rfl, rfl, rfl, rfl, rfl, rfl, rfl, rfl, rfl⟩

@[simp] theorem State.setLine_line (s : State) (l : LineRec) : (s.setLine l).line = l := rfl
@[simp] theorem State.setLine_frame (s : State) (l : LineRec) :
    (s.setLine l).time = s.time ∧ (s.setLine l).par = s.par ∧ (s.setLine l).host = s.host ∧ (s.setLine l).sent = s.sent
    ∧ (s.setLine l).free = s.free ∧ (s.setLine l).link = s.link ∧ (s.setLine l).fb = s.fb ∧ (s.setLine l).hist = s.hist
    ∧ (s.setLine l).lat = s.lat ∧ (s.setLine l).cmp = s.cmp ∧ (s.setLine l).emu = s.emu ∧ (s.setLine l).ax = s.ax
    ∧ (s.setLine l).eng = s.eng ∧ (s.setLine l).gm = s.gm ∧ (s.setLine l).trj = s.trj ∧ (s.setLine l).vm = s.vm
    ∧ (s.setLine l).cpl = s.cpl ∧ (s.setLine l).cams = s.cams ∧ (s.setLine l).camHeld = s.camHeld ∧ (s.setLine l).pg = s.pg
    ∧ (s.setLine l).mod = s.mod ∧ (s.setLine l).fe = s.fe ∧ (s.setLine l).saf = s.saf ∧ (s.setLine l).ferry = s.ferry
    ∧ (s.setLine l).dqFe = s.dqFe ∧ (s.setLine l).pr = s.pr ∧ (s.setLine l).aq = s.aq ∧ (s.setLine l).can = s.can
    ∧ (s.setLine l).canObj = s.canObj ∧ (s.setLine l).nt = s.nt ∧ (s.setLine l).roll = s.roll ∧ (s.setLine l).boot = s.boot
    ∧ (s.setLine l).pending = s.pending := ⟨rfl, rfl, rfl, rfl, rfl, rfl, rfl, rfl, rfl, rfl, rfl, rfl, rfl, rfl, rfl, rfl, rfl, rfl, rfl, rfl, rfl, rfl, rfl, rfl, rfl, rfl, rfl, rfl, rfl, rfl, rfl, rfl, rfl⟩

@[simp] theorem State.setCpl_cpl (s : State) (a : Nat) (r : CplRec) : (s.setCpl a r).cpl = tabSet s.cpl CplRec.init a r := rfl
@[simp] theorem State.setCpl_frame (s : State) (a : Nat) (r : CplRec) :
    (s.setCpl a r).time = s.time ∧ (s.setCpl a r).par = s.par ∧ (s.setCpl a r).host = s.host ∧ (s.setCpl a r).sent = s.sent
    ∧ (s.setCpl a r).free = s.free ∧ (s.setCpl a r).link = s.link ∧ (s.setCpl a r).fb = s.fb ∧ (s.setCpl a r).hist = s.hist
    ∧ (s.setCpl a r).lat = s.lat ∧ (s.setCpl a r).cmp = s.cmp ∧ (s.setCpl a r).emu = s.emu ∧ (s.setCpl a r).ax = s.ax
    ∧ (s.setCpl a r).eng = s.eng ∧ (s.setCpl a r).gm = s.gm ∧ (s.setCpl a r).trj = s.trj ∧ (s.setCpl a r).vm = s.vm
    ∧ (s.setCpl a r).cams = s.cams ∧ (s.setCpl a r).camHeld = s.camHeld ∧ (s.setCpl a r).pg = s.pg ∧ (s.setCpl a r).line = s.line
    ∧ (s.setCpl a r).mod = s.mod ∧ (s.setCpl a r).fe = s.fe ∧ (s.setCpl a r).saf = s.saf ∧ (s.setCpl a r).ferry = s.ferry
    ∧ (s.setCpl a r).dqFe = s.dqFe ∧ (s.setCpl a r).pr = s.pr ∧ (s.setCpl a r).aq = s.aq ∧ (s.setCpl a r).can = s.can
    ∧ (s.setCpl a r).canObj = s.canObj ∧ (s.setCpl a r).nt = s.nt ∧ (s.setCpl a r).roll = s.roll ∧ (s.setCpl a r).boot = s.boot
    ∧ (s.setCpl a r).pending = s.pending := ⟨rfl, rfl, rfl, rfl, rfl, rfl, rfl, rfl, rfl, rfl, rfl, rfl, rfl, rfl, rfl, rfl, rfl, rfl, rfl, rfl, rfl, rfl, rfl, rfl, rfl, rfl, rfl, rfl, rfl, rfl, rfl, rfl, rfl⟩

@[simp] theorem State.setPg_pg (s : State) (g : Nat) (r : PgRec) : (s.setPg g r).pg = tabSet s.pg PgRec.init g r := rfl
@[simp] theorem State.setPg_frame (s : State) (g : Nat) (r : PgRec) :
    (s.setPg g r).time = s.time ∧ (s.setPg g r).par = s.par ∧ (s.setPg g r).host = s.host ∧ (s.setPg g r).sent = s.sent
    ∧ (s.setPg g r).free = s.free ∧ (s.setPg g r).link = s.link ∧ (s.setPg g r).fb = s.fb ∧ (s.setPg g r).hist = s.hist
    ∧ (s.setPg g r).lat = s.lat ∧ (s.setPg g r).cmp = s.cmp ∧ (s.setPg g r).emu = s.emu ∧ (s.setPg g r).ax = s.ax
    ∧ (s.setPg g r).eng = s.eng ∧ (s.setPg g r).gm = s.gm ∧ (s.setPg g r).trj = s.trj ∧ (s.setPg g r).vm = s.vm
    ∧ (s.setPg g r).cpl = s.cpl ∧ (s.setPg g r).cams = s.cams ∧ (s.setPg g r).camHeld = s.camHeld ∧ (s.setPg g r).line = s.line
    ∧ (s.setPg g r).mod = s.mod ∧ (s.setPg g r).fe = s.fe ∧ (s.setPg g r).saf = s.saf ∧ (s.setPg g r).ferry = s.ferry
    ∧ (s.setPg g r).dqFe = s.dqFe ∧ (s.setPg g r).pr = s.pr ∧ (s.setPg g r).aq = s.aq ∧ (s.setPg g r).can = s.can
    ∧ (s.setPg g r).canObj = s.canObj ∧ (s.setPg g r).nt = s.nt ∧ (s.setPg g r).roll = s.roll ∧ (s.setPg g r).boot = s.boot
    ∧ (s.setPg g r).pending = s.pending := ⟨rfl, rfl, rfl, rfl, rfl, rfl, rfl, rfl, rfl, rfl, rfl, rfl, rfl, rfl, rfl, rfl, rfl, rfl, rfl, rfl, rfl, rfl, rfl, rfl, rfl, rfl, rfl, rfl, rfl, rfl, rfl, rfl, rfl⟩

@[simp] theorem State.setMod_mod (s : State) (m : ModState) : (s.setMod m).mod = m := rfl
@[simp] theorem State.setMod_frame (s : State) (m : ModState) :
    (s.setMod m).time = s.time ∧ (s.setMod m).par = s.par ∧ (s.setMod m).host = s.host ∧ (s.setMod m).sent = s.sent
    ∧ (s.setMod m).free = s.free ∧ (s.setMod m).link = s.link ∧ (s.setMod m).fb = s.fb ∧ (s.setMod m).hist = s.hist
    ∧ (s.setMod m).lat = s.lat ∧ (s.setMod m).cmp = s.cmp ∧ (s.setMod m).emu = s.emu ∧ (s.setMod m).ax = s.ax
    ∧ (s.setMod m).eng = s.eng ∧ (s.setMod m).gm = s.gm ∧ (s.setMod m).trj = s.trj ∧ (s.setMod m).vm = s.vm
    ∧ (s.setMod m).cpl = s.cpl ∧ (s.setMod m).cams = s.cams ∧ (s.setMod m).camHeld = s.camHeld ∧ (s.setMod m).pg = s.pg
    ∧ (s.setMod m).line = s.line ∧ (s.setMod m).fe = s.fe ∧ (s.setMod m).saf = s.saf ∧ (s.setMod m).ferry = s.ferry
    ∧ (s.setMod m).dqFe = s.dqFe ∧ (s.setMod m).pr = s.pr ∧ (s.setMod m).aq = s.aq ∧ (s.setMod m).can = s.can
    ∧ (s.setMod m).canObj = s.canObj ∧ (s.setMod m).nt = s.nt ∧ (s.setMod m).roll = s.roll ∧ (s.setMod m).boot = s.boot
    ∧ (s.setMod m).pending = s.pending := ⟨rfl, rfl, rfl, rfl, rfl, rfl, rfl, rfl, rfl, rfl, rfl, rfl, rfl, rfl, rfl, rfl, rfl, rfl, rfl, rfl, rfl, rfl, rfl, rfl, rfl, rfl, rfl, rfl, rfl, rfl, rfl, rfl, rfl⟩

@[simp] theorem State.setFe_fe (s : State) (r : FeRec) : (s.setFe r).fe = r := rfl
@[simp] theorem State.setFe_frame (s : State) (r : FeRec) :
    (s.setFe r).time = s.time ∧ (s.setFe r).par = s.par ∧ (s.setFe r).host = s.host ∧ (s.setFe r).sent = s.sent
    ∧ (s.setFe r).free = s.free ∧ (s.setFe r).link = s.link ∧ (s.setFe r).fb = s.fb ∧ (s.setFe r).hist = s.hist
    ∧ (s.setFe r).lat = s.lat ∧ (s.setFe r).cmp = s.cmp ∧ (s.setFe r).emu = s.emu ∧ (s.setFe r).ax = s.ax ∧ (s.setFe r).eng = s.eng
    ∧ (s.setFe r).gm = s.gm ∧ (s.setFe r).trj = s.trj ∧ (s.setFe r).vm = s.vm ∧ (s.setFe r).cpl = s.cpl ∧ (s.setFe r).cams = s.cams
    ∧ (s.setFe r).camHeld = s.camHeld ∧ (s.setFe r).pg = s.pg ∧ (s.setFe r).line = s.line ∧ (s.setFe r).mod = s.mod
    ∧ (s.setFe r).saf = s.saf ∧ (s.setFe r).ferry = s.ferry ∧ (s.setFe r).dqFe = s.dqFe ∧ (s.setFe r).pr = s.pr
    ∧ (s.setFe r).aq = s.aq ∧ (s.setFe r).can = s.can ∧ (s.setFe r).canObj = s.canObj ∧ (s.setFe r).nt = s.nt
    ∧ (s.setFe r).roll = s.roll ∧ (s.setFe r).boot = s.boot ∧ (s.setFe r).pending = s.pending := ⟨rfl, rfl, rfl, rfl, rfl, rfl, rfl, rfl, rfl, rfl, rfl, rfl, rfl, rfl, rfl, rfl, rfl, rfl, rfl, rfl, rfl, rfl, rfl, rfl, rfl, rfl, rfl, rfl, rfl, rfl, rfl, rfl, rfl⟩

@[simp] theorem State.setSaf_saf (s : State) (r : SafRec) : (s.setSaf r).saf = r := rfl
@[simp] theorem State.setSaf_frame (s : State) (r : SafRec) :
    (s.setSaf r).time = s.time ∧ (s.setSaf r).par = s.par ∧ (s.setSaf r).host = s.host ∧ (s.setSaf r).sent = s.sent
    ∧ (s.setSaf r).free = s.free ∧ (s.setSaf r).link = s.link ∧ (s.setSaf r).fb = s.fb ∧ (s.setSaf r).hist = s.hist
    ∧ (s.setSaf r).lat = s.lat ∧ (s.setSaf r).cmp = s.cmp ∧ (s.setSaf r).emu = s.emu ∧ (s.setSaf r).ax = s.ax
    ∧ (s.setSaf r).eng = s.eng ∧ (s.setSaf r).gm = s.gm ∧ (s.setSaf r).trj = s.trj ∧ (s.setSaf r).vm = s.vm
    ∧ (s.setSaf r).cpl = s.cpl ∧ (s.setSaf r).cams = s.cams ∧ (s.setSaf r).camHeld = s.camHeld ∧ (s.setSaf r).pg = s.pg
    ∧ (s.setSaf r).line = s.line ∧ (s.setSaf r).mod = s.mod ∧ (s.setSaf r).fe = s.fe ∧ (s.setSaf r).ferry = s.ferry
    ∧ (s.setSaf r).dqFe = s.dqFe ∧ (s.setSaf r).pr = s.pr ∧ (s.setSaf r).aq = s.aq ∧ (s.setSaf r).can = s.can
    ∧ (s.setSaf r).canObj = s.canObj ∧ (s.setSaf r).nt = s.nt ∧ (s.setSaf r).roll = s.roll ∧ (s.setSaf r).boot = s.boot
    ∧ (s.setSaf r).pending = s.pending := ⟨rfl, rfl, rfl, rfl, rfl, rfl, rfl, rfl, rfl, rfl, rfl, rfl, rfl, rfl, rfl, rfl, rfl, rfl, rfl, rfl, rfl, rfl, rfl, rfl, rfl, rfl, rfl, rfl, rfl, rfl, rfl, rfl, rfl⟩

@[simp] theorem State.setPr_pr (s : State) (r : ProcRec) : (s.setPr r).pr = r := rfl
@[simp] theorem State.setPr_frame (s : State) (r : ProcRec) :
    (s.setPr r).time = s.time ∧ (s.setPr r).par = s.par ∧ (s.setPr r).host = s.host ∧ (s.setPr r).sent = s.sent
    ∧ (s.setPr r).free = s.free ∧ (s.setPr r).link = s.link ∧ (s.setPr r).fb = s.fb ∧ (s.setPr r).hist = s.hist
    ∧ (s.setPr r).lat = s.lat ∧ (s.setPr r).cmp = s.cmp ∧ (s.setPr r).emu = s.emu ∧ (s.setPr r).ax = s.ax ∧ (s.setPr r).eng = s.eng
    ∧ (s.setPr r).gm = s.gm ∧ (s.setPr r).trj = s.trj ∧ (s.setPr r).vm = s.vm ∧ (s.setPr r).cpl = s.cpl ∧ (s.setPr r).cams = s.cams
    ∧ (s.setPr r).camHeld = s.camHeld ∧ (s.setPr r).pg = s.pg ∧ (s.setPr r).line = s.line ∧ (s.setPr r).mod = s.mod
    ∧ (s.setPr r).fe = s.fe ∧ (s.setPr r).saf = s.saf ∧ (s.setPr r).ferry = s.ferry ∧ (s.setPr r).dqFe = s.dqFe
    ∧ (s.setPr r).aq = s.aq ∧ (s.setPr r).can = s.can ∧ (s.setPr r).canObj = s.canObj ∧ (s.setPr r).nt = s.nt
    ∧ (s.setPr r).roll = s.roll ∧ (s.setPr r).boot = s.boot ∧ (s.setPr r).pending = s.pending := ⟨rfl, rfl, rfl, rfl, rfl, rfl, rfl, rfl, rfl, rfl, rfl, rfl, rfl, rfl, rfl, rfl, rfl, rfl, rfl, rfl, rfl, rfl, rfl, rfl, rfl, rfl, rfl, rfl, rfl, rfl, rfl, rfl, rfl⟩

@[simp] theorem State.setAq_aq (s : State) (u : Nat) (r : AqRec) : (s.setAq u r).aq = tabSet s.aq AqRec.init u r := rfl
@[simp] theorem State.setAq_frame (s : State) (u : Nat) (r : AqRec) :
    (s.setAq u r).time = s.time ∧ (s.setAq u r).par = s.par ∧ (s.setAq u r).host = s.host ∧ (s.setAq u r).sent = s.sent
    ∧ (s.setAq u r).free = s.free ∧ (s.setAq u r).link = s.link ∧ (s.setAq u r).fb = s.fb ∧ (s.setAq u r).hist = s.hist
    ∧ (s.setAq u r).lat = s.lat ∧ (s.setAq u r).cmp = s.cmp ∧ (s.setAq u r).emu = s.emu ∧ (s.setAq u r).ax = s.ax
    ∧ (s.setAq u r).eng = s.eng ∧ (s.setAq u r).gm = s.gm ∧ (s.setAq u r).trj = s.trj ∧ (s.setAq u r).vm = s.vm
    ∧ (s.setAq u r).cpl = s.cpl ∧ (s.setAq u r).cams = s.cams ∧ (s.setAq u r).camHeld = s.camHeld ∧ (s.setAq u r).pg = s.pg
    ∧ (s.setAq u r).line = s.line ∧ (s.setAq u r).mod = s.mod ∧ (s.setAq u r).fe = s.fe ∧ (s.setAq u r).saf = s.saf
    ∧ (s.setAq u r).ferry = s.ferry ∧ (s.setAq u r).dqFe = s.dqFe ∧ (s.setAq u r).pr = s.pr ∧ (s.setAq u r).can = s.can
    ∧ (s.setAq u r).canObj = s.canObj ∧ (s.setAq u r).nt = s.nt ∧ (s.setAq u r).roll = s.roll ∧ (s.setAq u r).boot = s.boot
    ∧ (s.setAq u r).pending = s.pending := ⟨rfl, rfl, rfl, rfl, rfl, rfl, rfl, rfl, rfl, rfl, rfl, rfl, rfl, rfl, rfl, rfl, rfl, rfl, rfl, rfl, rfl, rfl, rfl, rfl, rfl, rfl, rfl, rfl, rfl, rfl, rfl, rfl, rfl⟩

@[simp] theorem State.setCanC_can (s : State) (c : Nat) (r : CanRec) : (s.setCanC c r).can = tabSet s.can CanRec.init c r := rfl
@[simp] theorem State.setCanC_frame (s : State) (c : Nat) (r : CanRec) :
    (s.setCanC c r).time = s.time ∧ (s.setCanC c r).par = s.par ∧ (s.setCanC c r).host = s.host ∧ (s.setCanC c r).sent = s.sent
    ∧ (s.setCanC c r).free = s.free ∧ (s.setCanC c r).link = s.link ∧ (s.setCanC c r).fb = s.fb ∧ (s.setCanC c r).hist = s.hist
    ∧ (s.setCanC c r).lat = s.lat ∧ (s.setCanC c r).cmp = s.cmp ∧ (s.setCanC c r).emu = s.emu ∧ (s.setCanC c r).ax = s.ax
    ∧ (s.setCanC c r).eng = s.eng ∧ (s.setCanC c r).gm = s.gm ∧ (s.setCanC c r).trj = s.trj ∧ (s.setCanC c r).vm = s.vm
    ∧ (s.setCanC c r).cpl = s.cpl ∧ (s.setCanC c r).cams = s.cams ∧ (s.setCanC c r).camHeld = s.camHeld ∧ (s.setCanC c r).pg = s.pg
    ∧ (s.setCanC c r).line = s.line ∧ (s.setCanC c r).mod = s.mod ∧ (s.setCanC c r).fe = s.fe ∧ (s.setCanC c r).saf = s.saf
    ∧ (s.setCanC c r).ferry = s.ferry ∧ (s.setCanC c r).dqFe = s.dqFe ∧ (s.setCanC c r).pr = s.pr ∧ (s.setCanC c r).aq = s.aq
    ∧ (s.setCanC c r).canObj = s.canObj ∧ (s.setCanC c r).nt = s.nt ∧ (s.setCanC c r).roll = s.roll ∧ (s.setCanC c r).boot = s.boot
    ∧ (s.setCanC c r).pending = s.pending := ⟨rfl, rfl, rfl, rfl, rfl, rfl, rfl, rfl, rfl, rfl, rfl, rfl, rfl, rfl, rfl, rfl, rfl, rfl, rfl, rfl, rfl, rfl, rfl, rfl, rfl, rfl, rfl, rfl, rfl, rfl, rfl, rfl, rfl⟩

@[simp] theorem State.setCanO_canObj (s : State) (i : Nat) (r : CanObjRec) : (s.setCanO i r).canObj = tabSet s.canObj CanObjRec.init i r := rfl
@[simp] theorem State.setCanO_frame (s : State) (i : Nat) (r : CanObjRec) :
    (s.setCanO i r).time = s.time ∧ (s.setCanO i r).par = s.par ∧ (s.setCanO i r).host = s.host ∧ (s.setCanO i r).sent = s.sent
    ∧ (s.setCanO i r).free = s.free ∧ (s.setCanO i r).link = s.link ∧ (s.setCanO i r).fb = s.fb ∧ (s.setCanO i r).hist = s.hist
    ∧ (s.setCanO i r).lat = s.lat ∧ (s.setCanO i r).cmp = s.cmp ∧ (s.setCanO i r).emu = s.emu ∧ (s.setCanO i r).ax = s.ax
    ∧ (s.setCanO i r).eng = s.eng ∧ (s.setCanO i r).gm = s.gm ∧ (s.setCanO i r).trj = s.trj ∧ (s.setCanO i r).vm = s.vm
    ∧ (s.setCanO i r).cpl = s.cpl ∧ (s.setCanO i r).cams = s.cams ∧ (s.setCanO i r).camHeld = s.camHeld ∧ (s.setCanO i r).pg = s.pg
    ∧ (s.setCanO i r).line = s.line ∧ (s.setCanO i r).mod = s.mod ∧ (s.setCanO i r).fe = s.fe ∧ (s.setCanO i r).saf = s.saf
    ∧ (s.setCanO i r).ferry = s.ferry ∧ (s.setCanO i r).dqFe = s.dqFe ∧ (s.setCanO i r).pr = s.pr ∧ (s.setCanO i r).aq = s.aq
    ∧ (s.setCanO i r).can = s.can ∧ (s.setCanO i r).nt = s.nt ∧ (s.setCanO i r).roll = s.roll ∧ (s.setCanO i r).boot = s.boot
    ∧ (s.setCanO i r).pending = s.pending := ⟨rfl, rfl, rfl, rfl, rfl, rfl, rfl, rfl, rfl, rfl, rfl, rfl, rfl, rfl, rfl, rfl, rfl, rfl, rfl, rfl, rfl, rfl, rfl, rfl, rfl, rfl, rfl, rfl, rfl, rfl, rfl, rfl, rfl⟩

@[simp] theorem State.setNt_nt (s : State) (r : NtRec) : (s.setNt r).nt = r := rfl
@[simp] theorem State.setNt_frame (s : State) (r : NtRec) :
    (s.setNt r).time = s.time ∧ (s.setNt r).par = s.par ∧ (s.setNt r).host = s.host ∧ (s.setNt r).sent = s.sent
    ∧ (s.setNt r).free = s.free ∧ (s.setNt r).link = s.link ∧ (s.setNt r).fb = s.fb ∧ (s.setNt r).hist = s.hist
    ∧ (s.setNt r).lat = s.lat ∧ (s.setNt r).cmp = s.cmp ∧ (s.setNt r).emu = s.emu ∧ (s.setNt r).ax = s.ax ∧ (s.setNt r).eng = s.eng
    ∧ (s.setNt r).gm = s.gm ∧ (s.setNt r).trj = s.trj ∧ (s.setNt r).vm = s.vm ∧ (s.setNt r).cpl = s.cpl ∧ (s.setNt r).cams = s.cams
    ∧ (s.setNt r).camHeld = s.camHeld ∧ (s.setNt r).pg = s.pg ∧ (s.setNt r).line = s.line ∧ (s.setNt r).mod = s.mod
    ∧ (s.setNt r).fe = s.fe ∧ (s.setNt r).saf = s.saf ∧ (s.setNt r).ferry = s.ferry ∧ (s.setNt r).dqFe = s.dqFe
    ∧ (s.setNt r).pr = s.pr ∧ (s.setNt r).aq = s.aq ∧ (s.setNt r).can = s.can ∧ (s.setNt r).canObj = s.canObj
    ∧ (s.setNt r).roll = s.roll ∧ (s.setNt r).boot = s.boot ∧ (s.setNt r).pending = s.pending := ⟨rfl, rfl, rfl, rfl, rfl, rfl, rfl, rfl, rfl, rfl, rfl, rfl, rfl, rfl, rfl, rfl, rfl, rfl, rfl, rfl, rfl, rfl, rfl, rfl, rfl, rfl, rfl, rfl, rfl, rfl, rfl, rfl, rfl⟩

@[simp] theorem State.setRoll_roll (s : State) (r : RollRec) : (s.setRoll r).roll = r := rfl
@[simp] theorem State.setRoll_frame (s : State) (r : RollRec) :
    (s.setRoll r).time = s.time ∧ (s.setRoll r).par = s.par ∧ (s.setRoll r).host = s.host ∧ (s.setRoll r).sent = s.sent
    ∧ (s.setRoll r).free = s.free ∧ (s.setRoll r).link = s.link ∧ (s.setRoll r).fb = s.fb ∧ (s.setRoll r).hist = s.hist
    ∧ (s.setRoll r).lat = s.lat ∧ (s.setRoll r).cmp = s.cmp ∧ (s.setRoll r).emu = s.emu ∧ (s.setRoll r).ax = s.ax
    ∧ (s.setRoll r).eng = s.eng ∧ (s.setRoll r).gm = s.gm ∧ (s.setRoll r).trj = s.trj ∧ (s.setRoll r).vm = s.vm
    ∧ (s.setRoll r).cpl = s.cpl ∧ (s.setRoll r).cams = s.cams ∧ (s.setRoll r).camHeld = s.camHeld ∧ (s.setRoll r).pg = s.pg
    ∧ (s.setRoll r).line = s.line ∧ (s.setRoll r).mod = s.mod ∧ (s.setRoll r).fe = s.fe ∧ (s.setRoll r).saf = s.saf
    ∧ (s.setRoll r).ferry = s.ferry ∧ (s.setRoll r).dqFe = s.dqFe ∧ (s.setRoll r).pr = s.pr ∧ (s.setRoll r).aq = s.aq
    ∧ (s.setRoll r).can = s.can ∧ (s.setRoll r).canObj = s.canObj ∧ (s.setRoll r).nt = s.nt ∧ (s.setRoll r).boot = s.boot
    ∧ (s.setRoll r).pending = s.pending := ⟨rfl, rfl, rfl, rfl, rfl, rfl, rfl, rfl, rfl, rfl, rfl, rfl, rfl, rfl, rfl, rfl, rfl, rfl, rfl, rfl, rfl, rfl, rfl, rfl, rfl, rfl, rfl, rfl, rfl, rfl, rfl, rfl, rfl⟩

@[simp] theorem State.setBoot_boot (s : State) (b : BootState) : (s.setBoot b).boot = b := rfl
@[simp] theorem State.setBoot_frame (s : State) (b : BootState) :
    (s.setBoot b).time = s.time ∧ (s.setBoot b).par = s.par ∧ (s.setBoot b).host = s.host ∧ (s.setBoot b).sent = s.sent
    ∧ (s.setBoot b).free = s.free ∧ (s.setBoot b).link = s.link ∧ (s.setBoot b).fb = s.fb ∧ (s.setBoot b).hist = s.hist
    ∧ (s.setBoot b).lat = s.lat ∧ (s.setBoot b).cmp = s.cmp ∧ (s.setBoot b).emu = s.emu ∧ (s.setBoot b).ax = s.ax
    ∧ (s.setBoot b).eng = s.eng ∧ (s.setBoot b).gm = s.gm ∧ (s.setBoot b).trj = s.trj ∧ (s.setBoot b).vm = s.vm
    ∧ (s.setBoot b).cpl = s.cpl ∧ (s.setBoot b).cams = s.cams ∧ (s.setBoot b).camHeld = s.camHeld ∧ (s.setBoot b).pg = s.pg
    ∧ (s.setBoot b).line = s.line ∧ (s.setBoot b).mod = s.mod ∧ (s.setBoot b).fe = s.fe ∧ (s.setBoot b).saf = s.saf
    ∧ (s.setBoot b).ferry = s.ferry ∧ (s.setBoot b).dqFe = s.dqFe ∧ (s.setBoot b).pr = s.pr ∧ (s.setBoot b).aq = s.aq
    ∧ (s.setBoot b).can = s.can ∧ (s.setBoot b).canObj = s.canObj ∧ (s.setBoot b).nt = s.nt ∧ (s.setBoot b).roll = s.roll
    ∧ (s.setBoot b).pending = s.pending := ⟨rfl, rfl, rfl, rfl, rfl, rfl, rfl, rfl, rfl, rfl, rfl, rfl, rfl, rfl, rfl, rfl, rfl, rfl, rfl, rfl, rfl, rfl, rfl, rfl, rfl, rfl, rfl, rfl, rfl, rfl, rfl, rfl, rfl⟩

/-- Time runs on; nothing else changes. -/
@[simp] theorem State.advance_frame (s : State) (t : Nat) :
    (s.advance t).par = s.par ∧ (s.advance t).host = s.host ∧ (s.advance t).sent = s.sent ∧ (s.advance t).free = s.free
    ∧ (s.advance t).link = s.link ∧ (s.advance t).fb = s.fb ∧ (s.advance t).hist = s.hist ∧ (s.advance t).lat = s.lat
    ∧ (s.advance t).cmp = s.cmp ∧ (s.advance t).emu = s.emu ∧ (s.advance t).ax = s.ax ∧ (s.advance t).eng = s.eng
    ∧ (s.advance t).gm = s.gm ∧ (s.advance t).trj = s.trj ∧ (s.advance t).vm = s.vm ∧ (s.advance t).cpl = s.cpl
    ∧ (s.advance t).cams = s.cams ∧ (s.advance t).camHeld = s.camHeld ∧ (s.advance t).pg = s.pg ∧ (s.advance t).line = s.line
    ∧ (s.advance t).mod = s.mod ∧ (s.advance t).fe = s.fe ∧ (s.advance t).saf = s.saf ∧ (s.advance t).ferry = s.ferry
    ∧ (s.advance t).dqFe = s.dqFe ∧ (s.advance t).pr = s.pr ∧ (s.advance t).aq = s.aq ∧ (s.advance t).can = s.can
    ∧ (s.advance t).canObj = s.canObj ∧ (s.advance t).nt = s.nt ∧ (s.advance t).roll = s.roll ∧ (s.advance t).boot = s.boot
    ∧ (s.advance t).pending = s.pending := by
  unfold State.advance
  by_cases h : t ≤ s.time.tick <;> simp [h]

/-- What reading a parameter depends on. -/
theorem State.rd_congr {s s' : State} (h : s'.par.active = s.par.active) (idx inst : Nat) : s'.rd idx inst = s.rd idx inst := by
  simp [State.rd, h]

@[simp] theorem State.advance_rd (s : State) (t idx inst : Nat) : (s.advance t).rd idx inst = s.rd idx inst := by simp [State.rd]

@[simp] theorem State.setHost_rd (s : State) (h : HostState) (x y : Nat) : (s.setHost h).rd x y = s.rd x y := rfl
@[simp] theorem State.setRegs_rd (s : State) (r : HostRegs) (x y : Nat) : (s.setRegs r).rd x y = s.rd x y := rfl
@[simp] theorem State.out_rd (s : State) (o : Out) (x y : Nat) : (s.out o).rd x y = s.rd x y := rfl
@[simp] theorem State.frame_rd (s : State) (k : FrameKind) (p : Nat) (b : List Byte) (x y : Nat) : (s.frame k p b).rd x y = s.rd x y := rfl
@[simp] theorem State.wrShadow_rd (s : State) (idx inst v : Nat) (x y : Nat) : (s.wrShadow idx inst v).rd x y = s.rd x y := rfl
@[simp] theorem State.dropShadow_rd (s : State) (key : Nat) (x y : Nat) : (s.dropShadow key).rd x y = s.rd x y := rfl
@[simp] theorem State.setLink_rd (s : State) (l : LinkState) (x y : Nat) : (s.setLink l).rd x y = s.rd x y := rfl
@[simp] theorem State.setFb_rd (s : State) (i : Nat) (r : FbRec) (x y : Nat) : (s.setFb i r).rd x y = s.rd x y := rfl
@[simp] theorem State.setAxis_rd (s : State) (a : Nat) (r : AxisRec) (x y : Nat) : (s.setAxis a r).rd x y = s.rd x y := rfl
@[simp] theorem State.setCmp_rd (s : State) (u : Nat) (r : CmpRec) (x y : Nat) : (s.setCmp u r).rd x y = s.rd x y := rfl
@[simp] theorem State.setEmu_rd (s : State) (e : Nat) (r : EmuRec) (x y : Nat) : (s.setEmu e r).rd x y = s.rd x y := rfl
@[simp] theorem State.setGroup_rd (s : State) (g : Nat) (r : FerryRec) (x y : Nat) : (s.setGroup g r).rd x y = s.rd x y := rfl
@[simp] theorem State.setGm_rd (s : State) (a : Nat) (r : GmRec) (x y : Nat) : (s.setGm a r).rd x y = s.rd x y := rfl
@[simp] theorem State.jobReady_rd (s : State) (j : Job) (x y : Nat) : (s.jobReady j).rd x y = s.rd x y := rfl
@[simp] theorem State.setTraj_rd (s : State) (a : Nat) (r : TrjRec) (x y : Nat) : (s.setTraj a r).rd x y = s.rd x y := rfl
@[simp] theorem State.setVm_rd (s : State) (m : Nat) (r : VmRec) (x y : Nat) : (s.setVm m r).rd x y = s.rd x y := rfl
@[simp] theorem State.setLine_rd (s : State) (l : LineRec) (x y : Nat) : (s.setLine l).rd x y = s.rd x y := rfl
@[simp] theorem State.setCpl_rd (s : State) (a : Nat) (r : CplRec) (x y : Nat) : (s.setCpl a r).rd x y = s.rd x y := rfl
@[simp] theorem State.setPg_rd (s : State) (g : Nat) (r : PgRec) (x y : Nat) : (s.setPg g r).rd x y = s.rd x y := rfl
@[simp] theorem State.setMod_rd (s : State) (m : ModState) (x y : Nat) : (s.setMod m).rd x y = s.rd x y := rfl
@[simp] theorem State.setFe_rd (s : State) (r : FeRec) (x y : Nat) : (s.setFe r).rd x y = s.rd x y := rfl
@[simp] theorem State.setSaf_rd (s : State) (r : SafRec) (x y : Nat) : (s.setSaf r).rd x y = s.rd x y := rfl
@[simp] theorem State.setPr_rd (s : State) (r : ProcRec) (x y : Nat) : (s.setPr r).rd x y = s.rd x y := rfl
@[simp] theorem State.setAq_rd (s : State) (u : Nat) (r : AqRec) (x y : Nat) : (s.setAq u r).rd x y = s.rd x y := rfl
@[simp] theorem State.setCanC_rd (s : State) (c : Nat) (r : CanRec) (x y : Nat) : (s.setCanC c r).rd x y = s.rd x y := rfl
@[simp] theorem State.setCanO_rd (s : State) (i : Nat) (r : CanObjRec) (x y : Nat) : (s.setCanO i r).rd x y = s.rd x y := rfl
@[simp] theorem State.setNt_rd (s : State) (r : NtRec) (x y : Nat) : (s.setNt r).rd x y = s.rd x y := rfl
@[simp] theorem State.setRoll_rd (s : State) (r : RollRec) (x y : Nat) : (s.setRoll r).rd x y = s.rd x y := rfl
@[simp] theorem State.setBoot_rd (s : State) (b : BootState) (x y : Nat) : (s.setBoot b).rd x y = s.rd x y := rfl

end Sys2Proof.Machine
end

