-- ==== Sys2Proof/Laws/Tab.lean ====
section
/-!
SUPPORT. Sparse tables: what is read after a write, and that every write keeps the canonical form.
-/
namespace Sys2Proof.Machine

variable {α : Type} [DecidableEq α]

/-- What is read after a write: the value at the written key, the old value elsewhere. -/
theorem tabGet_tabSet (t : Tab α) (d e x : α) (n m : Nat) (b : Option Nat) (ht : tabSorted b t = true) :
    tabGet (tabSet t d n x) e m = if m = n then (if x = d then e else x) else tabGet t e m := by
  induction t generalizing b with
  | nil => by_cases hx : x = d <;> by_cases hm : m = n <;> simp [tabSet, tabGet, hx, hm]
  | cons h r ih =>
    obtain ⟨k, v⟩ := h
    have hr : tabSorted (some k) r = true := by
      simp only [tabSorted, Bool.and_eq_true] at ht; exact ht.2
    have below : ∀ q, q ≤ k → tabGet r e q = e := by
      intro q hq
      cases r with
      | nil => rfl
      | cons h' r' =>
        obtain ⟨k', v'⟩ := h'
        simp only [tabSorted, Bool.and_eq_true, decide_eq_true_eq] at hr
        have h1 : q ≠ k' := by omega
        have h2 : q < k' := by omega
        simp [tabGet, h1, h2]
    rcases Nat.lt_trichotomy n k with h | h | h
    · have hne : n ≠ k := by omega
      by_cases hx : x = d
      · by_cases hm : m = n
        · subst hm; simp [tabSet, tabGet, hne, h, hx]
        · simp [tabSet, hne, h, hx, hm]
      · by_cases hm : m = n
        · subst hm; simp [tabSet, tabGet, hne, h, hx]
        · by_cases hlt : m < n
          · have h1 : m ≠ k := by omega
            have h2 : m < k := by omega
            simp [tabSet, tabGet, hne, h, hx, hm, hlt, h1, h2]
          · simp [tabSet, tabGet, hne, h, hx, hm, hlt]
    · subst h
      by_cases hx : x = d
      · by_cases hm : m = n
        · subst hm; simp [tabSet, hx, below m le_rfl]
        · by_cases hlt : m < n
          · simp [tabSet, tabGet, hx, hm, hlt, below m (by omega)]
          · simp [tabSet, tabGet, hx, hm, hlt]
      · by_cases hm : m = n
        · subst hm; simp [tabSet, tabGet, hx]
        · by_cases hlt : m < n
          · simp [tabSet, tabGet, hx, hm, hlt]
          · simp [tabSet, tabGet, hx, hm, hlt]
    · have hne : n ≠ k := by omega
      have hnl : ¬ n < k := by omega
      have ih' := ih (some k) hr
      by_cases hmk : m = k
      · have hmn : m ≠ n := by omega
        subst hmk
        simp [tabSet, tabGet, hne, hnl, hmn]
      · by_cases hlt : m < k
        · have hmn : m ≠ n := by omega
          simp [tabSet, tabGet, hne, hnl, hmn, hmk, hlt]
        · simp [tabSet, tabGet, hne, hnl, hmk, hlt, ih']

/-- Reading the key just written. -/
theorem tabGet_tabSet_same (t : Tab α) (d x : α) (n : Nat) (ht : tabSorted none t = true) : tabGet (tabSet t d n x) d n = x := by
  rw [tabGet_tabSet t d d x n n none ht]; by_cases h : x = d <;> simp [h]

/-- Reading another key. -/
theorem tabGet_tabSet_ne (t : Tab α) (d e x : α) (n m : Nat) (ht : tabSorted none t = true) (h : m ≠ n) :
    tabGet (tabSet t d n x) e m = tabGet t e m := by
  rw [tabGet_tabSet t d e x n m none ht]; simp [h]

omit [DecidableEq α] in
theorem tabSorted_weaken {b c : Nat} {t : Tab α} (h : b ≤ c) (ht : tabSorted (some c) t = true) : tabSorted (some b) t = true := by
  cases t with
  | nil => rfl
  | cons e r =>
    obtain ⟨k, v⟩ := e
    simp only [tabSorted, Bool.and_eq_true, decide_eq_true_eq] at ht ⊢
    exact ⟨by omega, ht.2⟩

omit [DecidableEq α] in
theorem tabSorted_none {b : Option Nat} {t : Tab α} (ht : tabSorted b t = true) : tabSorted none t = true := by
  cases t with
  | nil => rfl
  | cons e r =>
    obtain ⟨k, v⟩ := e
    simp only [tabSorted, Bool.and_eq_true] at ht ⊢
    exact ⟨trivial, ht.2⟩

/-- A write keeps the keys rising. -/
theorem tabSorted_tabSet (t : Tab α) (d x : α) (n : Nat) (b : Option Nat) (hb : ∀ m, b = some m → m < n)
    (ht : tabSorted b t = true) : tabSorted b (tabSet t d n x) = true := by
  induction t generalizing b with
  | nil =>
    by_cases hx : x = d
    · simp [tabSet, hx, tabSorted]
    · cases b with
      | none => simp [tabSet, hx, tabSorted]
      | some m => simp [tabSet, hx, tabSorted, hb m rfl]
  | cons e r ih =>
    obtain ⟨k, v⟩ := e
    have ht' := ht
    simp only [tabSorted, Bool.and_eq_true] at ht
    obtain ⟨h1, h2⟩ := ht
    rcases Nat.lt_trichotomy n k with h | h | h
    · have hne : n ≠ k := by omega
      by_cases hx : x = d
      · simpa [tabSet, hne, h, hx] using ht'
      · simp only [tabSet, hne, h, hx, if_false, if_true]
        simp only [tabSorted, Bool.and_eq_true, decide_eq_true_eq]
        refine ⟨?_, h, h2⟩
        cases b with
        | none => rfl
        | some m => simp [hb m rfl]
    · subst h
      by_cases hx : x = d
      · simp only [tabSet, hx, if_true]
        cases b with
        | none => exact tabSorted_none h2
        | some m => exact tabSorted_weaken (le_of_lt (hb m rfl)) h2
      · simp only [tabSet, hx, if_true, if_false]
        simp only [tabSorted, Bool.and_eq_true]
        exact ⟨h1, h2⟩
    · have hne : n ≠ k := by omega
      have hnl : ¬ n < k := by omega
      simp only [tabSet, hne, hnl, if_false]
      simp only [tabSorted, Bool.and_eq_true]
      exact ⟨h1, ih (some k) (fun m hm => by cases hm; exact h) h2⟩

/-- A write of the key's own default keeps "no entry equals its default". -/
theorem tabAll_tabSet (t : Tab α) (d : Nat → α) (x : α) (n : Nat) (h : t.all (fun e => decide (e.2 ≠ d e.1)) = true) :
    (tabSet t (d n) n x).all (fun e => decide (e.2 ≠ d e.1)) = true := by
  induction t with
  | nil => by_cases hx : x = d n <;> simp [tabSet, hx]
  | cons e r ih =>
    obtain ⟨k, v⟩ := e
    simp only [List.all_cons, Bool.and_eq_true] at h
    rcases Nat.lt_trichotomy n k with hk | hk | hk
    · have hne : n ≠ k := by omega
      by_cases hx : x = d n
      · simpa [tabSet, hne, hk, hx] using h
      · simpa [tabSet, hne, hk, hx] using h
    · subst hk
      by_cases hx : x = d n
      · simpa [tabSet, hx] using h.2
      · simpa [tabSet, hx] using h.2
    · have hne : n ≠ k := by omega
      have hnl : ¬ n < k := by omega
      simp only [tabSet, hne, hnl, if_false, List.all_cons, Bool.and_eq_true]
      exact ⟨h.1, ih h.2⟩

/-- Every write keeps the canonical form. -/
theorem tabWf_tabSet (t : Tab α) (d : Nat → α) (x : α) (n : Nat) (h : tabWf t d = true) : tabWf (tabSet t (d n) n x) d = true := by
  simp only [tabWf, Bool.and_eq_true] at h ⊢
  exact ⟨tabSorted_tabSet t (d n) x n none (by simp) h.1, tabAll_tabSet t d x n h.2⟩

theorem tabWf_sorted {t : Tab α} {d : Nat → α} (h : tabWf t d = true) : tabSorted none t = true := by
  simp only [tabWf, Bool.and_eq_true] at h; exact h.1

end Sys2Proof.Machine
end

