-- ==== Sys2Proof/Laws/Ops.lean ====
section
/-!
SUPPORT. What the shared operations do, each said once: reading a parameter after a write, and the frame of an event, a completion and a
reply. These touch the sender's side of the state (`host`, `sent`) and three counting parameters, nothing else.
-/
namespace Sys2Proof.Machine

theorem pkey_eq (p i q j : Nat) : pkey p i = pkey q j ↔ p = q ∧ i % 65536 = j % 65536 := by
  unfold pkey; omega

theorem pkey_ne {p q : Nat} (h : p ≠ q) (i j : Nat) : pkey p i ≠ pkey q j := by
  rw [Ne, pkey_eq]; exact fun e => h e.1

theorem State.ordered_wr {s : State} (h : s.ordered) (p i v : Nat) : (s.wr p i v).ordered :=
  tabSorted_tabSet _ _ _ _ none (by simp) h

theorem State.rd_wr {s : State} (h : s.ordered) (p i v q j : Nat) :
    (s.wr p i v).rd q j = if pkey q j = pkey p i then v else s.rd q j := by
  unfold State.rd State.wr
  simp only []
  rw [tabGet_tabSet _ _ _ _ _ _ none h]
  by_cases e : pkey q j = pkey p i
  · simp only [e, if_true]; split <;> simp_all
  · simp [e]

theorem State.rd_wr_same {s : State} (h : s.ordered) (p i v : Nat) : (s.wr p i v).rd p i = v := by
  rw [State.rd_wr h]; simp

theorem State.rd_wr_ne {s : State} (h : s.ordered) {p q : Nat} (hp : q ≠ p) (i j v : Nat) : (s.wr p i v).rd q j = s.rd q j := by
  rw [State.rd_wr h]; simp [pkey_ne hp]

theorem State.rd_wr_inst {s : State} (h : s.ordered) {i j : Nat} (hi : j % 65536 ≠ i % 65536) (p q v : Nat) :
    (s.wr p i v).rd q j = s.rd q j := by
  rw [State.rd_wr h]; simp [pkey_eq, hi]

theorem State.ordered_advance {s : State} (h : s.ordered) (t : Nat) : (s.advance t).ordered := by
  simpa [State.ordered] using h

/-- `s'` differs from `s` in the host side, in what was sent, and in the loss counters only. -/
def State.Tells (s s' : State) : Prop :=
  s' = { s with host := s'.host, sent := s'.sent, par := { s.par with active := s'.par.active } } ∧
  (s.ordered → s'.ordered ∧ ∀ p i, lossCount p = false → s'.rd p i = s.rd p i)

theorem State.Tells.refl (s : State) : s.Tells s := ⟨rfl, fun h => ⟨h, fun _ _ _ => rfl⟩⟩

theorem State.Tells.trans {a b c : State} (h : a.Tells b) (k : b.Tells c) : a.Tells c := by
  obtain ⟨h1, h2⟩ := h
  obtain ⟨k1, k2⟩ := k
  refine ⟨?_, fun o => ⟨(k2 (h2 o).1).1, fun p i hp => ((k2 (h2 o).1).2 p i hp).trans ((h2 o).2 p i hp)⟩⟩
  rw [k1, h1]

theorem State.Tells.of_host (s : State) (h : HostState) (l : List Out) : s.Tells { s with host := h, sent := l } :=
  ⟨rfl, fun o => ⟨o, fun _ _ _ => rfl⟩⟩

theorem State.Tells.inc (s : State) (p i : Nat) (hp : lossCount p = true) : s.Tells (s.inc p i) := by
  refine ⟨rfl, fun o => ⟨State.ordered_wr o _ _ _, fun q j hq => State.rd_wr_ne o ?_ _ _ _⟩⟩
  rintro rfl; simp [hp] at hq

theorem State.tells_enqueue (s : State) (d : Dest) (e : Ev) : s.Tells (s.enqueue d e) := by
  unfold State.enqueue
  simp only []
  split
  · exact .of_host s _ s.sent
  · exact (State.Tells.of_host s _ s.sent).trans (.inc _ _ _ (by decide))

theorem State.tells_enqueueAll (e : Ev) (l : List Sub) (s : State) : s.Tells (l.foldl (fun s b => s.enqueue b.dest e) s) := by
  induction l generalizing s with
  | nil => exact .refl s
  | cons b r ih => exact (s.tells_enqueue b.dest e).trans (ih _)

theorem State.tells_raiseEv (s : State) (e : Ev) : s.Tells (s.raiseEv e) := by
  unfold State.raiseEv
  simp only []
  refine State.Tells.trans (b := if e.level = 2 then _ else s.setHost _) ?_ (State.tells_enqueueAll _ _ _)
  split
  · split
    · exact (State.Tells.of_host s _ s.sent).trans (.inc _ _ _ (by decide))
    · exact .of_host s _ s.sent
  · exact .of_host s _ s.sent

/-- An event changes nothing but the host side and the loss counters. -/
theorem State.tells_raise (s : State) (c i : Nat) (d : List Byte) : s.Tells (s.raise c i d) := s.tells_raiseEv _

theorem State.tells_raiseIf (s : State) (b : Bool) (c i : Nat) (d : List Byte) : s.Tells (s.raiseIf b c i d) := by
  unfold State.raiseIf; split
  · exact s.tells_raise c i d
  · exact .refl s

/-- A completion changes nothing but the host side and the loss counters. -/
theorem State.tells_complete (s : State) (q : Req) (id e st d w v : Nat) : s.Tells (s.complete q id e st d w v) := by
  unfold State.complete; split
  · exact .refl s
  · exact (State.Tells.of_host s _ s.sent).trans (State.tells_enqueue _ _ _)

theorem State.tells_completeAll (f : Req → State → Nat × Nat × Nat × Nat × Nat × Nat) (l : List Req) (s : State) :
    s.Tells (l.foldl (fun s q => s.complete q (f q s).1 (f q s).2.1 (f q s).2.2.1 (f q s).2.2.2.1 (f q s).2.2.2.2.1 (f q s).2.2.2.2.2) s) := by
  induction l generalizing s with
  | nil => exact .refl s
  | cons q r ih => exact (s.tells_complete q _ _ _ _ _ _).trans (ih _)

theorem State.tells_deliver (s : State) (r : Reply) : s.Tells (s.deliver r) := by
  unfold State.deliver
  split
  · split
    · split
      · next h =>
        unfold State.ringReply at h
        simp only [] at h
        split at h
        · split at h
          · cases h
          · cases h; exact .of_host s _ _
        · cases h
      · exact .of_host s _ s.sent
    · split
      · exact .inc _ _ _ (by decide)
      · exact .of_host s _ s.sent
  · exact .of_host s _ _
  · exact .of_host s s.host _

/-- A reply changes nothing but the host side and the loss counters. -/
theorem State.tells_reply (s : State) (q : Req) (st : Nat) (b : List Byte) : s.Tells (s.reply q st b) := by
  unfold State.reply
  simp only []
  exact (State.Tells.of_host s _ s.sent).trans (State.tells_deliver _ _)

/-! What follows from it for each field and for reading a parameter. -/

theorem State.Tells.keeps {s s' : State} (h : s.Tells s') :
    s'.time = s.time ∧ s'.free = s.free ∧ s'.link = s.link ∧ s'.fb = s.fb ∧ s'.hist = s.hist ∧ s'.lat = s.lat ∧ s'.cmp = s.cmp ∧
    s'.emu = s.emu ∧ s'.ax = s.ax ∧ s'.eng = s.eng ∧ s'.gm = s.gm ∧ s'.trj = s.trj ∧ s'.vm = s.vm ∧ s'.cpl = s.cpl ∧ s'.cams = s.cams ∧
    s'.camHeld = s.camHeld ∧ s'.pg = s.pg ∧ s'.line = s.line ∧ s'.mod = s.mod ∧ s'.fe = s.fe ∧ s'.saf = s.saf ∧ s'.ferry = s.ferry ∧
    s'.dqFe = s.dqFe ∧ s'.pr = s.pr ∧ s'.aq = s.aq ∧ s'.can = s.can ∧ s'.canObj = s.canObj ∧ s'.nt = s.nt ∧ s'.roll = s.roll ∧
    s'.boot = s.boot ∧ s'.pending = s.pending := by
  rw [h.1]
  exact ⟨rfl, rfl, rfl, rfl, rfl, rfl, rfl, rfl, rfl, rfl, rfl, rfl, rfl, rfl, rfl, rfl, rfl, rfl, rfl, rfl, rfl, rfl, rfl, rfl, rfl, rfl,
    rfl, rfl, rfl, rfl, rfl⟩

theorem State.Tells.keeps_par {s s' : State} (h : s.Tells s') :
    s'.par.shadow = s.par.shadow ∧ s'.par.staged = s.par.staged ∧ s'.par.commits = s.par.commits ∧ s'.par.nextId = s.par.nextId := by
  rw [h.1]; exact ⟨rfl, rfl, rfl, rfl⟩

theorem State.Tells.ordered {s s' : State} (h : s.Tells s') (o : s.ordered) : s'.ordered := (h.2 o).1

theorem State.Tells.rd {s s' : State} (h : s.Tells s') (o : s.ordered) {p : Nat} (hp : lossCount p = false) (i : Nat) :
    s'.rd p i = s.rd p i := (h.2 o).2 p i hp

@[simp] theorem State.raise_frame (s : State) (c i : Nat) (d : List Byte) :
    (s.raise c i d).time = s.time ∧ (s.raise c i d).free = s.free ∧ (s.raise c i d).link = s.link ∧ (s.raise c i d).fb = s.fb ∧
    (s.raise c i d).hist = s.hist ∧ (s.raise c i d).lat = s.lat ∧ (s.raise c i d).cmp = s.cmp ∧ (s.raise c i d).emu = s.emu ∧
    (s.raise c i d).ax = s.ax ∧ (s.raise c i d).eng = s.eng ∧ (s.raise c i d).gm = s.gm ∧ (s.raise c i d).trj = s.trj ∧
    (s.raise c i d).vm = s.vm ∧ (s.raise c i d).cpl = s.cpl ∧ (s.raise c i d).cams = s.cams ∧ (s.raise c i d).camHeld = s.camHeld ∧
    (s.raise c i d).pg = s.pg ∧ (s.raise c i d).line = s.line ∧ (s.raise c i d).mod = s.mod ∧ (s.raise c i d).fe = s.fe ∧
    (s.raise c i d).saf = s.saf ∧ (s.raise c i d).ferry = s.ferry ∧ (s.raise c i d).dqFe = s.dqFe ∧ (s.raise c i d).pr = s.pr ∧
    (s.raise c i d).aq = s.aq ∧ (s.raise c i d).can = s.can ∧ (s.raise c i d).canObj = s.canObj ∧ (s.raise c i d).nt = s.nt ∧
    (s.raise c i d).roll = s.roll ∧ (s.raise c i d).boot = s.boot ∧ (s.raise c i d).pending = s.pending :=
  (s.tells_raise c i d).keeps

@[simp] theorem State.raiseIf_frame (s : State) (b : Bool) (c i : Nat) (d : List Byte) :
    (s.raiseIf b c i d).time = s.time ∧ (s.raiseIf b c i d).free = s.free ∧ (s.raiseIf b c i d).link = s.link ∧
    (s.raiseIf b c i d).fb = s.fb ∧ (s.raiseIf b c i d).hist = s.hist ∧ (s.raiseIf b c i d).lat = s.lat ∧
    (s.raiseIf b c i d).cmp = s.cmp ∧ (s.raiseIf b c i d).emu = s.emu ∧ (s.raiseIf b c i d).ax = s.ax ∧
    (s.raiseIf b c i d).eng = s.eng ∧ (s.raiseIf b c i d).gm = s.gm ∧ (s.raiseIf b c i d).trj = s.trj ∧ (s.raiseIf b c i d).vm = s.vm ∧
    (s.raiseIf b c i d).cpl = s.cpl ∧ (s.raiseIf b c i d).cams = s.cams ∧ (s.raiseIf b c i d).camHeld = s.camHeld ∧
    (s.raiseIf b c i d).pg = s.pg ∧ (s.raiseIf b c i d).line = s.line ∧ (s.raiseIf b c i d).mod = s.mod ∧
    (s.raiseIf b c i d).fe = s.fe ∧ (s.raiseIf b c i d).saf = s.saf ∧ (s.raiseIf b c i d).ferry = s.ferry ∧
    (s.raiseIf b c i d).dqFe = s.dqFe ∧ (s.raiseIf b c i d).pr = s.pr ∧ (s.raiseIf b c i d).aq = s.aq ∧
    (s.raiseIf b c i d).can = s.can ∧ (s.raiseIf b c i d).canObj = s.canObj ∧ (s.raiseIf b c i d).nt = s.nt ∧
    (s.raiseIf b c i d).roll = s.roll ∧ (s.raiseIf b c i d).boot = s.boot ∧ (s.raiseIf b c i d).pending = s.pending :=
  (s.tells_raiseIf b c i d).keeps

@[simp] theorem State.complete_frame (s : State) (q : Req) (id e st d w v : Nat) :
    (s.complete q id e st d w v).time = s.time ∧ (s.complete q id e st d w v).free = s.free ∧
    (s.complete q id e st d w v).link = s.link ∧ (s.complete q id e st d w v).fb = s.fb ∧ (s.complete q id e st d w v).hist = s.hist ∧
    (s.complete q id e st d w v).lat = s.lat ∧ (s.complete q id e st d w v).cmp = s.cmp ∧ (s.complete q id e st d w v).emu = s.emu ∧
    (s.complete q id e st d w v).ax = s.ax ∧ (s.complete q id e st d w v).eng = s.eng ∧ (s.complete q id e st d w v).gm = s.gm ∧
    (s.complete q id e st d w v).trj = s.trj ∧ (s.complete q id e st d w v).vm = s.vm ∧ (s.complete q id e st d w v).cpl = s.cpl ∧
    (s.complete q id e st d w v).cams = s.cams ∧ (s.complete q id e st d w v).camHeld = s.camHeld ∧
    (s.complete q id e st d w v).pg = s.pg ∧ (s.complete q id e st d w v).line = s.line ∧ (s.complete q id e st d w v).mod = s.mod ∧
    (s.complete q id e st d w v).fe = s.fe ∧ (s.complete q id e st d w v).saf = s.saf ∧ (s.complete q id e st d w v).ferry = s.ferry ∧
    (s.complete q id e st d w v).dqFe = s.dqFe ∧ (s.complete q id e st d w v).pr = s.pr ∧ (s.complete q id e st d w v).aq = s.aq ∧
    (s.complete q id e st d w v).can = s.can ∧ (s.complete q id e st d w v).canObj = s.canObj ∧
    (s.complete q id e st d w v).nt = s.nt ∧ (s.complete q id e st d w v).roll = s.roll ∧ (s.complete q id e st d w v).boot = s.boot ∧
    (s.complete q id e st d w v).pending = s.pending :=
  (s.tells_complete q id e st d w v).keeps

@[simp] theorem State.reply_frame (s : State) (q : Req) (st : Nat) (b : List Byte) :
    (s.reply q st b).time = s.time ∧ (s.reply q st b).free = s.free ∧ (s.reply q st b).link = s.link ∧ (s.reply q st b).fb = s.fb ∧
    (s.reply q st b).hist = s.hist ∧ (s.reply q st b).lat = s.lat ∧ (s.reply q st b).cmp = s.cmp ∧ (s.reply q st b).emu = s.emu ∧
    (s.reply q st b).ax = s.ax ∧ (s.reply q st b).eng = s.eng ∧ (s.reply q st b).gm = s.gm ∧ (s.reply q st b).trj = s.trj ∧
    (s.reply q st b).vm = s.vm ∧ (s.reply q st b).cpl = s.cpl ∧ (s.reply q st b).cams = s.cams ∧ (s.reply q st b).camHeld = s.camHeld ∧
    (s.reply q st b).pg = s.pg ∧ (s.reply q st b).line = s.line ∧ (s.reply q st b).mod = s.mod ∧ (s.reply q st b).fe = s.fe ∧
    (s.reply q st b).saf = s.saf ∧ (s.reply q st b).ferry = s.ferry ∧ (s.reply q st b).dqFe = s.dqFe ∧ (s.reply q st b).pr = s.pr ∧
    (s.reply q st b).aq = s.aq ∧ (s.reply q st b).can = s.can ∧ (s.reply q st b).canObj = s.canObj ∧ (s.reply q st b).nt = s.nt ∧
    (s.reply q st b).roll = s.roll ∧ (s.reply q st b).boot = s.boot ∧ (s.reply q st b).pending = s.pending :=
  (s.tells_reply q st b).keeps

theorem State.raise_ordered {s : State} (o : s.ordered) (c i : Nat) (d : List Byte) : (s.raise c i d).ordered := (s.tells_raise c i d).ordered o

theorem State.raise_rd {s : State} (o : s.ordered) {p : Nat} (hp : lossCount p = false) (c i : Nat) (d : List Byte) (j : Nat) :
    (s.raise c i d).rd p j = s.rd p j := (s.tells_raise c i d).rd o hp j

theorem State.raiseIf_ordered {s : State} (o : s.ordered) (b : Bool) (c i : Nat) (d : List Byte) : (s.raiseIf b c i d).ordered := (s.tells_raiseIf b c i d).ordered o

theorem State.raiseIf_rd {s : State} (o : s.ordered) {p : Nat} (hp : lossCount p = false) (b : Bool) (c i : Nat) (d : List Byte) (j : Nat) :
    (s.raiseIf b c i d).rd p j = s.rd p j := (s.tells_raiseIf b c i d).rd o hp j

theorem State.complete_ordered {s : State} (o : s.ordered) (q : Req) (id e st d w v : Nat) : (s.complete q id e st d w v).ordered := (s.tells_complete q id e st d w v).ordered o

theorem State.complete_rd {s : State} (o : s.ordered) {p : Nat} (hp : lossCount p = false) (q : Req) (id e st d w v : Nat) (j : Nat) :
    (s.complete q id e st d w v).rd p j = s.rd p j := (s.tells_complete q id e st d w v).rd o hp j

theorem State.reply_ordered {s : State} (o : s.ordered) (q : Req) (st : Nat) (b : List Byte) : (s.reply q st b).ordered := (s.tells_reply q st b).ordered o

theorem State.reply_rd {s : State} (o : s.ordered) {p : Nat} (hp : lossCount p = false) (q : Req) (st : Nat) (b : List Byte) (j : Nat) :
    (s.reply q st b).rd p j = s.rd p j := (s.tells_reply q st b).rd o hp j

end Sys2Proof.Machine
end

