-- ==== Sys2Proof/WellFormed.lean ====
section
/-!
DEFINITION. Which commands are well formed: a request carries the opcode of its row and fields of the widths of Table 13.1, a
command names units the device has (Table 0.6). `exec` does not assume it: a unit that the device does not have is a stop by
name, and a wide field is read as its format reads it.
-/
namespace Sys2Proof

/-- A request of an opcode whose header fields have the widths of Tables 13.1 and 13.2. -/
def Req.wf (q : Req) (op : Nat) : Bool :=
  q.opcode == op && decide (q.flow < 256 ∧ q.seq < 2 ^ 32 ∧ q.inst < 65536 ∧ q.timeout < 65536 ∧
    (q.gen = 1 ∨ q.gen = 2) ∧ q.body.length ≤ 262112)

/-- The well-formed commands. -/
def wellFormed : Instr → Bool
  | .packetArrival _ _ sender bytes => decide (sender < 2 ^ 48 ∧ bytes.length ≤ 262144)
  | .packetStart _ flow => decide (flow < 256)
  | .commandTimedOut _ flow pos => decide (flow < 256 ∧ pos < 64)
  | .paramRead _ q => q.wf 0x0101
  | .paramWrite _ q => q.wf 0x0102
  | .paramReadList _ q => q.wf 0x0103
  | .stageOpen _ q => q.wf 0x0104
  | .stageCommit _ q => q.wf 0x0105
  | .stageDiscard _ q => q.wf 0x0106
  | .eventSubscribe _ q => q.wf 0x0107
  | .eventRead _ q => q.wf 0x0108
  | .identify _ q => q.wf 0x0109
  | .replyRelease _ => true
  | .eventSend _ _ => true
  | .descriptorFetch _ _ _ _ => true
  | .dbReqTailWrite _ _ => true
  | .dbRplHeadWrite _ _ => true
  | .dbEvtHeadWrite _ _ => true
  | .hbReset _ => true
  | .hbEnable _ _ => true
  | .hbEvtLostRead _ => true
  | .registerWrite _ off size v => decide (off < 65536 ∧ (size = 4 ∨ size = 8) ∧ v < 2 ^ (8 * size))
  | .msixFire _ vec => decide (vec < 32)
  | .hostBlockDmaError _ cause _ => decide (1 ≤ cause ∧ cause ≤ 4)
  | .hostConfigApply _ => true
  | .linkStart _ q => q.wf 0x0201
  | .linkStop _ q => q.wf 0x0202
  | .modeLoad _ q => q.wf 0x0203
  | .modeSwitch _ q => q.wf 0x0204
  | .nodeRetire _ q => q.wf 0x0205
  | .nodeJoin _ q => q.wf 0x0206
  | .modeCheck _ q => q.wf 0x0207
  | .coldStartPhaseEnd _ _ => true
  | .coldStartPhaseTimeout _ => true
  | .foreignHeadFrame _ b => decide (b.length ≤ 73)
  | .upstreamSlotReceived _ _ node _ _ => decide (1 ≤ node ∧ node ≤ 63)
  | .engineJobDispatch _ => true
  | .placeFrameSend _ node => decide (1 ≤ node ∧ node ≤ 63)
  | .sampleInstant _ => true
  | .loadAllReload _ => true
  | .updateInstant _ => true
  | .ringOpen _ _ => true
  | .ringClosed _ _ => true
  | .ringSettled _ _ => true
  | .ringDelayDisagreement _ _ => true
  | .scheduleRecheck _ => true
  | .cellCounterPoll _ node count => decide (1 ≤ node ∧ node + count ≤ 64)
  | .serviceReplyReceived _ _ _ => true
  | .sfpInserted _ port _ _ => decide (port < 4)
  | .sfpRemoved _ port _ => decide (port < 4)
  | .islandMeasurement _ m => decide (m.clock.length = 9 ∧ (m.full = true → m.supply.length = 9 ∧ m.temp.length = 9))
  | .islandHalt _ island => decide (island < 4)
  | .islandResume _ island => decide (island < 9)
  | .localFeedbackSample _ port f => decide (port < 8) && f.low.length == 3 && (f.changes.zip f.changes.tail).all fun x => decide (x.1.1 ≤ x.2.1)
  | .feedbackFreeze _ inst => decide (inst < 128)
  | .standstillTimeout _ inst => decide (inst < 136)
  | .followingErrorTimeout _ axis => decide (axis < 128)
  | .latchRecordForm _ unit => decide (unit < 64)
  | .registrationMarkMissing _ axis => decide (axis < 128)
  | .latchRead _ q => q.wf 0x0401
  | .latchFlush _ q => q.wf 0x0402
  | .axisEnable _ q => q.wf 0x0501
  | .axisDisable _ q => q.wf 0x0502
  | .stepHoldDelay _ axis => decide (axis < 128)
  | .gainMapLoad _ q => q.wf 0x0510
  | .gainMapCommit _ q => q.wf 0x0511
  | .gainMapOff _ q => q.wf 0x0512
  | .gainMapRead _ q => q.wf 0x0513
  | .moveAbs _ q => q.wf 0x0601
  | .moveRel _ q => q.wf 0x0602
  | .moveJog _ q => q.wf 0x0603
  | .moveStop _ q => q.wf 0x0604
  | .moveHome _ q => q.wf 0x0605
  | .homingFailed _ axis => decide (axis < 128)
  | .moveTest _ q => q.wf 0x0606
  | .moveResume _ q => q.wf 0x0607
  | .queueAppend _ q => q.wf 0x0608
  | .queueStart _ q => q.wf 0x0609
  | .queueClear _ q => q.wf 0x060A
  | .queueRefill _ axis _ => decide (axis < 144)
  | .vmMove _ q => q.wf 0x0701
  | .vmStop _ q => q.wf 0x0702
  | .camLoad _ q => q.wf 0x0703
  | .camDelete _ q => q.wf 0x0704
  | .camRead _ q => q.wf 0x0705
  | .camPrefetch _ table _ => decide (table < 256)
  | .camFetchLate _ table => decide (table < 256)
  | .couplingEngage _ q => q.wf 0x0706
  | .couplingDisengage _ q => q.wf 0x0707
  | .couplingChange _ q => q.wf 0x0708
  | .couplingChangeLapsed _ axis => decide (axis < 128)
  | .pathBind _ q => q.wf 0x0709
  | .pathAppend _ q => q.wf 0x070A
  | .pathStart _ q => q.wf 0x070B
  | .pathStop _ q => q.wf 0x070C
  | .pathRelease _ q => q.wf 0x070D
  | .lineMove _ q => q.wf 0x070E
  | .lineStop _ q => q.wf 0x070F
  | .lineFrameSend _ => true
  | .lineFrameReceived _ d => decide (d.ip < 2 ^ 32) && decide (d.port < 65536)
  | .lineTimeout _ => true
  | .loadAll _ q => q.wf 0x0801
  | .tripClear _ q => q.wf 0x0802
  | .gateTrip _ pair input _ => decide (pair < 12 ∧ input < 2)
  | .localDataNotReady _ pair => decide (pair < 12)
  | .delayLineCalibration _ pair _ _ => decide (pair < 12)
  | .microstepLoad _ q => q.wf 0x0803
  | .microstepShape _ q => q.wf 0x0804
  | .microstepRead _ q => q.wf 0x0805
  | .frontEndJobs _ sd => decide (sd.length = 12)
  | .dipDetected _ => true
  | .dipCleared _ => true
  | .phaseLossTimeout _ => true
  | .frequencyFault _ => true
  | .rideRecoveryStep _ => true
  | .rideThroughExhausted _ => true
  | .sigmaDeltaFault _ input => decide (input < 12)
  | .feStart _ q => q.wf 0x0901
  | .contactorFeedbackChange _ _ _ => true
  | .prechargeLevelReached _ => true
  | .preOpenDelayExpiry _ => true
  | .feSequenceTimeout _ => true
  | .busSettled _ => true
  | .feStop _ q => q.wf 0x0902
  | .feStopRampEnd _ => true
  | .feFaultClear _ q => q.wf 0x0903
  | .safetyInputSample _ proc _ => decide (proc < 2)
  | .discrepancyTimeout _ input => decide (input < 12)
  | .safetyCycle _ _ => true
  | .testPulse _ _ _ => true
  | .stoTestPulse _ out _ _ _ => decide (out < 8)
  | .safetySelfTest _ proc _ => decide (proc < 2)
  | .safetySupplyLoss _ => true
  | .ss1DelayExpiry _ group => decide (group < 8)
  | .srstPress _ => true
  | .srstRelease _ => true
  | .resetHeld _ => true
  | .safetyStartupComplete _ _ _ _ _ => true
  | .safetyStatusFrame _ proc _ => decide (proc < 2)
  | .safetyStatusLost _ => true
  | .stoWiringMismatch _ node => decide (1 ≤ node ∧ node ≤ 63)
  | .stoMapSet _ q => q.wf 0x0E01
  | .safStatusRead _ q => q.wf 0x0E02
  | .ferryDownFrame _ group => decide (group < 4)
  | .ferryDownFrameReceived _ group _ => decide (group < 4)
  | .ferryUpFrame _ group => decide (group < 4)
  | .ferryUpFrameReceived _ group _ => decide (group < 4)
  | .ferryStale _ group => decide (group < 4)
  | .ferryWatchdog _ group => decide (group < 4)
  | .fieldEntryApply _ group => decide (group < 4)
  | .fastInputEdge _ input _ => decide (input < 16)
  | .inputFilterExpiry _ input _ => decide (input < 48)
  | .inputWireBreak _ input _ => decide (input < 48)
  | .outputOverload _ out => decide (out < 16)
  | .outputOverloadClear _ out => decide (out < 16)
  | .outputFedBack _ out _ => decide (out < 16)
  | .fieldSupplyLow _ group => decide (group < 4)
  | .fieldSupplyRestored _ group => decide (group < 4)
  | .ioSnapshot _ q => q.wf 0x0A01
  | .dqWrite _ q => q.wf 0x0A02
  | .dqRelease _ q => q.wf 0x0A03
  | .serviceRestart _ => true
  | .serviceRestartComplete _ => true
  | .threadReady _ th _ _ _ => decide (th < 1024)
  | .timeSliceExpiry _ core => decide (core < 6)
  | .budgetExhausted _ th core => decide (th < 1024 ∧ core < 4)
  | .budgetWindow _ => true
  | .workItemPost _ flow _ _ => decide (flow < 4096)
  | .workItemEnd _ flow => decide (flow < 4096)
  | .taskLoad _ q => q.wf 0x0D01
  | .taskStart _ q => q.wf 0x0D02
  | .taskStop _ q => q.wf 0x0D03
  | .taskUnload _ q => q.wf 0x0D04
  | .taskMap _ q => q.wf 0x0D05
  | .taskMemRead _ q => q.wf 0x0D06
  | .memInfo _ q => q.wf 0x0D07
  | .taskFault _ task _ _ _ _ _ => decide (task < 64)
  | .taskWatchdogExpiry _ task => decide (task < 64)
  | .taskWatchdogKick _ task => decide (task < 64)
  | .dmaStart _ ch _ _ _ => decide (ch < 16)
  | .dmaBurst _ => true
  | .memoryEccError _ _ _ _ _ => true
  | .patrolScrub _ => true
  | .acqArm _ q => q.wf 0x0B01
  | .acqStop _ q => q.wf 0x0B02
  | .acqForce _ q => q.wf 0x0B03
  | .acqTrigger _ unit => decide (unit < 4)
  | .acqAutoTimeout _ unit => decide (unit < 4)
  | .acqBlockWrite _ unit => decide (unit < 4)
  | .acqOverrun _ unit => decide (unit < 4)
  | .acqRateRestore _ unit => decide (unit < 4)
  | .acqRead _ q => q.wf 0x0B04
  | .acqCaptures _ q => q.wf 0x0B05
  | .acqGrant _ q => q.wf 0x0B06
  | .acqRevoke _ q => q.wf 0x0B07
  | .canSend _ q => q.wf 0x0C01
  | .canCancel _ q => q.wf 0x0C02
  | .canRead _ q => q.wf 0x0C03
  | .canRxAllRead _ q => q.wf 0x0C04
  | .canRecover _ q => q.wf 0x0C05
  | .canFrameReceived _ c _ => decide (c < 2)
  | .canTransmitStart _ x => decide (x.c < 2)
  | .canTxComplete _ c => decide (c < 2)
  | .canArbitrationLost _ c => decide (c < 2)
  | .canError _ c _ => decide (c < 2)
  | .canTxTimeout _ c obj => decide (c < 2 ∧ obj < 100)
  | .canBusIntegration _ c => decide (c < 2)
  | .canBusOffRecovery _ c => decide (c < 2)
  | .bellmanDue _ c => decide (c < 2)
  | .timeStep _ q => q.wf 0x0C20
  | .ptpSyncReceived _ _ => true
  | .ptpAnnounceReceived _ _ => true
  | .ptpMasterLoss _ => true
  | .ptpMessageSend _ kind => decide (kind < 3)
  | .ptpTransit _ _ inPort _ => decide (inPort < 2)
  | .followUpTimeout _ => true
  | .beaconSend _ => true
  | .beaconReceived _ port _ => decide (port < 2)
  | .neighbourLost _ port => decide (port < 2)
  | .rollCallStart _ => true
  | .rollCallFrameReceived _ port _ => decide (port < 2)
  | .rollCallTimeout _ => true
  | .rollCallRetry _ => true
  | .lineRollCall _ q => q.wf 0x0C21
  | .powerUp _ => true
  | .brownOut _ => true
  | .supplyInterruption _ _ => true
  | .systemWatchdog _ => true
  | .boot _ => true
  | .ready _ => true
  | .sysReset _ q => q.wf 0x010A
  | .sysBootStore _ q => q.wf 0x010B
  | .auxSupplyOverload _ n => decide (n < 10)
  | .auxSupplyRetry _ n _ => decide (n < 10)
  | .faultClear _ q => q.wf 0x0F01
  | .faultLogRead _ q => q.wf 0x0F02
  | .groupChange _ q => q.wf 0x0F03
  | .imageWrite _ q => q.wf 0x0F10
  | .imageCheck _ q => q.wf 0x0F11
  | .firmwareSwitch _ q => q.wf 0x0F12
  | .firmwareSwitched _ => true
  | .firmwareTrialEnd _ => true
  | .echoMarkerReceived _ _ _ => true
  | .cycleStartFrameReturned _ _ _ _ => true
  | .followUpReceived _ _ => true
  | .delayRespReceived _ _ => true
  | .delayReqReceived _ _ => true
  | .arpRequest _ _ _ => true
  | .icmpEchoRequest _ _ _ _ => true
  | .tripInputInactive _ pair input => decide (pair < 12 ∧ input < 2)
  | .sigmaDeltaStreamResumed _ input => decide (input < 12)
  | .islandHaltOffLoopPath _ island => decide (4 ≤ island ∧ island ≤ 8)
  | .bootRecordWritten _ => true
  | .acqFrameFormed _ unit _ => decide (unit < 4)

end Sys2Proof
end

