-- ==== Sys2Proof/Tests/Slice0.lean ====
section
/-!
SUPPORT. Small tests: for every check of well-formedness a term it refuses, values that the spec prints (the expected side of each is
the spec's), and for every premise of a statement a state and operands that meet it.
-/
namespace Sys2Proof.Tests

open Sys2Proof Sys2Proof.Machine

section

set_option Elab.async false
set_option maxRecDepth 4000
set_option linter.unusedVariables false

/-! ### States and requests used below -/

/-- A USB request of generation 2. -/
def req (op inst : Nat) (body : List Byte) : Req :=
  { dest := ⟨.usb, 0⟩, arrival := 0, gen := 2, more := false, noEvent := false, flow := 0, seq := 1, opcode := op, inst := inst, timeout := 0,
    crc := 0, body := body }

/-- The device after start-up, ready for packets. -/
def up : State := { State.reset with boot := { BootState.init with phase := 2, ready := true } }

/-- The host block runs and one reply waits. -/
def ringUp : State := { up with host := { up.host with
  regs := { up.host.regs with enable := true, running := true }
  replyWait := [{ dest := ⟨.pcie, 0⟩, gen := 2, flow := 0, seq := 1, opcode := 0x0109, inst := 0, status := 0, body := [], dup := false }] } }

/-- A reply for the rings. -/
def rpl : Reply := { dest := ⟨.pcie, 0⟩, gen := 2, flow := 0, seq := 1, opcode := 0x0109, inst := 0, status := 0, body := [], dup := false }

/-- The ready device with parameters set; the list is in key order. -/
def withPar (l : List (Nat × Nat)) : State := { up with par := { up.par with active := l } }

/-- A gain map of one point. -/
def gmBody : List Byte :=
  [1, 0, 1, 0, 2, 1, 0, 0, 1, 0, 0, 0] ++ List.replicate 20 0 ++ [0, 0, 0, 0, 0, 0, 128, 63] ++ List.replicate 64 0

/-- A path entry. -/
def peBody : List Byte := [1, 0, 0, 0] ++ List.replicate 12 0 ++ [0, 0, 1, 0] ++ List.replicate 140 0

/-- Path group 3, bound to one axis. -/
def pgUp : State := { withPar [(pkey P.PgAxes 3, 0xFFFFFFFFFF07)] with pg := [(3, { PgRec.init with bound := true })] }

/-- A cam table of one segment. -/
def camBody : List Byte :=
  [1, 0, 2, 0] ++ List.replicate 4 0 ++ leBytes 8 (3 * 2 ^ 16) ++ List.replicate 16 0 ++ List.replicate 32 0 ++ (leBytes 8 (2 ^ 16) ++ List.replicate 24 0)

/-- A task image, its check value 0. -/
def tImg0 : List Byte :=
  leBytes 2 1 ++ leBytes 2 0 ++ leBytes 4 4144 ++ leBytes 4 4096 ++ List.replicate 12 0 ++ leBytes 4 16384 ++ [5, 1] ++ leBytes 2 0 ++
    leBytes 4 1 ++ List.replicate 12 0 ++ List.replicate 4096 0

/-- A task image that passes its checks. -/
def tImg : List Byte := patch tImg0 44 (leBytes 4 (crc32 tImg0))

/-! ### Well-formedness refuses ill-formed commands -/

theorem test_illFormed_0 : ([
    .packetStart 0 256,
    .commandTimedOut 0 256 0,
    .commandTimedOut 0 0 64,
    .msixFire 0 32,
    .hostBlockDmaError 0 0 0,
    .hostBlockDmaError 0 5 0,
    .upstreamSlotReceived 0 .a 0 0 [],
    .upstreamSlotReceived 0 .a 64 0 [],
    .placeFrameSend 0 0,
    .placeFrameSend 0 64,
    .sfpInserted 0 4 false [],
    .sfpRemoved 0 4 false,
    .islandHalt 0 4,
    .islandResume 0 9,
    .feedbackFreeze 0 128,
    .standstillTimeout 0 136,
    .followingErrorTimeout 0 128,
    .latchRecordForm 0 64,
    .registrationMarkMissing 0 128,
    .stepHoldDelay 0 128,
    .homingFailed 0 128,
    .queueRefill 0 144 false,
    .camPrefetch 0 256 0,
    .camFetchLate 0 256,
    .couplingChangeLapsed 0 128,
    .gateTrip 0 12 0 0,
    .gateTrip 0 0 2 0,
    .localDataNotReady 0 12,
    .delayLineCalibration 0 12 false 0,
    .sigmaDeltaFault 0 12] : List Instr).all (fun i => !wellFormed i) = true := by decide +kernel

theorem test_illFormed_1 : ([
    .safetyInputSample 0 2 0,
    .discrepancyTimeout 0 12,
    .stoTestPulse 0 8 false false false,
    .safetySelfTest 0 2 false,
    .ss1DelayExpiry 0 8,
    .safetyStatusFrame 0 2 [],
    .stoWiringMismatch 0 0,
    .stoWiringMismatch 0 64,
    .ferryDownFrame 0 4,
    .ferryDownFrameReceived 0 4 [],
    .ferryUpFrame 0 4,
    .ferryUpFrameReceived 0 4 [],
    .ferryStale 0 4,
    .ferryWatchdog 0 4,
    .fieldEntryApply 0 4,
    .fastInputEdge 0 16 false,
    .inputFilterExpiry 0 48 ⟨false, 0⟩,
    .inputWireBreak 0 48 false,
    .outputOverload 0 16,
    .outputOverloadClear 0 16,
    .outputFedBack 0 16 false,
    .fieldSupplyLow 0 4,
    .fieldSupplyRestored 0 4,
    .threadReady 0 1024 0 0 0,
    .timeSliceExpiry 0 6,
    .budgetExhausted 0 1024 0,
    .budgetExhausted 0 0 4,
    .workItemPost 0 4096 0 0,
    .workItemEnd 0 4096,
    .taskFault 0 64 0 0 0 0 0] : List Instr).all (fun i => !wellFormed i) = true := by decide +kernel

theorem test_illFormed_2 : ([
    .taskWatchdogExpiry 0 64,
    .taskWatchdogKick 0 64,
    .dmaStart 0 16 0 0 [],
    .acqTrigger 0 4,
    .acqAutoTimeout 0 4,
    .acqBlockWrite 0 4,
    .acqOverrun 0 4,
    .acqRateRestore 0 4,
    .canFrameReceived 0 2 { ide := false, id := 0, rtr := false, fdf := false, brs := false, esi := false, dlc := 0, data := [], stamp := 0 },
    .canTxComplete 0 2,
    .canArbitrationLost 0 2,
    .canError 0 2 ⟨0, false, false, none⟩,
    .canTxTimeout 0 2 0,
    .canTxTimeout 0 0 100,
    .canBusIntegration 0 2,
    .canBusOffRecovery 0 2,
    .bellmanDue 0 2,
    .ptpMessageSend 0 3,
    .ptpTransit 0 { port := 0, domain := 0, kind := 0, seq := 0, source := 0, corr := 0, origin := 0, stamp := 0, twoStep := false, gm := [], logInt := 0, requester := 0 } 2 0,
    .beaconReceived 0 2 0,
    .neighbourLost 0 2,
    .rollCallFrameReceived 0 2 ⟨0, 0, 0, 0⟩,
    .auxSupplyOverload 0 10,
    .auxSupplyRetry 0 10 false,
    .tripInputInactive 0 12 0,
    .tripInputInactive 0 0 2,
    .sigmaDeltaStreamResumed 0 12,
    .islandHaltOffLoopPath 0 3,
    .islandHaltOffLoopPath 0 9,
    .acqFrameFormed 0 4 []] : List Instr).all (fun i => !wellFormed i) = true := by decide +kernel

theorem test_illFormed_3 : ([
    .foreignHeadFrame 0 (List.replicate 74 0),
    .localFeedbackSample 0 8 ⟨[], [0, 0, 0]⟩,
    .localFeedbackSample 0 7 ⟨[], [0, 0]⟩,
    .localFeedbackSample 0 7 ⟨[(1, 0), (0, 1)], [0, 0, 0]⟩,
    .lineFrameReceived 0 ⟨2 ^ 32, 0, []⟩,
    .lineFrameReceived 0 ⟨0, 65536, []⟩,
    .canTransmitStart 0 ⟨2, 0⟩,
    .cellCounterPoll 0 0 1,
    .cellCounterPoll 0 63 2,
    .packetArrival 0 .usb (2 ^ 48) [],
    .registerWrite 0 65536 4 0,
    .registerWrite 0 0 5 0,
    .registerWrite 0 0 4 (2 ^ 32),
    .registerWrite 0 0 8 (2 ^ 64),
    .islandMeasurement 0 ⟨false, List.replicate 8 0, [], []⟩,
    .islandMeasurement 0 ⟨true, List.replicate 9 0, List.replicate 8 0, List.replicate 9 0⟩,
    .islandMeasurement 0 ⟨true, List.replicate 9 0, List.replicate 9 0, []⟩,
    .frontEndJobs 0 (List.replicate 11 [])] : List Instr).all (fun i => !wellFormed i) = true := by decide +kernel

theorem test_wellFormed_0 : ([
    .packetStart 0 0,
    .commandTimedOut 0 0 0,
    .msixFire 0 0,
    .hostBlockDmaError 0 1 0,
    .upstreamSlotReceived 0 .a 1 0 [],
    .placeFrameSend 0 1,
    .sfpInserted 0 0 false [],
    .sfpRemoved 0 0 false,
    .islandHalt 0 0,
    .islandResume 0 0,
    .feedbackFreeze 0 0,
    .standstillTimeout 0 0,
    .followingErrorTimeout 0 0,
    .latchRecordForm 0 0,
    .registrationMarkMissing 0 0,
    .stepHoldDelay 0 0,
    .homingFailed 0 0,
    .queueRefill 0 0 false,
    .camPrefetch 0 0 0,
    .camFetchLate 0 0,
    .couplingChangeLapsed 0 0,
    .gateTrip 0 0 0 0,
    .localDataNotReady 0 0,
    .delayLineCalibration 0 0 false 0,
    .sigmaDeltaFault 0 0,
    .safetyInputSample 0 0 0,
    .discrepancyTimeout 0 0,
    .stoTestPulse 0 0 false false false,
    .safetySelfTest 0 0 false,
    .ss1DelayExpiry 0 0] : List Instr).all wellFormed = true := by decide +kernel

theorem test_wellFormed_1 : ([
    .safetyStatusFrame 0 0 [],
    .stoWiringMismatch 0 1,
    .ferryDownFrame 0 0,
    .ferryDownFrameReceived 0 0 [],
    .ferryUpFrame 0 0,
    .ferryUpFrameReceived 0 0 [],
    .ferryStale 0 0,
    .ferryWatchdog 0 0,
    .fieldEntryApply 0 0,
    .fastInputEdge 0 0 false,
    .inputFilterExpiry 0 0 ⟨false, 0⟩,
    .inputWireBreak 0 0 false,
    .outputOverload 0 0,
    .outputOverloadClear 0 0,
    .outputFedBack 0 0 false,
    .fieldSupplyLow 0 0,
    .fieldSupplyRestored 0 0,
    .threadReady 0 0 0 0 0,
    .timeSliceExpiry 0 0,
    .budgetExhausted 0 0 0,
    .workItemPost 0 0 0 0,
    .workItemEnd 0 0,
    .taskFault 0 0 0 0 0 0 0,
    .taskWatchdogExpiry 0 0,
    .taskWatchdogKick 0 0,
    .dmaStart 0 0 0 0 [],
    .acqTrigger 0 0,
    .acqAutoTimeout 0 0,
    .acqBlockWrite 0 0,
    .acqOverrun 0 0] : List Instr).all wellFormed = true := by decide +kernel

theorem test_wellFormed_2 : ([
    .acqRateRestore 0 0,
    .canFrameReceived 0 0 { ide := false, id := 0, rtr := false, fdf := false, brs := false, esi := false, dlc := 0, data := [], stamp := 0 },
    .canTxComplete 0 0,
    .canArbitrationLost 0 0,
    .canError 0 0 ⟨0, false, false, none⟩,
    .canTxTimeout 0 0 0,
    .canBusIntegration 0 0,
    .canBusOffRecovery 0 0,
    .bellmanDue 0 0,
    .ptpMessageSend 0 0,
    .ptpTransit 0 { port := 0, domain := 0, kind := 0, seq := 0, source := 0, corr := 0, origin := 0, stamp := 0, twoStep := false, gm := [], logInt := 0, requester := 0 } 0 0,
    .beaconReceived 0 0 0,
    .neighbourLost 0 0,
    .rollCallFrameReceived 0 0 ⟨0, 0, 0, 0⟩,
    .auxSupplyOverload 0 0,
    .auxSupplyRetry 0 0 false,
    .tripInputInactive 0 0 0,
    .sigmaDeltaStreamResumed 0 0,
    .islandHaltOffLoopPath 0 4,
    .acqFrameFormed 0 0 [],
    .localFeedbackSample 0 7 ⟨[(0, 0), (1, 1)], [0, 0, 0]⟩,
    .lineFrameReceived 0 ⟨0, 65535, []⟩,
    .canTransmitStart 0 ⟨1, 9⟩,
    .cellCounterPoll 0 1 63,
    .packetArrival 0 .usb 0 [],
    .registerWrite 0 0 8 (2 ^ 32),
    .islandMeasurement 0 ⟨false, List.replicate 9 0, [], []⟩,
    .frontEndJobs 0 (List.replicate 12 [])] : List Instr).all wellFormed = true := by decide +kernel

/-- A request under an opcode that is not its row's is ill formed; under its own it is well formed. -/
theorem test_requestOpcode_0 : ([
    (.paramRead 0, 0x0101),
    (.paramWrite 0, 0x0102),
    (.paramReadList 0, 0x0103),
    (.stageOpen 0, 0x0104),
    (.stageCommit 0, 0x0105),
    (.stageDiscard 0, 0x0106),
    (.eventSubscribe 0, 0x0107),
    (.eventRead 0, 0x0108),
    (.identify 0, 0x0109),
    (.linkStart 0, 0x0201),
    (.linkStop 0, 0x0202),
    (.modeLoad 0, 0x0203),
    (.modeSwitch 0, 0x0204),
    (.nodeRetire 0, 0x0205),
    (.nodeJoin 0, 0x0206),
    (.modeCheck 0, 0x0207),
    (.latchRead 0, 0x0401),
    (.latchFlush 0, 0x0402),
    (.axisEnable 0, 0x0501),
    (.axisDisable 0, 0x0502),
    (.gainMapLoad 0, 0x0510),
    (.gainMapCommit 0, 0x0511),
    (.gainMapOff 0, 0x0512),
    (.gainMapRead 0, 0x0513),
    (.moveAbs 0, 0x0601),
    (.moveRel 0, 0x0602),
    (.moveJog 0, 0x0603),
    (.moveStop 0, 0x0604),
    (.moveHome 0, 0x0605),
    (.moveTest 0, 0x0606),
    (.moveResume 0, 0x0607),
    (.queueAppend 0, 0x0608),
    (.queueStart 0, 0x0609),
    (.queueClear 0, 0x060A),
    (.vmMove 0, 0x0701),
    (.vmStop 0, 0x0702)] : List ((Req → Instr) × Nat)).all
      (fun x => !wellFormed (x.1 (req (x.2 + 0x40) 0 [])) && wellFormed (x.1 (req x.2 0 []))) = true := by decide +kernel

/-- A request under an opcode that is not its row's is ill formed; under its own it is well formed. -/
theorem test_requestOpcode_1 : ([
    (.camLoad 0, 0x0703),
    (.camDelete 0, 0x0704),
    (.camRead 0, 0x0705),
    (.couplingEngage 0, 0x0706),
    (.couplingDisengage 0, 0x0707),
    (.couplingChange 0, 0x0708),
    (.pathBind 0, 0x0709),
    (.pathAppend 0, 0x070A),
    (.pathStart 0, 0x070B),
    (.pathStop 0, 0x070C),
    (.pathRelease 0, 0x070D),
    (.lineMove 0, 0x070E),
    (.lineStop 0, 0x070F),
    (.loadAll 0, 0x0801),
    (.tripClear 0, 0x0802),
    (.microstepLoad 0, 0x0803),
    (.microstepShape 0, 0x0804),
    (.microstepRead 0, 0x0805),
    (.feStart 0, 0x0901),
    (.feStop 0, 0x0902),
    (.feFaultClear 0, 0x0903),
    (.stoMapSet 0, 0x0E01),
    (.safStatusRead 0, 0x0E02),
    (.ioSnapshot 0, 0x0A01),
    (.dqWrite 0, 0x0A02),
    (.dqRelease 0, 0x0A03),
    (.taskLoad 0, 0x0D01),
    (.taskStart 0, 0x0D02),
    (.taskStop 0, 0x0D03),
    (.taskUnload 0, 0x0D04),
    (.taskMap 0, 0x0D05),
    (.taskMemRead 0, 0x0D06),
    (.memInfo 0, 0x0D07),
    (.acqArm 0, 0x0B01),
    (.acqStop 0, 0x0B02),
    (.acqForce 0, 0x0B03)] : List ((Req → Instr) × Nat)).all
      (fun x => !wellFormed (x.1 (req (x.2 + 0x40) 0 [])) && wellFormed (x.1 (req x.2 0 []))) = true := by decide +kernel

/-- A request under an opcode that is not its row's is ill formed; under its own it is well formed. -/
theorem test_requestOpcode_2 : ([
    (.acqRead 0, 0x0B04),
    (.acqCaptures 0, 0x0B05),
    (.acqGrant 0, 0x0B06),
    (.acqRevoke 0, 0x0B07),
    (.canSend 0, 0x0C01),
    (.canCancel 0, 0x0C02),
    (.canRead 0, 0x0C03),
    (.canRxAllRead 0, 0x0C04),
    (.canRecover 0, 0x0C05),
    (.timeStep 0, 0x0C20),
    (.lineRollCall 0, 0x0C21),
    (.sysReset 0, 0x010A),
    (.sysBootStore 0, 0x010B),
    (.faultClear 0, 0x0F01),
    (.faultLogRead 0, 0x0F02),
    (.groupChange 0, 0x0F03),
    (.imageWrite 0, 0x0F10),
    (.imageCheck 0, 0x0F11),
    (.firmwareSwitch 0, 0x0F12)] : List ((Req → Instr) × Nat)).all
      (fun x => !wellFormed (x.1 (req (x.2 + 0x40) 0 [])) && wellFormed (x.1 (req x.2 0 []))) = true := by decide +kernel

/-- Every field of a request header has its width. -/
theorem test_requestFields : ([
    { req 0x0101 0 [] with flow := 256 }, { req 0x0101 0 [] with seq := 2 ^ 32 }, { req 0x0101 0 [] with inst := 65536 },
    { req 0x0101 0 [] with timeout := 65536 }, { req 0x0101 0 [] with gen := 3 }] : List Req).all (fun q => !q.wf 0x0101) = true := by
  decide +kernel

/-! ### Values that the spec prints -/

/-- The bytes of Table 13.4, the check value still 0. -/
def exampleBytes : List Byte :=
  [0x4A, 0x58, 0x43, 0x50, 2, 0, 2, 0, 0x28, 0, 0, 0, 0x15, 0, 0, 0, 2, 1, 7, 0, 0, 0, 0x32, 0, 0, 0, 0, 0, 0, 0, 0, 0,
   0x38, 0x40, 0, 4, 0, 0, 0x7A, 0x44]

/-- Table 9.3: pair a of axis 7, and the bytes the text names for it. -/
theorem test_table_9_3_pair_a :
    dutyRecord (768301 / 1000000) 31250 1200 0 40 true 1 400000 = ({ kind := .pulse, dt := 40, on := 39940, off := 353660 }, false, false) ∧
    ({ kind := .pulse, dt := 40, on := 39940, off := 353660 } : EdgeRec).enc48 = 0x0A04E025657C := by decide +kernel

/-- Table 9.3: pair b, whose current lies in the band of the compensation. -/
theorem test_table_9_3_pair_b :
    (dutyRecord (404904 / 1000000) 31250 1200 0 40 true (-2 / 5) 400000).1 = { kind := .pulse, dt := 40, on := 117099, off := 276501 } := by
  decide +kernel

/-- The print mark of chapter 4: 3,600,450 + 23 × 0.4 counts, fraction 13,107. -/
theorem test_print_mark :
    (({ withPar [(pkey P.LatPosSource 0, 7)] with
        hist := [(7, [{ sNs := 31250, cycle := 1, pos := 3600473 * 65536, valid := true, subst := false },
          { sNs := 0, cycle := 0, pos := 3600450 * 65536, valid := true, subst := false }])] } : State).latValue 0
      { stamp := 12500 * 65536, rising := true, flags := 0, fixed := none, atS := false }).map (·.1) = some (3600459 * 65536 + 13107) := by
  decide +kernel

/-- R49: the check value is that of IEEE 802.3 (its value over the digits 1 to 9 is the one the standard's polynomial gives). -/
theorem test_crc32 : crc32 [0x31, 0x32, 0x33, 0x34, 0x35, 0x36, 0x37, 0x38, 0x39] = 0xCBF43926 := by decide +kernel

/-- Table 13.4: the example packet, its check value filled in by R357, joins flow 2 as the text describes it. -/
theorem test_table_13_4 :
    (match execPacketArrival 0 .usb 0 (patch exampleBytes 28 (leBytes 4 (crc32 exampleBytes))) up with
      | .next s => s.host.waiting.any fun q => q.gen == 2 && q.flow == 2 && q.seq == 21 && q.opcode == 0x0102 && q.inst == 7 &&
          q.timeout == 50 && q.body == [0x38, 0x40, 0, 4, 0, 0, 0x7A, 0x44]
      | _ => false) = true := by decide +kernel

/-- R10: least significant byte first. -/
theorem test_byte_order : leBytes 4 0x12345678 = [0x78, 0x56, 0x34, 0x12] ∧ leNat [0x78, 0x56, 0x34, 0x12] = 0x12345678 := by decide +kernel

/-- No row of the opcode table gives bits. -/
theorem test_no_words (n w : Nat) : decodeTableWord n w = none := rfl

/-! ### The premises of the statements can be met -/

theorem leNat_zeros (n : Nat) : leNat (List.replicate n (0 : Byte)) = 0 := by
  induction n with
  | zero => rfl
  | succ n ih => rw [List.replicate_succ, leNat, ih]; rfl

theorem fld_zeros (n o k : Nat) : fld (List.replicate n (0 : Byte)) o k = 0 := by
  rw [fld, slice, List.drop_replicate, List.take_replicate, leNat_zeros]

/-- A microstep block of zeros is valid. -/
theorem mstValid_zeros (n : Nat) : mstValid ([1, 0, 0, 4] ++ List.replicate n (0 : Byte)) = true := by
  have h : ∀ o k, fld ([1, 0, 0, 4] ++ List.replicate n (0 : Byte)) (o + 4) k = 0 := fun o k => by
    rw [← fld_zeros n o k]; rfl
  have h4 := h 0 12
  have hi : ∀ i, fld ([1, 0, 0, 4] ++ List.replicate n (0 : Byte)) (16 + 2 * i) 2 = 0 := fun i => by
    rw [show 16 + 2 * i = 12 + 2 * i + 4 by omega]; exact h _ _
  have h0 : fld ([1, 0, 0, 4] ++ List.replicate n (0 : Byte)) 0 2 = 1 := by rfl
  have h2 : fld ([1, 0, 0, 4] ++ List.replicate n (0 : Byte)) 2 2 = 1024 := by rfl
  simp only [Nat.zero_add] at h4
  simp only [mstValid, h0, h2, h4, hi, Bool.and_eq_true, List.all_eq_true]
  exact ⟨⟨⟨rfl, rfl⟩, rfl⟩, fun _ _ => rfl⟩

theorem wit_StepRunsTheFrontCommand :
    (∃ (c : Instr) (cs : List Instr) (s : State), (s.pending = c :: cs)) :=
  ⟨.beaconSend 0, [], { State.reset with pending := [.beaconSend 0] }, rfl⟩

theorem wit_EmptyQueueIdles :
    (∃ (s : State), (s.pending = [])) :=
  ⟨State.reset, rfl⟩

theorem wit_StepsKeepWellFormed :
    (∃ (s : State) (s' : State), (s.wf) ∧ (step s = .next s')) :=
  ⟨State.reset, State.reset, by decide +kernel, rfl⟩

theorem wit_CommandsLeaveTheQueue :
    (∃ (c : Instr) (s : State) (s' : State), (exec c s = .next s')) ∧
    (∃ (c : Instr) (cs : List Instr) (s : State) (s' : State), (s.pending = c :: cs) ∧ (step s = .next s')) :=
  ⟨⟨.beaconSend 0, State.reset, _, rfl⟩,
   ⟨.beaconSend 0, [], { State.reset with pending := [.beaconSend 0] }, _, rfl, rfl⟩⟩

theorem wit_TimeNeverRunsBack :
    (∃ (c : Instr) (s : State) (s' : State), (exec c s = .next s')) :=
  ⟨.beaconSend 0, State.reset, _, rfl⟩

theorem wit_RequestsOfTheWrongFormAreRefused :
    (∃ (c : Instr) (t op : Nat) (q : Req) (s : State), (c.request = some (t, op, q)) ∧ (s.boot.due = 0) ∧ (instOk op q = false)) ∧
    (∃ (c : Instr) (t op : Nat) (q : Req) (s : State), (c.request = some (t, op, q)) ∧ (s.boot.due = 0) ∧ (instOk op q = true) ∧ (lenOk op q = false)) ∧
    (∃ (c : Instr) (t op : Nat) (q : Req) (s : State), (c.request = some (t, op, q)) ∧ (s.boot.due = 0) ∧ (instOk op q = true) ∧ (lenOk op q = true) ∧ (s.host.broken.contains q = false) ∧ (s.boot.recovery = true) ∧ (recoveryOp op = false)) ∧
    (∃ (c : Instr) (t op : Nat) (q : Req) (s : State), (c.request = some (t, op, q)) ∧ (s.boot.due = 0) ∧ (instOk op q = true) ∧ (lenOk op q = true) ∧ (s.host.broken.contains q = true)) :=
  ⟨⟨.axisEnable 0 (req 0x0501 128 []), 0, 0x0501, (req 0x0501 128 []), up, rfl, by decide +kernel, by decide +kernel⟩,
   ⟨.axisEnable 0 (req 0x0501 127 []), 0, 0x0501, (req 0x0501 127 []), up, rfl, by decide +kernel, by decide +kernel, by decide +kernel⟩,
   ⟨.axisDisable 0 (req 0x0502 3 [255, 255, 255, 255, 0, 0, 0, 0]), 0, 0x0502, (req 0x0502 3 [255, 255, 255, 255, 0, 0, 0, 0]), { up with boot := { up.boot with recovery := true } }, rfl, by decide +kernel, by decide +kernel, by decide +kernel, by decide +kernel, by decide +kernel, by decide +kernel⟩,
   ⟨.axisDisable 0 (req 0x0502 3 [255, 255, 255, 255, 0, 0, 0, 0]), 0, 0x0502, (req 0x0502 3 [255, 255, 255, 255, 0, 0, 0, 0]), { up with host := { up.host with broken := [req 0x0502 3 [255, 255, 255, 255, 0, 0, 0, 0]] } }, rfl, by decide +kernel, by decide +kernel, by decide +kernel, by decide +kernel⟩⟩

theorem wit_DueCommitsRunAndLeave :
    (∃ (s : State), (s.ordered) ∧ (s.dueCommits ≠ [])) ∧
    (∃ (s : State), (s.dueCommits = [])) :=
  ⟨⟨{ up with par := { up.par with commits := [⟨0, 1, req 0x0502 3 []⟩] } }, by decide +kernel⟩,
   ⟨up, by decide +kernel⟩⟩

theorem wit_CommitsTakeEffect :
    (∃ (x : Taken) (s : State), (s.ordered) ∧ (x.commit.req.opcode = 0x0501) ∧ (s.rd P.AxisHoldReason x.commit.req.inst ≠ 0)) ∧
    (∃ (x : Taken) (s : State), (s.ordered) ∧ (x.commit.req.opcode = 0x0501) ∧ (s.rd P.AxisHoldReason x.commit.req.inst = 0) ∧ (s.rd P.AxisState x.commit.req.inst ≠ 2)) ∧
    (∃ (x : Taken) (s : State), (s.ordered) ∧ (x.commit.req.opcode = 0x0511) ∧ (tabSorted none s.gm = true)) ∧
    (∃ (x : Taken) (s : State), (s.ordered) ∧ (x.commit.req.opcode = 0x0512) ∧ (tabSorted none s.gm = true)) ∧
    (∃ (x : Taken) (s : State), (s.ordered) ∧ (x.commit.req.opcode = 0x0701) ∧ (tabSorted none s.vm = true) ∧ (s.rd P.VmSource x.commit.req.inst ≠ 1) ∧ (bitOf (fld x.commit.req.body 0 1) 0 = true)) ∧
    (∃ (x : Taken) (s : State), (s.ordered) ∧ (x.commit.req.opcode = 0x0702) ∧ (tabSorted none s.vm = true)) ∧
    (∃ (x : Taken) (s : State), (s.ordered) ∧ (x.commit.req.opcode = 0x0706) ∧ (tabSorted none s.cpl = true)) ∧
    (∃ (x : Taken) (s : State), (s.ordered) ∧ (x.commit.req.opcode = 0x0707) ∧ (tabSorted none s.cpl = true) ∧ ((s.cplr x.commit.req.inst).engaged = true)) ∧
    (∃ (x : Taken) (s : State), (s.ordered) ∧ (x.commit.req.opcode = 0x070B) ∧ (tabSorted none s.pg = true) ∧ ((s.pgr x.commit.req.inst).bound = true)) ∧
    (∃ (x : Taken) (s : State), (s.ordered) ∧ (x.commit.req.opcode = 0x0B01) ∧ (s.rd P.AqState x.commit.req.inst = 0) ∧ (x.commit.req.inst < 4)) ∧
    (∃ (x : Taken) (s : State), (s.ordered) ∧ (x.commit.req.opcode = 0x0E01)) ∧
    (∃ (x : Taken) (s : State), (s.ordered) ∧ (x.commit.req.opcode = 0x0205) ∧ (s.rd P.ElkRetired 0 = 0)) :=
  ⟨⟨⟨⟨0, 1, req 0x0501 3 []⟩, [], none⟩, withPar [(pkey P.AxisState 3, 1), (pkey P.AxisHoldReason 3, 1)], by decide +kernel⟩,
   ⟨⟨⟨0, 1, req 0x0501 3 []⟩, [], none⟩, up, by decide +kernel⟩,
   ⟨⟨⟨0, 1, req 0x0511 3 []⟩, [], none⟩, up, by decide +kernel⟩,
   ⟨⟨⟨0, 1, req 0x0512 3 []⟩, [], none⟩, up, by decide +kernel⟩,
   ⟨⟨⟨0, 1, req 0x0701 3 ([1] ++ List.replicate 39 0)⟩, [], none⟩, up, by decide +kernel⟩,
   ⟨⟨⟨0, 1, req 0x0702 3 [0, 0, 0, 0]⟩, [], none⟩, up, by decide +kernel⟩,
   ⟨⟨⟨0, 1, req 0x0706 3 []⟩, [], none⟩, up, by decide +kernel⟩,
   ⟨⟨⟨0, 1, req 0x0707 3 [0, 0, 0, 0]⟩, [], none⟩, { up with cpl := [(3, { CplRec.init with engaged := true })] }, by decide +kernel⟩,
   ⟨⟨⟨0, 1, req 0x070B 3 []⟩, [], none⟩, pgUp, by decide +kernel⟩,
   ⟨⟨⟨0, 1, req 0x0B01 3 []⟩, [], none⟩, up, by decide +kernel⟩,
   ⟨⟨⟨0, 1, req 0x0E01 0 (List.replicate 144 0)⟩, [], none⟩, up, by decide +kernel⟩,
   ⟨⟨⟨0, 1, req 0x0205 3 []⟩, [], none⟩, up, by decide +kernel⟩⟩

theorem wit_AxisDisableEndsAnAxis :
    (∃ (t : Nat) (q : Req) (s : State), (Served 0x0502 q s) ∧ (s.late q.body 0 = false)) ∧
    (∃ (x : Taken) (s : State), (s.ordered) ∧ (x.commit.req.opcode = 0x0502) ∧ (tabSorted none s.ax = true)) :=
  ⟨⟨0, (req 0x0502 3 [255, 255, 255, 255, 0, 0, 0, 0]), up, by decide +kernel⟩,
   ⟨⟨⟨0, 1, req 0x0502 3 []⟩, [], none⟩, withPar [(pkey P.AxisState 3, 2)], by decide +kernel⟩⟩

theorem wit_FaultLogKeepsTheNewest :
    (∃ (e : Ev) (s : State), (e.level = 2)) ∧
    (∃ (e : Ev) (s : State), (s.ordered) ∧ (e.level = 2) ∧ (s.host.log.length = 64)) ∧
    (∃ (e : Ev) (s : State), (e.level ≠ 2)) ∧
    (∃ (t : Nat) (q : Req) (s : State), (Served 0x0F02 q s) ∧ (1 ≤ fld q.body 0 1) ∧ (fld q.body 0 1 ≤ 16) ∧ (bitOf (fld q.body 1 1) 0 = false)) ∧
    (∃ (t : Nat) (q : Req) (s : State), (Served 0x0F02 q s) ∧ (1 ≤ fld q.body 0 1) ∧ (fld q.body 0 1 ≤ 16) ∧ (bitOf (fld q.body 1 1) 0 = true)) :=
  ⟨⟨{ (up.mkEvent E.commandCompleted 0 0 []) with level := 2 }, up, by decide +kernel⟩,
   ⟨{ (up.mkEvent E.commandCompleted 0 0 []) with level := 2 }, { up with host := { up.host with log := List.replicate 64 (up.mkEvent E.commandCompleted 0 0 []) } }, by decide +kernel⟩,
   ⟨{ (up.mkEvent E.commandCompleted 0 0 []) with level := 1 }, up, by decide +kernel⟩,
   ⟨0, (req 0x0F02 0 [16, 0, 0, 0]), up, by decide +kernel⟩,
   ⟨0, (req 0x0F02 0 [16, 1, 0, 0]), up, by decide +kernel⟩⟩

theorem wit_SysResetFollowsItsReply :
    (∃ (t : Nat) (q : Req) (s : State), (Served 0x010A q s) ∧ (s.boot.due = 0) ∧ (bitOf (fld q.body 0 1) 0 = false) ∧ ((∃ a, a < 128 ∧ s.rd P.AxisState a ≠ 0) ∨ s.rd P.FeState 0 ≠ 0)) ∧
    (∃ (t : Nat) (q : Req) (s : State), (Served 0x010A q s) ∧ (bitOf (fld q.body 0 1) 0 = true ∨ ((∀ a < 128, s.rd P.AxisState a = 0) ∧ s.rd P.FeState 0 = 0))) :=
  ⟨⟨0, (req 0x010A 0 [0, 0, 0, 0]), withPar [(pkey P.FeState 0, 3)], by decide +kernel, by decide +kernel, by decide +kernel, Or.inr (by decide +kernel)⟩,
   ⟨0, (req 0x010A 0 [0, 0, 0, 0]), up, by decide +kernel⟩⟩

theorem wit_ReadsReturnTheNamedCopy :
    (∃ (s : State) (r : ParamRow) (i : Nat), (r.access = .rw)) ∧
    (∃ (s : State) (r : ParamRow) (n i : Nat), (paramRow n = some r) ∧ (r.access = .rw) ∧ (tabGet s.par.shadow none (pkey r.index i) = none)) ∧
    (∃ (s : State) (r : ParamRow) (i v : Nat), (r.access = .rw) ∧ (tabSorted none s.par.shadow = true)) ∧
    (∃ (s : State) (r : ParamRow) (n i : Nat), (paramRow n = some r) ∧ (r.access = .rw) ∧ (tabSorted none s.par.shadow = true) ∧ ((loadSet.contains r.index && !s.modAtOnce i) = false)) ∧
    (∃ (s : State) (r : ParamRow) (i : Nat), (r.access ≠ .rw)) ∧
    (∃ (t : Nat) (q : Req) (s : State) (r : ParamRow), (s.boot.recovery = false) ∧ (s.host.broken.contains q = false) ∧ (paramRow (fld q.body 0 2) = some r) ∧ (hasInst r q.inst = true) ∧ (q.body.length = 4)) ∧
    (∃ (s : State) (r : ParamRow) (i : Nat), (s.ordered) ∧ (r.access = .rc)) :=
  ⟨⟨up, { index := P.LoopMode, type := .u32, access := .rw, range := .any, reset := 0, insts := [] }, 3, by decide +kernel⟩,
   ⟨up, _, P.LoopMode, 3, rfl, by decide +kernel, by decide +kernel⟩,
   ⟨up, { index := P.LoopMode, type := .u32, access := .rw, range := .any, reset := 0, insts := [] }, 3, 2, by decide +kernel⟩,
   ⟨up, _, P.LoopMode, 3, rfl, by decide +kernel, by decide +kernel, by decide +kernel⟩,
   ⟨up, { index := P.LoopStatus, type := .u32, access := .ro, range := .any, reset := 0, insts := [] }, 3, by decide +kernel⟩,
   ⟨0, (req 0x0101 0 [0, 16, 0, 0]), up, _, by decide +kernel, by decide +kernel, rfl, by decide +kernel, by decide +kernel⟩,
   ⟨up, { index := P.LoopStatus, type := .u32, access := .rc, range := .any, reset := 0, insts := [] }, 3, by decide +kernel⟩⟩

theorem wit_TimedOutRequestsAreRefused :
    (∃ (t : Nat) (f p : Nat) (q : Req) (s : State), ((s.host.waiting.filter (·.flow == f))[p]? = some q) ∧ (q.timeout ≠ 0) ∧ (expiry q ≤ (s.advance t).time.tick)) ∧
    (∃ (t : Nat) (f p : Nat) (q : Req) (s : State), ((s.host.waiting.filter (·.flow == f))[p]? = some q) ∧ (q.timeout = 0)) ∧
    (∃ (t : Nat) (f : Nat) (q : Req) (s : State), (s.host.nextStart = some q) ∧ (q.flow = f) ∧ (s.interpHalted = false) ∧ (s.host.running.length < 8) ∧ (q.timeout ≠ 0) ∧ ((s.advance t).time.tick = expiry q)) :=
  ⟨⟨1000000, 0, 0, { (req 0x0101 0 []) with timeout := 1 }, { up with host := { up.host with waiting := [{ (req 0x0101 0 []) with timeout := 1 }] } }, by decide +kernel⟩,
   ⟨1000000, 0, 0, (req 0x0101 0 []), { up with host := { up.host with waiting := [req 0x0101 0 []] } }, by decide +kernel⟩,
   ⟨1000000, 0, { (req 0x0101 0 []) with timeout := 1 }, { up with host := { up.host with waiting := [{ (req 0x0101 0 []) with timeout := 1 }] } }, by decide +kernel⟩⟩

theorem wit_AxisGroupTakesSixteen :
    (∃ (t : Nat) (q : Req) (s : State), (s.boot.recovery = false) ∧ (s.host.broken.contains q = false) ∧ (fld q.body 0 2 = P.AxisGroup) ∧ (q.inst < 128) ∧ (fld q.body 3 1 = 4) ∧ (q.body.length = 8) ∧ (fld q.body 2 1 = 0) ∧ (s.par.staged = []) ∧ (fld q.body 4 4 < 16) ∧ (s.rdShadow P.AxisGroup q.inst ≠ fld q.body 4 4) ∧ (16 ≤ ((List.range 128).filter fun a => s.rdShadow P.AxisGroup a == fld q.body 4 4).length)) ∧
    (∃ (t : Nat) (q : Req) (s : State), (s.boot.recovery = false) ∧ (s.host.broken.contains q = false) ∧ (fld q.body 0 2 = P.AxisGroup) ∧ (q.inst < 128) ∧ (fld q.body 3 1 = 4) ∧ (q.body.length = 8) ∧ (fld q.body 2 1 = 0) ∧ (s.par.staged = []) ∧ (fld q.body 4 4 = 0xFF) ∧ (s.rd P.AxisState q.inst ≠ 0)) ∧
    (∃ (t : Nat) (q : Req) (s : State), (s.boot.recovery = false) ∧ (s.host.broken.contains q = false) ∧ (fld q.body 0 2 = P.AxisGroup) ∧ (q.inst < 128) ∧ (fld q.body 3 1 = 4) ∧ (q.body.length = 8) ∧ (fld q.body 2 1 = 0) ∧ (s.par.staged = []) ∧ (15 < fld q.body 4 4) ∧ (fld q.body 4 4 ≠ 0xFF)) ∧
    (∃ (t : Nat) (q : Req) (s : State), (s.boot.recovery = false) ∧ (s.host.broken.contains q = false) ∧ (fld q.body 0 2 = P.AxisGroup) ∧ (q.inst < 128) ∧ (fld q.body 3 1 = 4) ∧ (q.body.length = 8) ∧ (fld q.body 2 1 = 0) ∧ (s.par.staged = []) ∧ (fld q.body 4 4 < 16) ∧ (s.rd P.AxisState q.inst = 0) ∧ (((List.range 128).filter fun a => s.rdShadow P.AxisGroup a == fld q.body 4 4).length < 16)) :=
  ⟨⟨0, (req 0x0102 100 (leBytes 2 P.AxisGroup ++ [0, 4, 5, 0, 0, 0])), withPar [(pkey P.AxisGroup 0, 5), (pkey P.AxisGroup 1, 5), (pkey P.AxisGroup 2, 5), (pkey P.AxisGroup 3, 5), (pkey P.AxisGroup 4, 5), (pkey P.AxisGroup 5, 5), (pkey P.AxisGroup 6, 5), (pkey P.AxisGroup 7, 5), (pkey P.AxisGroup 8, 5), (pkey P.AxisGroup 9, 5), (pkey P.AxisGroup 10, 5), (pkey P.AxisGroup 11, 5), (pkey P.AxisGroup 12, 5), (pkey P.AxisGroup 13, 5), (pkey P.AxisGroup 14, 5), (pkey P.AxisGroup 15, 5)], by decide +kernel⟩,
   ⟨0, (req 0x0102 100 (leBytes 2 P.AxisGroup ++ [0, 4, 255, 0, 0, 0])), withPar [(pkey P.AxisState 100, 1)], by decide +kernel⟩,
   ⟨0, (req 0x0102 100 (leBytes 2 P.AxisGroup ++ [0, 4, 16, 0, 0, 0])), up, by decide +kernel⟩,
   ⟨0, (req 0x0102 100 (leBytes 2 P.AxisGroup ++ [0, 4, 5, 0, 0, 0])), withPar [(pkey P.AxisGroup 0, 5), (pkey P.AxisGroup 1, 5), (pkey P.AxisGroup 2, 5), (pkey P.AxisGroup 3, 5), (pkey P.AxisGroup 4, 5), (pkey P.AxisGroup 5, 5), (pkey P.AxisGroup 6, 5), (pkey P.AxisGroup 7, 5), (pkey P.AxisGroup 8, 5), (pkey P.AxisGroup 9, 5), (pkey P.AxisGroup 10, 5), (pkey P.AxisGroup 11, 5), (pkey P.AxisGroup 12, 5), (pkey P.AxisGroup 13, 5), (pkey P.AxisGroup 14, 5)], by decide +kernel⟩⟩

theorem wit_ReadsAndPacketsLeaveTheDevice :
    (∃ (c : Instr) (s : State) (s' : State), (c.isHostSide = true) ∧ (exec c s = .next s')) ∧
    (∃ (c : Instr) (s : State) (s' : State), (c.isPacketSide = true) ∧ (exec c s = .next s')) :=
  ⟨⟨.modeCheck 0 (req 0x0207 0 []), up, _, by decide +kernel, rfl⟩,
   ⟨.hbReset 0, up, _, by decide +kernel, rfl⟩⟩

theorem wit_CommitRequestsWait :
    (∃ (c : Instr) (s : State) (s' : State), (c.isCommitRequest = true) ∧ (exec c s = .next s')) :=
  ⟨.axisDisable 0 (req 0x0502 3 [255, 255, 255, 255, 0, 0, 0, 0]), up, _, by decide +kernel, rfl⟩

theorem wit_LinkCommandsFrame :
    (∃ (c : Instr) (s : State) (s' : State), (c.isLink = true) ∧ (exec c s = .next s')) :=
  ⟨.ringDelayDisagreement 0 .a, up, _, by decide +kernel, rfl⟩

theorem wit_FeedbackAndMotionFrame :
    (∃ (c : Instr) (s : State) (s' : State), (c.isFeedback = true) ∧ (exec c s = .next s')) ∧
    (∃ (c : Instr) (s : State) (s' : State), (c.isMotion = true) ∧ (exec c s = .next s')) :=
  ⟨⟨.standstillTimeout 0 0, up, _, by decide +kernel, rfl⟩,
   ⟨.camPrefetch 0 0 0, up, _, by decide +kernel, rfl⟩⟩

theorem wit_PowerSideFrame :
    (∃ (c : Instr) (s : State) (s' : State), (c.isModulation = true) ∧ (exec c s = .next s')) ∧
    (∃ (c : Instr) (s : State) (s' : State), (c.isFrontEnd = true) ∧ (exec c s = .next s')) :=
  ⟨⟨.localDataNotReady 0 0, up, _, by decide +kernel, rfl⟩,
   ⟨.dipCleared 0, up, _, by decide +kernel, rfl⟩⟩

theorem wit_LockkeeperFrame :
    (∃ (c : Instr) (s : State) (s' : State), (c.isLockkeeper = true) ∧ (exec c s = .next s')) :=
  ⟨.srstPress 0, up, _, by decide +kernel, rfl⟩

theorem wit_FieldIoFrame :
    (∃ (c : Instr) (s : State) (s' : State), (c.isFieldIo = true) ∧ (exec c s = .next s')) :=
  ⟨.ferryUpFrame 0 0, up, _, by decide +kernel, rfl⟩

theorem wit_ProcessorAndAcquisitionFrame :
    (∃ (c : Instr) (s : State) (s' : State), (c.isProcessor = true) ∧ (exec c s = .next s')) ∧
    (∃ (c : Instr) (s : State) (s' : State), (c.isAcquisition = true) ∧ (exec c s = .next s')) :=
  ⟨⟨.patrolScrub 0, up, _, by decide +kernel, rfl⟩,
   ⟨.acqRateRestore 0 0, up, _, by decide +kernel, rfl⟩⟩

theorem wit_CanCommandsFrame :
    (∃ (c : Instr) (s : State) (s' : State), (c.isCan = true) ∧ (exec c s = .next s')) :=
  ⟨.canBusIntegration 0 0, up, _, by decide +kernel, rfl⟩

theorem wit_TimeAndLineFrame :
    (∃ (c : Instr) (s : State) (s' : State), (c.isTimeService = true) ∧ (exec c s = .next s')) ∧
    (∃ (c : Instr) (s : State) (s' : State), (c.isLine = true) ∧ (exec c s = .next s')) :=
  ⟨⟨.followUpTimeout 0, up, _, by decide +kernel, rfl⟩,
   ⟨.beaconSend 0, up, _, by decide +kernel, rfl⟩⟩

theorem wit_UpkeepFrame :
    (∃ (c : Instr) (s : State) (s' : State), (c.isUpkeep = true) ∧ (exec c s = .next s')) :=
  ⟨.sfpRemoved 0 0 false, up, _, by decide +kernel, rfl⟩

theorem wit_LinkRequestsComplete :
    (∃ (t : Nat) (q : Req) (s : State), (Served 0x0201 q s) ∧ ((s.rd P.ElkState 0 = 0 ∨ s.rd P.ElkState 0 = 8 ∨ s.rd P.ElkState 0 = 9))) ∧
    (∃ (t : Nat) (q : Req) (s : State), (Served 0x0201 q s) ∧ (s.rd P.ElkState 0 = 4) ∧ (s.link.held = true)) ∧
    (∃ (t : Nat) (q : Req) (s : State), (Served 0x0202 q s) ∧ ((s.rd P.ElkState 0 = 0 ∨ s.rd P.ElkState 0 = 8 ∨ s.rd P.ElkState 0 = 9))) ∧
    (∃ (t : Nat) (q : Req) (s : State), (Served 0x0202 q s) ∧ (s.ordered) ∧ (1 ≤ s.rd P.ElkState 0) ∧ (s.rd P.ElkState 0 ≤ 3)) ∧
    (∃ (t : Nat) (q : Req) (s : State), (Served 0x0202 q s) ∧ (4 ≤ s.rd P.ElkState 0) ∧ (s.rd P.ElkState 0 ≤ 7)) ∧
    (∃ (t : Nat) (q : Req) (s : State), (Served 0x0203 q s) ∧ (q.body.length = 512) ∧ ((s.advance t).modeCheck q.body = none) ∧ (s.rd P.ElkActiveMode 0 ≠ q.inst) ∧ ((s.link.ann.any fun a => a.mode == q.inst) = false) ∧ (s.rd P.ElkState 0 ≠ 7 ∨ modeSvc s.activeMode = none)) ∧
    (∃ (t : Nat) (q : Req) (s : State) (k : Nat), (Served 0x0203 q s) ∧ (q.body.length = 512) ∧ ((s.advance t).modeCheck q.body = none) ∧ (s.rd P.ElkActiveMode 0 ≠ q.inst) ∧ ((s.link.ann.any fun a => a.mode == q.inst) = false) ∧ (s.rd P.ElkState 0 = 7) ∧ ((modeSvc s.activeMode).isSome = true) ∧ ((modeNodes q.body)[0]? = some k)) ∧
    (∃ (t : Nat) (q : Req) (s : State), (Served 0x0207 q s) ∧ (q.body.length = 512) ∧ ((s.advance t).modeCheck q.body = none)) ∧
    (∃ (t : Nat) (q : Req) (s : State), (Served 0x0204 q s) ∧ (((s.advance t).switchTgt q.body 0).2 = false) ∧ (s.link.ann = none) ∧ (s.mode q.inst ≠ []) ∧ (s.rd P.ElkState 0 = 7)) ∧
    (∃ (t : Nat) (q : Req) (s : State), (Served 0x0205 q s) ∧ (s.rd P.ElkState 0 = 7) ∧ ((s.advance t).measuredChans.findSome? ((s.advance t).checks456 (s.advance t).activeMode (q.inst :: (List.range 64).filter s.retired) [q.inst]) = none) ∧ ((s.nodeAxes q.inst).all (fun x => s.rd P.AxisState x == 0) = true) ∧ (s.link.ann = none)) ∧
    (∃ (t : Nat) (q : Req) (s : State), (Served 0x0206 q s) ∧ ((List.range q.inst).all (fun b => !(s.retired b && ((b : Int) - 1 - s.retiredBelow b == (q.inst : Int) - 1 - s.retiredBelow q.inst))) = true) ∧ (s.rd P.ElkState 0 = 7)) :=
  ⟨⟨0, (req 0x0201 0 []), up, by decide +kernel⟩,
   ⟨0, (req 0x0201 0 []), { withPar [(pkey P.ElkState 0, 4)] with link := { LinkState.reset with held := true } }, by decide +kernel⟩,
   ⟨0, (req 0x0202 0 []), withPar [(pkey P.ElkState 0, 9)], by decide +kernel⟩,
   ⟨0, (req 0x0202 0 []), withPar [(pkey P.ElkState 0, 3)], by decide +kernel⟩,
   ⟨0, (req 0x0202 0 []), withPar [(pkey P.ElkState 0, 7)], by decide +kernel⟩,
   ⟨0, (req 0x0203 3 (List.replicate 512 0)), up, by decide +kernel⟩,
   ⟨0, (req 0x0203 3 (List.replicate 12 0 ++ [1] ++ List.replicate 499 0)), { withPar [(pkey P.ElkState 0, 7), (pkey P.ElkActiveMode 0, 0)] with link := { LinkState.reset with modes := [(0, [0, 0, 0, 0, 232, 3])] } }, 1, by decide +kernel⟩,
   ⟨0, (req 0x0207 0 (List.replicate 512 0)), up, by decide +kernel⟩,
   ⟨0, (req 0x0204 3 (List.replicate 8 0)), { withPar [(pkey P.ElkState 0, 7)] with link := { LinkState.reset with modes := [(3, [1])] } }, by decide +kernel⟩,
   ⟨0, (req 0x0205 2 []), withPar [(pkey P.ElkState 0, 7)], by decide +kernel⟩,
   ⟨0, (req 0x0206 2 []), withPar [(pkey P.ElkState 0, 7)], by decide +kernel⟩⟩

theorem wit_ColdStartPhasesAct :
    (∃ (t : Nat) (i : ColdInfo) (s : State), (s.link.stopLeft = 0) ∧ (s.rd P.ElkState 0 = 1) ∧ (s.link.foreignTick + 1000000 ≤ (s.advance t).time.tick)) ∧
    (∃ (t : Nat) (i : ColdInfo) (s : State) (a : Bool) (b : Bool), (s.link.stopLeft = 0) ∧ (s.rd P.ElkState 0 = 2) ∧ (a = (s.advance t).startsBack i.startA) ∧ (b = (s.advance t).startsBack i.startB) ∧ ((a && b) || (s.rb P.ElkAllowSingle 0 && (a || b)))) ∧
    (∃ (t : Nat) (i : ColdInfo) (s : State) (n : Nat), (s.link.stopLeft = 0) ∧ (s.rd P.ElkState 0 = 3) ∧ (s.rd P.ElkRingState 0 ≠ 3 ∨ (s.advance t).addrCount i.addrA = (s.advance t).addrCount i.addrB) ∧ ((if bitOf (s.rd P.ElkRingState 0) 0 then (s.advance t).addrCount i.addrA else (s.advance t).addrCount i.addrB) = some n) ∧ (n ≤ 63)) ∧
    (∃ (t : Nat) (i : ColdInfo) (s : State), (s.link.stopLeft = 0) ∧ (s.rd P.ElkState 0 = 4) ∧ (s.link.held = false) ∧ ((s.advance t).cellsFound i.mismatch = true) ∧ (s.rb P.ElkHoldAfterDiscover 0 = true) ∧ (s.ordered)) ∧
    (∃ (t : Nat) (i : ColdInfo) (s : State), (s.link.stopLeft = 0) ∧ (s.rd P.ElkState 0 = 4) ∧ (s.link.held = false) ∧ ((s.advance t).cellsFound i.mismatch = true) ∧ (s.rb P.ElkHoldAfterDiscover 0 = false) ∧ (s.ordered)) ∧
    (∃ (t : Nat) (i : ColdInfo) (s : State), (s.link.stopLeft = 0) ∧ (s.rd P.ElkState 0 = 5) ∧ (s.link.svc = []) ∧ (s.link.svcOut = [])) ∧
    (∃ (t : Nat) (i : ColdInfo) (s : State), (s.link.stopLeft = 0) ∧ (s.rd P.ElkState 0 = 6) ∧ ((s.advance t).cellsSynced = true)) ∧
    (∃ (t : Nat) (s : State), (s.link.stopLeft = 0) ∧ (s.ordered) ∧ (1 ≤ s.rd P.ElkState 0) ∧ (s.rd P.ElkState 0 ≤ 6) ∧ (s.link.held = false) ∧ (s.link.phaseTick + (s.advance t).phaseLimit (s.rd P.ElkState 0) ≤ (s.advance t).time.tick)) ∧
    (∃ (t : Nat) (b : List Byte) (s : State) (id : Nat), (s.ordered) ∧ (2 ≤ s.rd P.ElkState 0) ∧ (s.rd P.ElkState 0 ≤ 7) ∧ (((coldHead 1 b).or (coldHead 2 b)).or (startHead b) = some id) ∧ (id < s.rd P.SysUnitId 0)) ∧
    (∃ (t : Nat) (b : List Byte) (s : State) (id : Nat), (s.rd P.ElkState 0 = 1) ∧ (coldHead 1 b = some id) ∧ (id ≠ s.rd P.SysUnitId 0)) :=
  ⟨⟨1000000, ⟨⟨[], []⟩, ⟨[], []⟩, [], [], false, [], []⟩, withPar [(pkey P.ElkState 0, 1)], by decide +kernel⟩,
   ⟨1000000, ⟨⟨[1, 0, 0, 0, 0, 0, 0, 0, 5, 0] ++ leBytes 4 (crc32 [1, 0, 0, 0, 0, 0, 0, 0, 5, 0]), (List.range 100).map (· * 10000)⟩, ⟨[1, 0, 0, 0, 0, 0, 0, 0, 5, 0] ++ leBytes 4 (crc32 [1, 0, 0, 0, 0, 0, 0, 0, 5, 0]), (List.range 100).map (· * 10000)⟩, [], [], false, [], []⟩, withPar [(pkey P.SysUnitId 0, 5), (pkey P.ElkState 0, 2)], true, true, by decide +kernel⟩,
   ⟨0, ⟨⟨[], []⟩, ⟨[], []⟩, [[2, 0, 0, 0, 0, 0, 0, 0, 5, 63] ++ leBytes 4 (crc32 [2, 0, 0, 0, 0, 0, 0, 0, 5, 63])], [[2, 0, 0, 0, 0, 0, 0, 0, 5, 63] ++ leBytes 4 (crc32 [2, 0, 0, 0, 0, 0, 0, 0, 5, 63])], false, [], []⟩, withPar [(pkey P.SysUnitId 0, 5), (pkey P.ElkState 0, 3), (pkey P.ElkRingState 0, 3)], 63, by decide +kernel⟩,
   ⟨0, ⟨⟨[], []⟩, ⟨[], []⟩, [], [], false, [], []⟩, { withPar [(pkey P.ElkState 0, 4), (pkey P.ElkHoldAfterDiscover 0, 1)] with link := { LinkState.reset with agree := [64, 64] } }, by decide +kernel⟩,
   ⟨0, ⟨⟨[], []⟩, ⟨[], []⟩, [], [], false, [], []⟩, { withPar [(pkey P.ElkState 0, 4)] with link := { LinkState.reset with agree := [64, 64] } }, by decide +kernel⟩,
   ⟨0, ⟨⟨[], []⟩, ⟨[], []⟩, [], [], false, [], []⟩, withPar [(pkey P.ElkState 0, 5)], by decide +kernel⟩,
   ⟨0, ⟨⟨[], []⟩, ⟨[], []⟩, [], [], false, [], []⟩, withPar [(pkey P.ElkState 0, 6), (pkey P.ElkActiveMode 0, 0)], by decide +kernel⟩,
   ⟨1000000, withPar [(pkey P.ElkState 0, 3)], by decide +kernel⟩,
   ⟨0, ([1, 0, 0, 0, 0, 0, 0, 0, 4, 0] ++ leBytes 4 (crc32 [1, 0, 0, 0, 0, 0, 0, 0, 4, 0])), withPar [(pkey P.SysUnitId 0, 5), (pkey P.ElkState 0, 7)], 4, by decide +kernel⟩,
   ⟨0, ([1, 0, 0, 0, 0, 0, 0, 0, 4, 0] ++ leBytes 4 (crc32 [1, 0, 0, 0, 0, 0, 0, 0, 4, 0])), withPar [(pkey P.SysUnitId 0, 5), (pkey P.ElkState 0, 1)], 4, by decide +kernel⟩⟩

theorem wit_ServiceExchangesAct :
    (∃ (t : Nat) (ch : Channel) (tau : Int) (b : List Byte) (s : State) (x : SvcSent) (q : Req) (m : Nat) (k : Nat), (replyValid b = true) ∧ (s.link.svcOut.find? ((s.advance t).answersIn ch ⟨tau, b⟩) = some x) ∧ (fld b 3 1 = 0) ∧ (x.op = .load q m k) ∧ ((modeNodes (s.mode m)).find? (fun j => decide (k < j)) = none)) ∧
    (∃ (t : Nat) (ch : Channel) (tau : Int) (b : List Byte) (s : State) (x : SvcSent) (q : Req) (k : Nat), (replyValid b = true) ∧ (s.link.svcOut.find? ((s.advance t).answersIn ch ⟨tau, b⟩) = some x) ∧ (fld b 3 1 = 0) ∧ (x.op = .join q k 2)) ∧
    (∃ (t : Nat) (ch : Channel) (tau : Int) (b : List Byte) (s : State) (x : SvcSent) (k : Nat), (replyValid b = true) ∧ (s.link.svcOut.find? ((s.advance t).answersIn ch ⟨tau, b⟩) = some x) ∧ (fld b 3 1 = 0) ∧ (x.op = .counters k)) ∧
    (∃ (t : Nat) (ch : Channel) (tau : Int) (b : List Byte) (s : State) (x : SvcSent) (k : Nat), (replyValid b = true) ∧ (s.link.svcOut.find? ((s.advance t).answersIn ch ⟨tau, b⟩) = some x) ∧ (fld b 3 1 = 0) ∧ (x.op = .identify k)) ∧
    (∃ (t : Nat) (ch : Channel) (tau : Int) (b : List Byte) (s : State) (x : SvcSent), (replyValid b = true) ∧ (s.link.svcOut.find? ((s.advance t).answersIn ch ⟨tau, b⟩) = some x) ∧ (fld b 3 1 = 3)) ∧
    (∃ (t : Nat) (ch : Channel) (tau : Int) (b : List Byte) (s : State) (x : SvcSent) (q : Req) (m : Nat) (k : Nat), (replyValid b = true) ∧ (s.link.svcOut.find? ((s.advance t).answersIn ch ⟨tau, b⟩) = some x) ∧ (fld b 3 1 ≠ 0) ∧ (fld b 3 1 ≠ 3) ∧ (x.op = .load q m k)) ∧
    (∃ (t : Nat) (k : Nat) (s : State), (1 ≤ k) ∧ (k ≤ 63) ∧ (s.rd P.ElkState 0 = 7) ∧ (s.addressed k = true) ∧ (s.retired k = false) ∧ ((s.node k).polled = 0 ∨ 1024 ≤ cycDiff (s.node k).polled (s.time.cycle + 1))) ∧
    (∃ (t : Nat) (k : Nat) (n : Nat) (s : State), (1 ≤ k) ∧ (k + n ≤ 63)) :=
  ⟨⟨0, .a, 1840 * 65536, ([0x90, 1, 0, 0, 0, 0, 0] ++ leBytes 4 (crc32 [0x90, 1, 0, 0, 0, 0, 0])), { withPar [(pkey P.ElkState 0, 4)] with link := { LinkState.reset with svcOut := [⟨.load (req 0x0203 3 []) 3 1, 0, 0, 1840⟩] }, time := { State.reset.time with cycle := 1 } }, ⟨.load (req 0x0203 3 []) 3 1, 0, 0, 1840⟩, (req 0x0203 3 []), 3, 1, by decide +kernel⟩,
   ⟨0, .a, 1840 * 65536, ([0x90, 1, 0, 0, 0, 0, 0] ++ leBytes 4 (crc32 [0x90, 1, 0, 0, 0, 0, 0])), { withPar [(pkey P.ElkState 0, 4)] with link := { LinkState.reset with svcOut := [⟨.join (req 0x0206 1 []) 1 2, 0, 0, 1840⟩] }, time := { State.reset.time with cycle := 1 } }, ⟨.join (req 0x0206 1 []) 1 2, 0, 0, 1840⟩, (req 0x0206 1 []), 1, by decide +kernel⟩,
   ⟨0, .a, 1840 * 65536, ([0x90, 1, 0, 0, 0, 0, 8, 0, 0, 0, 5, 0, 0, 0, 6] ++ leBytes 4 (crc32 [0x90, 1, 0, 0, 0, 0, 8, 0, 0, 0, 5, 0, 0, 0, 6])), { withPar [(pkey P.ElkState 0, 4)] with link := { LinkState.reset with svcOut := [⟨.counters 1, 0, 0, 1840⟩] }, time := { State.reset.time with cycle := 1 } }, ⟨.counters 1, 0, 0, 1840⟩, 1, by decide +kernel⟩,
   ⟨0, .a, 1840 * 65536, ([0x90, 1, 0, 0, 0, 0, 8, 0, 0, 0, 5, 0, 0, 0, 6] ++ leBytes 4 (crc32 [0x90, 1, 0, 0, 0, 0, 8, 0, 0, 0, 5, 0, 0, 0, 6])), { withPar [(pkey P.ElkState 0, 4)] with link := { LinkState.reset with svcOut := [⟨.identify 1, 0, 0, 1840⟩] }, time := { State.reset.time with cycle := 1 } }, ⟨.identify 1, 0, 0, 1840⟩, 1, by decide +kernel⟩,
   ⟨0, .a, 1840 * 65536, ([0x90, 1, 0, 3, 0, 0, 0] ++ leBytes 4 (crc32 [0x90, 1, 0, 3, 0, 0, 0])), { withPar [(pkey P.ElkState 0, 4)] with link := { LinkState.reset with svcOut := [⟨.counters 1, 0, 0, 1840⟩] }, time := { State.reset.time with cycle := 1 } }, ⟨.counters 1, 0, 0, 1840⟩, by decide +kernel⟩,
   ⟨0, .a, 1840 * 65536, ([0x90, 1, 0, 2, 0, 0, 0] ++ leBytes 4 (crc32 [0x90, 1, 0, 2, 0, 0, 0])), { withPar [(pkey P.ElkState 0, 4)] with link := { LinkState.reset with svcOut := [⟨.load (req 0x0203 3 []) 3 1, 0, 0, 1840⟩] }, time := { State.reset.time with cycle := 1 } }, ⟨.load (req 0x0203 3 []) 3 1, 0, 0, 1840⟩, (req 0x0203 3 []), 3, 1, by decide +kernel⟩,
   ⟨0, 63, { withPar [(pkey P.ElkState 0, 7)] with link := { LinkState.reset with idents := [(63, [1])] } }, by decide +kernel⟩,
   ⟨0, 1, 62, up, by decide +kernel⟩⟩

theorem wit_RingEventsAct :
    (∃ (t : Nat) (ch : Channel) (s : State), (4 ≤ s.rd P.ElkState 0) ∧ (s.rd P.ElkState 0 ≤ 7) ∧ (bitOf (s.rd P.ElkRingState 0) (chNum ch) = true) ∧ (4 ≤ cycDiff (s.link.lastRet.getD (chNum ch) 0) s.time.cycle)) ∧
    (∃ (t : Nat) (ch : Channel) (s : State), (4 ≤ s.rd P.ElkState 0) ∧ (s.rd P.ElkState 0 ≤ 7) ∧ (bitOf (s.rd P.ElkRingState 0) (chNum ch) = false)) ∧
    (∃ (t : Nat) (ch : Channel) (s : State), (bitOf (s.rd P.ElkRingState 0) (chNum ch + 2) = true) ∧ (0 ≤ cycDiff (s.link.settleTo.getD (chNum ch) 0) s.time.cycle)) ∧
    (∃ (t : Nat) (ch : Channel) (s : State), (s.link.disagree.getD (chNum ch) 0 = 16)) ∧
    (∃ (t : Nat) (ch : Channel) (s : State), (s.rd P.ElkState 0 = 7) ∧ (1024 ≤ cycDiff s.link.recheckAt s.time.cycle) ∧ (((s.advance t).setLink { s.link with recheckAt := s.time.cycle }).measuredChans = [ch]) ∧ ((((s.advance t).setLink { s.link with recheckAt := s.time.cycle }).checks456 ((s.advance t).setLink { s.link with recheckAt := s.time.cycle }).activeMode ((List.range 64).filter s.retired) [] ch).isSome = true)) ∧
    (∃ (t : Nat) (s : State), (s.rd P.ElkState 0 = 7) ∧ (1024 ≤ cycDiff s.link.recheckAt s.time.cycle) ∧ (((s.advance t).setLink { s.link with recheckAt := s.time.cycle }).measuredChans.all (fun ch => (((s.advance t).setLink { s.link with recheckAt := s.time.cycle }).checks456 ((s.advance t).setLink { s.link with recheckAt := s.time.cycle }).activeMode ((List.range 64).filter s.retired) [] ch).isNone) = true)) ∧
    (∃ (t : Nat) (ch : Channel) (d : Nat) (s : State), (s.firstIdent ≠ [])) ∧
    (∃ (t : Nat) (ch : Channel) (d : Nat) (s : State), (s.firstIdent = [])) ∧
    (∃ (t : Nat) (ch : Channel) (d : Nat) (b : List Byte) (s : State) (s1 : State), ((s.advance t).returnValid ch d b = true) ∧ (s1 = ((s.advance t).setLink { s.link with
      lastRet := s.link.lastRet.set (chNum ch) s.time.cycle,
      disagree := s.link.disagree.set (chNum ch) (runOn (decide (absR (mkRat d 65536 - (fldBE b 35 2 : Nat)) > 20)) (s.link.lastRet.getD (chNum ch) 0) s.time.cycle (s.link.disagree.getD (chNum ch) 0) 17),
      agree := s.link.agree.set (chNum ch) (runOn (!decide (absR (mkRat d 65536 - (fldBE b 35 2 : Nat)) > 20)) (s.link.lastRet.getD (chNum ch) 0) s.time.cycle (s.link.agree.getD (chNum ch) 0) 64) }).wrF
        P.ElkRingDelay (chNum ch) (mkRat d 65536))) :=
  ⟨⟨0, .b, { withPar [(pkey P.ElkState 0, 7), (pkey P.ElkRingState 0, 3)] with time := { State.reset.time with cycle := 4 } }, by decide +kernel⟩,
   ⟨0, .b, withPar [(pkey P.ElkState 0, 7), (pkey P.ElkRingState 0, 1)], by decide +kernel⟩,
   ⟨0, .b, withPar [(pkey P.ElkRingState 0, 11)], by decide +kernel⟩,
   ⟨0, .a, { up with link := { LinkState.reset with disagree := [16, 0] } }, by decide +kernel⟩,
   ⟨0, .a, { withPar [(pkey P.ElkState 0, 7)] with link := { LinkState.reset with measured := 1 }, time := { State.reset.time with cycle := 1024 } }, by decide +kernel⟩,
   ⟨0, { withPar [(pkey P.ElkState 0, 7)] with time := { State.reset.time with cycle := 1024 } }, by decide +kernel⟩,
   ⟨0, .b, 65536, { up with link := { LinkState.reset with found := [(1, [1])] } }, by decide +kernel⟩,
   ⟨0, .b, 65536, up, by decide +kernel⟩,
   ⟨0, .a, 65536, ((withPar [(pkey P.SysUnitId 0, 5), (pkey P.ElkState 0, 4)] : State).cycleStart .a false), withPar [(pkey P.SysUnitId 0, 5), (pkey P.ElkState 0, 4)], _, by decide +kernel, rfl⟩⟩

theorem wit_CycleEventsAct :
    (∃ (t : Nat) (ch : Channel) (k : Nat) (tau : Int) (b : List Byte) (s : State), (1 ≤ k) ∧ (k ≤ 63) ∧ (bitOf s.mod.halted 3 = false) ∧ (4 ≤ s.rd P.ElkState 0) ∧ (s.rd P.ElkState 0 ≤ 7) ∧ (modePresent s.activeMode k = true) ∧ (s.retired k = false) ∧ ((s.advance t).slotValid ch k tau b = true) ∧ (bitOf (s.rd P.ElkRingState 0) (2 + chNum ch) = false) ∧ ((s.node k).taken ≠ s.time.cycle + 1) ∧ (tabSorted none s.link.nodes = true)) ∧
    (∃ (t : Nat) (k : Nat) (s : State), (1 ≤ k) ∧ (k ≤ 63) ∧ (s.mod.halted = 0) ∧ (s.link.stopLeft = 0) ∧ (s.rd P.ElkState 0 = 7) ∧ ((s.advance t).placeDue k = true) ∧ (s.addressed k = true) ∧ (s.retired k = false) ∧ ((s.node k).taken = s.time.cycle + 1) ∧ (tabSorted none s.link.nodes = true) ∧ ((s.nodeAxes k).all (fun x => !s.axisOn x || (s.axis x).cmdCycle == s.time.cycle + 1) = true)) ∧
    (∃ (t : Nat) (k : Nat) (s : State), (1 ≤ k) ∧ (k ≤ 63) ∧ (s.mod.halted = 0) ∧ (s.link.stopLeft = 0) ∧ (s.rd P.ElkState 0 = 7) ∧ ((s.advance t).placeDue k = true) ∧ (s.addressed k = true) ∧ (s.retired k = false) ∧ ((s.node k).taken ≠ s.time.cycle + 1) ∧ (s.nodeAxes k ≠ []) ∧ (tabSorted none s.link.nodes = true)) ∧
    (∃ (t : Nat) (k : Nat) (s : State), (1 ≤ k) ∧ (k ≤ 63) ∧ (bitOf s.mod.halted 3 = false) ∧ (0 < s.link.stopLeft) ∧ (s.rd P.ElkState 0 = 7) ∧ ((s.advance t).placeDue k = true) ∧ (s.addressed k = true) ∧ (s.retired k = false)) ∧
    (∃ (t : Nat) (s : State), (bitOf s.mod.halted 0 = false)) ∧
    (∃ (t : Nat) (s : State), (bitOf s.mod.halted 0 = false) ∧ (bitOf s.mod.halted 2 = false)) ∧
    (∃ (t : Nat) (p : Nat) (f : LocalFb) (s : State), (p < 8) ∧ (((s.advance t).portReceive (128 + p) f).1.ambig = false)) ∧
    (∃ (t : Nat) (p : Nat) (f : LocalFb) (s : State), (p < 8) ∧ (((s.advance t).portReceive (128 + p) f).1.ambig = true)) ∧
    (∃ (t : Nat) (j : Job) (s : State), (bitOf s.mod.halted 1 = false) ∧ (firstJob (s.eng.ready.filter fun j => decide (j.tick ≤ (s.advance t).time.tick)) = some j) ∧ (((s.eng.lanes.map fun l => l.filter (fun x => decide (engClock (s.advance t).time.tick < x.fin))).flatten.filter (·.fe == j.fe)).length < (if j.fe then 8 else 16))) :=
  ⟨⟨0, .a, 1, 80 * 65536, ([0x40, 1, 0, 1, 0, 7, 0, 0, 0, 0, 0, 0] ++ List.replicate 14 0 ++ leBytes 4 (crc32 ([0x40, 1, 0, 1, 0, 7, 0, 0, 0, 0, 0, 0] ++ List.replicate 14 0))), { withPar [(pkey P.ElkState 0, 7), (pkey P.ElkActiveMode 0, 0)] with link := { LinkState.reset with modes := [(0, (List.replicate 12 0 ++ [1] ++ List.replicate 499 0))], idents := [(1, [0, 0, 0, 0, 0, 1])] } }, by decide +kernel⟩,
   ⟨0, 1, { withPar [(pkey P.ElkState 0, 7), (pkey P.ElkActiveMode 0, 0)] with link := { LinkState.reset with modes := [(0, (List.replicate 12 0 ++ [1] ++ List.replicate 499 0))], nodes := [(1, { NodeRec.init with taken := 1 })], idents := [(1, [0, 0, 0, 0, 0, 1])] } }, by decide +kernel⟩,
   ⟨0, 1, { withPar [(pkey P.ElkState 0, 7), (pkey P.ElkActiveMode 0, 0), (pkey P.ElkAxisNode 7, 1)] with link := { LinkState.reset with modes := [(0, (List.replicate 12 0 ++ [1] ++ List.replicate 499 0))], idents := [(1, [0, 0, 0, 0, 0, 1])] } }, by decide +kernel⟩,
   ⟨0, 1, { withPar [(pkey P.ElkState 0, 7), (pkey P.ElkActiveMode 0, 0)] with link := { LinkState.reset with modes := [(0, (List.replicate 12 0 ++ [1] ++ List.replicate 499 0))], stopLeft := 17, idents := [(1, [0, 0, 0, 0, 0, 1])] } }, by decide +kernel⟩,
   ⟨0, up, by decide +kernel⟩,
   ⟨0, up, by decide +kernel⟩,
   ⟨0, 7, ⟨[], [0, 0, 0]⟩, up, by decide +kernel⟩,
   ⟨0, 7, ⟨[(-5000, 3)], [0, 0, 0]⟩, { withPar [(pkey P.FbType 135, 1)] with time := { State.reset.time with lastS := 10000 } }, by decide +kernel⟩,
   ⟨0, { tick := 0, fe := false, id := 3, passes := 0 }, { up with eng := { ready := [{ tick := 0, fe := false, id := 3, passes := 0 }], lanes := [[], [], [], []] } }, by decide +kernel⟩⟩

theorem wit_FeedbackAndLatchCommandsAct :
    (∃ (t : Nat) (x : Nat) (s : State), (x < 128) ∧ (s.axisOn x = true) ∧ ((s.rf P.MonFollowErrTime x * 1000000 / s.cycleNs).ceil.toNat + 1 ≤ (s.fbk x).follow)) ∧
    (∃ (t : Nat) (x : Nat) (s : State), (s.ordered) ∧ (x < 128) ∧ ((s.advance t).frozen x (s.fbk x).frz = true) ∧ (bitOf (s.rd P.FbLatched x) fbFREEZE = false)) ∧
    (∃ (t : Nat) (i : Nat) (e : HistEntry) (s : State), (s.ordered) ∧ (i < 136) ∧ ((s.fbk i).ready = true) ∧ ((s.fbk i).tRef + (s.rf P.FbZeroSpeedTime i * 1000000).ceil.toNat ≤ s.time.lastS) ∧ ((tabGet s.hist [] i).head? = some e) ∧ (e.sNs = s.time.lastS)) ∧
    (∃ (t : Nat) (x : Nat) (s : State), (x < 128) ∧ ((s.cplr x).engaged = true) ∧ (s.rd P.CplRegLatch x ≠ 0xFF) ∧ ((s.rd P.CplRegMissLimit x : Int) * s.rp P.CplRegPeriod x ≤ (s.cplr x).missed)) ∧
    (∃ (t : Nat) (u : Nat) (x : LatTrig) (p : Int) (fl : Nat) (cyc : Nat) (s : State), (u < 64) ∧ (s.ordered) ∧ ((List.range 128).all (fun x => s.rd P.CplRegLatch x != u) = true) ∧ ((s.latch u).trigs.find? (fun x => ((s.advance t).latValue u x).isSome || (s.advance t).latOld u x.stamp) = some x) ∧ ((s.latch u).caught x.stamp = true) ∧ ((s.advance t).latOld u x.stamp = false) ∧ ((s.advance t).latValue u x = some (p, fl, cyc)) ∧ ((bitOf fl 7 || (s.advance t).latWindow u x.stamp p) = true) ∧ (s.rd P.LatMode u = 1) ∧ ((s.latch u).fifo.length < 8)) ∧
    (∃ (t : Nat) (u : Nat) (x : LatTrig) (p : Int) (fl : Nat) (cyc : Nat) (s : State), (u < 64) ∧ (s.ordered) ∧ ((List.range 128).all (fun x => s.rd P.CplRegLatch x != u) = true) ∧ ((s.latch u).trigs.find? (fun x => ((s.advance t).latValue u x).isSome || (s.advance t).latOld u x.stamp) = some x) ∧ ((s.latch u).caught x.stamp = true) ∧ ((s.advance t).latOld u x.stamp = false) ∧ ((s.advance t).latValue u x = some (p, fl, cyc)) ∧ ((bitOf fl 7 || (s.advance t).latWindow u x.stamp p) = true) ∧ (s.rd P.LatMode u = 0) ∧ ((s.latch u).fifo.length < 8)) ∧
    (∃ (t : Nat) (u : Nat) (x : LatTrig) (p : Int) (fl : Nat) (cyc : Nat) (s : State), (u < 64) ∧ (s.ordered) ∧ ((List.range 128).all (fun x => s.rd P.CplRegLatch x != u) = true) ∧ ((s.latch u).trigs.find? (fun x => ((s.advance t).latValue u x).isSome || (s.advance t).latOld u x.stamp) = some x) ∧ ((s.latch u).caught x.stamp = true) ∧ ((s.advance t).latOld u x.stamp = false) ∧ ((s.advance t).latValue u x = some (p, fl, cyc)) ∧ ((bitOf fl 7 || (s.advance t).latWindow u x.stamp p) = true) ∧ (s.rd P.LatMode u = 1) ∧ (8 ≤ (s.latch u).fifo.length)) ∧
    (∃ (t : Nat) (u : Nat) (x : LatTrig) (p : Int) (fl : Nat) (cyc : Nat) (s : State), (u < 64) ∧ ((List.range 128).all (fun x => s.rd P.CplRegLatch x != u) = true) ∧ ((s.latch u).trigs.find? (fun x => ((s.advance t).latValue u x).isSome || (s.advance t).latOld u x.stamp) = some x) ∧ ((s.latch u).caught x.stamp = true) ∧ ((s.advance t).latOld u x.stamp = false) ∧ ((s.advance t).latValue u x = some (p, fl, cyc)) ∧ (bitOf fl 7 = false) ∧ ((s.advance t).latWindow u x.stamp p = false)) ∧
    (∃ (t : Nat) (u : Nat) (x : LatTrig) (s : State), (u < 64) ∧ ((List.range 128).all (fun x => s.rd P.CplRegLatch x != u) = true) ∧ ((s.latch u).trigs.find? (fun x => ((s.advance t).latValue u x).isSome || (s.advance t).latOld u x.stamp) = some x) ∧ ((s.latch u).caught x.stamp = true) ∧ ((s.advance t).latOld u x.stamp = true)) ∧
    (∃ (t : Nat) (u : Nat) (s : State), (u < 64) ∧ ((List.range 128).any (fun x => s.rd P.CplRegLatch x == u) = true) ∧ (tabSorted none s.lat = true)) ∧
    (∃ (t : Nat) (q : Req) (s : State), (Served 0x0401 q s) ∧ (1 ≤ fld q.body 0 1) ∧ (fld q.body 0 1 ≤ 8) ∧ ((List.range 128).all (fun x => s.rd P.CplRegLatch x != q.inst) = true)) ∧
    (∃ (t : Nat) (q : Req) (s : State), (Served 0x0402 q s)) :=
  ⟨⟨0, 5, { withPar [(pkey P.AxisState 5, 2)] with fb := [(5, { FbRec.init with follow := 1000000 })] }, by decide +kernel⟩,
   ⟨0, 5, { withPar [(pkey P.AxisState 5, 2)] with fb := [(5, { FbRec.init with frz := 1000000 })] }, by decide +kernel⟩,
   ⟨0, 135, { cycle := 1, sNs := 1000000000, pos := 0, valid := true, subst := false }, { up with fb := [(135, { FbRec.init with ready := true })], hist := [(135, [{ cycle := 1, sNs := 1000000000, pos := 0, valid := true, subst := false }])], time := { State.reset.time with lastS := 1000000000 } }, by decide +kernel⟩,
   ⟨0, 5, { withPar [(pkey P.CplRegLatch 5, 3), (pkey P.CplRegMissLimit 5, 0)] with cpl := [(5, { CplRec.init with engaged := true })] }, by decide +kernel⟩,
   ⟨0, 5, { stamp := 0, rising := true, flags := 16, fixed := none, atS := true }, 7, 24, 0, { up with lat := [(5, { LatRec.init with armed := true, trigs := [{ stamp := 0, rising := true, flags := 16, fixed := none, atS := true }], fifo := List.replicate 0 [] })], hist := [(0, [{ cycle := 0, sNs := 0, pos := 7, valid := true, subst := false }])], par := { up.par with active := [(pkey P.LatMode 5, 1)] } }, by decide +kernel⟩,
   ⟨0, 5, { stamp := 0, rising := true, flags := 16, fixed := none, atS := true }, 7, 24, 0, { up with lat := [(5, { LatRec.init with armed := true, trigs := [{ stamp := 0, rising := true, flags := 16, fixed := none, atS := true }], fifo := List.replicate 0 [] })], hist := [(0, [{ cycle := 0, sNs := 0, pos := 7, valid := true, subst := false }])], par := { up.par with active := [(pkey P.LatMode 5, 0)] } }, by decide +kernel⟩,
   ⟨0, 5, { stamp := 0, rising := true, flags := 16, fixed := none, atS := true }, 7, 24, 0, { up with lat := [(5, { LatRec.init with armed := true, trigs := [{ stamp := 0, rising := true, flags := 16, fixed := none, atS := true }], fifo := List.replicate 8 [] })], hist := [(0, [{ cycle := 0, sNs := 0, pos := 7, valid := true, subst := false }])], par := { up.par with active := [(pkey P.LatMode 5, 1)] } }, by decide +kernel⟩,
   ⟨0, 5, { stamp := 0, rising := true, flags := 16, fixed := none, atS := true }, 7, 24, 0, { up with lat := [(5, { LatRec.init with armed := true, trigs := [{ stamp := 0, rising := true, flags := 16, fixed := none, atS := true }], fifo := List.replicate 0 [] })], hist := [(0, [{ cycle := 0, sNs := 0, pos := 7, valid := true, subst := false }])], par := { up.par with active := [(pkey P.LatMode 5, 1), (pkey P.LatWindowEnable 5, 1)] } }, by decide +kernel⟩,
   ⟨0, 5, { stamp := 0, rising := true, flags := 16, fixed := none, atS := true }, { { up with lat := [(5, { LatRec.init with armed := true, trigs := [{ stamp := 0, rising := true, flags := 16, fixed := none, atS := true }], fifo := List.replicate 0 [] })], hist := [(0, [{ cycle := 0, sNs := 0, pos := 7, valid := true, subst := false }])], par := { up.par with active := [(pkey P.LatMode 5, 1)] } } with time := { State.reset.time with lastS := 10 ^ 12 } }, by decide +kernel⟩,
   ⟨0, 5, { up with lat := [(5, { LatRec.init with armed := true, trigs := [{ stamp := 0, rising := true, flags := 16, fixed := none, atS := true }], fifo := List.replicate 0 [] })], hist := [(0, [{ cycle := 0, sNs := 0, pos := 7, valid := true, subst := false }])], par := { up.par with active := [(pkey P.LatMode 5, 1), (pkey P.CplRegLatch 0, 5)] } }, by decide +kernel⟩,
   ⟨0, (req 0x0401 63 [8, 0, 0, 0]), up, by decide +kernel⟩,
   ⟨0, (req 0x0402 63 []), up, by decide +kernel⟩⟩

theorem wit_AxisAndGainMapCommandsAct :
    (∃ (t : Nat) (q : Req) (s : State), (Served 0x0501 q s) ∧ ((s.advance t).late q.body 0 = false) ∧ ((s.rd P.LoopMotorType q.inst ≠ 0 → s.ident (s.axisNode q.inst) ≠ [] → s.axisPairs q.inst = motorPairs (s.rd P.LoopMotorType q.inst))) ∧ (s.rd P.AxisHoldReason q.inst = 0) ∧ (s.notReady q.inst = 0) ∧ (s.rd P.ElkState 0 = 7)) ∧
    (∃ (t : Nat) (q : Req) (s : State), (Served 0x0502 q s) ∧ ((s.advance t).late q.body 0 = false)) ∧
    (∃ (t : Nat) (x : Nat) (s : State), (x < 128) ∧ (s.axisRuns x = true) ∧ (s.effMode x = 4) ∧ ((s.axis x).vsp = 0) ∧ (s.rf P.StepHoldDelay x * 1000000 ≤ (s.axis x).stepTicks)) ∧
    (∃ (t : Nat) (q : Req) (s : State), (Served 0x0510 q s) ∧ (mapCheck q.body = 0) ∧ (s.hasCommit 0x0511 q.inst = false) ∧ (s.axisStage q.inst = none)) ∧
    (∃ (t : Nat) (q : Req) (s : State) (g : Staged), (Served 0x0510 q s) ∧ (mapCheck q.body = 0) ∧ (s.hasCommit 0x0511 q.inst = false) ∧ (s.axisStage q.inst = some g) ∧ (g.pending = none)) ∧
    (∃ (t : Nat) (q : Req) (s : State), (Served 0x0511 q s) ∧ ((s.advance t).late q.body 0 = false) ∧ (s.hasCommit 0x0511 q.inst = false) ∧ (((s.axisStage q.inst).all fun g => g.pending.isNone || !g.keys.contains (mapKey q.inst)) = true) ∧ ((s.gmap q.inst).loaded = true)) ∧
    (∃ (t : Nat) (q : Req) (s : State), (Served 0x0512 q s) ∧ ((s.advance t).late q.body 0 = false)) ∧
    (∃ (t : Nat) (q : Req) (s : State), (Served 0x0513 q s)) :=
  ⟨⟨0, (req 0x0501 7 (List.replicate 8 0)), { withPar [(pkey P.ElkState 0, 7), (pkey P.ElkActiveMode 0, 0), (pkey P.ElkAxisNode 7, 1), (pkey P.LoopMode 7, 4), (pkey P.LoopMotorType 7, 1)] with link := { LinkState.reset with modes := [(0, (List.replicate 12 0 ++ [1] ++ List.replicate 499 0))], idents := [(1, [0, 0, 0, 0, 0, 1, 0, 0, 0, 3, 127, 127, 255, 255, 127, 127, 255, 255, 0, 0, 0, 0, 0, 0, 0, 1])] } }, by decide +kernel⟩,
   ⟨0, (req 0x0502 127 (List.replicate 8 0)), up, by decide +kernel⟩,
   ⟨0, 7, { withPar [(pkey P.LoopMode 7, 4), (pkey P.AxisState 7, 2)] with ax := [(7, { AxisRec.init with stepTicks := 10 ^ 12 })] }, by decide +kernel⟩,
   ⟨0, (req 0x0510 7 gmBody), up, by decide +kernel⟩,
   ⟨0, (req 0x0510 7 gmBody), { up with par := { up.par with staged := [⟨0, 7, 0, [], none⟩] } }, ⟨0, 7, 0, [], none⟩, by decide +kernel⟩,
   ⟨0, (req 0x0511 7 (List.replicate 8 0)), { up with gm := [(7, { GmRec.init with loaded := true })] }, by decide +kernel⟩,
   ⟨0, (req 0x0512 7 (List.replicate 8 0)), up, by decide +kernel⟩,
   ⟨0, (req 0x0513 7 [1, 0, 0, 0]), up, by decide +kernel⟩⟩

theorem wit_MotionRequestsComplete :
    (∃ (t : Nat) (q : Req) (s : State), (Served 0x0601 q s) ∧ ((s.advance t).limsBad q.inst (moveOwn q.body 8) = false) ∧ ((s.advance t).beyond q.inst (fldI q.body 0 8) = false) ∧ ((s.advance t).late q.body 28 = false) ∧ (s.axisRuns q.inst = true) ∧ (s.queueRuns q.inst = false) ∧ (s.rd P.TrjSource q.inst = 0)) ∧
    (∃ (t : Nat) (q : Req) (s : State), (Served 0x0602 q s) ∧ ((s.advance t).limsBad q.inst (moveOwn q.body 8) = false) ∧ ((s.advance t).beyond q.inst (s.rp P.TrjTarget q.inst + fldI q.body 0 8) = false) ∧ ((s.advance t).late q.body 28 = false) ∧ (s.axisRuns q.inst = true) ∧ (s.queueRuns q.inst = false) ∧ (s.rd P.TrjSource q.inst = 0)) ∧
    (∃ (t : Nat) (q : Req) (s : State), (Served 0x0603 q s) ∧ (f32Finite (fld q.body 0 4) = true) ∧ ((s.advance t).limsBad q.inst (0 :: (moveOwn q.body 0).tail) = false) ∧ ((s.advance t).late q.body 16 = false) ∧ (s.axisRuns q.inst = true) ∧ (s.queueRuns q.inst = false) ∧ (s.rd P.TrjSource q.inst = 0)) ∧
    (∃ (t : Nat) (q : Req) (s : State), (Served 0x0604 q s) ∧ ((s.advance t).late q.body 4 = false) ∧ (s.axisRuns q.inst = true)) ∧
    (∃ (t : Nat) (q : Req) (s : State), (Served 0x0605 q s) ∧ (((s.rd P.HomeMethod q.inst = 1 ∨ s.rd P.HomeMethod q.inst = 3) → s.rd P.FbType q.inst = 1)) ∧ (((s.rd P.HomeMethod q.inst = 2 ∨ s.rd P.HomeMethod q.inst = 3) → (s.advance t).latchUses (s.rd P.HomeInput q.inst) (s.rd P.HomeEdge q.inst) = false)) ∧ ((s.advance t).late q.body 0 = false) ∧ (s.axisRuns q.inst = true) ∧ (s.queueRuns q.inst = false) ∧ (s.rd P.TrjSource q.inst = 0)) ∧
    (∃ (t : Nat) (q : Req) (s : State), (Served 0x0606 q s) ∧ (f32Finite (fld q.body 20 4) = true) ∧ (0 ≤ f32ToRat (fld q.body 20 4)) ∧ ((s.advance t).limsBad q.inst (moveOwn q.body 24) = false) ∧ ((s.advance t).beyond q.inst (fldI q.body 0 8) = false) ∧ ((s.advance t).beyond q.inst (fldI q.body 8 8) = false) ∧ ((s.advance t).late q.body 40 = false) ∧ (s.axisRuns q.inst = true) ∧ (s.queueRuns q.inst = false) ∧ (s.rd P.TrjSource q.inst = 0)) ∧
    (∃ (t : Nat) (q : Req) (s : State), (Served 0x0607 q s) ∧ ((s.advance t).late q.body 0 = false) ∧ (s.rd P.MonVerdict q.inst ≠ 1) ∧ (s.tBit q.inst tRESUMABLE = true) ∧ (s.axisRuns q.inst = true) ∧ (s.queueRuns q.inst = false) ∧ (s.rd P.TrjSource q.inst = 0)) ∧
    (∃ (t : Nat) (q : Req) (s : State), (Served 0x0609 q s) ∧ ((s.advance t).late q.body 0 = false) ∧ (s.axisRuns q.inst = true) ∧ (s.queueRuns q.inst = false) ∧ (s.rd P.TrjSource q.inst = 0)) ∧
    (∃ (t : Nat) (q : Req) (s : State) (n : Nat) (es : List QEntry), (Served 0x0608 q s) ∧ (n = fld q.body 0 1) ∧ (1 ≤ n) ∧ (n ≤ 16) ∧ (q.body.length = 4 + 32 * n) ∧ (es = (List.range n).map (fun i => { bytes := slice q.body (4 + 32 * i) 32, avail := (s.advance t).nextTarget })) ∧ (es.all (fun e => f32Finite (fld e.bytes 24 4) && decide (0 ≤ f32ToRat (fld e.bytes 24 4))) = true) ∧ (es.all (fun e => !(s.advance t).limsBad q.inst (qOwn e)) = true) ∧ ((s.advance t).entriesBeyond q.inst ((s.advance t).queueEnd q.inst) es = false) ∧ ((s.traj q.inst).fill + n ≤ s.rd P.TrjQueueDepth q.inst) ∧ ((s.traj q.inst).spill = [])) ∧
    (∃ (t : Nat) (q : Req) (s : State) (n : Nat) (es : List QEntry), (Served 0x0608 q s) ∧ (n = fld q.body 0 1) ∧ (1 ≤ n) ∧ (n ≤ 16) ∧ (q.body.length = 4 + 32 * n) ∧ (es = (List.range n).map (fun i => { bytes := slice q.body (4 + 32 * i) 32, avail := (s.advance t).nextTarget })) ∧ (es.all (fun e => f32Finite (fld e.bytes 24 4) && decide (0 ≤ f32ToRat (fld e.bytes 24 4))) = true) ∧ (es.all (fun e => !(s.advance t).limsBad q.inst (qOwn e)) = true) ∧ ((s.advance t).entriesBeyond q.inst ((s.advance t).queueEnd q.inst) es = false) ∧ ((s.traj q.inst).fill + n ≤ s.rd P.TrjQueueDepth q.inst) ∧ ((s.traj q.inst).spill ≠ [])) ∧
    (∃ (t : Nat) (q : Req) (s : State), (Served 0x060A q s) ∧ (s.queueRuns q.inst = false) ∧ ((s.traj q.inst).res.isSome = true)) ∧
    (∃ (t : Nat) (q : Req) (s : State), (Served 0x060A q s) ∧ (s.queueRuns q.inst = false) ∧ ((s.traj q.inst).res = none)) ∧
    (∃ (t : Nat) (x : Nat) (s : State), (x < 128) ∧ (bitOf s.boot.offHalt 5 = false) ∧ ((s.traj x).spill ≠ [])) ∧
    (∃ (t : Nat) (g : Nat) (s : State), (g < 16) ∧ (bitOf s.boot.offHalt 5 = false) ∧ ((s.pgr g).spill ≠ [])) ∧
    (∃ (t : Nat) (x : Nat) (s : State), (x < 128) ∧ (bitOf s.boot.offHalt 5 = false) ∧ ((s.traj x).spill ≠ [])) ∧
    (∃ (t : Nat) (x : Nat) (s : State), (x < 128) ∧ ((s.traj x).task = .home) ∧ (0 < (s.traj x).hPhase) ∧ ((((s.traj x).hPhase ≤ 2 ∧ s.rf P.HomeMaxDistance x * 65536 ≤ absR (((s.advance t).axPos x - (s.traj x).hStart : Int) : Rat)) ∨ s.tBit x tATLIMIT = true ∨
      bitOf (s.rd P.FbState x) fbLIMPOS = true ∨ bitOf (s.rd P.FbState x) fbLIMNEG = true ∨ s.axisRuns x = false))) :=
  ⟨⟨0, (req 0x0601 7 (List.replicate 36 0)), withPar [(pkey P.AxisState 7, 2)], by decide +kernel⟩,
   ⟨0, (req 0x0602 7 (List.replicate 36 0)), withPar [(pkey P.AxisState 7, 2)], by decide +kernel⟩,
   ⟨0, (req 0x0603 7 (List.replicate 24 0)), withPar [(pkey P.AxisState 7, 2)], by decide +kernel⟩,
   ⟨0, (req 0x0604 7 (List.replicate 12 0)), withPar [(pkey P.AxisState 7, 2)], by decide +kernel⟩,
   ⟨0, (req 0x0605 7 (List.replicate 8 0)), withPar [(pkey P.AxisState 7, 2)], by decide +kernel⟩,
   ⟨0, (req 0x0606 7 (List.replicate 48 0)), withPar [(pkey P.AxisState 7, 2)], by decide +kernel⟩,
   ⟨0, (req 0x0607 7 (List.replicate 8 0)), withPar [(pkey P.AxisState 7, 2), (pkey P.TrjState 7, 2 ^ tRESUMABLE)], by decide +kernel⟩,
   ⟨0, (req 0x0609 7 (List.replicate 8 0)), withPar [(pkey P.AxisState 7, 2)], by decide +kernel⟩,
   ⟨0, (req 0x0608 7 ([1, 0, 0, 0] ++ (List.replicate 32 0))), up, 1, [{ bytes := (List.replicate 32 0), avail := 2 }], by decide +kernel⟩,
   ⟨0, (req 0x0608 7 ([1, 0, 0, 0] ++ (List.replicate 32 0))), { withPar [(pkey P.TrjQueueDepth 7, 64)] with trj := [(7, { TrjRec.init with spill := [{ bytes := [], avail := 0 }] })] }, 1, [{ bytes := (List.replicate 32 0), avail := 2 }], by decide +kernel⟩,
   ⟨0, (req 0x060A 7 []), { up with trj := [(7, { TrjRec.init with res := some (0, [], 0) })] }, by decide +kernel⟩,
   ⟨0, (req 0x060A 7 []), up, by decide +kernel⟩,
   ⟨0, 7, { up with trj := [(7, { TrjRec.init with spill := [{ bytes := [], avail := 0 }] })] }, by decide +kernel⟩,
   ⟨0, 3, { up with pg := [(3, { PgRec.init with spill := [{ bytes := [], start := [], avail := 0, len := 0, table := [] }] })] }, by decide +kernel⟩,
   ⟨0, 7, { up with trj := [(7, { TrjRec.init with spill := [{ bytes := [], avail := 0 }] })] }, by decide +kernel⟩,
   ⟨0, 7, { up with trj := [(7, { TrjRec.init with task := .home, hPhase := 1 })] }, by decide +kernel⟩⟩

theorem wit_MastersAndLineCommandsAct :
    (∃ (t : Nat) (q : Req) (s : State), (Served 0x0701 q s) ∧ (ownBad (moveOwn q.body 12) ((s.advance t).vmLims q.inst) = false) ∧ (s.rd P.VmSource q.inst ≠ 2) ∧ ((s.advance t).late q.body 28 = false)) ∧
    (∃ (t : Nat) (q : Req) (s : State), (Served 0x0702 q s) ∧ (s.rd P.VmSource q.inst ≠ 2) ∧ ((s.advance t).late q.body 4 = false)) ∧
    (∃ (t : Nat) (q : Req) (s : State), (Served 0x070E q s) ∧ (f32Finite (fld q.body 0 4) = true) ∧ (ownBad [0, fld q.body 4 4, fld q.body 8 4, fld q.body 12 4] (match s.lineVm with | some m => s.vmLims m | none => [0x7F7FFFFF, 0x7F7FFFFF, 0x7F7FFFFF, 0x7F7FFFFF]) = false) ∧ (s.lineOwner = true) ∧ (s.line.cmds.length < 4)) ∧
    (∃ (t : Nat) (q : Req) (s : State), (Served 0x070F q s) ∧ (s.lineOwner = true) ∧ (s.line.cmds.length < 4)) ∧
    (∃ (t : Nat) (s : State) (s2 : State) (s3 : State), (s.rb P.LineEnable 0 = true) ∧ (s.pr.restart = false) ∧ ((s.advance t).lineFrameDue = true) ∧ (s2 = ((s.advance t).setLine { s.line with sent := (s.advance t).time.lt / ((s.advance t).linePeriod * 2 ^ 24) + 1 }).wr P.LineDemand 0 ((s.advance t).setLine { s.line with sent := (s.advance t).time.lt / ((s.advance t).linePeriod * 2 ^ 24) + 1 }).lineDem) ∧ ((s3 = if s2.lineOwner && decide (f32ToRat s2.lineWant ≠ f32ToRat s2.lineAsked) && decide (s2.line.cmds.length < 4) then (s2.lineIssue s2.lineNs 2 s2.lineWant [0, 0, 0] none).2 else s2))) ∧
    (∃ (t : Nat) (b : List Byte) (s : State), (100 ≤ b.length) ∧ (fld b 0 2 = 1) ∧ (fld b 88 1 ≤ 4) ∧ (b.length = 100 + 32 * fld b 88 1) ∧ (fld b (b.length - 4) 4 = crc32 (b.take (b.length - 4))) ∧ (fld b 2 1 ≠ s.rd P.LineAddress 0) ∧ (s.rb P.LineEnable 0 = true) ∧ (bitOf (fld b 3 1) 0 = false)) ∧
    (∃ (t : Nat) (b : List Byte) (s : State), (100 ≤ b.length) ∧ (fld b 0 2 = 1) ∧ (fld b 88 1 ≤ 4) ∧ (b.length = 100 + 32 * fld b 88 1) ∧ (fld b (b.length - 4) 4 = crc32 (b.take (b.length - 4))) ∧ (fld b 2 1 ≠ s.rd P.LineAddress 0) ∧ (s.rb P.LineEnable 0 = false) ∧ (bitOf (fld b 3 1) 0 = true)) ∧
    (∃ (t : Nat) (b : List Byte) (s : State), (100 ≤ b.length) ∧ (fld b 0 2 = 1) ∧ (fld b 88 1 ≤ 4) ∧ (b.length = 100 + 32 * fld b 88 1) ∧ (fld b (b.length - 4) 4 = crc32 (b.take (b.length - 4))) ∧ (fld b 2 1 ≠ s.rd P.LineAddress 0) ∧ (s.rb P.LineEnable 0 = true) ∧ (bitOf (fld b 3 1) 0 = true) ∧ (s.lineOwner = false)) ∧
    (∃ (t : Nat) (s : State), (s.ordered) ∧ ((s.rd P.LineState 0 = 1 ∨ s.rd P.LineState 0 = 2)) ∧ (roundHE (s.rf P.LineTimeout 0 * 1000000) ≤ ((s.advance t).time.tick : Int) - (if s.line.heard = 0 then s.line.on_ else s.line.heard - 1))) :=
  ⟨⟨0, (req 0x0701 3 (List.replicate 36 0)), up, by decide +kernel⟩,
   ⟨0, (req 0x0702 3 (List.replicate 12 0)), up, by decide +kernel⟩,
   ⟨0, (req 0x070E 0 (List.replicate 16 0)), withPar [(pkey P.LineEnable 0, 1), (pkey P.LineAddress 0, 1)], by decide +kernel⟩,
   ⟨0, (req 0x070F 0 []), withPar [(pkey P.LineEnable 0, 1), (pkey P.LineAddress 0, 1)], by decide +kernel⟩,
   ⟨0, withPar [(pkey P.LineEnable 0, 1), (pkey P.NtIncrement 0, 5), (pkey P.LineAddress 0, 2)], _, _, by decide +kernel, by decide +kernel, by decide +kernel, rfl, rfl⟩,
   ⟨0, (([1, 0, 3] ++ List.replicate 93 0) ++ leBytes 4 (crc32 ([1, 0, 3] ++ List.replicate 93 0))), withPar [(pkey P.LineEnable 0, 1), (pkey P.LineAddress 0, 2)], by decide +kernel⟩,
   ⟨0, (([1, 0, 3, 1] ++ List.replicate 92 0) ++ leBytes 4 (crc32 ([1, 0, 3, 1] ++ List.replicate 92 0))), withPar [(pkey P.LineAddress 0, 2)], by decide +kernel⟩,
   ⟨0, (([1, 0, 3, 1] ++ List.replicate 92 0) ++ leBytes 4 (crc32 ([1, 0, 3, 1] ++ List.replicate 92 0))), withPar [(pkey P.LineEnable 0, 1), (pkey P.LineAddress 0, 2)], by decide +kernel⟩,
   ⟨10 ^ 12, withPar [(pkey P.LineState 0, 1)], by decide +kernel⟩⟩

theorem wit_CouplingCamAndPathCommandsAct :
    (∃ (t : Nat) (q : Req) (s : State), (Served 0x0706 q s) ∧ ((s.advance t).cplBlockBad q.body 0 = false) ∧ (engBad q.body 40 = false) ∧ (fld q.body 40 1 ≠ 1) ∧ ((s.advance t).cplLocked q.inst = false) ∧ ((s.advance t).late q.body 56 = false) ∧ (s.queueRuns q.inst = false) ∧ ((s.advance t).coupled q.inst = false) ∧ ((s.cplr q.inst).pend = none)) ∧
    (∃ (t : Nat) (q : Req) (s : State), (Served 0x0706 q s) ∧ (s.ordered) ∧ ((s.advance t).cplBlockBad q.body 0 = false) ∧ (engBad q.body 40 = false) ∧ (fld q.body 40 1 = 1) ∧ ((s.advance t).cplLocked q.inst = false) ∧ ((s.advance t).swLate (fld q.body 1 1) q.body 40 = false) ∧ (s.queueRuns q.inst = false) ∧ ((s.advance t).coupled q.inst = false) ∧ ((s.cplr q.inst).pend = none) ∧ (tabSorted none s.cpl = true)) ∧
    (∃ (t : Nat) (q : Req) (s : State), (Served 0x0707 q s) ∧ (fld q.body 0 1 ≠ 1) ∧ (engBad q.body 0 = false) ∧ ((s.advance t).late q.body 16 = false) ∧ ((s.cplr q.inst).engaged = true)) ∧
    (∃ (t : Nat) (q : Req) (s : State), (Served 0x0707 q s) ∧ (s.ordered) ∧ (fld q.body 0 1 = 1) ∧ (engBad q.body 0 = false) ∧ ((s.advance t).swLate (s.rd P.CplMaster q.inst) q.body 0 = false) ∧ ((s.cplr q.inst).engaged = true) ∧ ((s.cplr q.inst).pend = none) ∧ (tabSorted none s.cpl = true)) ∧
    (∃ (t : Nat) (q : Req) (s : State), (Served 0x0708 q s) ∧ (s.ordered) ∧ ((if s.par.staged.any (fun g => g.scope == 0 && g.inst == q.inst) then none else s.par.staged.find? fun g => g.scope == 1 && g.inst == s.rd P.AxisGroup q.inst) = none) ∧ ((s.advance t).cplBlockBad q.body 0 = false) ∧ (engBad q.body 40 = false) ∧ (fld q.body 40 1 = 1) ∧ ((s.advance t).cplLocked q.inst = false) ∧ ((s.advance t).swLate (s.rd P.CplMaster q.inst) q.body 40 = false) ∧ ((s.cplr q.inst).engaged = true) ∧ ((s.cplr q.inst).pend = none) ∧ (tabSorted none s.cpl = true)) ∧
    (∃ (t : Nat) (q : Req) (s : State) (g : Staged), (Served 0x0708 q s) ∧ (s.par.staged.any (fun g => g.scope == 0 && g.inst == q.inst) = false) ∧ (s.par.staged.find? (fun g => g.scope == 1 && g.inst == s.rd P.AxisGroup q.inst) = some g) ∧ (g.pending = none) ∧ ((s.advance t).cplBlockBad q.body 0 = false) ∧ (fld q.body 40 1 = 1) ∧ ((s.cplr q.inst).engaged = true) ∧ ((s.cplr q.inst).pend = none)) ∧
    (∃ (t : Nat) (x : Nat) (p : CplPend) (s : State), (x < 128) ∧ ((s.cplr x).pend = some p) ∧ (p.lapse ≤ (s.advance t).time.tick) ∧ (tabSorted none s.cpl = true)) ∧
    (∃ (t : Nat) (q : Req) (s : State), (Served 0x0703 q s) ∧ (camCheck q.body = 0) ∧ ((s.advance t).camUsed q.inst = false) ∧ (((s.cams.filter (fun e => e.1 ≠ q.inst)).map fun e => camUnits e.2).sum + camUnits q.body ≤ (s.advance t).camSize) ∧ (s.ordered) ∧ (tabSorted none s.cams = true)) ∧
    (∃ (t : Nat) (q : Req) (s : State), (Served 0x0704 q s) ∧ ((s.advance t).camUsed q.inst = false) ∧ (s.ordered) ∧ (tabSorted none s.cams = true)) ∧
    (∃ (t : Nat) (q : Req) (s : State), (Served 0x0705 q s)) ∧
    (∃ (t : Nat) (n : Nat) (seg : Nat) (s : State), (n < 256) ∧ (seg < camPts (s.camTab n)) ∧ (bitOf s.boot.offHalt 5 = false)) ∧
    (∃ (t : Nat) (n : Nat) (s : State), (n < 256) ∧ ((List.range 128).all (fun x => !((s.cplr x).engaged || (s.cplr x).pend.isSome)) = true)) ∧
    (∃ (t : Nat) (n : Nat) (x : Nat) (s : State), (n < 256) ∧ (x < 128) ∧ ((s.cplr x).engaged = true) ∧ (s.rd P.CplKind x = 2) ∧ (s.rd P.CplCamTable x = n) ∧ (s.ordered) ∧ (tabSorted none s.cpl = true)) ∧
    (∃ (t : Nat) (q : Req) (s : State), (Served 0x0709 q s) ∧ (s.pgList q.inst ≠ []) ∧ (hasDup (s.pgList q.inst) = false) ∧ ((s.pgList q.inst).all (fun x => decide (x ≤ 127)) = true) ∧ ((s.advance t).late q.body 0 = false) ∧ ((s.pgList q.inst).all (fun x => !s.queueRuns x && !s.tBit x tMOVING && !(s.advance t).coupled x) = true)) ∧
    (∃ (t : Nat) (q : Req) (s : State) (n : Nat) (l : List PEntry) (z : List Int), (Served 0x070A q s) ∧ (n = fld q.body 0 1) ∧ (1 ≤ n) ∧ (n ≤ 8) ∧ (q.body.length = 4 + 160 * n) ∧ ((List.range n).all (fun i => !ownBad [fld q.body (8 + 160 * i) 4, fld q.body (12 + 160 * i) 4] [s.rd P.PgVelMax q.inst, s.rd P.PgAccMax q.inst]) = true) ∧ ((s.advance t).pgEntries q.inst (s.advance t).nextTarget q.body n 4 (s.pgr q.inst).last = some (l, z)) ∧ ((s.pgr q.inst).bound = true) ∧ ((s.pgr q.inst).sec.length + (s.pgr q.inst).spill.length + n ≤ s.rd P.PgQueueDepth q.inst)) ∧
    (∃ (t : Nat) (q : Req) (s : State), (Served 0x070B q s) ∧ ((s.advance t).late q.body 0 = false) ∧ ((s.pgList q.inst).all (fun x => s.axisRuns x && s.rd P.TrjChain x == 2) = true) ∧ ((s.pgr q.inst).bound = true)) ∧
    (∃ (t : Nat) (q : Req) (s : State), (Served 0x070C q s) ∧ ((s.advance t).late q.body 4 = false) ∧ ((s.pgr q.inst).bound = true)) ∧
    (∃ (t : Nat) (q : Req) (s : State), (Served 0x070D q s) ∧ ((s.advance t).late q.body 0 = false) ∧ ((s.pgr q.inst).mode = .idle) ∧ ((s.pgr q.inst).k.v = 0) ∧ ((s.pgr q.inst).k.a = 0) ∧ ((s.pgr q.inst).bound = true)) :=
  ⟨⟨0, (req 0x0706 7 (([1, 0, 0, 0, 1, 0, 0, 0, 1, 0, 0, 0] ++ List.replicate 28 0) ++ [0, 1, 0, 0, 0, 0, 122, 68] ++ List.replicate 16 0)), up, by decide +kernel⟩,
   ⟨0, (req 0x0706 7 (([1, 0, 0, 0, 1, 0, 0, 0, 1, 0, 0, 0] ++ List.replicate 28 0) ++ [1, 1, 0, 0, 0, 0, 122, 68, 0, 0, 0, 1, 0, 0, 0, 0] ++ List.replicate 8 0)), up, by decide +kernel⟩,
   ⟨0, (req 0x0707 7 ([0, 1, 0, 0, 0, 0, 122, 68] ++ List.replicate 16 0)), { up with cpl := [(7, { CplRec.init with engaged := true })] }, by decide +kernel⟩,
   ⟨0, (req 0x0707 7 ([] ++ [1, 1, 0, 0, 0, 0, 122, 68, 0, 0, 0, 1, 0, 0, 0, 0] ++ List.replicate 8 0)), { up with cpl := [(7, { CplRec.init with engaged := true })] }, by decide +kernel⟩,
   ⟨0, (req 0x0708 7 (([1, 0, 0, 0, 1, 0, 0, 0, 1, 0, 0, 0] ++ List.replicate 28 0) ++ [1, 1, 0, 0, 0, 0, 122, 68, 0, 0, 0, 1, 0, 0, 0, 0] ++ List.replicate 8 0)), { up with cpl := [(7, { CplRec.init with engaged := true })] }, by decide +kernel⟩,
   ⟨0, (req 0x0708 7 (([1, 0, 0, 0, 1, 0, 0, 0, 1, 0, 0, 0] ++ List.replicate 28 0) ++ [1, 1, 0, 0, 0, 0, 122, 68, 0, 0, 0, 1, 0, 0, 0, 0] ++ List.replicate 8 0)), { withPar [(pkey P.AxisGroup 7, 3)] with cpl := [(7, { CplRec.init with engaged := true })], par := { up.par with staged := [⟨1, 3, 0, [], none⟩], active := [(pkey P.AxisGroup 7, 3)] } }, ⟨1, 3, 0, [], none⟩, by decide +kernel⟩,
   ⟨5, 7, { kind := 0, master := 0, psw := 0, up := true, lapse := 5, id := 1, req := req 0x0706 7 [] }, { up with cpl := [(7, { CplRec.init with pend := some { kind := 0, master := 0, psw := 0, up := true, lapse := 5, id := 1, req := req 0x0706 7 [] } })] }, by decide +kernel⟩,
   ⟨0, (req 0x0703 9 camBody), up, by decide +kernel⟩,
   ⟨0, (req 0x0704 9 []), up, by decide +kernel⟩,
   ⟨0, (req 0x0705 9 []), up, by decide +kernel⟩,
   ⟨0, 9, 1, { up with cams := [(9, camBody)] }, by decide +kernel⟩,
   ⟨0, 9, up, by decide +kernel⟩,
   ⟨0, 9, 7, { withPar [(pkey P.CplKind 7, 2), (pkey P.CplCamTable 7, 9)] with cpl := [(7, { CplRec.init with engaged := true })] }, by decide +kernel⟩,
   ⟨0, (req 0x0709 3 (List.replicate 8 0)), withPar [(pkey P.PgAxes 3, 0xFFFFFFFFFF07)], by decide +kernel⟩,
   ⟨0, (req 0x070A 3 ([1, 0, 0, 0] ++ peBody)), pgUp, 1, ((pgUp.pgEntries 3 2 ([1, 0, 0, 0] ++ peBody) 1 4 (pgUp.pgr 3).last).getD ([], [])).1, ((pgUp.pgEntries 3 2 ([1, 0, 0, 0] ++ peBody) 1 4 (pgUp.pgr 3).last).getD ([], [])).2, by decide +kernel⟩,
   ⟨0, (req 0x070B 3 (List.replicate 8 0)), { withPar [(pkey P.AxisState 7, 2), (pkey P.TrjChain 7, 2), (pkey P.PgAxes 3, 0xFFFFFFFFFF07)] with pg := [(3, { PgRec.init with bound := true })] }, by decide +kernel⟩,
   ⟨0, (req 0x070C 3 (List.replicate 12 0)), { up with pg := [(3, { PgRec.init with bound := true })] }, by decide +kernel⟩,
   ⟨0, (req 0x070D 3 (List.replicate 8 0)), { up with pg := [(3, { PgRec.init with bound := true })] }, by decide +kernel⟩⟩

theorem wit_ModulationCommandsAct :
    (∃ (t : Nat) (q : Req) (s : State), (Served 0x0801 q s) ∧ (bitOf (fld q.body 8 1) 0 = false) ∧ (s.mod.loads.all (fun l => l.groups.land (fld q.body 0 2) == 0) = true) ∧ (s.par.staged.any (fun g => g.pending.isSome && g.keys.any fun k => loadSet.contains (k / 65536) && bitOf (fld q.body 0 2) (s.rd P.ModLoadGroup (k % 65536))) = false)) ∧
    (∃ (t : Nat) (q : Req) (s : State), (Served 0x0801 q s) ∧ (bitOf (fld q.body 8 1) 0 = true) ∧ (0 ≤ cycDiff (if (s.advance t).loadInTime then s.time.cycle else (s.time.cycle + 1) % 2 ^ 32) (fld q.body 4 4)) ∧ (s.mod.loads.all (fun l => l.groups.land (fld q.body 0 2) == 0) = true) ∧ (s.par.staged.any (fun g => g.pending.isSome && g.keys.any fun k => loadSet.contains (k / 65536) && bitOf (fld q.body 0 2) (s.rd P.ModLoadGroup (k % 65536))) = false)) ∧
    (∃ (t : Nat) (q : Req) (s : State) (n : Nat), (Served 0x0802 q s) ∧ (s.ordered) ∧ (n < 12) ∧ (fld q.body 0 2 = 2 ^ n) ∧ ((s.rd P.GpTripState (128 + n)).land 15 = 4) ∧ ((s.rf P.GpTripFilter (128 + n)).ceil ≤ ((s.advance t).time.tick : Int) - (s.gp n).inact.getD 0 0) ∧ ((s.rf P.GpTripFilter (128 + n)).ceil ≤ ((s.advance t).time.tick : Int) - (s.gp n).inact.getD 1 0)) ∧
    (∃ (t : Nat) (n : Nat) (k : Nat) (e : Nat) (s : State), (s.ordered) ∧ (tabSorted none s.mod.gp = true) ∧ (n < 12) ∧ (k < 2) ∧ ((s.advance t).tripDue n e = true) ∧ (s.rd P.GpMode (128 + n) ≠ 1) ∧ (s.rd P.GpTripScope (128 + n) = 0) ∧ (bitOf (s.rd P.GpTripEnable (128 + n)) k = true) ∧ (bitOf (s.rd P.GpTripState (128 + n)) (2 + k) = false)) ∧
    (∃ (t : Nat) (n : Nat) (k : Nat) (e : Nat) (s : State), (s.ordered) ∧ (n < 12) ∧ (k < 2) ∧ ((s.advance t).tripDue n e = true) ∧ (bitOf (s.rd P.GpTripEnable (128 + n)) k = false)) ∧
    (∃ (t : Nat) (n : Nat) (k : Nat) (e : Nat) (s : State), (n < 12) ∧ (k < 2) ∧ ((s.advance t).tripDue n e = false)) ∧
    (∃ (t : Nat) (n : Nat) (k : Nat) (s : State), (s.ordered) ∧ (n < 12) ∧ (k < 2) ∧ (bitOf (s.rd P.GpTripState (128 + n)) k = true)) ∧
    (∃ (t : Nat) (n : Nat) (s : State), (n < 12) ∧ (s.modVal P.GpMode (128 + n) = 1) ∧ (s.rb P.FePairRole (128 + n) = true) ∧ ((s.advance t).reloadNs ≤ (s.advance t).lineNs + 100) ∧ ((s.advance t).dutiesReady = false) ∧ ((s.gp n).missed = false)) ∧
    (∃ (t : Nat) (n : Nat) (h : Bool) (m : Nat) (c : OutCal) (s : State), (s.ordered) ∧ (tabSorted none s.mod.gp = true) ∧ (n < 12) ∧ (m < 100 ∨ 250 < m) ∧ (c = (s.gp n).cal.getD (if h then 1 else 0) OutCal.init)) ∧
    (∃ (t : Nat) (n : Nat) (h : Bool) (m : Nat) (c : OutCal) (s : State), (s.ordered) ∧ (tabSorted none s.mod.gp = true) ∧ (n < 12) ∧ (100 ≤ m) ∧ (m ≤ 250) ∧ (c = (s.gp n).cal.getD (if h then 1 else 0) OutCal.init)) ∧
    (∃ (t : Nat) (q : Req) (s : State), (Served 0x0803 q s) ∧ (q.body.length = 4112) ∧ (mstValid q.body = true) ∧ (s.mstInUse q.inst = false)) ∧
    (∃ (t : Nat) (q : Req) (s : State), (Served 0x0804 q s) ∧ ((∀ o ∈ [0, 8], f32Finite (fld q.body o 4) = true ∧ -3 / 10 ≤ f32ToRat (fld q.body o 4) ∧ f32ToRat (fld q.body o 4) ≤ 3 / 10)) ∧ ((∀ o ∈ [4, 12], f32Finite (fld q.body o 4) = true ∧ 0 ≤ f32ToRat (fld q.body o 4) ∧ f32ToRat (fld q.body o 4) ≤ 360)) ∧ (s.mstInUse q.inst = false)) ∧
    (∃ (t : Nat) (q : Req) (s : State), (Served 0x0805 q s)) :=
  ⟨⟨0, (req 0x0801 0 [6, 0, 0, 0, 0, 0, 0, 0, 0, 0, 0, 0]), up, by decide +kernel⟩,
   ⟨0, (req 0x0801 0 [6, 0, 0, 0, 9, 0, 0, 0, 1, 0, 0, 0]), up, by decide +kernel⟩,
   ⟨100000, (req 0x0802 0 [8, 0, 0, 0]), withPar [(pkey P.GpTripState 131, 4)], 3, by decide +kernel⟩,
   ⟨100000, 3, 1, 77, withPar [(pkey P.GpTripEnable 131, 2), (pkey P.GpTripScope 131, 0)], by decide +kernel⟩,
   ⟨100000, 3, 1, 77, withPar [(pkey P.GpTripEnable 131, 1)], by decide +kernel⟩,
   ⟨0, 3, 1, 77, up, by decide +kernel⟩,
   ⟨5, 3, 1, withPar [(pkey P.GpTripState 131, 10)], by decide +kernel⟩,
   ⟨10 ^ 6, 3, withPar [(pkey P.GpMode 131, 1), (pkey P.FePairRole 131, 1)], by decide +kernel⟩,
   ⟨5, 3, true, 99, { OutCal.init with bad := 3 }, { up with mod := { ModState.reset with gp := [(3, { GpRec.init with cal := [OutCal.init, { OutCal.init with bad := 3 }] })] } }, by decide +kernel⟩,
   ⟨5, 3, false, 250, OutCal.init, up, by decide +kernel⟩,
   ⟨0, (req 0x0803 9 ([1, 0, 0, 4] ++ List.replicate 4108 0)), up, by decide +kernel, by rw [req, List.length_append, List.length_replicate]; rfl, mstValid_zeros 4108, by decide +kernel⟩,
   ⟨0, (req 0x0804 9 (List.replicate 16 0)), up, by decide +kernel⟩,
   ⟨0, (req 0x0805 9 []), up, by decide +kernel⟩⟩

theorem wit_FrontEndSamplesAct :
    (∃ (t : Nat) (s : State), (s.ordered) ∧ (s.feFlag feDIP = false) ∧ (0 < s.fe.nDip) ∧ (s.spans s.fe.nDip (s.rf P.FeDipDetectTime 0 * 1000000) = true) ∧ (s.feState ≤ 3)) ∧
    (∃ (t : Nat) (s : State), (s.ordered) ∧ (s.feFlag feDIP = false) ∧ (0 < s.fe.nDip) ∧ (s.spans s.fe.nDip (s.rf P.FeDipDetectTime 0 * 1000000) = true) ∧ (s.feState = 4) ∧ ((((s.advance t).feBit feDIP true).rideTarget).1 < s.rf P.FeRideDemand 0)) ∧
    (∃ (t : Nat) (s : State), (s.ordered) ∧ (s.feFlag feDIP = false) ∧ (0 < s.fe.nDip) ∧ (s.spans s.fe.nDip (s.rf P.FeDipDetectTime 0 * 1000000) = true) ∧ (s.feState = 5) ∧ (s.feFlag feRECOVER = true)) ∧
    (∃ (t : Nat) (s : State), (s.ordered) ∧ (s.feFlag feDIP = true) ∧ (0 < s.fe.nRec) ∧ (s.spans s.fe.nRec (s.rf P.FeRecoverTime 0 * 1000000) = true)) ∧
    (∃ (t : Nat) (s : State), (s.ordered) ∧ (s.feFlag fePHASELOSS = true) ∧ (s.rf P.FePhaseLossTime 0 * 1000000000 ≤ (((s.advance t).time.tick - s.fe.lossAt : Nat) : Rat)) ∧ (s.feState ≠ 7)) ∧
    (∃ (t : Nat) (s : State), (s.ordered) ∧ (s.spans s.fe.nFreq 100000000 = true) ∧ (s.feState ≠ 7)) ∧
    (∃ (t : Nat) (s : State), (s.ordered) ∧ (s.feFlag feRECOVER = true) ∧ (4 ≤ s.feState) ∧ (s.feState ≤ 5) ∧ ((((List.range 16).filter fun m => s.rb P.VmRideThrough m && s.rd P.FeRideRank m == 1).all (s.advance t).rideReached) = true) ∧ (s.rf P.FeRideLevel 0 ≤ ofState s.fe.bus) ∧ (absR (ofState s.fe.id_) ≤ 4 / 5 * s.rf P.FeCurLimit 0)) ∧
    (∃ (t : Nat) (s : State), (s.feState = 5) ∧ (s.feFlag feRECOVER = false) ∧ (s.feFlag feEXHAUSTED = false) ∧ (s.rf P.FeRideMax 0 * 1000000000 ≤ (((s.advance t).time.tick - s.fe.rideAt : Nat) : Rat))) ∧
    (∃ (t : Nat) (k : Nat) (s : State), (s.ordered) ∧ (k < 12) ∧ (bitOf (s.rd P.FeSdState k) 1 = false) ∧ (s.rd P.FeSdFunction k = 0)) ∧
    (∃ (t : Nat) (k : Nat) (s : State), (s.ordered) ∧ (k < 12) ∧ (bitOf (s.rd P.FeSdState k) 1 = false) ∧ (s.rd P.FeSdFunction k ≠ 0) ∧ (s.feState ≠ 7)) ∧
    (∃ (t : Nat) (k : Nat) (s : State), (k < 12)) :=
  ⟨⟨0, { up with fe := { FeRec.init with nDip := 1000 } }, by decide +kernel⟩,
   ⟨0, { withPar [(pkey P.FeState 0, 4), (pkey P.FeFlags 0, 4), (pkey P.FeRideLoadPower 0, 0x447A0000), (pkey P.FeRideScaleMin 0, 0)] with fe := { FeRec.init with nDip := 1000 } }, by decide +kernel⟩,
   ⟨0, { withPar [(pkey P.FeState 0, 5), (pkey P.FeFlags 0, 256)] with fe := { FeRec.init with nDip := 1000 } }, by decide +kernel⟩,
   ⟨0, { withPar [(pkey P.FeFlags 0, 2)] with fe := { FeRec.init with nRec := 1000 } }, by decide +kernel⟩,
   ⟨6000000000, withPar [(pkey P.FeFlags 0, 8)], by decide +kernel⟩,
   ⟨0, { up with fe := { FeRec.init with nFreq := 4000 } }, by decide +kernel⟩,
   ⟨0, { withPar [(pkey P.FeState 0, 5), (pkey P.FeFlags 0, 256), (pkey P.FeRideDemand 0, 0)] with fe := { FeRec.init with bus := (10 ^ 16) } }, by decide +kernel⟩,
   ⟨2000000000, withPar [(pkey P.FeState 0, 5)], by decide +kernel⟩,
   ⟨0, 11, up, by decide +kernel⟩,
   ⟨0, 11, withPar [(pkey P.FeSdFunction 11, 7)], by decide +kernel⟩,
   ⟨0, 11, up, by decide +kernel⟩⟩

theorem wit_FrontEndSequencesAct :
    (∃ (t : Nat) (q : Req) (s : State), (Served 0x0901 q s) ∧ (s.ordered) ∧ (s.feSettings = true) ∧ (s.spans s.fe.nReady 100000000 = true) ∧ (s.fe.nReady ≠ 0) ∧ (s.feState = 0) ∧ (s.rd P.FeFaultCause 0 = 0)) ∧
    (∃ (t : Nat) (s : State), (s.rd P.FePreFeedback 0 ≠ 0xFF) ∧ ((s.advance t).diLevel (s.rd P.FePreFeedback 0) = true) ∧ (s.fe.preFb = false) ∧ (s.fe.preWait = true) ∧ (bitOf s.dqFe (s.rd P.FePreOutput 0) = true) ∧ (s.fe.step = 1)) ∧
    (∃ (t : Nat) (s : State), (s.rd P.FeMainFeedback 0 ≠ 0xFF) ∧ ((s.advance t).diLevel (s.rd P.FeMainFeedback 0) = true) ∧ (s.fe.mainFb = false) ∧ (s.fe.mainWait = true) ∧ (bitOf s.dqFe (s.rd P.FeMainOutput 0) = true) ∧ (s.fe.step = 3)) ∧
    (∃ (t : Nat) (s : State), (s.rd P.FePreFeedback 0 ≠ 0xFF) ∧ ((s.advance t).diLevel (s.rd P.FePreFeedback 0) = false) ∧ (s.fe.preFb = true) ∧ (s.fe.preWait = true) ∧ (bitOf s.dqFe (s.rd P.FePreOutput 0) = false) ∧ (s.fe.step = 5)) ∧
    (∃ (t : Nat) (m : Bool) (c : Bool) (s : State), (s.rd (if m then P.FeMainFeedback else P.FePreFeedback) 0 = 0xFF ∨ (s.advance t).diLevel (s.rd (if m then P.FeMainFeedback else P.FePreFeedback) 0) ≠ c ∨ (if m then s.fe.mainFb else s.fe.preFb) = c)) ∧
    (∃ (t : Nat) (m : Bool) (c : Bool) (s : State), (s.ordered) ∧ (s.rd (if m then P.FeMainFeedback else P.FePreFeedback) 0 ≠ 0xFF) ∧ ((s.advance t).diLevel (s.rd (if m then P.FeMainFeedback else P.FePreFeedback) 0) = c) ∧ ((if m then s.fe.mainFb else s.fe.preFb) ≠ c) ∧ ((if m then s.fe.mainWait else s.fe.preWait) = false) ∧ (s.feState ≠ 7)) ∧
    (∃ (t : Nat) (s : State), (s.ordered) ∧ (s.fe.step = 2) ∧ (s.rf P.FePrechargeLevel 0 * sqrtR 2 * s.rf P.FeMainsNominal 0 ≤ ofState s.fe.bus)) ∧
    (∃ (t : Nat) (s : State), (s.fe.step = 4) ∧ (s.fe.preFb = true) ∧ (s.rf P.FePreOpenDelay 0 * 1000000 ≤ (s.advance t).feElapsed)) ∧
    (∃ (t : Nat) (s : State), (s.ordered) ∧ (s.fe.step = 4) ∧ (s.fe.preFb = false) ∧ (s.rf P.FePreOpenDelay 0 * 1000000 ≤ (s.advance t).feElapsed)) ∧
    (∃ (t : Nat) (s : State), (s.ordered) ∧ (s.fe.step = 1 ∨ s.fe.step = 3 ∨ s.fe.step = 5) ∧ (s.rf P.FeContactorTime 0 * 1000000 ≤ (s.advance t).feElapsed) ∧ (s.feState ≠ 7)) ∧
    (∃ (t : Nat) (s : State), (s.ordered) ∧ (s.fe.step = 2) ∧ (s.rf P.FePrechargeTime 0 * 1000000000 ≤ (((s.advance t).time.tick - s.fe.t0 : Nat) : Rat)) ∧ (s.feState ≠ 7)) ∧
    (∃ (t : Nat) (s : State), (s.ordered) ∧ (s.feState = 3) ∧ (absR (ofState s.fe.bus - s.rf P.FeBusSet 0) ≤ s.rf P.FeBusSet 0 / 50)) ∧
    (∃ (t : Nat) (q : Req) (s : State), (Served 0x0902 q s) ∧ (s.feState = 6)) ∧
    (∃ (t : Nat) (q : Req) (s : State), (Served 0x0902 q s) ∧ (s.ordered) ∧ (s.feState ≠ 6)) ∧
    (∃ (t : Nat) (s : State), (s.ordered) ∧ (s.feState = 6) ∧ (s.fe.stopAt + 10000000 ≤ (s.advance t).time.tick)) ∧
    (∃ (t : Nat) (q : Req) (s : State), (Served 0x0903 q s) ∧ (s.ordered) ∧ (s.rd P.FeFaultCause 0 ≠ 0) ∧ ((s.advance t).fePresent (s.rd P.FeFaultCause 0) = false)) ∧
    (∃ (t : Nat) (q : Req) (s : State), (Served 0x0903 q s) ∧ (s.rd P.FeFaultCause 0 = 0)) :=
  ⟨⟨0, (req 0x0901 0 []), { withPar [(pkey P.GpMode 128, 1), (pkey P.GpMode 129, 1), (pkey P.GpMode 130, 1), (pkey P.FePairRole 128, 1), (pkey P.FePairRole 129, 2), (pkey P.FePairRole 130, 3), (pkey P.FeSdFunction 0, 1), (pkey P.FeSdFunction 1, 2), (pkey P.FeSdFunction 2, 3), (pkey P.FeSdFunction 3, 4), (pkey P.FeSdFunction 4, 6), (pkey P.FeCurLimit 0, 0x42480000), (pkey P.FeCurGain 0, 0x40000000), (pkey P.FePreOutput 0, 4), (pkey P.FeMainOutput 0, 5), (pkey P.FePreFeedback 0, 6), (pkey P.FeMainFeedback 0, 7)] with fe := { FeRec.init with nReady := 4000 } }, by decide +kernel⟩,
   ⟨0, { { withPar [(pkey P.FePreOutput 0, 4), (pkey P.FePreFeedback 0, 3)] with fe := { FeRec.init with preWait := true, step := 1 } } with dqFe := 16, ferry := [(0, { FerryRec.init with diS := 8 })] }, by decide +kernel⟩,
   ⟨0, { { withPar [(pkey P.FeMainOutput 0, 4), (pkey P.FeMainFeedback 0, 3)] with fe := { FeRec.init with mainWait := true, step := 3 } } with dqFe := 16, ferry := [(0, { FerryRec.init with diS := 8 })] }, by decide +kernel⟩,
   ⟨0, { withPar [(pkey P.FePreOutput 0, 4), (pkey P.FePreFeedback 0, 3)] with fe := { FeRec.init with preFb := true, preWait := true, step := 5 } }, by decide +kernel⟩,
   ⟨0, true, true, withPar [(pkey P.FeMainFeedback 0, 3)], by decide +kernel⟩,
   ⟨0, true, true, { withPar [(pkey P.FeMainFeedback 0, 3)] with ferry := [(0, { FerryRec.init with diS := 8 })] }, by decide +kernel⟩,
   ⟨0, { up with fe := { FeRec.init with step := 2, bus := (10 ^ 16) } }, by decide +kernel⟩,
   ⟨60000000, { up with fe := { FeRec.init with step := 4, preFb := true } }, by decide +kernel⟩,
   ⟨60000000, { up with fe := { FeRec.init with step := 4 } }, by decide +kernel⟩,
   ⟨200000000, { up with fe := { FeRec.init with step := 5 } }, by decide +kernel⟩,
   ⟨4000000000, { up with fe := { FeRec.init with step := 2 } }, by decide +kernel⟩,
   ⟨0, { withPar [(pkey P.FeState 0, 3)] with fe := { FeRec.init with bus := (650 * 2 ^ 40) } }, by decide +kernel⟩,
   ⟨0, (req 0x0902 0 []), withPar [(pkey P.FeState 0, 6)], by decide +kernel⟩,
   ⟨0, (req 0x0902 0 []), withPar [(pkey P.FeState 0, 4)], by decide +kernel⟩,
   ⟨20000000, withPar [(pkey P.FeState 0, 6)], by decide +kernel⟩,
   ⟨0, (req 0x0903 0 []), withPar [(pkey P.FeState 0, 7), (pkey P.FeFaultCause 0, 6)], by decide +kernel⟩,
   ⟨0, (req 0x0903 0 []), up, by decide +kernel⟩⟩

theorem wit_SafetyInputsAndProcessorsAct :
    (∃ (t : Nat) (p : Nat) (l : Nat) (s : State), (p < 2) ∧ (tabSorted none s.saf.ins = true)) ∧
    (∃ (t : Nat) (n : Nat) (s : State), (n < 12) ∧ (tabSorted none s.saf.ins = true) ∧ ((s.safIn n).dis ≠ 0) ∧ ((s.safIn n).disAt + discNs s.saf.bank < (s.advance t).time.tick)) ∧
    (∃ (t : Nat) (b : Bool) (w : Nat) (i : Nat) (s : State), (bitOf w 24 = false) ∧ (i < 12) ∧ (tabSorted none s.saf.ins = true) ∧ (s.saf.sw (i / 2 + 1) = false) ∧ (bitOf w i = true)) ∧
    (∃ (t : Nat) (b : Bool) (w : Nat) (s : State), (bitOf w 24 = true) ∧ (s.saf.fault = 0)) ∧
    (∃ (t : Nat) (i : SafetyObs) (s : State) (s2 : State) (s3 : State), (i.linkOk = true) ∧ ((s.proc 0).gs = (s.proc 1).gs) ∧ (i.bankA = s.saf.bank) ∧ (i.bankB = s.saf.bank) ∧ (i.supplyOk = true) ∧ (i.tempOk = true) ∧ (((List.range 8).all fun g => (s.stoOn 0 g || !bitOf i.readA g) && (s.stoOn 1 g || !bitOf i.readB g)) = true) ∧ (s2 = ((s.advance t).setSaf { s.saf with linkBad := 0, differ := 0, outRb := i.readA % 256 + 256 * (i.readB % 256), seq := (s.saf.seq + 1) % 256 }).safExchange.safEvals) ∧ ((s3 = if s2.saf.rstDue then s2.safReset else s2))) ∧
    (∃ (t : Nat) (i : SafetyObs) (s : State), (i.bankA = s.saf.bank) ∧ (i.bankB = s.saf.bank) ∧ (s.saf.fault = 0) ∧ ((i.linkOk = false ∧ 1 ≤ s.saf.linkBad) ∨ (i.linkOk = true ∧ (s.proc 0).gs ≠ (s.proc 1).gs ∧ 1 ≤ s.saf.differ))) ∧
    (∃ (t : Nat) (i : SafetyObs) (s : State), (i.linkOk = true) ∧ ((s.proc 0).gs = (s.proc 1).gs) ∧ (i.bankA = s.saf.bank) ∧ (i.bankB = s.saf.bank) ∧ (i.supplyOk = false) ∧ (s.saf.fault = 0)) ∧
    (∃ (t : Nat) (o : Nat) (b : Bool) (s : State), (o < 8)) ∧
    (∃ (t : Nat) (o : Nat) (b : Bool) (d : Bool) (s : State), (o < 8) ∧ (s.saf.fault = 0)) ∧
    (∃ (t : Nat) (o : Nat) (b : Bool) (s : State), (o < 8) ∧ (s.saf.fault = 0)) ∧
    (∃ (t : Nat) (p : Nat) (s : State), (p < 2)) ∧
    (∃ (t : Nat) (p : Nat) (s : State), (p < 2) ∧ (s.saf.fault = 0)) ∧
    (∃ (t : Nat) (s : State), (s.ordered) ∧ (s.saf.fault = 0)) ∧
    (∃ (t : Nat) (b : Nat) (s : State), (s.saf.started = false) ∧ (s.saf.fault = 0) ∧ (bankParity b = true)) ∧
    (∃ (t : Nat) (b : Nat) (s : State), (s.saf.started = false) ∧ (s.saf.fault = 0) ∧ (bankParity b = false)) :=
  ⟨⟨0, 1, 5, up, by decide +kernel⟩,
   ⟨60000000, 11, { up with saf := { SafRec.init with ins := [(11, { SafIn.init with dis := 2 })] } }, by decide +kernel⟩,
   ⟨0, true, 4, 2, up, by decide +kernel⟩,
   ⟨0, true, 2 ^ 24, up, by decide +kernel⟩,
   ⟨0, ⟨0, 0, 0, 0, true, true, true⟩, up, _, _, by decide +kernel, by decide +kernel, by decide +kernel, by decide +kernel, by decide +kernel, by decide +kernel, by decide +kernel, rfl, rfl⟩,
   ⟨0, ⟨0, 0, 0, 0, false, true, true⟩, { up with saf := { SafRec.init with linkBad := 1 } }, by decide +kernel⟩,
   ⟨0, ⟨0, 0, 0, 0, true, false, true⟩, up, by decide +kernel⟩,
   ⟨0, 7, true, up, by decide +kernel⟩,
   ⟨0, 7, true, true, up, by decide +kernel⟩,
   ⟨0, 7, true, up, by decide +kernel⟩,
   ⟨0, 1, up, by decide +kernel⟩,
   ⟨0, 1, up, by decide +kernel⟩,
   ⟨0, up, by decide +kernel⟩,
   ⟨0, 1, up, by decide +kernel⟩,
   ⟨0, 3, up, by decide +kernel⟩⟩

theorem wit_SafetyGroupsAndFramesAct :
    (∃ (t : Nat) (g : Nat) (p : Nat) (s : State), (g < 8) ∧ (p < 2) ∧ (s.saf.prs.length = 2) ∧ ((s.proc p).gs.length = 8) ∧ (s.gState p g = 3) ∧ ((s.proc p).ss1At.getD g 0 + ss1Ns s.saf.bank ≤ (s.advance t).time.tick) ∧ (s.demands p g ≠ 0)) ∧
    (∃ (t : Nat) (s : State), (s.saf.srst = 0) ∧ (s.saf.relAt = none)) ∧
    (∃ (t : Nat) (s : State), (s.saf.srst = 1) ∧ (s.saf.srstOk = true) ∧ ((s.advance t).time.tick - s.saf.srstAt < 50000000)) ∧
    (∃ (t : Nat) (s : State), (s.saf.srst = 1) ∧ (s.saf.srstOk = true) ∧ (50000000 ≤ (s.advance t).time.tick - s.saf.srstAt) ∧ ((s.advance t).time.tick - s.saf.srstAt ≤ 3000000000) ∧ (s.saf.started = true) ∧ (s.saf.fault = 0)) ∧
    (∃ (t : Nat) (s : State), (s.saf.srst = 1) ∧ (s.saf.srstAt + 3000000000 < (s.advance t).time.tick)) ∧
    (∃ (t : Nat) (b : List Byte) (s : State), (s.ordered) ∧ (b.length = 32) ∧ (fld b 28 4 = crc32 (b.take 28)) ∧ (s.saf.refs.getD 0 0 = 0)) ∧
    (∃ (t : Nat) (p : Nat) (b : List Byte) (s : State), (p < 2) ∧ (b.length ≠ 32 ∨ fld b 28 4 ≠ crc32 (b.take 28))) ∧
    (∃ (t : Nat) (s : State), (s.saf.lost = false) ∧ (s.saf.shownAt + 9999999 ≤ (s.advance t).time.tick)) ∧
    (∃ (t : Nat) (k : Nat) (s : State), (1 ≤ k) ∧ (k ≤ 63) ∧ (tabSorted none s.link.nodes = true) ∧ ((s.node k).mismatch ≠ 0) ∧ ((s.node k).misDone = false) ∧ ((s.node k).mismatch + 19999999 ≤ (s.advance t).time.tick)) ∧
    (∃ (t : Nat) (q : Req) (s : State), (Served 0x0E01 q s) ∧ (((List.range 128).all fun a => decide (mapOf q.body a < 8) || mapOf q.body a == 0xFF) = true) ∧ (((List.range 128).all fun a => s.axisNode a == 0 || (s.nodeAxes (s.axisNode a)).all fun c => mapOf q.body c == mapOf q.body a) = true) ∧ ((s.advance t).late q.body 144 = false) ∧ (((List.range 128).any fun a => s.axisOn a && mapOf q.body a != s.rd P.SafStoGroup a) = false)) ∧
    (∃ (t : Nat) (q : Req) (s : State), (Served 0x0E02 q s)) :=
  ⟨⟨0, 7, 1, { up with saf := { SafRec.init with prs := [{ SafProc.init with gs := List.replicate 8 3 }, { SafProc.init with gs := List.replicate 8 3 }], ins := [(0, { SafIn.init with code := 1 })] } }, by decide +kernel⟩,
   ⟨0, up, by decide +kernel⟩,
   ⟨0, { up with saf := { SafRec.init with srst := 1 } }, by decide +kernel⟩,
   ⟨3000000000, { up with saf := { SafRec.init with srst := 1, started := true } }, by decide +kernel⟩,
   ⟨3000000001, { up with saf := { SafRec.init with srst := 1 } }, by decide +kernel⟩,
   ⟨0, (List.replicate 28 0) ++ leBytes 4 (crc32 (List.replicate 28 0)), up, by decide +kernel⟩,
   ⟨0, 1, [], up, by decide +kernel⟩,
   ⟨10000000, up, by decide +kernel⟩,
   ⟨20000000, 63, { up with link := { LinkState.reset with nodes := [(63, { NodeRec.init with mismatch := 1 })] } }, by decide +kernel⟩,
   ⟨0, (req 0x0E01 0 (List.replicate 152 0)), up, by decide +kernel⟩,
   ⟨0, (req 0x0E02 0 []), up, by decide +kernel⟩⟩

theorem wit_FerryLinksAct :
    (∃ (t : Nat) (g : Nat) (s : State), (g < 4) ∧ (bitOf s.boot.offHalt 7 = false) ∧ ((s.advance t).downDue g = true) ∧ (tabSorted none s.ferry = true)) ∧
    (∃ (t : Nat) (g : Nat) (b : List Byte) (s : State), (g < 4) ∧ (b.length ≠ 40 ∨ fld b 38 2 ≠ crc16 (b.take 38))) ∧
    (∃ (t : Nat) (g : Nat) (b : List Byte) (s : State), (g < 4) ∧ (tabSorted none s.ferry = true) ∧ (b.length = 40) ∧ (fld b 38 2 = crc16 (b.take 38)) ∧ (fld b 10 2 ≤ 300) ∧ ((s.advance t).fieldNow g ≤ fld b 2 8 + 1000)) ∧
    (∃ (t : Nat) (g : Nat) (s : State), (g < 4) ∧ ((s.group g).answer = none)) ∧
    (∃ (t : Nat) (g : Nat) (a : Nat × Nat) (s : State), (g < 4) ∧ (tabSorted none s.ferry = true) ∧ ((s.group g).answer = some a) ∧ (a.2 + 1000 ≤ (s.advance t).fieldNow g)) ∧
    (∃ (t : Nat) (g : Nat) (b : List Byte) (s : State), (g < 4) ∧ (b.length ≠ 46 ∨ fld b 44 2 ≠ crc16 (b.take 44))) ∧
    (∃ (t : Nat) (g : Nat) (b : List Byte) (d : Nat × Nat × Nat × Nat) (s : State), (g < 4) ∧ (tabSorted none s.ferry = true) ∧ (s.ordered) ∧ (b.length = 46) ∧ (fld b 44 2 = crc16 (b.take 44)) ∧ (fld b 10 1 % 16 = 0) ∧ ((s.group g).downs.find? (fun d => d.1 == fld b 0 1) = some d)) ∧
    (∃ (t : Nat) (g : Nat) (s : State), (g < 4) ∧ (tabSorted none s.ferry = true) ∧ (s.ordered) ∧ (bitOf (s.rd P.FerryState g) fySTALE = false) ∧ (roundHE (s.rf P.FerryStaleTime g * 1000) ≤ ((s.advance t).time.tick : Int) - (s.group g).upTick)) ∧
    (∃ (t : Nat) (g : Nat) (s : State), (g < 4) ∧ (tabSorted none s.ferry = true) ∧ (10 * (s.group g).setting 14 10000 ≤ (s.advance t).time.tick - (s.group g).lastDown)) ∧
    (∃ (t : Nat) (g : Nat) (e : FEntry) (s : State), (g < 4) ∧ (tabSorted none s.ferry = true) ∧ ((s.group g).pend = [e]) ∧ (e.at_ ≤ (s.advance t).fieldNow g) ∧ ((s.group g).held = false)) :=
  ⟨⟨0, 3, up, by decide +kernel⟩,
   ⟨0, 3, [], up, by decide +kernel⟩,
   ⟨0, 3, ((List.replicate 38 0) ++ leBytes 2 (crc16 (List.replicate 38 0))), up, by decide +kernel⟩,
   ⟨0, 3, up, by decide +kernel⟩,
   ⟨1008, 3, (7, 8), { up with ferry := [(3, { FerryRec.init with answer := some (7, 8) })] }, by decide +kernel⟩,
   ⟨0, 3, [], up, by decide +kernel⟩,
   ⟨0, 3, ((List.replicate 44 0) ++ leBytes 2 (crc16 (List.replicate 44 0))), (0, 9, 0, 0), { up with ferry := [(3, { FerryRec.init with downs := [(0, 9, 0, 0)] })] }, by decide +kernel⟩,
   ⟨1000000000, 3, up, by decide +kernel⟩,
   ⟨100000, 3, up, by decide +kernel⟩,
   ⟨0, 3, { out := 1, level := true, at_ := 0 }, { up with ferry := [(3, { FerryRec.init with held := false, pend := [{ out := 1, level := true, at_ := 0 }] })] }, by decide +kernel⟩⟩

theorem wit_FieldInputsAndOutputsAct :
    (∃ (t : Nat) (i : Nat) (v : Bool) (s : State), (i < 16) ∧ ((s.group (i / 4)).edges.length < 64)) ∧
    (∃ (t : Nat) (i : Nat) (v : Bool) (s : State), (i < 16) ∧ (64 ≤ (s.group (i / 4)).edges.length)) ∧
    (∃ (t : Nat) (i : Nat) (x : InputLevel) (s : State), (i < 32) ∧ (x.since + 10 * (s.group (i / 8)).setting (1 + i % 8) 300000 ≤ (s.advance t).time.tick)) ∧
    (∃ (t : Nat) (i : Nat) (x : InputLevel) (s : State), (32 ≤ i) ∧ (i < 48) ∧ (x.since + 10 * (s.group ((i - 32) / 4)).setting (9 + (i - 32) % 4) 20 ≤ (s.advance t).time.tick)) ∧
    (∃ (t : Nat) (i : Nat) (x : InputLevel) (s : State), (i < 32) ∧ ((s.advance t).time.tick < x.since + 10 * (s.group (i / 8)).setting (1 + i % 8) 300000)) ∧
    (∃ (t : Nat) (i : Nat) (s : State), (i < 32) ∧ (bitOf ((s.group (i / 8)).setting 13 0) (i % 8) = true) ∧ (bitOf (s.group (i / 8)).diWire (i % 8) = false)) ∧
    (∃ (t : Nat) (i : Nat) (s : State), (32 ≤ i) ∧ (i < 48)) ∧
    (∃ (t : Nat) (o : Nat) (s : State), (o < 16) ∧ (bitOf (s.group (o / 4)).ovl (o % 4) = false)) ∧
    (∃ (t : Nat) (o : Nat) (s : State), (o < 16) ∧ (bitOf (s.group (o / 4)).lvl (o % 4) = false) ∧ ((s.group (o / 4)).offAt.getD (o % 4) 0 + 10000000 ≤ (s.advance t).time.tick)) ∧
    (∃ (t : Nat) (o : Nat) (s : State), (o < 16) ∧ (bitOf (s.group (o / 4)).lvl (o % 4) = false) ∧ (bitOf (s.group (o / 4)).feed (o % 4) = false)) ∧
    (∃ (t : Nat) (o : Nat) (s : State), (o < 16)) ∧
    (∃ (t : Nat) (g : Nat) (s : State), (g < 4) ∧ ((s.group g).low = false)) ∧
    (∃ (t : Nat) (g : Nat) (s : State), (g < 4)) ∧
    (∃ (t : Nat) (q : Req) (s : State), (Served 0x0A01 q s)) ∧
    (∃ (t : Nat) (q : Req) (s : State), (Served 0x0A02 q s) ∧ ((s.advance t).late q.body 4 = false) ∧ (((bitList 16 (fld q.body 0 2)).all fun o => !(s.lockedCopy P.DqCommand o || s.dqOwner o == 1 || s.dqOwner o == 2 || s.stagedCopy P.DqCommand o)) = true)) ∧
    (∃ (t : Nat) (q : Req) (s : State), (Served 0x0A03 q s) ∧ ((s.advance t).late q.body 4 = false) ∧ (((bitList 4 (fld q.body 0 1)).all s.settled) = true)) :=
  ⟨⟨0, 15, true, up, by decide +kernel⟩,
   ⟨0, 15, true, { up with ferry := [(3, { FerryRec.init with edges := List.replicate 64 { stamp := 0, inp := 0, rising := true } })] }, by decide +kernel⟩,
   ⟨3000000, 31, ⟨true, 0⟩, up, by decide +kernel⟩,
   ⟨3000000, 47, ⟨true, 0⟩, up, by decide +kernel⟩,
   ⟨0, 31, ⟨true, 10⟩, up, by decide +kernel⟩,
   ⟨0, 31, { up with ferry := [(3, { FerryRec.init with set_ := [(13, 129)] })] }, by decide +kernel⟩,
   ⟨0, 47, up, by decide +kernel⟩,
   ⟨0, 15, up, by decide +kernel⟩,
   ⟨10000000, 15, up, by decide +kernel⟩,
   ⟨0, 15, up, by decide +kernel⟩,
   ⟨0, 15, up, by decide +kernel⟩,
   ⟨0, 3, up, by decide +kernel⟩,
   ⟨0, 3, up, by decide +kernel⟩,
   ⟨0, (req 0x0A01 0 []), up, by decide +kernel⟩,
   ⟨0, (req 0x0A02 0 ([255, 255, 1, 0] ++ (List.replicate 8 0))), up, by decide +kernel⟩,
   ⟨0, (req 0x0A03 0 ([0, 0, 0, 0] ++ (List.replicate 8 0))), up, by decide +kernel⟩⟩

theorem wit_HostPacketsMove :
    (∃ (t : Nat) (tr : Transport) (sender : Nat) (bytes : List Byte) (q : Req) (s : State), (s.wf) ∧ (s.boot.ready = true) ∧ (s.pr.restart = false) ∧ (s.interpHalted = false) ∧ ((s.boot.recovery = true → tr = .usb)) ∧ (¬(tr = .rs485 ∧ s.host.rsFrom ≤ (s.advance t).time.tick ∧ (s.advance t).time.tick < s.host.rsTo)) ∧ (parsePacket ⟨tr, sender⟩ (s.advance t).time.tick bytes = some q) ∧ (s.host.queueFull q = false)) ∧
    (∃ (t : Nat) (flow : Nat) (q : Req) (r : OpRow) (s : State), (s.host.nextStart = some q) ∧ (q.flow = flow) ∧ (s.interpHalted = false) ∧ (s.host.running.length < 8) ∧ ((q.timeout = 0 ∨ (s.advance t).time.tick ≤ expiry q)) ∧ (s.host.dupOf q = none) ∧ (s.pr.damaged.contains q = false) ∧ (opRow q.opcode = some r) ∧ (¬(q.gen = 1 ∧ (!r.g1 || q.more || q.noEvent) = true)) ∧ (s.host.assemblies.find? (fun x => x.flow == q.flow) = none) ∧ (q.more = false) ∧ (q.body.length ≤ 262112)) ∧
    (∃ (t : Nat) (flow : Nat) (q : Req) (r : OpRow) (s : State), (s.host.nextStart = some q) ∧ (q.flow = flow) ∧ (s.interpHalted = false) ∧ (s.host.running.length < 8) ∧ ((q.timeout = 0 ∨ (s.advance t).time.tick ≤ expiry q)) ∧ (s.host.dupOf q = none) ∧ (s.pr.damaged.contains q = false) ∧ (opRow q.opcode = some r) ∧ (q.gen = 2) ∧ (instOk q.opcode q = true) ∧ (s.host.assemblies.find? (fun x => x.flow == q.flow) = none) ∧ (q.more = true) ∧ (q.body.length ≤ 262112)) ∧
    (∃ (t : Nat) (flow : Nat) (q : Req) (r : OpRow) (s : State) (a : Assembly), (s.host.nextStart = some q) ∧ (q.flow = flow) ∧ (s.interpHalted = false) ∧ (s.host.running.length < 8) ∧ ((q.timeout = 0 ∨ (s.advance t).time.tick ≤ expiry q)) ∧ (s.host.dupOf q = none) ∧ (s.pr.damaged.contains q = false) ∧ (opRow q.opcode = some r) ∧ (q.gen = 2) ∧ (s.host.assemblies.find? (fun x => x.flow == q.flow) = some a) ∧ (a.dest = q.dest) ∧ (a.opcode = q.opcode) ∧ (a.inst = q.inst) ∧ (a.nextSeq = q.seq) ∧ (q.more = false) ∧ (a.body.length + q.body.length ≤ 262112)) ∧
    (∃ (t : Nat) (flow : Nat) (pos : Nat) (q : Req) (s : State), ((s.host.waiting.filter (fun x => x.flow == flow))[pos]? = some q) ∧ (q.timeout ≠ 0) ∧ (expiry q ≤ (s.advance t).time.tick)) ∧
    (∃ (t : Nat) (r : Reply) (rs : List Reply) (s : State) (s1 : State), (s.host.replyWait = r :: rs) ∧ ((s.advance t).ringReply r = some s1)) ∧
    (∃ (t : Nat) (d : Dest) (e : Ev) (es : List Ev) (s : State), ((d.tr = .usb ∨ d.tr = .udp)) ∧ ((s.host.queue d).evs = e :: es) ∧ ((s.host.queue d).dropped = 0)) ∧
    (∃ (t : Nat) (d : Dest) (e : Ev) (es : List Ev) (o : List Out) (tl : Nat) (s : State), (d.tr = .pcie) ∧ (s.host.regs.running = true) ∧ ((s.host.queue d).evs = e :: es) ∧ ((s.host.queue d).dropped = 0) ∧ (ringPut s.host.regs.evtBase s.host.regs.evtSize s.host.regs.evtHead s.host.regs.evtTail (e.packet (((s.host.queue d).sentSeq + 1) % 2 ^ 32)) = some (o, tl))) ∧
    (∃ (t : Nat) (d : Dest) (s : State), (d.tr = .rs485)) ∧
    (∃ (t : Nat) (addr : Nat) (len : Nat) (bytes : List Byte) (s : State), (s.host.regs.running = true) ∧ (s.boot.ready = true) ∧ (s.pr.restart = false) ∧ (bitOf s.boot.offHalt 6 = false) ∧ (s.host.regs.reqHead ≠ s.host.regs.reqTail) ∧ (s.host.replyWait.length < 256) ∧ (bytes.length = len)) :=
  ⟨⟨0, .usb, 0, packetBytes 2 0 0 1 0x0109 0 0 [], ((parsePacket ⟨.usb, 0⟩ 0 (packetBytes 2 0 0 1 0x0109 0 0 [])).getD (req 0x0109 0 [])), up, by decide +kernel⟩,
   ⟨0, 0, (req 0x0109 0 []), ⟨0x0109, true, .range 0 0, some 0⟩, { up with host := { up.host with waiting := [req 0x0109 0 []] } }, by decide +kernel⟩,
   ⟨0, 0, { req 0x0109 0 [] with more := true }, ⟨0x0109, true, .range 0 0, some 0⟩, { up with host := { up.host with waiting := [{ req 0x0109 0 [] with more := true }] } }, by decide +kernel⟩,
   ⟨0, 0, (req 0x0109 0 []), ⟨0x0109, true, .range 0 0, some 0⟩, { up with host := { up.host with waiting := [req 0x0109 0 []], assemblies := [⟨⟨.usb, 0⟩, 0, 0x0109, 0, 1, [7]⟩] } }, ⟨⟨.usb, 0⟩, 0, 0x0109, 0, 1, [7]⟩, by decide +kernel⟩,
   ⟨1000000, 0, 0, { req 0x0109 0 [] with timeout := 1 }, { up with host := { up.host with waiting := [{ req 0x0109 0 [] with timeout := 1 }] } }, by decide +kernel⟩,
   ⟨0, rpl, [], ringUp, ((ringUp.ringReply rpl).getD ringUp), by decide +kernel⟩,
   ⟨0, ⟨.usb, 0⟩, (up.mkEvent 0x0101 0 0 []), [], { up with host := up.host.setQueue { dest := ⟨.usb, 0⟩, evs := [up.mkEvent 0x0101 0 0 []], dropped := 0, sentSeq := 0 } }, by decide +kernel⟩,
   ⟨0, ⟨.pcie, 0⟩, (up.mkEvent 0x0101 0 0 []), [], [.dma 0 ((up.mkEvent 0x0101 0 0 []).packet 1)], 56, { ringUp with host := ringUp.host.setQueue { dest := ⟨.pcie, 0⟩, evs := [up.mkEvent 0x0101 0 0 []], dropped := 0, sentSeq := 0 } }, by decide +kernel⟩,
   ⟨0, ⟨.rs485, 0⟩, up, by decide +kernel⟩,
   ⟨0, 0, 0, [], { ringUp with host := { ringUp.host with regs := { ringUp.host.regs with reqTail := 1 } } }, by decide +kernel⟩⟩

theorem wit_HostBlockRegistersAct :
    (∃ (t : Nat) (v : Nat) (s : State), (s.host.regs.enable = true)) ∧
    (∃ (t : Nat) (v : Nat) (s : State), (s.host.regs.enable = true)) ∧
    (∃ (t : Nat) (v : Nat) (s : State), (s.host.regs.enable = true)) ∧
    (∃ (t : Nat) (v : Nat) (s : State), (s.host.regs.enable = false)) ∧
    (∃ (t : Nat) (s : State), (s.wf)) ∧
    (∃ (t : Nat) (v : Nat) (s : State), (s.host.regs.enable = false) ∧ (pow2Between 16 65536 (v % 2 ^ 32) = true)) ∧
    (∃ (t : Nat) (v : Nat) (s : State), (s.host.regs.enable = false) ∧ (pow2Between 65536 16777216 (v % 2 ^ 32) = true)) ∧
    (∃ (t : Nat) (v : Nat) (s : State), (s.host.regs.enable = false) ∧ (v < 2 ^ 64)) ∧
    (∃ (t : Nat) (v : Nat) (s : State), (s.host.regs.enable = false) ∧ (v < 2 ^ 32) ∧ (s.host.regs.reqBase < 2 ^ 64) ∧ (s.host.regs.rplBase < 2 ^ 64) ∧ (s.host.regs.evtBase < 2 ^ 64) ∧ (s.host.regs.shadowBase < 2 ^ 64)) ∧
    (∃ (t : Nat) (off : Nat) (size : Nat) (v : Nat) (s : State), (s.host.regs.enable = true) ∧ (off ∈ [0x18, 0x1C, 0x20, 0x28, 0x2C, 0x30, 0x38, 0x3C, 0x40, 0x48, 0x4C])) ∧
    (∃ (t : Nat) (v : Nat) (s : State), (v % 2 ^ 32 % 1024 ≤ 1000)) ∧
    (∃ (t : Nat) (k : Nat) (o : Nat) (size : Nat) (v : Nat) (s : State), (k < 32) ∧ (o < 16)) ∧
    (∃ (t : Nat) (k : Nat) (s : State), (k < 32) ∧ (bitOf s.host.regs.want k = true) ∧ (bitOf (tabGet s.host.regs.mx (2 ^ 96) k) 96 = false) ∧ ((tabGet s.host.regs.lastFire 0 k ≠ 0 → tabGet s.host.regs.lastFire 0 k - 1 + s.host.regs.irqDelay * 1000 ≤ (s.advance t).time.tick))) ∧
    (∃ (t : Nat) (cause : Nat) (addr : Nat) (s : State), (1 ≤ cause) ∧ (cause ≤ 4)) ∧
    (∃ (t : Nat) (idx : Nat) (i : Nat) (v : Nat) (s : State), (idx ∈ [P.HostIpAddress, P.HostNetmask, P.HostGateway, P.HostUdpPort, P.HostRs485Baud, P.HostRs485Gap]) ∧ (i < 65536) ∧ (s.host.pendingCfg = [(pkey idx i, v)])) ∧
    (∃ (t : Nat) (ip : Nat) (sender : Nat) (s : State), (ip = s.rd P.HostIpAddress 0)) ∧
    (∃ (t : Nat) (ip : Nat) (sender : Nat) (bytes : List Byte) (s : State), (ip = s.rd P.HostIpAddress 0)) :=
  ⟨⟨0, 5, ringUp, by decide +kernel⟩,
   ⟨0, 5, ringUp, by decide +kernel⟩,
   ⟨0, 5, ringUp, by decide +kernel⟩,
   ⟨0, 5, up, by decide +kernel⟩,
   ⟨0, up, by decide +kernel⟩,
   ⟨0, 32, up, by decide +kernel⟩,
   ⟨0, 65536, up, by decide +kernel⟩,
   ⟨0, 8192, up, by decide +kernel⟩,
   ⟨0, 7, up, by decide +kernel⟩,
   ⟨0, 0x18, 4, 7, ringUp, by decide +kernel⟩,
   ⟨0, 1000, up, by decide +kernel⟩,
   ⟨0, 31, 12, 4, 0, up, by decide +kernel⟩,
   ⟨0, 1, { up with host := { up.host with regs := { up.host.regs with want := 2, mx := [(1, 0)] } } }, by decide +kernel⟩,
   ⟨0, 4, 16, up, by decide +kernel⟩,
   ⟨0, P.HostUdpPort, 0, 7777, { up with host := { up.host with pendingCfg := [(pkey P.HostUdpPort 0, 7777)] } }, by decide +kernel⟩,
   ⟨0, (up.rd P.HostIpAddress 0), 9, up, by decide +kernel⟩,
   ⟨0, (up.rd P.HostIpAddress 0), 9, [1], up, by decide +kernel⟩⟩

theorem wit_InterpreterRequestsComplete :
    (∃ (t : Nat) (q : Req) (s : State), (Served 0x0107 q s) ∧ (fld q.body 0 2 / 2 * 2 ≠ 0) ∧ ((q.dest.tr = .pcie → (fld q.body 3 1 == 1 || (decide (3 ≤ fld q.body 3 1) && decide (fld q.body 3 1 ≤ 31))) = true)) ∧ ((s.host.subs.filter fun b => !(b.dest == q.dest)).length < 8)) ∧
    (∃ (t : Nat) (q : Req) (s : State), (Served 0x0107 q s) ∧ (fld q.body 0 2 / 2 * 2 = 0) ∧ (q.dest.tr ≠ .pcie)) ∧
    (∃ (t : Nat) (q : Req) (s : State), (Served 0x0108 q s) ∧ (1 ≤ fld q.body 0 1) ∧ (fld q.body 0 1 ≤ 16) ∧ (q.dest.tr ≠ .pcie) ∧ ((s.host.queue q.dest).evs ≠ []) ∧ ((s.host.queue q.dest).dropped = 0)) ∧
    (∃ (t : Nat) (q : Req) (s : State), (Served 0x0109 q s)) ∧
    (∃ (t : Nat) (q : Req) (s : State) (r : ParamRow), (s.boot.recovery = false) ∧ (s.host.broken.contains q = false) ∧ (q.body.length = 4) ∧ (paramRow (fld q.body 0 2) = some r) ∧ (hasInst r q.inst = true)) ∧
    (∃ (t : Nat) (q : Req) (s : State) (n : Nat) (x : List Byte × State), (Served 0x0103 q s) ∧ (n = fld q.body 0 2) ∧ (1 ≤ n) ∧ (n ≤ 64) ∧ (q.body.length = 4 + 8 * n) ∧ ((x = (List.range n).foldl (fun (acc : List Byte × State) k =>
        (acc.1 ++ (acc.2.readEntry (fld q.body (4 + 8 * k) 2) (fld q.body (6 + 8 * k) 2) (bitOf (fld q.body (8 + 8 * k) 1) 0)).1,
          (acc.2.readEntry (fld q.body (4 + 8 * k) 2) (fld q.body (6 + 8 * k) 2) (bitOf (fld q.body (8 + 8 * k) 1) 0)).2)) ([], (s.advance t))))) ∧
    (∃ (t : Nat) (q : Req) (s : State) (r : ParamRow), (Served 0x0103 q s) ∧ (q.body.length = 12) ∧ (fld q.body 0 2 = 1) ∧ (paramRow (fld q.body 4 2) = some r) ∧ (hasInst r (fld q.body 6 2) = true)) ∧
    (∃ (t : Nat) (q : Req) (s : State) (r : ParamRow), (s.boot.recovery = false) ∧ (s.host.broken.contains q = false) ∧ (paramRow (fld q.body 0 2) = some r) ∧ (hasInst r q.inst = true) ∧ (r.access = .rw) ∧ (fld q.body 3 1 = typeSize r.type) ∧ (q.body.length = 4 + typeSize r.type) ∧ (bitOf (fld q.body 2 1) 0 = false) ∧ (firstBad ((s.advance t).writeBad r q.inst (fld q.body 4 (typeSize r.type)) false) = none) ∧ (r.index ≠ P.LatArm) ∧ (r.index ≠ P.NtIncrement) ∧ (loadSet.contains r.index = false) ∧ (afterReply r.index = false)) ∧
    (∃ (t : Nat) (q : Req) (s : State) (r : ParamRow), (s.boot.recovery = false) ∧ (s.host.broken.contains q = false) ∧ (paramRow (fld q.body 0 2) = some r) ∧ (hasInst r q.inst = true) ∧ (r.access = .rw) ∧ (fld q.body 3 1 = typeSize r.type) ∧ (q.body.length = 4 + typeSize r.type) ∧ (bitOf (fld q.body 2 1) 0 = false) ∧ (firstBad ((s.advance t).writeBad r q.inst (fld q.body 4 (typeSize r.type)) false) = none) ∧ (loadSet.contains r.index = true) ∧ (s.modAtOnce q.inst = false)) ∧
    (∃ (t : Nat) (q : Req) (s : State) (r : ParamRow), (s.boot.recovery = false) ∧ (s.host.broken.contains q = false) ∧ (paramRow (fld q.body 0 2) = some r) ∧ (hasInst r q.inst = true) ∧ (r.access = .rw) ∧ (fld q.body 3 1 = typeSize r.type) ∧ (q.body.length = 4 + typeSize r.type) ∧ (bitOf (fld q.body 2 1) 0 = false) ∧ (firstBad ((s.advance t).writeBad r q.inst (fld q.body 4 (typeSize r.type)) false) = none) ∧ (afterReply r.index = true)) ∧
    (∃ (t : Nat) (q : Req) (s : State) (r : ParamRow), (s.boot.recovery = false) ∧ (s.host.broken.contains q = false) ∧ (paramRow (fld q.body 0 2) = some r) ∧ (hasInst r q.inst = true) ∧ (r.access = .rw) ∧ (fld q.body 3 1 = typeSize r.type) ∧ (q.body.length = 4 + typeSize r.type) ∧ (bitOf (fld q.body 2 1) 0 = false) ∧ (firstBad ((s.advance t).writeBad r q.inst (fld q.body 4 (typeSize r.type)) false) = none) ∧ (r.index = P.NtIncrement)) ∧
    (∃ (t : Nat) (q : Req) (s : State) (r : ParamRow), (s.boot.recovery = false) ∧ (s.host.broken.contains q = false) ∧ (paramRow (fld q.body 0 2) = some r) ∧ (hasInst r q.inst = true) ∧ (r.access = .rw) ∧ (fld q.body 3 1 = typeSize r.type) ∧ (q.body.length = 4 + typeSize r.type) ∧ (bitOf (fld q.body 2 1) 0 = false) ∧ (firstBad ((s.advance t).writeBad r q.inst (fld q.body 4 (typeSize r.type)) false) = none) ∧ (r.index = P.LatArm)) ∧
    (∃ (t : Nat) (q : Req) (s : State) (r : ParamRow) (g : Staged), (s.boot.recovery = false) ∧ (s.host.broken.contains q = false) ∧ (paramRow (fld q.body 0 2) = some r) ∧ (hasInst r q.inst = true) ∧ (r.access = .rw) ∧ (fld q.body 3 1 = typeSize r.type) ∧ (q.body.length = 4 + typeSize r.type) ∧ (bitOf (fld q.body 2 1) 0 = true) ∧ (firstBad ((s.advance t).writeBad r q.inst (fld q.body 4 (typeSize r.type)) true) = none) ∧ ((s.advance t).setFor r q.inst = some g)) ∧
    (∃ (t : Nat) (q : Req) (s : State) (r : ParamRow), (s.boot.recovery = false) ∧ (s.host.broken.contains q = false) ∧ (paramRow (fld q.body 0 2) = some r) ∧ (hasInst r q.inst = true) ∧ (r.access = .w1c) ∧ (fld q.body 3 1 = typeSize r.type) ∧ (q.body.length = 4 + typeSize r.type)) ∧
    (∃ (t : Nat) (q : Req) (s : State), (Served 0x0104 q s) ∧ (scopeBad q.body = false) ∧ (s.namedSet (fld q.body 0 1) q.inst (fld q.body 1 1) = none)) ∧
    (∃ (t : Nat) (q : Req) (s : State) (g : Staged), (Served 0x0105 q s) ∧ (scopeBad q.body = false) ∧ (s.namedSet (fld q.body 0 1) q.inst (fld q.body 1 1) = some g) ∧ (g.scope ≠ 1) ∧ ((s.advance t).late q.body 4 = false) ∧ (g.pending = none) ∧ (g.keys.any (s.advance t).keyLocked = false)) ∧
    (∃ (t : Nat) (q : Req) (s : State) (g : Staged), (Served 0x0105 q s) ∧ (scopeBad q.body = false) ∧ (s.namedSet (fld q.body 0 1) q.inst (fld q.body 1 1) = some g) ∧ (g.scope = 1) ∧ ((s.advance t).late q.body 4 = false) ∧ (g.pending = none) ∧ (g.keys.any (s.advance t).keyLocked = false)) ∧
    (∃ (t : Nat) (q : Req) (s : State) (g : Staged), (Served 0x0106 q s) ∧ (scopeBad q.body = false) ∧ (s.namedSet (fld q.body 0 1) q.inst (fld q.body 1 1) = some g) ∧ (g.pending = none)) :=
  ⟨⟨0, (req 0x0107 0 [2, 0, 0, 1]), up, by decide +kernel⟩,
   ⟨0, (req 0x0107 0 [1, 0, 0, 1]), up, by decide +kernel⟩,
   ⟨0, (req 0x0108 0 [1, 0, 0, 0]), { up with host := up.host.setQueue { dest := ⟨.usb, 0⟩, evs := [up.mkEvent 0x0101 0 0 []], dropped := 0, sentSeq := 0 } }, by decide +kernel⟩,
   ⟨0, (req 0x0109 0 []), up, by decide +kernel⟩,
   ⟨0, (req 0x0101 0 (leBytes 2 P.SysCycleLength ++ [0, 0])), up, ((paramRow P.SysCycleLength).getD ⟨0, .u32, [], .any, 0, .ro⟩), by decide +kernel⟩,
   ⟨0, (req 0x0103 0 ([1, 0, 0, 0] ++ leBytes 2 P.SysCycleLength ++ [0, 0, 0, 0, 0, 0])), up, 1, _, by decide +kernel, by decide +kernel, by decide +kernel, by decide +kernel, by decide +kernel, rfl⟩,
   ⟨0, (req 0x0103 0 ([1, 0, 0, 0] ++ leBytes 2 P.SysCycleLength ++ [0, 0, 0, 0, 0, 0])), up, ((paramRow P.SysCycleLength).getD ⟨0, .u32, [], .any, 0, .ro⟩), by decide +kernel⟩,
   ⟨0, (req 0x0102 5 (leBytes 2 P.AxisGroup ++ [0, 4, 3, 0, 0, 0])), up, ((paramRow P.AxisGroup).getD ⟨0, .u32, [], .any, 0, .ro⟩), by decide +kernel⟩,
   ⟨0, (req 0x0102 131 (leBytes 2 P.GpTripScope ++ [0, 4, 1, 0, 0, 0])), withPar [(pkey P.GpMode 131, 2)], ((paramRow P.GpTripScope).getD ⟨0, .u32, [], .any, 0, .ro⟩), by decide +kernel⟩,
   ⟨0, (req 0x0102 0 (leBytes 2 P.HostUdpPort ++ [0, 4, 97, 30, 0, 0])), up, ((paramRow P.HostUdpPort).getD ⟨0, .u32, [], .any, 0, .ro⟩), by decide +kernel⟩,
   ⟨0, (req 0x0102 0 (leBytes 2 P.NtIncrement ++ [0, 4, 1, 0, 0, 1])), withPar [(pkey P.NtServoMode 0, 1)], ((paramRow P.NtIncrement).getD ⟨0, .u32, [], .any, 0, .ro⟩), by decide +kernel⟩,
   ⟨0, (req 0x0102 5 (leBytes 2 P.LatArm ++ [0, 4, 0, 0, 0, 0])), up, ((paramRow P.LatArm).getD ⟨0, .u32, [], .any, 0, .ro⟩), by decide +kernel⟩,
   ⟨0, (req 0x0102 5 (leBytes 2 P.AxisGroup ++ [1, 4, 3, 0, 0, 0])), { up with par := { up.par with staged := [⟨3, 0, 0, [], none⟩] } }, ((paramRow P.AxisGroup).getD ⟨0, .u32, [], .any, 0, .ro⟩), ⟨3, 0, 0, [], none⟩, by decide +kernel⟩,
   ⟨0, (req 0x0102 0 (leBytes 2 P.SysIslandLatched ++ [0, 4, 255, 0, 0, 0])), up, ((paramRow P.SysIslandLatched).getD ⟨0, .u32, [], .any, 0, .ro⟩), by decide +kernel⟩,
   ⟨0, (req 0x0104 7 [0, 0, 0, 0]), up, by decide +kernel⟩,
   ⟨0, (req 0x0105 7 [0, 0, 0, 0, 0, 0, 0, 0, 0, 0, 0, 0]), { up with par := { up.par with staged := [⟨0, 7, 0, [], none⟩] } }, ⟨0, 7, 0, [], none⟩, by decide +kernel⟩,
   ⟨0, (req 0x0105 7 [1, 0, 0, 0, 0, 0, 0, 0, 0, 0, 0, 0]), { up with par := { up.par with staged := [⟨1, 7, 0, [], none⟩] } }, ⟨1, 7, 0, [], none⟩, by decide +kernel⟩,
   ⟨0, (req 0x0106 7 [0, 0, 0, 0]), { up with par := { up.par with staged := [⟨0, 7, 0, [], none⟩] } }, ⟨0, 7, 0, [], none⟩, by decide +kernel⟩⟩

theorem wit_SchedulerAndFlowsAct :
    (∃ (t : Nat) (n : Nat) (p : Nat) (c : Nat) (s : State), (tabSorted none s.pr.thr = true) ∧ (n < 256) ∧ (s.threadIdle n = true) ∧ (1 ≤ p) ∧ (p ≤ 31)) ∧
    (∃ (t : Nat) (n : Nat) (k : Nat) (p : Nat) (c : Nat) (s : State), (tabSorted none s.pr.thr = true) ∧ (256 ≤ n) ∧ (n < 1024) ∧ (k < 64) ∧ (s.rd P.TaskState k = 3) ∧ (s.threadIdle n = true) ∧ ((s.pr.thr.any fun e => e.2.elim false (·.owner == k)) = false)) ∧
    (∃ (t : Nat) (c : Nat) (s : State), (c < 6) ∧ ((s.coreR c).run = none)) ∧
    (∃ (t : Nat) (c : Nat) (m : Nat) (n : Nat) (r : ThrRec) (b : ThrRec) (r2 : ThrRec) (s : State), (c < 6) ∧ ((s.coreR c).run = some m) ∧ (s.thread m = some r) ∧ ((s.advance t).bestThread c = some (n, b)) ∧ (b.prio = r.prio) ∧ ((s.coreR c).slice + 100000 ≤ (s.advance t).time.tick) ∧ (((s.advance t).coreRun c (some n)).thread m = some r2)) ∧
    (∃ (t : Nat) (n : Nat) (c : Nat) (r : ThrRec) (s : State), (tabSorted none s.pr.thr = true) ∧ (s.ordered) ∧ (n < 1024) ∧ (c < 4) ∧ (c < s.pr.cores.length) ∧ (s.thread n = some r) ∧ ((s.coreR c).run = some n) ∧ (r.owner < 64) ∧ ((s.advance t).lineNs % 1000000 ≠ 0) ∧ (s.rf P.TaskBudget r.owner * 10000 ≤ ((r.used.getD c 0 + ((s.advance t).time.tick - (s.coreR c).at_) : Nat) : Rat))) ∧
    (∃ (t : Nat) (f : Nat) (h : Nat) (x : Nat) (s : State), (f < 4096) ∧ (tabSorted none s.pr.flows = true) ∧ ((s.advance t).tagOk f ((s.thread h).elim fwOwner (·.owner)) = true)) ∧
    (∃ (t : Nat) (f : Nat) (s : State), (f < 4096) ∧ (tabSorted none s.pr.flows = true)) ∧
    (∃ (t : Nat) (s : State), (s.ordered)) ∧
    (∃ (t : Nat) (s : State), (s.pr.restart = true) ∧ (s.boot.switch = none)) :=
  ⟨⟨0, 255, 31, 3, up, by decide +kernel⟩,
   ⟨0, 300, 7, 1, 0, withPar [(pkey P.TaskState 7, 3)], by decide +kernel⟩,
   ⟨0, 5, up, by decide +kernel⟩,
   ⟨200000, 0, 3, 4, { owner := 0xFE, prio := 5, cores := 63, seq := 0, spent := 0, used := [0, 0, 0, 0] }, { owner := 0xFE, prio := 5, cores := 63, seq := 0, spent := 0, used := [0, 0, 0, 0] }, { owner := 0xFE, prio := 5, cores := 63, seq := 0, spent := 0, used := [200000, 0, 0, 0] }, { up with pr := { ProcRec.init with thr := [(3, some { owner := 0xFE, prio := 5, cores := 63, seq := 0, spent := 0, used := [0, 0, 0, 0] }), (4, some { owner := 0xFE, prio := 5, cores := 63, seq := 0, spent := 0, used := [0, 0, 0, 0] })], cores := [{ CoreRec.init with run := some 3 }, CoreRec.init, CoreRec.init, CoreRec.init, CoreRec.init, CoreRec.init] } }, by decide +kernel⟩,
   ⟨1500000, 300, 0, { owner := 7, prio := 5, cores := 63, seq := 0, spent := 0, used := [0, 0, 0, 0] }, { up with pr := { ProcRec.init with thr := [(300, some { owner := 7, prio := 5, cores := 63, seq := 0, spent := 0, used := [0, 0, 0, 0] })], cores := [{ CoreRec.init with run := some 300 }, CoreRec.init, CoreRec.init, CoreRec.init, CoreRec.init, CoreRec.init] } }, by decide +kernel⟩,
   ⟨0, 4095, 3, 9, up, by decide +kernel⟩,
   ⟨0, 4095, up, by decide +kernel⟩,
   ⟨0, up, by decide +kernel⟩,
   ⟨0, { up with pr := { ProcRec.init with restart := true } }, by decide +kernel⟩⟩

set_option maxRecDepth 1000000 in
theorem wit_TasksAndMemoryAct :
    (∃ (t : Nat) (q : Req) (s : State), (Served 0x0D01 q s) ∧ (tabSorted none s.pr.tasks = true) ∧ (s.ordered) ∧ (s.rd P.TaskState q.inst = 0) ∧ (fld q.body 0 4 = 0) ∧ (56 ≤ q.body.length) ∧ (q.body.length - 8 < fld (q.body.drop 8) 4 4) ∧ (fld (q.body.drop 8) 4 4 ≤ s.partFree 4)) ∧
    (∃ (t : Nat) (q : Req) (s : State), (Served 0x0D01 q s) ∧ (tabSorted none s.pr.tasks = true) ∧ (s.ordered) ∧ (s.rd P.TaskState q.inst = 0) ∧ (fld q.body 0 4 = 0) ∧ (56 ≤ q.body.length) ∧ (fld (q.body.drop 8) 4 4 = q.body.length - 8) ∧ (imageBad (q.body.drop 8) = none) ∧ (q.body.length - 8 ≤ s.partFree 4)) ∧
    (∃ (t : Nat) (q : Req) (s : State), (Served 0x0D02 q s) ∧ (tabSorted none s.pr.tasks = true) ∧ (s.ordered) ∧ (s.rd P.TaskState q.inst = 2 ∨ s.rd P.TaskState q.inst = 4 ∨ s.rd P.TaskState q.inst = 5) ∧ (fld ((s.taskR q.inst).parts.flatMap (·.2)) 32 4 ≤ s.rd P.TaskMemLimit q.inst) ∧ (fld ((s.taskR q.inst).parts.flatMap (·.2)) 32 4 * 1048576 ≤ s.partFree 4 + 4096 * (s.taskR q.inst).pages.length)) ∧
    (∃ (t : Nat) (q : Req) (s : State), (Served 0x0D03 q s) ∧ (tabSorted none s.pr.tasks = true) ∧ (s.ordered) ∧ (s.rd P.TaskState q.inst = 3)) ∧
    (∃ (t : Nat) (q : Req) (s : State), (Served 0x0D04 q s) ∧ (s.rd P.TaskState q.inst ≠ 0) ∧ (s.rd P.TaskState q.inst ≠ 3)) ∧
    (∃ (t : Nat) (q : Req) (s : State) (ps : Tab (Option Page)), (Served 0x0D05 q s) ∧ (tabSorted none s.pr.tasks = true) ∧ (fld q.body 0 8 % 4096 = 0) ∧ (fld q.body 8 4 % 4096 = 0) ∧ (fld q.body 8 4 ≠ 0) ∧ (s.rd P.TaskState q.inst = 3) ∧ (ps = mapPages (s.taskR q.inst).pages (fld q.body 0 8 / 4096) (bitOf (fld q.body 12 1) 0) false (List.replicate (fld q.body 8 4 / 4096) [])) ∧ (ps.length ≤ s.rd P.TaskMemLimit q.inst * 256) ∧ (4096 * (ps.length - (s.taskR q.inst).pages.length) ≤ s.partFree 4)) ∧
    (∃ (t : Nat) (q : Req) (s : State) (b : List Byte), (Served 0x0D06 q s) ∧ (1 ≤ fld q.body 8 4) ∧ (fld q.body 8 4 ≤ 65536) ∧ (3 ≤ s.rd P.TaskState q.inst) ∧ (s.taskBytes q.inst (fld q.body 0 8) (fld q.body 8 4) = some b)) ∧
    (∃ (t : Nat) (q : Req) (s : State), (Served 0x0D07 q s)) ∧
    (∃ (t : Nat) (k : Nat) (c : Nat) (n : Nat) (h : Nat) (pc : Nat) (x : Nat) (s : State), (s.ordered) ∧ (k < 64) ∧ (s.rd P.TaskState k = 3) ∧ (1 ≤ c) ∧ (c ≤ 8)) ∧
    (∃ (t : Nat) (k : Nat) (s : State), (s.ordered) ∧ (k < 64) ∧ (s.rd P.TaskState k = 3) ∧ (s.rf P.TaskWatchdog k ≠ 0) ∧ (s.rf P.TaskWatchdog k * 1000000 ≤ (((s.advance t).time.tick - (s.taskR k).kick : Nat) : Rat))) ∧
    (∃ (t : Nat) (k : Nat) (s : State), (k < 64) ∧ (s.rd P.TaskState k = 3)) ∧
    (∃ (t : Nat) (c : Nat) (p : Nat) (l : List DmaDesc) (s : State), (c < 4) ∧ (bitOf (s.rd P.DmaState c) 1 = false) ∧ (dmaLinked l = true)) ∧
    (∃ (t : Nat) (c : Nat) (k : Nat) (p : Nat) (l : List DmaDesc) (s : State), (4 ≤ c) ∧ (c < 16) ∧ (k < 64) ∧ (s.rd P.TaskState k = 3) ∧ (s.rd P.DmaOwner c = k ∨ (s.rd P.DmaOwner c = 0xFF ∧ ((List.range 16).filter fun x => s.rd P.DmaOwner x == k).length < 4)) ∧ (bitOf (s.rd P.DmaState c) 1 = false) ∧ (dmaLinked l = true)) ∧
    (∃ (t : Nat) (s : State), (s.dmaNext = none)) ∧
    (∃ (t : Nat) (c : Nat) (d : DmaDesc) (l : List DmaDesc) (n : Nat) (s : State), (s.ordered) ∧ (bitOf s.boot.offHalt 5 = false) ∧ (s.pr.dmaAt = 0 ∨ s.pr.dmaAt + 999 ≤ (s.advance t).time.tick) ∧ (s.dmaNext = some c) ∧ (s.dmaChain c = d :: l) ∧ (64 ≤ s.rd P.DmaOwner c) ∧ (n = min (4096 - (dmaSrc d + s.rd P.DmaBytes c) % 4096) (4096 - (dmaDst d + s.rd P.DmaBytes c) % 4096)) ∧ (s.rd P.DmaBytes c + n < dmaLen d)) ∧
    (∃ (t : Nat) (x : Nat) (b : Bool) (h : MemHit) (p : Nat) (s : State), (s.ordered) ∧ (tabSorted none s.pr.ecc = true) ∧ (s.partOf x = some p)) ∧
    (∃ (t : Nat) (x : Nat) (b : Bool) (p : Nat) (s : State), (s.ordered) ∧ (s.partOf x = some p)) :=
  ⟨⟨0, (req 0x0D01 7 ((List.replicate 8 0) ++ leBytes 2 1 ++ leBytes 2 0 ++ leBytes 4 9000 ++ (List.replicate 40 0))), up, by decide +kernel⟩,
   ⟨0, (req 0x0D01 7 ((List.replicate 8 0) ++ tImg)), up, by decide +kernel⟩,
   ⟨0, (req 0x0D02 7 []), withPar [(pkey P.TaskState 7, 2), (pkey P.TaskMemLimit 7, 1)], by decide +kernel⟩,
   ⟨0, (req 0x0D03 7 []), withPar [(pkey P.TaskState 7, 3)], by decide +kernel⟩,
   ⟨0, (req 0x0D04 7 []), withPar [(pkey P.TaskState 7, 4)], by decide +kernel⟩,
   ⟨0, (req 0x0D05 7 ([0, 0, 1, 0, 0, 0, 0, 0, 0, 16, 0, 0, 1, 0, 0, 0])), withPar [(pkey P.TaskState 7, 3), (pkey P.TaskMemLimit 7, 1)], mapPages [] 16 true false [[]], by decide +kernel⟩,
   ⟨0, (req 0x0D06 7 ([0, 0, 1, 0, 0, 0, 0, 0, 4, 0, 0, 0])), { withPar [(pkey P.TaskState 7, 3)] with pr := { ProcRec.init with tasks := [(7, { TaskRec.init with pages := [(16, some { w := true, x := false, data := [] })] })] } }, [0, 0, 0, 0], by decide +kernel⟩,
   ⟨0, (req 0x0D07 0 []), up, by decide +kernel⟩,
   ⟨0, 63, 8, 0, 300, 0, 0, withPar [(pkey P.TaskState 63, 3)], by decide +kernel⟩,
   ⟨2000000, 63, withPar [(pkey P.TaskState 63, 3), (pkey P.TaskWatchdog 63, 0x3F800000)], by decide +kernel⟩,
   ⟨0, 63, withPar [(pkey P.TaskState 63, 3)], by decide +kernel⟩,
   ⟨0, 3, 2, [{ addr := 0, bytes := leBytes 8 0 ++ leBytes 8 0x10000 ++ leBytes 4 9000 ++ List.replicate 28 0 }], up, by decide +kernel⟩,
   ⟨0, 15, 7, 2, [{ addr := 0, bytes := leBytes 8 0 ++ leBytes 8 0x10000 ++ leBytes 4 9000 ++ List.replicate 28 0 }], withPar [(pkey P.TaskState 7, 3), (pkey P.DmaOwner 15, 255)], by decide +kernel⟩,
   ⟨0, up, by decide +kernel⟩,
   ⟨0, 2, { addr := 0, bytes := leBytes 8 0 ++ leBytes 8 0x10000 ++ leBytes 4 9000 ++ List.replicate 28 0 }, [], 4096, { withPar [(pkey P.DmaState 2, 3)] with pr := { ProcRec.init with dma := [(2, [{ addr := 0, bytes := leBytes 8 0 ++ leBytes 8 0x10000 ++ leBytes 4 9000 ++ List.replicate 28 0 }])] } }, by decide +kernel⟩,
   ⟨0, 4096, false, .unused, 0, up, by decide +kernel⟩,
   ⟨0, 4096, false, 0, up, by decide +kernel⟩⟩

theorem wit_AcquisitionUnitsAct :
    (∃ (t : Nat) (q : Req) (s : State), (Served 0x0B01 q s) ∧ ((s.advance t).badChan q.inst = none) ∧ ((s.advance t).aqBad q.inst = false) ∧ ((s.advance t).late q.body 0 = false)) ∧
    (∃ (t : Nat) (q : Req) (s : State), (Served 0x0B02 q s) ∧ (s.aqRuns q.inst = true)) ∧
    (∃ (t : Nat) (q : Req) (s : State), (Served 0x0B02 q s) ∧ (s.aqRuns q.inst = false)) ∧
    (∃ (t : Nat) (q : Req) (s : State), (Served 0x0B03 q s) ∧ (s.rd P.AqState q.inst = 1 ∨ s.rd P.AqState q.inst = 2)) ∧
    (∃ (t : Nat) (u : Nat) (f : Nat) (x : Nat) (s : State), (u < 4) ∧ ((s.aqu u).cand = some (f, x)) ∧ (s.rd P.AqState u = 2)) ∧
    (∃ (t : Nat) (u : Nat) (s : State), (u < 4) ∧ (s.rd P.AqState u = 2) ∧ (s.rd P.AqMode u = 2) ∧ (s.rf P.AqAutoTimeout u * 1000000 ≤ ((s.time.lastS - (s.aqu u).waitAt : Nat) : Rat)) ∧ ((s.aqu u).cand = none) ∧ (s.rd P.AqClass u = 0)) ∧
    (∃ (t : Nat) (u : Nat) (s : State), (u < 4) ∧ (s.rd P.AqState u = 2) ∧ (s.rd P.AqMode u = 2) ∧ (s.rf P.AqAutoTimeout u * 1000000 ≤ (((s.advance t).lineNs / 10 * 10 - (s.aqu u).waitAt : Nat) : Rat)) ∧ ((s.aqu u).cand = none) ∧ (s.rd P.AqClass u = 1)) ∧
    (∃ (t : Nat) (u : Nat) (r : List Nat) (s : State), (u < 4) ∧ (s.rd P.AqClass u = 1) ∧ ((s.advance t).aqRuns u = true) ∧ (¬(((s.advance t).aqu u).idx = 0 ∧ (s.advance t).lineNs / 10 * 10 < ((s.advance t).aqu u).waitAt))) ∧
    (∃ (t : Nat) (u : Nat) (f : Nat) (x : Nat) (s : State), (u < 4) ∧ (s.rd P.AqState u = 2) ∧ (s.rd P.AqMode u = 2) ∧ (s.rf P.AqAutoTimeout u * 1000000 ≤ (((s.advance t).baseTime u - (s.aqu u).waitAt : Nat) : Rat)) ∧ ((s.aqu u).cand = some (f, x))) ∧
    (∃ (t : Nat) (u : Nat) (s : State), (u < 4) ∧ (tabSorted none s.aq = true)) ∧
    (∃ (t : Nat) (u : Nat) (s : State), (tabSorted none s.par.active = true) ∧ (u < 4) ∧ (s.aqRuns u = true) ∧ (65536 ≤ (s.aqu u).held)) ∧
    (∃ (t : Nat) (u : Nat) (s : State), (u < 4) ∧ (s.aqRuns u = true) ∧ ((s.aqu u).held < 16384) ∧ ((s.aqu u).lowAt + 1000000 ≤ (s.advance t).time.tick) ∧ (s.rd P.AqDivider u < (s.aqu u).d)) ∧
    (∃ (t : Nat) (q : Req) (s : State) (c : AqCap), (Served 0x0B04 q s) ∧ (1 ≤ fld q.body 6 2) ∧ (fld q.body 6 2 ≤ 64) ∧ ((s.aqu q.inst).caps.find? (fun c => c.seq == fld q.body 0 4) = some c)) ∧
    (∃ (t : Nat) (q : Req) (s : State), (Served 0x0B05 q s)) ∧
    (∃ (t : Nat) (q : Req) (s : State), (Served 0x0B06 q s) ∧ (fld q.body 0 1 ≤ 63) ∧ (fld q.body 4 8 % 2097152 = 0) ∧ (s.rd P.TaskState (fld q.body 0 1) = 3) ∧ (s.rd P.AqGrant q.inst = 0xFF ∨ s.rd P.AqGrant q.inst = fld q.body 0 1)) ∧
    (∃ (t : Nat) (q : Req) (s : State), (Served 0x0B07 q s)) :=
  ⟨⟨0, (req 0x0B01 3 (List.replicate 8 0)), withPar [(pkey P.AqChannels 3, 1), (pkey P.AqChanSignal 96, 0x0200000000010000), (pkey P.AqFrames 3, 16), (pkey P.AqPreTrigger 3, 0), (pkey P.AqBufferSize 3, 1)], by decide +kernel⟩,
   ⟨0, (req 0x0B02 3 []), withPar [(pkey P.AqState 3, 3)], by decide +kernel⟩,
   ⟨0, (req 0x0B02 3 []), up, by decide +kernel⟩,
   ⟨0, (req 0x0B03 3 []), withPar [(pkey P.AqState 3, 2)], by decide +kernel⟩,
   ⟨0, 3, 5, 9, { withPar [(pkey P.AqState 3, 2)] with aq := [(3, { AqRec.init with cand := some (5, 9) })] }, by decide +kernel⟩,
   ⟨0, 3, { withPar [(pkey P.AqMode 3, 2), (pkey P.AqState 3, 2)] with time := { up.time with lastS := 10 ^ 9 } }, by decide +kernel⟩,
   ⟨10 ^ 12, 3, withPar [(pkey P.AqMode 3, 2), (pkey P.AqClass 3, 1), (pkey P.AqState 3, 2)], by decide +kernel⟩,
   ⟨0, 3, [7], { withPar [(pkey P.AqClass 3, 1), (pkey P.AqState 3, 1)] with aq := [(3, { AqRec.init with idx := 1 })] }, by decide +kernel⟩,
   ⟨10 ^ 12, 3, 5, 9, { withPar [(pkey P.AqMode 3, 2), (pkey P.AqClass 3, 1), (pkey P.AqState 3, 2)] with aq := [(3, { AqRec.init with cand := some (5, 9) })] }, by decide +kernel⟩,
   ⟨0, 3, up, by decide +kernel⟩,
   ⟨0, 3, { withPar [(pkey P.AqState 3, 2)] with aq := [(3, { AqRec.init with staged := List.replicate 16 0 })] }, by decide +kernel⟩,
   ⟨2000000, 3, { withPar [(pkey P.AqDivider 3, 1), (pkey P.AqState 3, 2)] with aq := [(3, { AqRec.init with d := 4 })] }, by decide +kernel⟩,
   ⟨0, (req 0x0B04 3 [1, 0, 0, 0, 0, 0, 2, 0]), { up with aq := [(3, { AqRec.init with caps := [{ seq := 1, seg := 0, flags := 0, ttrig := 0, blocks := [0] }] })] }, { seq := 1, seg := 0, flags := 0, ttrig := 0, blocks := [0] }, by decide +kernel⟩,
   ⟨0, (req 0x0B05 3 []), up, by decide +kernel⟩,
   ⟨0, (req 0x0B06 3 ([7, 0, 0, 0] ++ (List.replicate 8 0))), withPar [(pkey P.TaskState 7, 3)], by decide +kernel⟩,
   ⟨0, (req 0x0B07 3 []), up, by decide +kernel⟩⟩

theorem wit_CanRequestsComplete :
    (∃ (t : Nat) (q : Req) (s : State), (Served 0x0C01 q s) ∧ (q.body.length = 8 + fld q.body 1 1) ∧ (lenLegal (bitOf (s.rd P.CanObjFlags q.inst) 2) (fld q.body 1 1) = true) ∧ (s.rd P.CanObjKind q.inst = 1) ∧ (bitOf (s.rd P.CanObjState q.inst) coPENDING = false) ∧ (s.rd P.CanMode (q.inst / 100) = 1 ∨ s.rd P.CanMode (q.inst / 100) = 2)) ∧
    (∃ (t : Nat) (q : Req) (s : State), (Served 0x0C02 q s) ∧ (bitOf (s.rd P.CanObjState q.inst) coPENDING = true) ∧ ((s.canC (q.inst / 100)).cur ≠ some (q.inst % 100))) ∧
    (∃ (t : Nat) (q : Req) (s : State), (Served 0x0C02 q s) ∧ (bitOf (s.rd P.CanObjState q.inst) coPENDING = true) ∧ ((s.canC (q.inst / 100)).cur = some (q.inst % 100))) ∧
    (∃ (t : Nat) (q : Req) (s : State), (Served 0x0C03 q s) ∧ ((s.canO q.inst).held = none)) ∧
    (∃ (t : Nat) (q : Req) (s : State) (b : List Byte), (Served 0x0C03 q s) ∧ ((s.canO q.inst).held = some b)) ∧
    (∃ (t : Nat) (q : Req) (s : State), (Served 0x0C04 q s) ∧ (tabSorted none s.par.active = true) ∧ (tabSorted none s.can = true) ∧ (q.body.length = 4) ∧ (fld q.body 3 1 = 0) ∧ (1 ≤ fld q.body 0 2) ∧ (fld q.body 0 2 ≤ 64) ∧ ((s.canC q.inst).rx.length ≤ fld q.body 0 2)) ∧
    (∃ (t : Nat) (q : Req) (s : State), (Served 0x0C05 q s) ∧ (s.rd P.CanState q.inst = 4)) :=
  ⟨⟨0, (req 0x0C01 107 [0, 1, 0, 0, 9, 0, 0, 0, 77]), withPar [(pkey P.CanMode 1, 1), (pkey P.CanObjKind 107, 1)], by decide +kernel⟩,
   ⟨0, (req 0x0C02 107 []), withPar [(pkey P.CanObjState 107, 1)], by decide +kernel⟩,
   ⟨0, (req 0x0C02 107 []), { withPar [(pkey P.CanObjState 107, 3)] with can := [(1, { CanRec.init with cur := some 7 })] }, by decide +kernel⟩,
   ⟨0, (req 0x0C03 107 []), up, by decide +kernel⟩,
   ⟨0, (req 0x0C03 107 []), { up with canObj := [(107, { CanObjRec.init with held := some [5] })] }, [5], by decide +kernel⟩,
   ⟨0, (req 0x0C04 1 [2, 0, 0, 0]), { up with can := [(1, { CanRec.init with rx := [[1], [2]] })] }, by decide +kernel⟩,
   ⟨0, (req 0x0C05 1 []), withPar [(pkey P.CanState 1, 4)], by decide +kernel⟩⟩

theorem wit_CanTrafficActs :
    (∃ (t : Nat) (c : Nat) (f : CanFrame) (s : State), (c < 2) ∧ (s.canOn c = false)) ∧
    (∃ (t : Nat) (c : Nat) (f : CanFrame) (o : Nat) (s : State), (c < 2) ∧ (tabSorted none s.par.active = true) ∧ (tabSorted none s.canObj = true) ∧ (s.canOn c = true) ∧ ((s.canC c).cur = none) ∧ (s.rd P.CanMode c ≠ 1 ∨ f.fdf = false) ∧ (f.rtr = false) ∧ (s.canTaker c f = some o)) ∧
    (∃ (t : Nat) (c : Nat) (d : Nat) (o : Nat) (s : State), (c < 2) ∧ (tabSorted none s.can = true) ∧ (s.canSends c = true) ∧ ((s.canC c).cur = none) ∧ ((s.advance t).canBest c = some o)) ∧
    (∃ (t : Nat) (c : Nat) (o : Nat) (s : State), (c < 2) ∧ (tabSorted none s.par.active = true) ∧ (tabSorted none s.can = true) ∧ (tabSorted none s.canObj = true) ∧ ((s.canC c).cur = some o) ∧ (o < 100)) ∧
    (∃ (t : Nat) (c : Nat) (o : Nat) (s : State), (c < 2) ∧ ((s.canC c).cur = some o) ∧ (o < 100) ∧ ((s.canO (100 * c + o)).cancels = []) ∧ (bitOf (s.rd P.CanObjFlags (100 * c + o)) 1 = false)) ∧
    (∃ (t : Nat) (c : Nat) (s : State), (c < 2) ∧ ((s.canC c).cur = none)) ∧
    (∃ (t : Nat) (c : Nat) (e : CanErr) (s : State), (c < 2) ∧ (s.canOn c = false)) ∧
    (∃ (t : Nat) (c : Nat) (e : CanErr) (s : State), (c < 2) ∧ (tabSorted none s.par.active = true) ∧ (s.canOn c = true) ∧ (e.tx = false) ∧ (e.fast = none)) ∧
    (∃ (t : Nat) (c : Nat) (o : Nat) (d : Nat) (s : State), (c < 2) ∧ (o < 100) ∧ ((s.canO (100 * c + o)).send.isSome = true) ∧ ((s.canO (100 * c + o)).deadline = some d) ∧ (d ≤ (s.advance t).time.tick) ∧ ((s.canC c).cur ≠ some o)) ∧
    (∃ (t : Nat) (c : Nat) (s : State), (c < 2) ∧ (tabSorted none s.par.active = true) ∧ (s.rd P.CanState c = 1) ∧ (s.tec c < 128) ∧ (s.rec' c < 128)) ∧
    (∃ (t : Nat) (c : Nat) (s : State), (c < 2) ∧ (tabSorted none s.par.active = true) ∧ (tabSorted none s.can = true) ∧ (s.rd P.CanState c = 4) ∧ (s.rd P.CanAutoRecover c ≠ 0 ∨ (s.canC c).recovers ≠ [])) ∧
    (∃ (t : Nat) (c : Nat) (s : State), (c < 2) ∧ (tabSorted none s.can = true) ∧ (bitOf (s.rd P.BellState c) 0 = true) ∧ ((((s.advance t).lineNs : Int) - roundHE (s.rf P.BellPhase c * 1000)) % (s.bellNs c) ≤ 1) ∧ ((s.canC c).bLast ≠ some ((((s.advance t).lineNs : Int) - roundHE (s.rf P.BellPhase c * 1000)) / (s.bellNs c))) ∧ ((s.canC c).cur = none) ∧ ((s.canC c).bWait = 0)) :=
  ⟨⟨0, 1, ⟨false, 5, false, false, false, false, 1, [9], 0⟩, up, by decide +kernel⟩,
   ⟨0, 1, ⟨false, 5, false, false, false, false, 1, [9], 0⟩, 7, withPar [(pkey P.CanMode 1, 1), (pkey P.CanState 1, 2), (pkey P.CanObjKind 107, 2), (pkey P.CanObjId 107, 5), (pkey P.CanObjFlags 107, 16)], by decide +kernel⟩,
   ⟨0, 1, 150, 100, { withPar [(pkey P.CanMode 1, 1), (pkey P.CanState 1, 2)] with can := [(1, { CanRec.init with bWait := 1 })] }, by decide +kernel⟩,
   ⟨0, 1, 7, { up with can := [(1, { CanRec.init with cur := some 7 })] }, by decide +kernel⟩,
   ⟨0, 1, 7, { up with can := [(1, { CanRec.init with cur := some 7 })] }, by decide +kernel⟩,
   ⟨0, 1, up, by decide +kernel⟩,
   ⟨0, 1, ⟨1, false, false, none⟩, up, by decide +kernel⟩,
   ⟨0, 1, ⟨1, false, false, none⟩, withPar [(pkey P.CanState 1, 2)], by decide +kernel⟩,
   ⟨0, 1, 7, 0, { up with canObj := [(107, { CanObjRec.init with send := some (1, req 0x0C01 107 []), deadline := some 0 })] }, by decide +kernel⟩,
   ⟨0, 1, withPar [(pkey P.CanState 1, 1)], by decide +kernel⟩,
   ⟨0, 1, withPar [(pkey P.CanAutoRecover 1, 1), (pkey P.CanState 1, 4)], by decide +kernel⟩,
   ⟨0, 1, withPar [(pkey P.BellState 1, 1)], by decide +kernel⟩⟩

theorem wit_TimeServiceActs :
    (∃ (t : Nat) (q : Req) (s : State), (Served 0x0C20 q s) ∧ (s.rd P.NtServoMode 0 ≠ 2) ∧ (bitOf (fld q.body 10 1) 0 = false) ∧ (absR ((fldI q.body 0 8 * 65536 + fld q.body 8 2) : Rat) ≤ s.jump16)) ∧
    (∃ (t : Nat) (q : Req) (s : State), (Served 0x0C20 q s) ∧ (bitOf (fld q.body 10 1) 0 = true)) ∧
    (∃ (t : Nat) (q : Req) (s : State), (Served 0x0C20 q s) ∧ (s.rd P.NtServoMode 0 ≠ 2) ∧ (bitOf (fld q.body 10 1) 0 = false) ∧ (s.jump16 < absR ((fldI q.body 0 8 * 65536 + fld q.body 8 2) : Rat))) ∧
    (∃ (t : Nat) (m : PtpMsg) (s : State), (s.nt.sel ≠ some m.source)) ∧
    (∃ (t : Nat) (m : PtpMsg) (s : State), (m.domain = s.rd P.NtDomain 0) ∧ (s.pr.restart = false) ∧ (s.boot.ready = true) ∧ (s.nt.sel = some m.source) ∧ (m.twoStep = true)) ∧
    (∃ (t : Nat) (m : PtpMsg) (s : State), (m.domain = s.rd P.NtDomain 0) ∧ (s.pr.restart = false) ∧ (s.boot.ready = true) ∧ (tabSorted none s.par.active = true) ∧ (s.nt.sel = some m.source) ∧ (m.twoStep = false) ∧ (s.rd P.NtServoMode 0 ≠ 2)) ∧
    (∃ (t : Nat) (m : PtpMsg) (s : State), (m.domain = s.rd P.NtDomain 0) ∧ (s.pr.restart = false) ∧ (s.boot.ready = true) ∧ (tabSorted none s.par.active = true) ∧ (s.nt.sel = some m.source) ∧ (m.twoStep = false) ∧ (s.rd P.NtServoMode 0 = 2)) ∧
    (∃ (t : Nat) (m : PtpMsg) (s : State), (s.nt.sync = none)) ∧
    (∃ (t : Nat) (m : PtpMsg) (i : Nat) (c : Int) (s : State), (m.domain = s.rd P.NtDomain 0) ∧ (s.pr.restart = false) ∧ (s.boot.ready = true) ∧ (s.nt.sel = some m.source) ∧ (s.nt.sync = some (m.seq, i, c))) ∧
    (∃ (t : Nat) (m : PtpMsg) (s : State), (s.nt.req = none)) ∧
    (∃ (t : Nat) (m : PtpMsg) (out : Nat) (p : Nat × Nat) (s : State), (m.domain = s.rd P.NtDomain 0) ∧ (s.pr.restart = false) ∧ (s.boot.ready = true) ∧ (s.nt.sel = some m.source) ∧ (m.requester = Config.clockIdentity.toNat) ∧ (s.nt.req = some (m.seq, out)) ∧ (s.nt.lastPair = some p)) ∧
    (∃ (t : Nat) (m : PtpMsg) (s : State), (m.domain = s.rd P.NtDomain 0) ∧ (s.pr.restart = false) ∧ (s.boot.ready = true) ∧ (m.source ≠ Config.clockIdentity.toNat)) ∧
    (∃ (t : Nat) (m : PtpMsg) (x : PtpMaster) (s : State), (m.domain = s.rd P.NtDomain 0) ∧ (s.pr.restart = false) ∧ (s.boot.ready = true) ∧ (m.source ≠ Config.clockIdentity.toNat) ∧ (tabSorted none s.par.active = true) ∧ (s.rd P.NtRole 0 = 0) ∧ (s.nt.masters = [x]) ∧ (x.source = m.source) ∧ ((s.advance t).time.tick ≤ x.at_ + 4000000000)) ∧
    (∃ (t : Nat) (x : Nat) (s : State), (s.pr.restart = false) ∧ (s.boot.ready = true) ∧ (tabSorted none s.par.active = true) ∧ (s.nt.sel = some x) ∧ (s.nt.lost = false) ∧ (s.nt.annAt + s.rd P.NtAnnounceTimeout 0 * 1000000000 ≤ (s.advance t).time.tick)) ∧
    (∃ (t : Nat) (s : State), (s.nt.sel = none) ∧ (s.nt.own = true)) ∧
    (∃ (t : Nat) (k : Nat) (s : State), (k < 3) ∧ (s.pr.restart = false) ∧ (s.boot.ready = true) ∧ (s.nt.sentAt.length = 3) ∧ (s.nt.sentAt.getD k none = none) ∧ ((if k = 2 then s.nt.sel.isSome else s.nt.own) = true)) ∧
    (∃ (t : Nat) (m : PtpMsg) (s : State), (m.domain = s.rd P.NtDomain 0) ∧ (s.pr.restart = false) ∧ (s.boot.ready = true) ∧ (s.nt.own = true)) :=
  ⟨⟨0, (req 0x0C20 0 [5, 0, 0, 0, 0, 0, 0, 0, 0, 0, 0, 0]), withPar [(pkey P.NtServoMode 0, 1)], by decide +kernel⟩,
   ⟨0, (req 0x0C20 0 [5, 0, 0, 0, 0, 0, 0, 0, 0, 0, 1, 0]), up, by decide +kernel⟩,
   ⟨0, (req 0x0C20 0 [0, 0, 0, 0, 9, 0, 0, 0, 0, 0, 0, 0]), withPar [(pkey P.NtServoMode 0, 1)], by decide +kernel⟩,
   ⟨0, { port := 0, domain := 0, kind := 0, seq := 4, source := 9, corr := 0, origin := 65536, stamp := 131072, twoStep := false, gm := [], logInt := 0, requester := 0 }, up, by decide +kernel⟩,
   ⟨0, { port := 0, domain := 0, kind := 0, seq := 4, source := 9, corr := 0, origin := 65536, stamp := 131072, twoStep := true, gm := [], logInt := 0, requester := 0 }, { up with nt := { NtRec.init with sel := some 9 } }, by decide +kernel⟩,
   ⟨0, { port := 0, domain := 0, kind := 0, seq := 4, source := 9, corr := 0, origin := 65536, stamp := 131072, twoStep := false, gm := [], logInt := 0, requester := 0 }, { withPar [(pkey P.NtServoMode 0, 1)] with nt := { NtRec.init with sel := some 9 } }, by decide +kernel⟩,
   ⟨0, { port := 0, domain := 0, kind := 0, seq := 4, source := 9, corr := 0, origin := 65536, stamp := 131072, twoStep := false, gm := [], logInt := 0, requester := 0 }, { withPar [(pkey P.NtServoMode 0, 2)] with nt := { NtRec.init with sel := some 9 } }, by decide +kernel⟩,
   ⟨0, { port := 0, domain := 0, kind := 0, seq := 4, source := 9, corr := 0, origin := 65536, stamp := 131072, twoStep := false, gm := [], logInt := 0, requester := 0 }, up, by decide +kernel⟩,
   ⟨0, { port := 0, domain := 0, kind := 0, seq := 4, source := 9, corr := 0, origin := 65536, stamp := 131072, twoStep := false, gm := [], logInt := 0, requester := 0 }, 70000, 0, { up with nt := { NtRec.init with sel := some 9, sync := some (4, 70000, 0) } }, by decide +kernel⟩,
   ⟨0, { port := 0, domain := 0, kind := 0, seq := 4, source := 9, corr := 0, origin := 65536, stamp := 131072, twoStep := false, gm := [], logInt := 0, requester := 0 }, up, by decide +kernel⟩,
   ⟨0, { port := 0, domain := 0, kind := 0, seq := 4, source := 9, corr := 0, origin := 65536, stamp := 131072, twoStep := false, gm := [], logInt := 0, requester := Config.clockIdentity.toNat }, 50, (10, 20), { up with nt := { NtRec.init with sel := some 9, req := some (4, 50), lastPair := some (10, 20) } }, by decide +kernel, by decide +kernel, by decide +kernel, by decide +kernel, rfl, by decide +kernel, by decide +kernel⟩,
   ⟨0, { port := 0, domain := 0, kind := 0, seq := 4, source := Config.clockIdentity.toNat + 1, corr := 0, origin := 65536, stamp := 131072, twoStep := false, gm := [], logInt := 0, requester := 0 }, up, by decide +kernel, by decide +kernel, by decide +kernel, Nat.succ_ne_self _⟩,
   ⟨0, { port := 0, domain := 0, kind := 0, seq := 4, source := Config.clockIdentity.toNat + 1, corr := 0, origin := 65536, stamp := 131072, twoStep := false, gm := [], logInt := 0, requester := 0 }, { gm := [], source := Config.clockIdentity.toNat + 1, prevAt := none, at_ := 0 }, { up with nt := { NtRec.init with masters := [{ gm := [], source := Config.clockIdentity.toNat + 1, prevAt := none, at_ := 0 }] } }, by decide +kernel, by decide +kernel, by decide +kernel, Nat.succ_ne_self _, by decide +kernel, by decide +kernel, rfl, rfl, by decide +kernel⟩,
   ⟨9000000000, 9, { up with nt := { NtRec.init with sel := some 9 } }, by decide +kernel⟩,
   ⟨0, { up with nt := { NtRec.init with own := true } }, by decide +kernel⟩,
   ⟨0, 1, { up with nt := { NtRec.init with own := true } }, by decide +kernel⟩,
   ⟨0, { port := 0, domain := 0, kind := 0, seq := 4, source := 9, corr := 0, origin := 65536, stamp := 131072, twoStep := false, gm := [], logInt := 0, requester := 0 }, { up with nt := { NtRec.init with own := true } }, by decide +kernel⟩⟩

theorem wit_TransparentClockAndRollCallAct :
    (∃ (t : Nat) (m : PtpMsg) (p r : Nat) (s : State), (p < 2) ∧ (s.rb P.NtTcEnable 0 = false)) ∧
    (∃ (t : Nat) (m : PtpMsg) (p r : Nat) (s : State), (p < 2) ∧ (s.rb P.NtTcEnable 0 = true) ∧ (m.kind = 0 ∧ m.twoStep = false ∨ m.kind = 1 ∨ m.kind = 9)) ∧
    (∃ (t : Nat) (m : PtpMsg) (p r x : Nat) (s : State), (p < 2) ∧ (s.rb P.NtTcEnable 0 = true) ∧ (m.kind = 8) ∧ (s.nt.transit = [([m.source, m.seq, m.domain, p], x, (s.advance t).time.tick)])) ∧
    (∃ (t : Nat) (e : List Nat × Nat × Nat) (s : State), (tabSorted none s.par.active = true) ∧ (s.nt.transit = [e]) ∧ (e.2.2 + 100000000 < (s.advance t).time.tick)) ∧
    (∃ (t : Nat) (s : State), (s.roll.startAt = none) ∧ ((∀ x ∈ s.roll.beaconAt, x + 100000000 ≤ (s.advance t).time.tick))) ∧
    (∃ (t : Nat) (p i : Nat) (s : State), (p < 2) ∧ (s.roll.startAt = none) ∧ (tabSorted none s.par.active = true) ∧ (s.roll.seen.length = 2)) ∧
    (∃ (t : Nat) (p x : Nat) (s : State), (p < 2) ∧ (s.roll.startAt = none) ∧ (tabSorted none s.par.active = true) ∧ (s.roll.seen.getD p none = some x) ∧ (x + 350000000 < (s.advance t).time.tick) ∧ (s.rd P.LineNeighbour p ≠ 0)) ∧
    (∃ (t : Nat) (p x : Nat) (s : State), (p < 2) ∧ (s.roll.startAt = none) ∧ (s.roll.seen.getD p none = some x) ∧ ((s.advance t).time.tick ≤ x + 350000000)) ∧
    (∃ (t : Nat) (s : State), (tabSorted none s.par.active = true) ∧ (s.roll.startAt = none) ∧ (s.rd P.LineNeighbour 0 = 0) ∧ (s.roll.called = false) ∧ (s.roll.stableAt + 2000000000 ≤ (s.advance t).time.tick)) ∧
    (∃ (t : Nat) (p : Nat) (f : RollFrame) (s : State), (p = 0) ∧ (s.roll.startAt = none) ∧ (tabSorted none s.par.active = true) ∧ (f.kind = 3) ∧ (f.addr < 32) ∧ (s.rd P.LineNeighbour 1 ≠ 0) ∧ (s.rd P.LineEnable 0 = 0)) ∧
    (∃ (t : Nat) (p : Nat) (f : RollFrame) (s : State), (p = 0) ∧ (s.roll.startAt = none) ∧ (tabSorted none s.par.active = true) ∧ (f.kind = 3) ∧ (f.addr < 32) ∧ (s.rd P.LineNeighbour 1 = 0) ∧ (s.rd P.LineNeighbour 0 ≠ 0) ∧ (s.rd P.LineEnable 0 = 0)) ∧
    (∃ (t : Nat) (p : Nat) (f : RollFrame) (s : State), (p < 2) ∧ (s.roll.startAt = none) ∧ (f.kind = 5) ∧ (s.rd P.LineNeighbour 0 = 0)) ∧
    (∃ (t : Nat) (p : Nat) (f : RollFrame) (x : Nat) (s : State), (p < 2) ∧ (tabSorted none s.par.active = true) ∧ (s.roll.startAt = some x) ∧ (s.roll.addrSent = true) ∧ (s.rd P.LineNeighbour 0 = 0) ∧ (f.kind = 2) ∧ (f.id < s.unitId)) ∧
    (∃ (t : Nat) (x : Nat) (s : State), (tabSorted none s.par.active = true) ∧ (s.roll.startAt = some x) ∧ (s.roll.addrSent = true) ∧ (s.rd P.LineNeighbour 0 = 0) ∧ (x + 100000000 ≤ (s.advance t).time.tick)) ∧
    (∃ (t : Nat) (s : State), (s.roll.startAt = none)) ∧
    (∃ (t : Nat) (x : Nat) (s : State), (s.roll.startAt = none) ∧ (s.roll.retryAt = some x) ∧ (x ≤ (s.advance t).time.tick)) ∧
    (∃ (t : Nat) (q : Req) (s : State), (Served 0x0C21 q s) ∧ (s.rd P.LineNeighbour 0 = 0)) ∧
    (∃ (t : Nat) (q : Req) (s : State), (Served 0x0C21 q s) ∧ (s.rd P.LineNeighbour 0 ≠ 0)) :=
  ⟨⟨0, { port := 0, domain := 0, kind := 0, seq := 4, source := 9, corr := 0, origin := 65536, stamp := 131072, twoStep := false, gm := [], logInt := 0, requester := 0 }, 0, 77, withPar [(pkey P.NtTcEnable 0, 0)], by decide +kernel⟩,
   ⟨0, { port := 0, domain := 0, kind := 0, seq := 4, source := 9, corr := 0, origin := 65536, stamp := 131072, twoStep := false, gm := [], logInt := 0, requester := 0 }, 0, 77, withPar [(pkey P.NtTcEnable 0, 1)], by decide +kernel⟩,
   ⟨0, { port := 0, domain := 0, kind := 8, seq := 4, source := 9, corr := 0, origin := 65536, stamp := 131072, twoStep := false, gm := [], logInt := 0, requester := 0 }, 0, 77, 55, { withPar [(pkey P.NtTcEnable 0, 1)] with nt := { NtRec.init with transit := [([9, 4, 0, 0], 55, 0)] } }, by decide +kernel⟩,
   ⟨100000001, ([9, 4, 0, 0], 55, 0), { up with nt := { NtRec.init with transit := [([9, 4, 0, 0], 55, 0)] } }, by decide +kernel⟩,
   ⟨100000000, { up with roll := { RollRec.init with beaconAt := some 0 } }, by decide +kernel⟩,
   ⟨0, 1, 77, up, by decide +kernel⟩,
   ⟨350000001, 1, 0, { withPar [(pkey P.LineNeighbour 1, 77)] with roll := { RollRec.init with seen := [none, some 0] } }, by decide +kernel⟩,
   ⟨0, 1, 0, { up with roll := { RollRec.init with seen := [none, some 0] } }, by decide +kernel⟩,
   ⟨2000000000, up, by decide +kernel⟩,
   ⟨0, 0, ⟨3, 1, 5, 4⟩, withPar [(pkey P.LineNeighbour 1, 77)], by decide +kernel⟩,
   ⟨0, 0, ⟨3, 1, 5, 4⟩, withPar [(pkey P.LineNeighbour 0, 77)], by decide +kernel⟩,
   ⟨0, 1, ⟨5, 1, 5, 4⟩, up, by decide +kernel⟩,
   ⟨0, 0, { kind := 2, addr := 0, id := 5, num := 4 }, 0, { withPar [(pkey P.SysUnitId 0, 9)] with roll := { RollRec.init with startAt := some 0, addrSent := true } }, by decide +kernel⟩,
   ⟨100000000, 0, { up with roll := { RollRec.init with startAt := some 0, addrSent := true } }, by decide +kernel⟩,
   ⟨0, up, by decide +kernel⟩,
   ⟨0, 0, { up with roll := { RollRec.init with retryAt := some 0 } }, by decide +kernel⟩,
   ⟨0, (req 0x0C21 0 []), up, by decide +kernel⟩,
   ⟨0, (req 0x0C21 0 []), withPar [(pkey P.LineNeighbour 0, 77)], by decide +kernel⟩⟩

theorem wit_ResetsAct :
    (∃ (t : Nat) (ns : Nat) (s : State), (5000000 ≤ ns)) ∧
    (∃ (t : Nat) (ns : Nat) (s : State), (ns < 5000000)) ∧
    (∃ (t : Nat) (s : State), ((s.advance t).watchdogDue = true)) ∧
    (∃ (t : Nat) (s : State), ((s.advance t).watchdogDue = false)) ∧
    (∃ (t : Nat) (q : Req) (s : State), (Served 0x010A q s) ∧ (bitOf (fld q.body 0 1) 0 = true)) ∧
    (∃ (t : Nat) (q : Req) (s : State), (Served 0x010A q s) ∧ (bitOf (fld q.body 0 1) 0 = false) ∧ (s.rb P.FeState 0 = true) ∧ (s.boot.due ≠ 1)) ∧
    (∃ (t : Nat) (s : State), (s.boot.phase = 0) ∧ (tabSorted none s.par.active = true)) ∧
    (∃ (t : Nat) (s : State), (s.boot.phase ≠ 0)) ∧
    (∃ (t : Nat) (s : State), (s.boot.phase = 1) ∧ (s.rd P.SysIslandState 0 = 0) ∧ (s.boot.islBadAt = none)) ∧
    (∃ (t : Nat) (s : State), (s.rd P.SysIslandState 0 ≠ 0)) ∧
    (∃ (t : Nat) (s : State), (s.boot.phase ≠ 1)) :=
  ⟨⟨0, 5000000, up, by decide +kernel⟩,
   ⟨0, 4999999, up, by decide +kernel⟩,
   ⟨500000000, { up with boot := { BootState.init with phase := 2, ready := true, switch := some (1, req 0 0 [], 0) } }, by decide +kernel⟩,
   ⟨0, up, by decide +kernel⟩,
   ⟨0, (req 0x010A 0 [1, 0, 0, 0]), up, by decide +kernel⟩,
   ⟨0, (req 0x010A 0 [0, 0, 0, 0]), withPar [(pkey P.FeState 0, 3)], by decide +kernel⟩,
   ⟨0, State.reset, by decide +kernel⟩,
   ⟨0, up, by decide +kernel⟩,
   ⟨0, { up with boot := { BootState.init with phase := 1, ready := false } }, by decide +kernel⟩,
   ⟨0, withPar [(pkey P.SysIslandState 0, 1)], by decide +kernel⟩,
   ⟨0, up, by decide +kernel⟩⟩

theorem wit_BootRecordSuppliesAndCagesAct :
    (∃ (t : Nat) (q : Req) (s : State), (Served 0x010B q s)) ∧
    (∃ (t : Nat) (j : StoreJob) (r : List StoreJob) (s : State), (s.boot.storing = j :: r)) ∧
    (∃ (t : Nat) (s : State), (s.boot.storing = [])) ∧
    (∃ (t : Nat) (n : Nat) (s : State), (n < 10) ∧ (bitOf (s.rd P.SysAuxSupplyState 0) n = false)) ∧
    (∃ (t : Nat) (n : Nat) (o : Bool) (s : State), (n < 10) ∧ (bitOf (s.rd P.SysAuxSupplyState 0) n = true) ∧ (s.boot.auxAt.getD n 0 + 1000000000 ≤ (s.advance t).time.tick) ∧ (o = false)) ∧
    (∃ (t : Nat) (n : Nat) (o : Bool) (s : State), (n < 10) ∧ ((s.advance t).time.tick < s.boot.auxAt.getD n 0 + 1000000000)) ∧
    (∃ (t : Nat) (n : Nat) (r : Bool) (i : List Byte) (s : State), (n < 4)) ∧
    (∃ (t : Nat) (n : Nat) (f : Bool) (s : State), (n < 4) ∧ (f = false)) :=
  ⟨⟨0, (req 0x010B 0 [1, 0, 0, 0]), up, by decide +kernel⟩,
   ⟨0, ⟨[7], none⟩, [], { up with boot := { BootState.init with phase := 2, ready := true, storing := [⟨[7], none⟩] } }, by decide +kernel⟩,
   ⟨0, up, by decide +kernel⟩,
   ⟨0, 9, up, by decide +kernel⟩,
   ⟨1000000000, 9, false, withPar [(pkey P.SysAuxSupplyState 0, 512)], by decide +kernel⟩,
   ⟨999999999, 9, false, withPar [(pkey P.SysAuxSupplyState 0, 512)], by decide +kernel⟩,
   ⟨0, 3, true, (List.replicate 12 0 ++ [13]), up, by decide +kernel⟩,
   ⟨0, 3, false, up, by decide +kernel⟩⟩

theorem wit_IslandsAct :
    (∃ (t : Nat) (m : IslandMeas) (s : State), (m.full = true) ∧ (clockBits m.clock = 0) ∧ (apart m.supply 60 = 0) ∧ (apart m.temp 20000 = 0) ∧ (tabSorted none s.par.active = true)) ∧
    (∃ (t : Nat) (m : IslandMeas) (s : State), (tabSorted none s.par.active = true) ∧ (m.full = false) ∧ (s.rd P.SysIslandState 0 = 0) ∧ (clockBits m.clock ≠ 0)) ∧
    (∃ (t : Nat) (i : Nat) (s : State), (i < 4)) ∧
    (∃ (t : Nat) (i : Nat) (s : State), (5 ≤ i) ∧ (i < 9)) ∧
    (∃ (t : Nat) (i : Nat) (s : State), (i < 4) ∧ (bitOf s.mod.halted i = false)) ∧
    (∃ (t : Nat) (i : Nat) (s : State), (i < 4) ∧ (bitOf s.mod.halted i = true)) ∧
    (∃ (t : Nat) (i : Nat) (s : State), (5 ≤ i) ∧ (i < 8)) ∧
    (∃ (t : Nat) (i : Nat) (s : State), (i = 4) ∧ (tabSorted none s.par.active = true)) :=
  ⟨⟨0, ⟨true, List.replicate 9 0, List.replicate 9 0, List.replicate 9 0⟩, up, by decide +kernel⟩,
   ⟨0, ⟨false, [0, 40000], [], []⟩, up, by decide +kernel⟩,
   ⟨0, 3, up, by decide +kernel⟩,
   ⟨0, 8, up, by decide +kernel⟩,
   ⟨0, 3, up, by decide +kernel⟩,
   ⟨0, 3, { up with mod := { up.mod with halted := 9 } }, by decide +kernel⟩,
   ⟨0, 7, up, by decide +kernel⟩,
   ⟨0, 4, up, by decide +kernel⟩⟩

theorem wit_FirmwareRequestsAct :
    (∃ (t : Nat) (q : Req) (s : State), (Served 0x0F10 q s) ∧ (8 ≤ q.body.length) ∧ ((fld q.body 0 1) < 2) ∧ (fld q.body 4 4 + (q.body.length - 8) ≤ 134217728) ∧ (s.slotBusy (fld q.body 0 1) = false) ∧ (bitOf (fld q.body 1 1) 0 = false)) ∧
    (∃ (t : Nat) (q : Req) (s : State), (Served 0x0F10 q s) ∧ (q.body.length = 8) ∧ ((fld q.body 0 1) < 2) ∧ (fld q.body 4 4 ≤ 134217728) ∧ (s.slotBusy (fld q.body 0 1) = false) ∧ (bitOf (fld q.body 1 1) 0 = true) ∧ (s.boot.slots.length = 2) ∧ (tabSorted none s.par.active = true)) ∧
    (∃ (t : Nat) (q : Req) (s : State), (Served 0x0F11 q s) ∧ ((fld q.body 0 1) < 2)) ∧
    (∃ (t : Nat) (q : Req) (s : State), (Served 0x0F12 q s) ∧ ((fld q.body 0 1) < 2) ∧ (s.rd P.SysBootSlot 0 ≠ (fld q.body 0 1)) ∧ (s.openRequests = false) ∧ (s.host.assemblies = []) ∧ (s.par.staged = []) ∧ (s.boot.switch = none) ∧ (s.boot.due ≠ 2) ∧ (tabSorted none s.par.active = true)) ∧
    (∃ (t : Nat) (k : Nat) (q : Req) (x : Nat) (s : State), (tabSorted none s.par.active = true) ∧ (s.boot.switch = some (k, q, x))) ∧
    (∃ (t : Nat) (s : State), (s.boot.switch = none)) ∧
    (∃ (t : Nat) (x : Nat) (s : State), (tabSorted none s.par.active = true) ∧ (s.boot.trial = some x) ∧ (x + 60000000000 ≤ (s.advance t).time.tick) ∧ ((s.advance t).watchdogDue = false)) ∧
    (∃ (t : Nat) (x : Nat) (s : State), (s.boot.trial = some x) ∧ ((s.advance t).time.tick < x + 60000000000)) :=
  ⟨⟨0, (req 0x0F10 0 [1, 0, 0, 0, 0, 0, 0, 0, 77]), up, by decide +kernel⟩,
   ⟨0, (req 0x0F10 0 [1, 1, 0, 0, 0, 0, 0, 0]), up, by decide +kernel⟩,
   ⟨0, (req 0x0F11 0 [1, 0, 0, 0]), up, by decide +kernel⟩,
   ⟨0, (req 0x0F12 0 [1, 0, 0, 0]), up, by decide +kernel⟩,
   ⟨0, 1, (req 0 0 []), 0, { up with boot := { BootState.init with phase := 2, ready := true, switch := some (1, req 0 0 [], 0) } }, by decide +kernel⟩,
   ⟨0, up, by decide +kernel⟩,
   ⟨60000000000, 0, { up with boot := { BootState.init with phase := 2, ready := true, trial := some 0 } }, by decide +kernel⟩,
   ⟨0, 0, { up with boot := { BootState.init with phase := 2, ready := true, trial := some 0 } }, by decide +kernel⟩⟩

theorem wit_FaultAndGroupRequestsAct :
    (∃ (t : Nat) (q : Req) (s : State), (Served 0x0F01 q s) ∧ (fld q.body 0 1 = 0) ∧ ((s.advance t).axisFaultHolds q.inst = none)) ∧
    (∃ (t : Nat) (q : Req) (s : State), (Served 0x0F01 q s) ∧ (fld q.body 0 1 = 0) ∧ (bitOf (s.rd P.FbState q.inst) fbLOSS = true)) ∧
    (∃ (t : Nat) (q : Req) (s : State), (Served 0x0F01 q s) ∧ (fld q.body 0 1 = 1) ∧ (s.islandState = 0)) ∧
    (∃ (t : Nat) (q : Req) (s : State), (Served 0x0F02 q s) ∧ (1 ≤ fld q.body 0 1) ∧ (fld q.body 0 1 ≤ 16)) ∧
    (∃ (t : Nat) (q : Req) (s : State) (x : Staged), (Served 0x0F03 q s) ∧ (fld q.body 0 1 = 0xFF) ∧ ((s.advance t).late q.body 4 = false) ∧ (s.groupSet q.inst = some x) ∧ (x.pending = none) ∧ (x.keys.any s.keyLocked = false) ∧ ((∀ a < 128, s.rd P.AxisGroup a = q.inst → (s.cplr a).pend = none))) :=
  ⟨⟨0, (req 0x0F01 3 [0, 0, 0, 0]), up, by decide +kernel⟩,
   ⟨0, (req 0x0F01 3 [0, 0, 0, 0]), withPar [(pkey P.FbState 3, 2 ^ fbLOSS)], by decide +kernel⟩,
   ⟨0, (req 0x0F01 0 [1, 0, 0, 0]), up, by decide +kernel⟩,
   ⟨0, (req 0x0F02 0 [16, 0, 0, 0]), up, by decide +kernel⟩,
   ⟨0, (req 0x0F03 3 [255, 0, 0, 0, 255, 255, 255, 255, 0, 0, 0, 0]), { up with par := { up.par with staged := [{ scope := 1, inst := 3, fam := 0, keys := [], pending := none }] } }, { scope := 1, inst := 3, fam := 0, keys := [], pending := none }, by decide +kernel, by decide +kernel, by decide +kernel, by decide +kernel, by decide +kernel, by decide +kernel, fun a _ _ => rfl⟩⟩

theorem wit_FaultClearAndGroupChangeTakeEffect :
    (∃ (t : Nat) (q : Req) (s : State), (Served 0x0F01 q s) ∧ (s.ordered) ∧ (fld q.body 0 1 = 0) ∧ ((s.advance t).axisFaultHolds q.inst = none)) ∧
    (∃ (t : Nat) (q : Req) (s : State) (b : Nat) (l : List Nat), (Served 0x0F01 q s) ∧ (fld q.body 0 1 = 0) ∧ (bitOf (s.rd P.FbState q.inst) fbLOSS = false) ∧ (bitOf (s.rd P.FbState q.inst) fbFREEZE = false) ∧ (s.cellFault q.inst = false) ∧ (sortNat (s.axis q.inst).blockedBy = b :: l)) ∧
    (∃ (t : Nat) (q : Req) (s : State), (Served 0x0F01 q s) ∧ (fld q.body 0 1 = 1) ∧ (s.islandState ≠ 0)) ∧
    (∃ (t : Nat) (q : Req) (s : State), (Served 0x0F03 q s) ∧ (fld q.body 0 1 = 0xFF) ∧ ((s.advance t).late q.body 4 = false) ∧ (s.groupSet q.inst = none)) ∧
    (∃ (t : Nat) (q : Req) (s : State) (c : Nat) (x : Staged), (Served 0x0F03 q s) ∧ (fld q.body 0 1 ≤ 7) ∧ ((s.advance t).switchTgt q.body 4 = (c, false)) ∧ (s.groupSet q.inst = some x) ∧ (x.pending = none) ∧ (x.keys.any s.keyLocked = false) ∧ ((∀ a < 128, s.rd P.AxisGroup a = q.inst → (s.cplr a).pend = none)) ∧ (s.link.ann = none) ∧ (s.mode (fld q.body 0 1) ≠ []) ∧ (s.rd P.ElkState 0 = elkRun) ∧ (s.movesOthers q.inst (fld q.body 0 1) = false)) :=
  ⟨⟨0, (req 0x0F01 3 [0, 0, 0, 0]), withPar [(pkey P.FbLatched 3, 768), (pkey P.MonVerdict 3, 3), (pkey P.AxisHoldReason 3, 10)], by decide +kernel⟩,
   ⟨0, (req 0x0F01 3 [0, 0, 0, 0]), { up with ax := [(3, { AxisRec.init with blockedBy := [9, 7] })] }, 7, [9], by decide +kernel⟩,
   ⟨0, (req 0x0F01 0 [1, 0, 0, 0]), withPar [(pkey P.SysIslandState 0, 1)], by decide +kernel⟩,
   ⟨0, (req 0x0F03 3 [255, 0, 0, 0, 255, 255, 255, 255, 0, 0, 0, 0]), up, by decide +kernel⟩,
   ⟨0, (req 0x0F03 3 [2, 0, 0, 0, 0, 0, 0, 0, 0, 0, 0, 0]), { withPar [(pkey P.ElkState 0, 7)] with par := { active := [(pkey P.ElkState 0, 7)], shadow := up.par.shadow, commits := [], nextId := 1, staged := [{ scope := 1, inst := 3, fam := 0, keys := [], pending := none }] }, link := { LinkState.reset with modes := [(2, [1])] } }, 10, { scope := 1, inst := 3, fam := 0, keys := [], pending := none }, by decide +kernel, by decide +kernel, by decide +kernel, by decide +kernel, by decide +kernel, by decide +kernel, fun a _ _ => rfl, by decide +kernel, by decide +kernel, by decide +kernel, by decide +kernel⟩⟩

end

end Sys2Proof.Tests
end

/-! What a read of a parameter returns and leaves behind: the copy a read names (R35), the parameters that report other state, and a request
that is accepted. -/

section

namespace Sys2Proof.Machine

/-! ### The parameters whose value is computed where it is read -/

/-- The parameters that report other state: `State.value` computes each of them, and none of them is a register of its own. -/
def reportParams : List Nat :=
  [P.LoopDelay, P.LoopCurGainMax, P.GmApplied, P.CmpState, P.CplState, P.MstChecksum, P.MstUsers, P.FeRideMinBus, P.DqOwner, P.DqDiag,
   P.GroupSupply, P.SysCycleCount, P.SysLineTime, P.SysIslandState, P.SysNextCommitCycle, P.ElkNodeIdentity, P.SafFrameAge, P.HostQueued,
   P.HostSubscribers, P.ProcCoreLoad, P.MemPartitionUsed, P.MemOutstandingPeak, P.SysSupplyVoltage, P.SysBoardTemp, P.FaultActive,
   P.FaultAxes, P.FaultLogCount, P.EventSeqLast, P.GroupState, P.UpdTrialRemaining]

/-- Every other motion parameter reads as its register. -/
theorem State.motionValue_of_not_report (s : State) {idx : Nat} (h : idx ∉ reportParams) (i : Nat) : s.motionValue idx i = s.rd idx i := by
  simp only [reportParams, List.mem_cons, not_or] at h
  simp [State.motionValue, h]

/-- Every other parameter reads as its register. -/
theorem State.value_of_not_report (s : State) {idx : Nat} (h : idx ∉ reportParams) (i : Nat) : s.value idx i = s.rd idx i := by
  have hm := s.motionValue_of_not_report h i
  simp only [reportParams, List.mem_cons, not_or] at h
  simp [State.value, hm, h]

/-- The parameter tables make no report writable. -/
theorem paramRows_report_not_rw : ∀ r ∈ paramRows, r.access = .rw → r.index ∉ reportParams := by
  decide +kernel

/-- An RW parameter of the tables reads as its register. -/
theorem State.value_of_rw (s : State) {r : ParamRow} {n : Nat} (hr : paramRow n = some r) (ha : r.access = .rw) (i : Nat) :
    s.value r.index i = s.rd r.index i :=
  s.value_of_not_report (paramRows_report_not_rw r (List.mem_of_find?_eq_some hr) ha) i

/-! ### The copy a read names -/

@[simp] theorem State.readOf_active (s : State) (r : ParamRow) (i : Nat) : s.readOf r i false = s.value r.index i := rfl

theorem State.readOf_shadow_of_rw (s : State) {r : ParamRow} (ha : r.access = .rw) (i : Nat) : s.readOf r i true = s.rdShadow r.index i := by
  simp [State.readOf, ha]

/-- RO, RC and W1C parameters have one copy. -/
theorem State.readOf_shadow_of_not_rw (s : State) {r : ParamRow} (ha : r.access ≠ .rw) (i : Nat) : s.readOf r i true = s.value r.index i := by
  simp [State.readOf, ha]

/-- The two reads of an RW parameter agree where its two copies do. -/
theorem State.readOf_shadow_eq_active (s : State) {r : ParamRow} {n : Nat} (hr : paramRow n = some r) (ha : r.access = .rw) {i : Nat}
    (h : s.rdShadow r.index i = s.rd r.index i) : s.readOf r i true = s.readOf r i false := by
  rw [s.readOf_shadow_of_rw ha, s.readOf_active, s.value_of_rw hr ha, h]

/-! ### The shadow copy -/

/-- Without a write that is not yet committed, the shadow copy is the active one. -/
theorem State.rdShadow_of_unwritten {s : State} {idx i : Nat} (h : tabGet s.par.shadow none (pkey idx i) = none) :
    s.rdShadow idx i = s.rd idx i := by
  simp [State.rdShadow, h]

theorem State.rdShadow_wrShadow_same {s : State} (h : tabSorted none s.par.shadow = true) (idx i v : Nat) :
    (s.wrShadow idx i v).rdShadow idx i = v := by
  simp [State.rdShadow, tabGet_tabSet_same _ _ _ _ h]

theorem State.rdShadow_dropShadow_same {s : State} (h : tabSorted none s.par.shadow = true) (idx i : Nat) :
    (s.dropShadow (pkey idx i)).rdShadow idx i = (s.dropShadow (pkey idx i)).rd idx i :=
  rdShadow_of_unwritten (tabGet_tabSet_same _ _ _ _ h)

/-! ### A commit takes the shadow copy -/

@[simp] theorem State.latBefore_shadow (s : State) (idx i : Nat) : (s.latBefore idx i).par.shadow = s.par.shadow := by
  unfold State.latBefore
  split
  · dsimp only
    split <;> rfl
  · rfl

@[simp] theorem State.gmKeep_shadow (s : State) (idx a : Nat) : (s.gmKeep idx a).par.shadow = s.par.shadow := by
  unfold State.gmKeep
  dsimp only
  split <;> rfl

/-- What is kept of the state before a commit leaves the shadow copies alone. -/
@[simp] theorem State.beforeWrite_shadow (s : State) (idx i : Nat) : (s.beforeWrite idx i).par.shadow = s.par.shadow := by
  simp [State.beforeWrite]

/-- A member of a load-all set waits for its load-all (R254); every other value is written and its shadow copy returns to it. -/
theorem State.takeCopy_of_taken {s : State} {idx i : Nat} (hl : (loadSet.contains idx && !s.modAtOnce i) = false) :
    s.takeCopy idx i = ((s.beforeWrite idx i).wr idx i (s.cellForm idx i (s.rdShadow idx i))).dropShadow (pkey idx i) := by
  unfold State.takeCopy
  rw [hl]
  rfl

/-- A commit makes the two copies equal. -/
theorem State.rdShadow_takeCopy_same {s : State} (h : tabSorted none s.par.shadow = true) {idx i : Nat}
    (hl : (loadSet.contains idx && !s.modAtOnce i) = false) : (s.takeCopy idx i).rdShadow idx i = (s.takeCopy idx i).rd idx i := by
  rw [takeCopy_of_taken hl]
  exact rdShadow_dropShadow_same (by simpa using h) idx i

/-! ### What a read leaves behind -/

/-- A read clears an RC parameter (R12). -/
theorem State.afterRead_rd_of_rc {s : State} (h : s.ordered) {r : ParamRow} (ha : r.access = .rc) (i : Nat) :
    (s.afterRead r i).rd r.index i = 0 := by
  simp only [State.afterRead, ha, beq_self_eq_true, if_true]
  split
  · exact State.rd_wr_same (s := { s with pr := { s.pr with peakFrom := s.time.tick } }) h _ _ _
  · exact State.rd_wr_same h _ _ _

/-! ### An accepted request -/

/-- A request that fits its opcode, whose packet broke no assembly and whose operation accepts, is answered with what the operation gives. -/
theorem runOp_of_ok {t : Nat} {q : Req} {s s' : State} {st : Nat} {b : List Byte} {f : State → OpRes}
    (hb : s.host.broken.contains q = false) (hf : f (s.advance t) = .ok st b s') :
    runOp t q s true true f = .next (s'.reply q st b) := by
  simp only [runOp, OpRes.beside, State.advance_frame, hb, hf]
  rfl

/-- The same of a parameter request, outside recovery. -/
theorem runParam_of_ok {t : Nat} {q : Req} {s s' : State} {st : Nat} {b : List Byte} {f : State → OpRes}
    (hr : s.boot.recovery = false) (hb : s.host.broken.contains q = false) (hi : paramInstOk q = true)
    (hf : f (s.advance t) = .ok st b s') : runParam t q s true f = .next (s'.reply q st b) := by
  unfold runParam
  rw [hi]
  refine runOp_of_ok hb ?_
  simp only [OpRes.beside, State.advance_frame, hr, hf]
  rfl

/-- ParamRead of a parameter and instance that the device has answers index, type, size and the copy named, and has the effect of a read. -/
theorem answers_paramRead {t : Nat} {q : Req} {s : State} {r : ParamRow} (hr : s.boot.recovery = false)
    (hb : s.host.broken.contains q = false) (hp : paramRow (fld q.body 0 2) = some r) (hi : hasInst r q.inst = true)
    (hl : q.body.length = 4) :
    Answers (.paramRead t q) s q 0
      (leBytes 2 r.index ++ leBytes 1 (typeCode r.type) ++ leBytes 1 (typeSize r.type) ++
        leBytes (typeSize r.type) ((s.advance t).readOf r q.inst (bitOf (fld q.body 2 1) 0)))
      ((s.advance t).afterRead r q.inst) := by
  have hio : paramInstOk q = true := by simp [paramInstOk, hp, hi]
  change execParamRead t q s = _
  unfold execParamRead
  rw [hl]
  exact runParam_of_ok hr hb hio (by simp [hp])

/-- Settles O14: the copy a read returns, by the access of the parameter, and what a write, a commit and a read of an RC parameter make of
that copy. -/
theorem readsReturnTheNamedCopy : Obligations.ReadsReturnTheNamedCopy := by
  unfold Obligations.ReadsReturnTheNamedCopy
  refine ⟨?active, ?shadow, ?unwritten, ?written, ?committed, ?oneCopy, ?request, ?cleared⟩
  case active => exact State.readOf_active
  case shadow => exact fun s r i ha => s.readOf_shadow_of_rw ha i
  case unwritten => exact fun s r n i hr ha h => s.readOf_shadow_eq_active hr ha (State.rdShadow_of_unwritten h)
  case written =>
    intro s r i v ha h
    exact ⟨by rw [State.readOf_shadow_of_rw _ ha, State.rdShadow_wrShadow_same h], State.wrShadow_rd ..⟩
  case committed =>
    exact fun s r n i hr ha h hl => State.readOf_shadow_eq_active _ hr ha (State.rdShadow_takeCopy_same h hl)
  case oneCopy => exact fun s r i ha => s.readOf_shadow_of_not_rw ha i
  case request => exact fun t q s r hr hb hp hi hl => answers_paramRead hr hb hp hi hl
  case cleared => exact fun s r i ho ha => State.afterRead_rd_of_rc ho ha i

end Sys2Proof.Machine

end

/-! A cycle commit from its request to its effect, and what AxisDisable makes of its axis (R32, R154). -/

section

namespace Sys2Proof.Machine

/-! ### Bits of a bitfield report -/

/-- The bit that `setBit` sets reads as it was set. -/
theorem bitOf_setBit_same (v k : Nat) (b : Bool) : bitOf (setBit v k b) k = b := by
  unfold bitOf setBit
  by_cases hv : v.testBit k = b
  · simp [hv]
  · cases b with
    | true => simp [hv, Nat.add_comm v, Nat.testBit_two_pow_add_eq]
    | false =>
      have hk : v.testBit k = true := by simpa using hv
      obtain ⟨w, rfl⟩ := Nat.exists_eq_add_of_le (Nat.ge_two_pow_of_testBit hk)
      have hw : w.testBit k = false := by simpa [Nat.testBit_two_pow_add_eq] using hk
      simp [hw, Nat.testBit_two_pow_add_eq]

@[simp] theorem State.wrBit_ax (s : State) (p i k : Nat) (b : Bool) : (s.wrBit p i k b).ax = s.ax := rfl

theorem State.ordered_wrBit {s : State} (h : s.ordered) (p i k : Nat) (b : Bool) : (s.wrBit p i k b).ordered :=
  State.ordered_wr h ..

theorem State.rd_wrBit_ne {s : State} (h : s.ordered) {p q : Nat} (hp : q ≠ p) (i j k : Nat) (b : Bool) :
    (s.wrBit p i k b).rd q j = s.rd q j :=
  State.rd_wr_ne h hp ..

theorem State.bitOf_rd_wrBit_same {s : State} (h : s.ordered) (p i k : Nat) (b : Bool) :
    bitOf ((s.wrBit p i k b).rd p i) k = b := by
  rw [State.wrBit, State.rd_wr_same h, bitOf_setBit_same]

/-! ### A request that is stored as a commit -/

/-- A served request whose operation accepts is answered with what the operation gives. -/
theorem runReq_of_ok {op t : Nat} {q : Req} {s s' : State} {st : Nat} {b : List Byte} {f : State → OpRes} (hs : Served op q s)
    (hf : f (s.advance t) = .ok st b s') : runReq op t q s f = .next (s'.reply q st b) := by
  obtain ⟨hi, hl, hb, hr⟩ := hs
  unfold runReq
  rw [hi, hl]
  refine runOp_of_ok hb ?_
  simp only [OpRes.beside, State.advance_frame, hr, hf]
  rfl

/-- A commit request that nothing speaks against is stored for its target (R32). -/
theorem State.commitReq_of_firstBad {s : State} {q : Req} {off : Nat} {c3 c2 : List (Bool × Rsn)}
    (h : firstBad (c3 ++ (s.late q.body off, ⟨0x0211, 0, 0, 0⟩) :: c2) = none) :
    s.commitReq q off c3 c2 =
      .ok 0x0102 (crBytes (s.tgt q.body off) s.par.nextId) (s.withCommit q (s.tgt q.body off)) := by
  simp only [State.commitReq, guarded, h]
  rfl

/-- AxisDisable is refused for a target that is too late, and for nothing else. -/
theorem commits_axisDisable {t : Nat} {q : Req} {s : State} (hs : Served 0x0502 q s) (hl : s.late q.body 0 = false) :
    Commits (.axisDisable t q) s q ((s.advance t).tgt q.body 0) (s.advance t) := by
  change execAxisDisable t q s = _
  exact runReq_of_ok hs (State.commitReq_of_firstBad (by simp [firstBad, hl]))

/-! ### A commit that runs -/

/-- After its effect a commit only completes. -/
theorem State.tells_runCommit (s : State) (x : Taken) : (s.applyCommit x).2.Tells (s.runCommit x) := by
  unfold State.runCommit
  split
  next h =>
    rw [h]
    split <;> exact State.tells_complete ..

/-! ### What a disabled axis becomes -/

@[simp] theorem State.endOpen_ax (s : State) (a : Nat) : (s.endOpen a).ax = s.ax := by
  unfold State.endOpen
  split <;> rfl

theorem State.ordered_endOpen {s : State} (h : s.ordered) (a : Nat) : (s.endOpen a).ordered := by
  unfold State.endOpen
  split
  · exact State.ordered_wr h ..
  · exact h

theorem State.rd_endOpen_ne {s : State} (h : s.ordered) {p : Nat} (hp : p ≠ P.MonVerdict) (a i : Nat) :
    (s.endOpen a).rd p i = s.rd p i := by
  unfold State.endOpen
  split
  · exact State.rd_wr_ne h hp ..
  · rfl

@[simp] theorem State.offSet_ax (s : State) (a : Nat) : (s.offSet a).ax = s.ax := rfl

theorem State.ordered_offSet {s : State} (h : s.ordered) (a : Nat) : (s.offSet a).ordered :=
  State.ordered_wr (State.ordered_wr h ..) ..

theorem State.rd_offSet_ne {s : State} (h : s.ordered) {p : Nat} (he : p ≠ P.ModEdgeRecords) (hm : p ≠ P.ModStatus) (a i : Nat) :
    (s.offSet a).rd p i = s.rd p i :=
  (State.rd_wr_ne (State.ordered_wr h ..) hm ..).trans (State.rd_wr_ne h he ..)

/-- The record of an axis after AxisDisable: integrators, filters, observer, references and commands at 0 (R154). -/
def AxisRec.disabled (r : AxisRec) : AxisRec :=
  { r with
    iv := 0, iId := 0, iIq := 0, dhat := 0, f1 := Biquad.zero, f2 := Biquad.zero, iqRef := 0, vPos := 0, cut := 0, cmdA := 0, cmdB := 0, pw := 0
    relink := false, openLoop := false, monStop := false }

/-- AxisDisable ends the axis's record, its state and RUN bit, then its open-loop verdict and its edge set. -/
theorem State.engDisable_eq (s : State) (a : Nat) :
    s.engDisable a =
      ((((s.setAxis a (s.axis a).disabled).wr P.AxisState a 0).wrBit P.LoopStatus a 0 false).endOpen a).offSet a := rfl

@[simp] theorem State.engDisable_ax (s : State) (a : Nat) : (s.engDisable a).ax = tabSet s.ax AxisRec.init a (s.axis a).disabled := by
  simp [State.engDisable_eq]

theorem State.ordered_engDisable {s : State} (h : s.ordered) (a : Nat) : (s.engDisable a).ordered := by
  have o : (s.setAxis a (s.axis a).disabled).ordered := h
  exact ordered_offSet (ordered_endOpen (ordered_wrBit (ordered_wr o ..) ..) a) a

/-- The verdict and the edge set apart, only AxisState and the RUN bit are written. -/
theorem State.rd_engDisable {s : State} (h : s.ordered) (a : Nat) {p : Nat} (hv : p ≠ P.MonVerdict) (he : p ≠ P.ModEdgeRecords)
    (hm : p ≠ P.ModStatus) (i : Nat) :
    (s.engDisable a).rd p i = ((s.wr P.AxisState a 0).wrBit P.LoopStatus a 0 false).rd p i := by
  have o : ((s.setAxis a (s.axis a).disabled).wr P.AxisState a 0).ordered := ordered_wr (s := s.setAxis a _) h ..
  have o' := ordered_wrBit o P.LoopStatus a 0 false
  rw [engDisable_eq, rd_offSet_ne (ordered_endOpen o' a) he hm, rd_endOpen_ne o' hv]
  rfl

theorem State.rd_engDisable_axisState {s : State} (h : s.ordered) (a : Nat) : (s.engDisable a).rd P.AxisState a = 0 := by
  rw [rd_engDisable h a (by decide) (by decide) (by decide), rd_wrBit_ne (ordered_wr h ..) (by decide), rd_wr_same h]

theorem State.bitOf_rd_engDisable_run {s : State} (h : s.ordered) (a : Nat) : bitOf ((s.engDisable a).rd P.LoopStatus a) 0 = false := by
  rw [rd_engDisable h a (by decide) (by decide) (by decide), bitOf_rd_wrBit_same (ordered_wr h ..)]

/-! ### AxisDisable at S(c) -/

section

variable {s : State} {x : Taken} (hop : x.commit.req.opcode = 0x0502)
include hop

/-- Besides what AxisDisable ends, its commit clears one hold reason at most. -/
theorem State.applyCommit_of_axisDisable :
    (s.applyCommit x).2 = s.engDisable x.commit.req.inst ∨
      (s.applyCommit x).2 = (s.engDisable x.commit.req.inst).unhold x.commit.req.inst holdLINK := by
  simp only [State.applyCommit, hop]
  split
  · exact .inl rfl
  · exact .inr rfl

theorem State.runCommit_ax_of_axisDisable : (s.runCommit x).ax = (s.engDisable x.commit.req.inst).ax := by
  have hax : (s.runCommit x).ax = (s.applyCommit x).2.ax := by
    rw [(s.tells_runCommit x).1]
  rw [hax]
  obtain h | h := applyCommit_of_axisDisable (s := s) hop
  · rw [h]
  · rw [h, State.unhold, State.wrBit_ax]

theorem State.rd_runCommit_of_axisDisable (ho : s.ordered) {p : Nat} (hp : p ≠ P.AxisHoldReason) (hl : lossCount p = false) (i : Nat) :
    (s.runCommit x).rd p i = (s.engDisable x.commit.req.inst).rd p i := by
  have oe := ordered_engDisable ho x.commit.req.inst
  obtain h | h := applyCommit_of_axisDisable (s := s) hop
  · rw [(s.tells_runCommit x).rd (h ▸ oe) hl, h]
  · rw [(s.tells_runCommit x).rd (h ▸ ordered_wrBit oe ..) hl, h, State.unhold, rd_wrBit_ne oe hp]

/-- Completion and hold reasons are no part of the axis's record. -/
theorem State.axis_runCommit_of_axisDisable (hax : tabSorted none s.ax = true) :
    (s.runCommit x).axis x.commit.req.inst = (s.axis x.commit.req.inst).disabled := by
  rw [State.axis, runCommit_ax_of_axisDisable hop, State.engDisable_ax, tabGet_tabSet_same _ _ _ _ hax]

end

/-- Settles O11: the operation refuses nothing but a late target, and what the commit does after it has ended the axis (one hold reason, its
completion) touches neither the axis's record nor its state and status. -/
theorem axisDisableEndsAnAxis : Obligations.AxisDisableEndsAnAxis := by
  unfold Obligations.AxisDisableEndsAnAxis
  refine ⟨?stored, ?run⟩
  case stored => exact fun t q s hs hl => commits_axisDisable hs hl
  case run =>
    intro x s ho hop hax
    rw [State.rd_runCommit_of_axisDisable hop ho (by decide) (by decide), State.rd_runCommit_of_axisDisable hop ho (by decide) (by decide),
      State.axis_runCommit_of_axisDisable hop hax]
    exact ⟨State.rd_engDisable_axisState ho _, State.bitOf_rd_engDisable_run ho _, rfl, rfl, rfl, rfl, rfl, rfl, rfl, rfl⟩

end Sys2Proof.Machine

end

/-! The turn of a waiting packet: its start within its TIMEOUT, and its refusal once that has expired (R364). -/

section

namespace Sys2Proof.Machine

/-- A waiting packet is refused and leaves its flow when it has a TIMEOUT that has expired, and waits on otherwise. -/
theorem exec_commandTimedOut_of_waiting {t flow pos : Nat} {q : Req} {s : State}
    (hq : (s.host.waiting.filter (·.flow == flow))[pos]? = some q) :
    exec (.commandTimedOut t flow pos) s = .next
      (if q.timeout ≠ 0 ∧ expiry q ≤ (s.advance t).time.tick then
        ((s.advance t).setHost { s.host with waiting := s.host.waiting.erase q }).reply q 0x0201 (refBytes 0 0 0)
      else s.advance t) := by
  change execCommandTimedOut t flow pos s = _
  simp only [execCommandTimedOut, onEvent, State.advance_frame, hq]

/-- The packet whose turn it is starts, the tick in which its TIMEOUT expires included (R8). -/
theorem exec_packetStart_of_next {t : Nat} {q : Req} {s : State} (hq : s.host.nextStart = some q) (hh : s.interpHalted = false)
    (hr : s.host.running.length < 8) (ht : q.timeout = 0 ∨ (s.advance t).time.tick ≤ expiry q) :
    exec (.packetStart t q.flow) s = .next ((s.advance t).startPacket q) := by
  change execPacketStart t q.flow s = _
  simp only [execPacketStart, onEvent, State.advance_frame, State.interpHalted_advance, hq, hh, hr, ht, Bool.not_false, and_self, if_true]

/-- Settles O15: at the tick of the expiry COMMAND_TIMED_OUT refuses a packet that still waits, and PACKET_START starts it. -/
theorem timedOutRequestsAreRefused : Obligations.TimedOutRequestsAreRefused := by
  unfold Obligations.TimedOutRequestsAreRefused
  refine ⟨?expired, ?untimed, ?boundary⟩
  case expired =>
    intro t f p q s hq h0 he
    rw [exec_commandTimedOut_of_waiting hq, if_pos ⟨h0, he⟩]
  case untimed =>
    intro t f p q s hq h0
    rw [exec_commandTimedOut_of_waiting hq, if_neg fun h => h.1 h0]
  case boundary =>
    rintro t _ q s hq rfl hh hr _ he
    exact exec_packetStart_of_next hq hh hr (.inr he.le)

end Sys2Proof.Machine

end

/-! SysReset: what bars it, the reply that goes out first, and what the reset leaves (R464, R466, R474). -/

section

namespace Sys2Proof.Machine

/-! ### A refused request -/

/-- An operation with one condition is refused where it holds. -/
theorem guarded_singleton_of_bad {c : Bool} (h : c = true) (r : Rsn) (k : OpRes) : guarded [(c, r)] k = .no r := by
  simp [guarded, firstBad, h]

theorem guarded_singleton_of_good {c : Bool} (h : c = false) (r : Rsn) (k : OpRes) : guarded [(c, r)] k = k := by
  simp [guarded, firstBad, h]

/-- A served request whose operation refuses is answered with the refusal, and changes nothing else. -/
theorem runReq_of_no {op t : Nat} {q : Req} {s : State} {r : Rsn} {f : State → OpRes} (hs : Served op q s)
    (hf : f (s.advance t) = .no r) :
    runReq op t q s f = .next ((s.advance t).reply q r.status (refBytes r.detail r.wh r.val)) := by
  obtain ⟨hi, hl, hb, hr⟩ := hs
  unfold runReq runOp
  simp only [hi, hl, OpRes.beside, State.advance_frame, hb, hr, hf]
  rfl

/-! ### What a reset leaves -/

/-- Besides what was sent before, only the outputs that go off are seen outside (R466). -/
theorem State.chipReset_sent (s : State) (c : Nat) (l : Bool) : (s.chipReset c l).sent = s.outputsOff.sent := rfl

theorem State.chipReset_boot_phase (s : State) (c : Nat) (l : Bool) : (s.chipReset c l).boot.phase = 0 := rfl

theorem State.chipReset_commits (s : State) (c : Nat) (l : Bool) : (s.chipReset c l).par.commits = [] := rfl

theorem State.chipReset_queues (s : State) (c : Nat) (l : Bool) : (s.chipReset c l).host.queues = [] := rfl

/-- The report of the safety lines, written last, leaves the cause. -/
theorem State.chipReset_rd_cause (s : State) (c : Nat) (l : Bool) : (s.chipReset c l).rd P.SysResetCause 0 = c := by
  -- the cause and the lines are all that is written on the empty table of the reset state
  have hpar : (s.chipReset c l).rd P.SysResetCause 0 =
      ((State.reset.wr P.SysResetCause 0 c).wr P.SafLines 0 (s.chipReset c l).safLineWord).rd P.SysResetCause 0 := rfl
  have ho : State.reset.ordered := rfl
  rw [hpar, rd_wr_ne (ordered_wr ho ..) (by decide), rd_wr_same ho]

/-! ### SysReset -/

/-- An axis is enabled, or the front end is not off. -/
def State.driving (s : State) : Bool := (List.range 128).any s.axisOn || s.rb P.FeState 0

@[simp] theorem State.driving_advance (s : State) (t : Nat) : (s.advance t).driving = s.driving := by
  simp [State.driving, funext (s.axisOn_advance t)]

theorem State.driving_iff (s : State) : s.driving = true ↔ (∃ a, a < 128 ∧ s.rd P.AxisState a ≠ 0) ∨ s.rd P.FeState 0 ≠ 0 := by
  simp only [State.driving, State.axisOn, State.rb, Bool.or_eq_true, List.any_eq_true, List.mem_range, Bool.and_eq_true, decide_eq_true_eq]
  exact or_congr_left (exists_congr fun a => and_congr_right fun ha => and_iff_right ha)

theorem State.driving_eq_false_iff (s : State) :
    s.driving = false ↔ (∀ a < 128, s.rd P.AxisState a = 0) ∧ s.rd P.FeState 0 = 0 := by
  rw [← Bool.not_eq_true, driving_iff]
  push Not
  rfl

/-- A served SysReset that FORCE does not carry through is refused while something drives, and no reset follows its reply. -/
theorem answers_sysReset_of_driving {t : Nat} {q : Req} {s : State} (hs : Served 0x010A q s) (hdue : s.boot.due ≠ 1)
    (hforce : bitOf (fld q.body 0 1) 0 = false) (hd : s.driving = true) :
    Answers (.sysReset t q) s q 0x0217 (refBytes 0 0 0) (s.advance t) := by
  change execSysReset t q s = _
  have hbar : (!bitOf (fld q.body 0 1) 0 && (s.advance t).driving) = true := by simp [hforce, hd]
  unfold execSysReset
  rw [runReq_of_no hs (guarded_singleton_of_bad hbar _ _)]
  simp only [State.reply_frame, State.advance_frame, hdue, if_false]

/-- With FORCE, or while nothing drives, a served SysReset is answered, and then the device is reset with cause 2. -/
theorem exec_sysReset_of_accepted {t : Nat} {q : Req} {s : State} (hs : Served 0x010A q s)
    (h : bitOf (fld q.body 0 1) 0 = true ∨ s.driving = false) :
    exec (.sysReset t q) s = .next ((((s.advance t).setBoot { s.boot with due := 1 }).reply q 0 []).chipReset 2 false) := by
  change execSysReset t q s = _
  have hbar : (!bitOf (fld q.body 0 1) 0 && (s.advance t).driving) = false := by
    rw [s.driving_advance]
    obtain hf | hd := h
    · simp [hf]
    · simp [hd]
  unfold execSysReset
  rw [runReq_of_ok hs (guarded_singleton_of_good hbar _ _)]
  simp only [State.reply_frame, State.setBoot_boot, State.advance_frame, if_true]

/-- Settles O13: SysReset is barred by what drives the outside unless FORCE is set, and otherwise is its reply followed by a reset. -/
theorem sysResetFollowsItsReply : Obligations.SysResetFollowsItsReply := by
  unfold Obligations.SysResetFollowsItsReply
  refine ⟨?refused, ?reset⟩
  case refused =>
    intro t q s hs hdue hforce hd
    exact answers_sysReset_of_driving hs (by simp [hdue]) hforce (s.driving_iff.mpr hd)
  case reset =>
    intro t q s hs h
    exact ⟨_, exec_sysReset_of_accepted hs (h.imp_right s.driving_eq_false_iff.mpr), State.chipReset_sent .., State.chipReset_rd_cause ..,
      State.chipReset_boot_phase .., State.chipReset_commits .., State.chipReset_queues ..⟩

end Sys2Proof.Machine

end

/-! The fault log: what an event makes of it, and its read (R490). -/

section

namespace Sys2Proof.Machine

/-! ### Queueing an event leaves the fault log and its loss count alone -/

@[simp] theorem State.enqueue_log (s : State) (d : Dest) (e : Ev) : (s.enqueue d e).host.log = s.host.log := by
  unfold State.enqueue
  dsimp only
  split <;> rfl

@[simp] theorem State.enqueueAll_log (e : Ev) (l : List Sub) (s : State) :
    (l.foldl (fun s b => s.enqueue b.dest e) s).host.log = s.host.log := by
  induction l generalizing s with
  | nil => rfl
  | cons b r ih => exact (ih _).trans (s.enqueue_log b.dest e)

/-- A full queue counts in HostEventsLost, a parameter of its own. -/
theorem State.rd_enqueue_faultLogLost {s : State} (h : s.ordered) (d : Dest) (e : Ev) (i : Nat) :
    (s.enqueue d e).rd P.FaultLogLost i = s.rd P.FaultLogLost i := by
  unfold State.enqueue
  dsimp only
  split
  · rfl
  · exact State.rd_wr_ne (s := s.setHost _) h (by decide) ..

theorem State.rd_enqueueAll_faultLogLost (e : Ev) (l : List Sub) {s : State} (h : s.ordered) (i : Nat) :
    (l.foldl (fun s b => s.enqueue b.dest e) s).rd P.FaultLogLost i = s.rd P.FaultLogLost i := by
  induction l generalizing s with
  | nil => rfl
  | cons b r ih => exact (ih ((s.tells_enqueue b.dest e).ordered h)).trans (rd_enqueue_faultLogLost h ..)

/-! ### An event and the fault log -/

/-- The host side once it has numbered an event of level 2 and kept it as the newest of 64. -/
def HostState.keepEv (h : HostState) (e : Ev) : HostState := { h with evseq := e.evseq, log := (e :: h.log).take 64 }

/-- The state once an event is numbered and, at level 2, kept in the fault log, before it is queued for its subscribers. -/
def State.logEv (s : State) (e : Ev) : State :=
  if e.level = 2 then
    if 64 ≤ s.host.log.length then (s.setHost (s.host.keepEv e)).inc P.FaultLogLost 0 else s.setHost (s.host.keepEv e)
  else s.setHost { s.host with evseq := e.evseq }

/-- Raising an event is logging it, then queueing it for every subscription that takes it. -/
theorem State.raiseEv_eq (s : State) (e : Ev) :
    s.raiseEv e = ((s.logEv e).host.subs.filter (·.takes e)).foldl (fun s b => s.enqueue b.dest e) (s.logEv e) := rfl

theorem State.logEv_log (s : State) (e : Ev) :
    (s.logEv e).host.log = if e.level = 2 then (e :: s.host.log).take 64 else s.host.log := by
  unfold State.logEv
  split
  · split <;> rfl
  · rfl

/-- An event of level 2 that finds the log full counts one entry lost. -/
theorem State.logEv_of_full {s : State} {e : Ev} (he : e.level = 2) (hf : 64 ≤ s.host.log.length) :
    s.logEv e = (s.setHost (s.host.keepEv e)).inc P.FaultLogLost 0 := by
  rw [State.logEv, if_pos he, if_pos hf]

theorem State.raiseEv_log (s : State) (e : Ev) :
    (s.raiseEv e).host.log = if e.level = 2 then (e :: s.host.log).take 64 else s.host.log := by
  rw [raiseEv_eq, enqueueAll_log, logEv_log]

theorem State.rd_raiseEv_faultLogLost_of_full {s : State} (h : s.ordered) {e : Ev} (he : e.level = 2) (hf : 64 ≤ s.host.log.length) :
    (s.raiseEv e).rd P.FaultLogLost 0 = (s.rd P.FaultLogLost 0 + 1) % 2 ^ 32 := by
  have ho : (s.setHost (s.host.keepEv e)).ordered := h
  have hinc : ((s.setHost (s.host.keepEv e)).inc P.FaultLogLost 0).ordered := ordered_wr ho ..
  rw [raiseEv_eq, logEv_of_full he hf, rd_enqueueAll_faultLogLost e _ hinc, State.inc, rd_wr_same ho, setHost_rd]

/-! ### FaultLogRead -/

/-- A served FaultLogRead of 1 to 16 entries answers the newest of them, and empties the log only with CLEAR. -/
theorem answers_faultLogRead {t : Nat} {q : Req} {s : State} (hs : Served 0x0F02 q s) (h1 : 1 ≤ fld q.body 0 1)
    (h16 : fld q.body 0 1 ≤ 16) :
    Answers (.faultLogRead t q) s q 0 (eventList (s.host.log.take (fld q.body 0 1)))
      (if bitOf (fld q.body 1 1) 0 then (s.advance t).setHost { s.host with log := [] } else s.advance t) := by
  have hfits : (decide (fld q.body 0 1 = 0) || decide (16 < fld q.body 0 1)) = false := by
    simp only [Bool.or_eq_false_iff, decide_eq_false_iff_not]
    omega
  change execFaultLogRead t q s = _
  refine runReq_of_ok hs ((guarded_singleton_of_good hfits _ _).trans ?_)
  simp only [State.advance_frame]

/-- Settles O12: an event only meets the log before it is queued, and FaultLogRead refuses nothing but a MAX out of range. -/
theorem faultLogKeepsTheNewest : Obligations.FaultLogKeepsTheNewest := by
  unfold Obligations.FaultLogKeepsTheNewest
  refine ⟨?newest, ?full, ?lower, ?layout, ?read, ?clear⟩
  case newest => exact fun e s he => by rw [s.raiseEv_log, if_pos he]
  case full => exact fun e s ho he hl => State.rd_raiseEv_faultLogLost_of_full ho he hl.ge
  case lower => exact fun e s he => by rw [s.raiseEv_log, if_neg he]
  case layout => exact fun _ => rfl
  case read => exact fun t q s hs h1 h16 hc => by simpa only [hc, Bool.false_eq_true, if_false] using answers_faultLogRead hs h1 h16
  case clear => exact fun t q s hs h1 h16 hc => by simpa only [hc, if_true] using answers_faultLogRead hs h1 h16

end Sys2Proof.Machine

end

/-! The footprint of an operation: what it may change. -/

section

-- One declaration after the other: elaborated at once they need more threads than the check has memory for.
set_option Elab.async false

namespace Sys2Proof.Machine

/-! ### Footprints -/

/-- What an operation may change: parts of the state, and parameters, all of them with `anyPar`. -/
structure Foot where
  parts : List Part
  pars : List Nat
  anyPar : Bool := false

/-- The parameter is one that the footprint names. -/
def Foot.par (F : Foot) (p : Nat) : Bool := F.anyPar || F.pars.contains p

/-- The part is one that the footprint names. -/
def Foot.part (F : Foot) (x : Part) : Bool := F.parts.contains x

/-- One footprint lies within another. -/
def Foot.le (F G : Foot) : Bool := F.parts.all G.part && (G.anyPar || (!F.anyPar && F.pars.all G.par))

/-- An operation that touches the sender's side alone. -/
def Foot.nothing : Foot := { parts := [], pars := [] }

/-- A commit request (R30). -/
def Foot.commitRequest : Foot where
  parts := [.commits, .nextId]
  pars := []

/-- Packets, replies and events. -/
def Foot.packetSide : Foot where
  parts := []
  pars := [P.HostBadPackets, P.HostEventsLost, P.HostPackets, P.HostQueuePeak, P.HostRepliesLost]

/-- The Elkob link. -/
def Foot.linkSide : Foot where
  parts := [.link, .nextId, .staged]
  pars := [P.ElkActiveMode, P.ElkCellCount, P.ElkEmptyDown, P.ElkHopDelay, P.ElkRetired, P.ElkRingDelay, P.ElkRingState, P.ElkState,
    P.SafStoMismatch]

/-- Feedback, monitor, latch units and registration. -/
def Foot.feedback : Foot where
  parts := [.ax, .cpl, .fb, .hist, .lat]
  pars := [P.AxisHoldReason, P.AxisState, P.CplRegError, P.CplRegMissed, P.CplRegSkipped, P.CplState, P.FbLatched, P.FbSpeed, P.FbState,
    P.LatArm, P.LatCaptures, P.LatFill, P.LatLost, P.LatRejected, P.LatState, P.LoopStatus, P.MonVerdict]

/-- Queues, cams, paths and gain maps. -/
def Foot.motion : Foot where
  parts := [.camHeld, .cams, .commits, .cpl, .gm, .nextId, .pg, .shadow, .staged, .trj]
  pars := [P.CamChecksum, P.CamMaxSlope, P.CamStoreFree, P.CamStoreUsed, P.CplState, P.GmState, P.PgPathPos, P.PgPathVel, P.PgQueueFill,
    P.PgState, P.PgTag, P.TrjChain, P.TrjLatched, P.TrjQueueFill, P.TrjQueueTag, P.TrjSource, P.TrjState, P.TrjTarget]

/-- The modulation section. -/
def Foot.modulation : Foot where
  parts := [.mod, .nextId]
  pars := [P.GpCalState, P.GpNotReady, P.GpTripState, P.ModEdgeRecords, P.ModLoadAllState, P.ModStatus]

/-- The front end, gate trips among it. -/
def Foot.frontEnd : Foot where
  parts := [.dqFe, .fe, .ferry, .free, .mod, .vm]
  pars := [P.FeFaultCause, P.FeFlags, P.FeRideDemand, P.FeSdState, P.FeState, P.GpTripState, P.GpTripTime, P.ModLoadAllState]

/-- The Lockkeeper. -/
def Foot.lockkeeper : Foot where
  parts := [.saf]
  pars := [P.SafConfig, P.SafConfigChecksum, P.SafDemands, P.SafDiscrepancyTime, P.SafFault, P.SafFirmware, P.SafFrameErrors,
    P.SafGroupState, P.SafInputFault, P.SafInputLevels, P.SafLastCause, P.SafLines, P.SafMode, P.SafOutputs, P.SafReset, P.SafSs1Delay]

/-- The field I/O. -/
def Foot.fieldIo : Foot where
  parts := [.cmp, .ferry]
  pars := [P.CmpLate, P.DqOverloads, P.FerryCheckErrors, P.FerryLate, P.FerryMissed, P.FerryState, P.LiLost]

/-- The processor complex and the Granary. -/
def Foot.processor : Foot where
  parts := [.free, .pr]
  pars := [P.AqFlags, P.AqGrant, P.DmaBytes, P.DmaFaultAddr, P.DmaOwner, P.DmaPriority, P.DmaState, P.ProcCoreState, P.ProcDispatchPeak,
    P.ProcSpilled, P.ProcThreads, P.TaskFaultInfo, P.TaskImageCrc, P.TaskMemUsed, P.TaskOverruns, P.TaskState]

/-- Signal acquisition. -/
def Foot.acquisition : Foot where
  parts := [.aq]
  pars := [P.AqEffDivider, P.AqFlags, P.AqGrant, P.AqLastCapture, P.AqLastTrigTime, P.AqOverwritten, P.AqRateReductions, P.AqState]

/-- The CAN controllers. -/
def Foot.canBus : Foot where
  parts := [.can, .canObj, .free, .nextId]
  pars := [P.BellLastSync, P.BellLate, P.BellSeq, P.BellState, P.CanBusOffs, P.CanErrorCounters, P.CanFramesRx, P.CanFramesTx,
    P.CanLastError, P.CanObjCollisions, P.CanObjLastTx, P.CanObjLost, P.CanObjState, P.CanRxAllFill, P.CanRxAllLost, P.CanRxFiltered,
    P.CanRxUnmatched, P.CanState]

/-- Line time and its service. -/
def Foot.timeService : Foot where
  parts := [.can, .grid, .lineTime, .nt]
  pars := [P.NtGrandmaster, P.NtIncrement, P.NtLatched, P.NtMeanPathDelay, P.NtOffset, P.NtResidenceMax, P.NtState, P.NtTcUnmatched,
    P.SysIslandLatched]

/-- The line. -/
def Foot.lineSide : Foot where
  parts := [.line, .roll, .vm]
  pars := [P.LineAddress, P.LineCount, P.LineDemand, P.LineDivergences, P.LineEnable, P.LineNeighbour, P.LineRollCallState, P.LineScale,
    P.LineState, P.TrjChain, P.VmAcceleration, P.VmPosition, P.VmScale, P.VmState, P.VmVelocity]

/-- Boot record, image store, supplies and transceivers. -/
def Foot.upkeep : Foot where
  parts := [.boot]
  pars := [P.ElkSfpState, P.SysAuxSupplyState, P.SysBootSelect, P.SysImageState, P.SysImageVersion, P.UpdState, P.UpdWritten]

/-- What a dispatch of threads to cores changes. -/
def Foot.dispatchSide : Foot where
  parts := [.pr]
  pars := [P.ProcCoreState, P.ProcThreads, P.ProcSpilled]

/-- What the stop of the interpreter and the services changes: what is open of the requests, and what they have staged. -/
def Foot.stopSide : Foot where
  parts := Foot.motion.parts ++ [.mod, .canObj, .link, .pr]
  pars := Foot.motion.pars

/-- Every command: all but the queue of waiting commands. -/
def Foot.every : Foot where
  parts := [.grid, .lineTime, .shadow, .staged, .commits, .nextId, .free, .link, .fb, .hist, .lat, .cmp, .emu, .ax, .eng, .gm, .trj, .vm,
    .cpl, .cams, .camHeld, .pg, .line, .mod, .fe, .saf, .ferry, .dqFe, .pr, .aq, .can, .canObj, .nt, .roll, .boot]
  pars := []
  anyPar := true

/-- A part has been left alone while the tick stood: of line time, its accumulator. -/
def State.Keeps (s s' : State) : Part → Prop
  | .lineTime => s'.time.lt = s.time.lt
  | x => s.Same s' x

/-- What every step keeps, what is left to follow a reply apart. -/
abbrev State.canon (s : State) : Prop :=
  s.tabsWf = true ∧ s.time.lt < 2 ^ 88 ∧ s.time.cycle < 2 ^ 32 ∧ 1 ≤ s.par.nextId ∧ s.par.nextId < 2 ^ 32

/-- The footprint covers what has changed from one state to another at the same tick; what every step keeps has been kept, and what was
sent is still there. -/
structure Foot.Covers (F : Foot) (s s' : State) : Prop where
  parts : ∀ x, F.part x = false → s.Keeps s' x
  pars : s.ordered → ∀ p i, F.par p = false → lossCount p = false → s'.rd p i = s.rd p i
  ordered : s.ordered → s'.ordered
  canon : s.canon → s'.canon
  due : s.boot.due = 0 → s'.boot.due = 0
  tick : s'.time.tick = s.time.tick
  sent : s.sent <:+ s'.sent

theorem State.Keeps.refl (s : State) (x : Part) : s.Keeps s x := by
  cases x <;> simp [State.Keeps, State.Same]

theorem State.Keeps.trans {a b c : State} {x : Part} (h : a.Keeps b x) (k : b.Keeps c x) : a.Keeps c x := by
  cases x <;> simp_all [State.Keeps, State.Same]

namespace Foot.Covers

variable {F G : Foot} {a b c : State}

theorem refl (s : State) : F.Covers s s :=
  ⟨fun x _ => .refl s x, fun _ _ _ _ _ => rfl, id, id, id, rfl, List.suffix_refl _⟩

theorem trans (h : F.Covers a b) (k : F.Covers b c) : F.Covers a c where
  parts x hx := (h.parts x hx).trans (k.parts x hx)
  pars o p i hp hl := (k.pars (h.ordered o) p i hp hl).trans (h.pars o p i hp hl)
  ordered o := k.ordered (h.ordered o)
  canon w := k.canon (h.canon w)
  due d := k.due (h.due d)
  tick := k.tick.trans h.tick
  sent := h.sent.trans k.sent

/-- What every step keeps is kept. -/
theorem wf (h : F.Covers a b) : a.wf → b.wf := by
  rintro ⟨w1, w2, w3, w4, w5, w6⟩
  obtain ⟨v1, v2, v3, v4, v5⟩ := h.canon ⟨w1, w2, w3, w4, w5⟩
  exact ⟨v1, v2, v3, v4, v5, h.due w6⟩

/-- The last of several operations first. -/
theorem after (k : F.Covers b c) (h : F.Covers a b) : F.Covers a c := h.trans k

/-- A wider footprint covers no less. -/
theorem mono (hle : F.le G = true) (h : F.Covers a b) : G.Covers a b := by
  simp only [Foot.le, Bool.and_eq_true, Bool.or_eq_true, List.all_eq_true, Bool.not_eq_true'] at hle
  obtain ⟨hx, hp⟩ := hle
  refine ⟨fun x hg => h.parts x ?_, fun o p i hg => h.pars o p i ?_, h.ordered, h.canon, h.due, h.tick, h.sent⟩
  · refine Bool.eq_false_iff.2 fun hf => ?_
    simp [hx x (by simpa [Foot.part] using hf)] at hg
  · refine Bool.eq_false_iff.2 fun hf => ?_
    simp only [Foot.par, Bool.or_eq_false_iff] at hg hf
    obtain hp | ⟨hF, hp⟩ := hp
    · simp [hp] at hg
    · have hm : p ∈ F.pars := by simpa [hF] using hf
      have hG := hp p hm
      simp only [Foot.par, hg, Bool.or_false, Bool.false_eq_true] at hG

theorem ite {p : Prop} [Decidable p] (h : F.Covers a b) (k : F.Covers a c) : F.Covers a (if p then b else c) := by
  split <;> assumption

theorem dite {p : Prop} [Decidable p] {b : p → State} {c : ¬ p → State} (h : ∀ hp, F.Covers a (b hp)) (k : ∀ hp, F.Covers a (c hp)) :
    F.Covers a (if hp : p then b hp else c hp) := by
  split
  · exact h _
  · exact k _

/-- A loop stays in the footprint of its body. -/
theorem foldl {β : Type} {f : State → β → State} (l : List β) (h : ∀ s x, F.Covers s (f s x)) : F.Covers a (l.foldl f a) := by
  induction l generalizing a with
  | nil => exact .refl a
  | cons x r ih => exact (h a x).trans ih

/-- A loop over pairs of a result and a state. -/
theorem foldl_snd {α β : Type} {f : α × State → β → α × State} (x : α) (l : List β) (h : ∀ p y, F.Covers p.2 (f p y).2) :
    F.Covers a (l.foldl f (x, a)).2 := by
  suffices ∀ p : α × State, F.Covers a p.2 → F.Covers a (l.foldl f p).2 from this _ (.refl a)
  induction l with
  | nil => exact fun _ hp => hp
  | cons y r ih => exact fun p hp => ih _ (hp.trans (h p y))

end Foot.Covers

/-! ### Outcomes -/

/-- An operation of a request that is carried out stays in the footprint. -/
def Foot.Grants (F : Foot) (s : State) : OpRes → Prop
  | .ok _ _ s' => F.Covers s s'
  | .no _ => True

/-- A command that goes on stays in the footprint, from the state at its tick on. -/
def Foot.Allows (F : Foot) (t : Nat) (s : State) : Res → Prop
  | .next s' => F.Covers (s.advance t) s'
  | _ => True


end Sys2Proof.Machine

end

/-! The footprint of each elementary update of the state: one field, one entry of a table, one copy of a parameter, one thing sent. -/

section

-- One declaration after the other: elaborated at once they need more threads than the check has memory for.
set_option Elab.async false

namespace Sys2Proof.Machine

/-! ### Canonical tables after a write -/

/-- What every step keeps is kept where the tables are and no number changes. -/
theorem State.canon.of_tabsWf {a b : State} (w : a.canon) (ht : a.tabsWf = true → b.tabsWf = true) (hlt : b.time.lt = a.time.lt)
    (hc : b.time.cycle = a.time.cycle) (hn : b.par.nextId = a.par.nextId) : b.canon := by
  obtain ⟨w1, w2, w3, w4, w5⟩ := w
  exact ⟨ht w1, hlt ▸ w2, hc ▸ w3, hn ▸ w4, hn ▸ w5⟩

/-- A write to a table that reads the same for every unlisted key keeps its canonical form. -/
theorem tabWf_tabSet_const {α : Type} [DecidableEq α] {t : Tab α} {d : α} (x : α) (n : Nat) (h : tabWf t (fun _ => d) = true) :
    tabWf (tabSet t d n x) (fun _ => d) = true :=
  tabWf_tabSet t (fun _ => d) x n h

/-- A table whose entries are changed keeps its canonical form where no entry becomes what an unlisted key reads as. -/
theorem tabWf_map {α : Type} [DecidableEq α] {t : Tab α} {d : α} {g : Nat × α → α} (hg : ∀ e, g e = d → e.2 = d)
    (h : tabWf t (fun _ => d) = true) : tabWf (t.map fun e => (e.1, g e)) (fun _ => d) = true := by
  have hs (b : Option Nat) (t : Tab α) : tabSorted b (t.map fun e => (e.1, g e)) = tabSorted b t := by
    induction t generalizing b with
    | nil => rfl
    | cons e r ih => simp [tabSorted, ih]
  simp only [tabWf, Bool.and_eq_true, List.all_eq_true, decide_eq_true_eq] at h ⊢
  refine ⟨(hs _ _).trans h.1, fun e he => ?_⟩
  obtain ⟨e', he', rfl⟩ := List.mem_map.1 he
  exact fun hd => h.2 e' he' (hg e' hd)

namespace Foot.Covers

variable {F : Foot} {a b : State}

/-! ### One part -/

/-- One part is set: the parameters, the clock and what was sent are not touched. -/
theorem set (y : Part) (hF : F.part y = true) (hw : a.canon → b.canon) (hd : a.boot.due = 0 → b.boot.due = 0 := by exact id)
    (hk : ∀ x, x ≠ y → a.Keeps b x := by intro x hx; cases x <;> simp_all [State.Keeps, State.Same])
    (hpar : b.par.active = a.par.active := by rfl) (htick : b.time.tick = a.time.tick := by rfl) (hsent : b.sent = a.sent := by rfl) :
    F.Covers a b where
  parts x hx := hk x (by rintro rfl; simp [hF] at hx)
  pars _ p i _ _ := by simp only [State.rd, hpar]
  ordered o := by simpa only [State.ordered, hpar] using o
  canon := hw
  due := hd
  tick := htick
  sent := hsent ▸ List.suffix_refl _

/-- A part that is a table is set, and stays canonical. -/
theorem setTab (y : Part) (hF : F.part y = true) (ht : a.tabsWf = true → b.tabsWf = true)
    (hk : ∀ x, x ≠ y → a.Keeps b x := by intro x hx; cases x <;> simp_all [State.Keeps, State.Same])
    (hpar : b.par.active = a.par.active := by rfl) (hlt : b.time.lt = a.time.lt := by rfl) (hc : b.time.cycle = a.time.cycle := by rfl)
    (hn : b.par.nextId = a.par.nextId := by rfl) (hd : a.boot.due = 0 → b.boot.due = 0 := by exact id)
    (htick : b.time.tick = a.time.tick := by rfl) (hsent : b.sent = a.sent := by rfl) : F.Covers a b :=
  set y hF (fun w => w.of_tabsWf ht hlt hc hn) hd hk hpar htick hsent

theorem setLink (s : State) (l : LinkState) (h : F.part .link = true := by rfl) : F.Covers s (s.setLink l) := set .link h id

theorem setMod (s : State) (r : ModState) (h : F.part .mod = true := by rfl) : F.Covers s (s.setMod r) := set .mod h id

theorem setLine (s : State) (l : LineRec) (h : F.part .line = true := by rfl) : F.Covers s (s.setLine l) := set .line h id

theorem setFe (s : State) (r : FeRec) (h : F.part .fe = true := by rfl) : F.Covers s (s.setFe r) := set .fe h id

theorem setSaf (s : State) (r : SafRec) (h : F.part .saf = true := by rfl) : F.Covers s (s.setSaf r) := set .saf h id

theorem setPr (s : State) (r : ProcRec) (h : F.part .pr = true := by rfl) : F.Covers s (s.setPr r) := set .pr h id

theorem setNt (s : State) (r : NtRec) (h : F.part .nt = true := by rfl) : F.Covers s (s.setNt r) := set .nt h id

theorem setRoll (s : State) (r : RollRec) (h : F.part .roll = true := by rfl) : F.Covers s (s.setRoll r) := set .roll h id

theorem setFb (s : State) (i : Nat) (r : FbRec) (h : F.part .fb = true := by rfl) : F.Covers s (s.setFb i r) :=
  setTab .fb h fun w => by simp_all [State.setFb, State.tabsWf, tabWf_tabSet_const]

theorem setCmp (s : State) (u : Nat) (r : CmpRec) (h : F.part .cmp = true := by rfl) : F.Covers s (s.setCmp u r) :=
  setTab .cmp h fun w => by simp_all [State.setCmp, State.tabsWf, tabWf_tabSet_const]

theorem setEmu (s : State) (e : Nat) (r : EmuRec) (h : F.part .emu = true := by rfl) : F.Covers s (s.setEmu e r) :=
  setTab .emu h fun w => by simp_all [State.setEmu, State.tabsWf, tabWf_tabSet_const]

theorem setAxis (s : State) (a : Nat) (r : AxisRec) (h : F.part .ax = true := by rfl) : F.Covers s (s.setAxis a r) :=
  setTab .ax h fun w => by simp_all [State.setAxis, State.tabsWf, tabWf_tabSet_const]

theorem setGm (s : State) (a : Nat) (r : GmRec) (h : F.part .gm = true := by rfl) : F.Covers s (s.setGm a r) :=
  setTab .gm h fun w => by simp_all [State.setGm, State.tabsWf, tabWf_tabSet_const]

theorem setTraj (s : State) (a : Nat) (r : TrjRec) (h : F.part .trj = true := by rfl) : F.Covers s (s.setTraj a r) :=
  setTab .trj h fun w => by simp_all [State.setTraj, State.tabsWf, tabWf_tabSet_const]

theorem setVm (s : State) (m : Nat) (r : VmRec) (h : F.part .vm = true := by rfl) : F.Covers s (s.setVm m r) :=
  setTab .vm h fun w => by simp_all [State.setVm, State.tabsWf, tabWf_tabSet_const]

theorem setCpl (s : State) (a : Nat) (r : CplRec) (h : F.part .cpl = true := by rfl) : F.Covers s (s.setCpl a r) :=
  setTab .cpl h fun w => by simp_all [State.setCpl, State.tabsWf, tabWf_tabSet_const]

theorem setPg (s : State) (g : Nat) (r : PgRec) (h : F.part .pg = true := by rfl) : F.Covers s (s.setPg g r) :=
  setTab .pg h fun w => by simp_all [State.setPg, State.tabsWf, tabWf_tabSet_const]

theorem setGroup (s : State) (g : Nat) (r : FerryRec) (h : F.part .ferry = true := by rfl) : F.Covers s (s.setGroup g r) :=
  setTab .ferry h fun w => by simp_all [State.setGroup, State.tabsWf, tabWf_tabSet_const]

theorem setAq (s : State) (u : Nat) (r : AqRec) (h : F.part .aq = true := by rfl) : F.Covers s (s.setAq u r) :=
  setTab .aq h fun w => by simp_all [State.setAq, State.tabsWf, tabWf_tabSet_const]

theorem setCanC (s : State) (c : Nat) (r : CanRec) (h : F.part .can = true := by rfl) : F.Covers s (s.setCanC c r) :=
  setTab .can h fun w => by simp_all [State.setCanC, State.tabsWf, tabWf_tabSet_const]

theorem setCanO (s : State) (i : Nat) (r : CanObjRec) (h : F.part .canObj = true := by rfl) : F.Covers s (s.setCanO i r) :=
  setTab .canObj h fun w => by simp_all [State.setCanO, State.tabsWf, tabWf_tabSet_const]

theorem setBoot (s : State) (b : BootState) (h : F.part .boot = true := by rfl) (hd : s.boot.due = 0 → b.due = 0 := by exact id) :
    F.Covers s (s.setBoot b) :=
  setTab .boot h id (hd := hd)

theorem setHist (s : State) (i : Nat) (x : List HistEntry) (h : F.part .hist = true := by rfl) :
    F.Covers s { s with hist := tabSet s.hist [] i x } :=
  setTab .hist h fun w => by simp_all [State.tabsWf, tabWf_tabSet_const]

theorem setCams (s : State) (i : Nat) (x : List Byte) (h : F.part .cams = true := by rfl) : F.Covers s { s with cams := tabSet s.cams [] i x } :=
  setTab .cams h fun w => by simp_all [State.tabsWf, tabWf_tabSet_const]

theorem setCamHeld (s : State) (i : Nat) (x : List Nat) (h : F.part .camHeld = true := by rfl) :
    F.Covers s { s with camHeld := tabSet s.camHeld [] i x } :=
  setTab .camHeld h fun w => by simp_all [State.tabsWf, tabWf_tabSet_const]

theorem setLat (s : State) (u : Nat) (r : LatRec) (h : F.part .lat = true := by rfl) : F.Covers s { s with lat := tabSet s.lat LatRec.init u r } :=
  setTab .lat h fun w => by simp_all [State.tabsWf, tabWf_tabSet_const]

/-- Every entry of the CAN objects is changed. -/
theorem mapCanObj (s : State) (g : Nat × CanObjRec → CanObjRec) (hg : ∀ e, g e = CanObjRec.init → e.2 = CanObjRec.init)
    (h : F.part .canObj = true := by rfl) : F.Covers s { s with canObj := s.canObj.map fun e => (e.1, g e) } :=
  setTab .canObj h fun w => by simp_all [State.tabsWf, tabWf_map hg]

/-- Every entry of the couplings is changed. -/
theorem mapCpl (s : State) (g : Nat × CplRec → CplRec) (hg : ∀ e, g e = CplRec.init → e.2 = CplRec.init)
    (h : F.part .cpl = true := by rfl) : F.Covers s { s with cpl := s.cpl.map fun e => (e.1, g e) } :=
  setTab .cpl h fun w => by simp_all [State.tabsWf, tabWf_map hg]

theorem setEng (s : State) (e : EngState) (h : F.part .eng = true := by rfl) : F.Covers s { s with eng := e } := set .eng h id

theorem setDqFe (s : State) (n : Nat) (h : F.part .dqFe = true := by rfl) : F.Covers s { s with dqFe := n } := set .dqFe h id

theorem setFree (s : State) (n : Nat) (h : F.part .free = true := by rfl) : F.Covers s { s with free := n } := set .free h id

theorem setStaged (s : State) (l : List Staged) (h : F.part .staged = true := by rfl) :
    F.Covers s { s with par := { s.par with staged := l } } := set .staged h id

theorem setCommits (s : State) (l : List Commit) (h : F.part .commits = true := by rfl) :
    F.Covers s { s with par := { s.par with commits := l } } := set .commits h id

/-- A shadow copy is written, or returns to the active value. -/
theorem setShadow (s : State) (k : Nat) (x : Option Nat) (h : F.part .shadow = true := by rfl) :
    F.Covers s { s with par := { s.par with shadow := tabSet s.par.shadow none k x } } :=
  setTab .shadow h fun w => by simp_all [State.tabsWf, tabWf_tabSet_const]

theorem wrShadow (s : State) (idx i v : Nat) (h : F.part .shadow = true := by rfl) : F.Covers s (s.wrShadow idx i v) := setShadow s _ _ h

theorem dropShadow (s : State) (key : Nat) (h : F.part .shadow = true := by rfl) : F.Covers s (s.dropShadow key) := setShadow s _ _ h

/-- The next COMMITID is a COMMITID. -/
theorem bumpId (s : State) (h : F.part .nextId = true := by rfl) :
    F.Covers s { s with par := { s.par with nextId := Machine.bumpId s.par.nextId } } := by
  refine set .nextId h ?_
  rintro ⟨w1, w2, w3, w4, w5⟩
  refine ⟨w1, w2, w3, ?_, ?_⟩ <;>
    · simp only [Machine.bumpId]
      split <;> omega

/-- The clock is set, its tick apart. -/
theorem setTime (s : State) (t : TimeState) (htick : t.tick = s.time.tick) (hlt : s.time.lt < 2 ^ 88 → t.lt < 2 ^ 88)
    (hc : s.time.cycle < 2 ^ 32 → t.cycle < 2 ^ 32) (hg : F.part .grid = true := by rfl) (hl : F.part .lineTime = true := by rfl) :
    F.Covers s { s with time := t } where
  parts x hx := by cases x <;> simp_all [State.Keeps, State.Same]
  pars _ _ _ _ _ := rfl
  ordered o := o
  canon w := by
    obtain ⟨w1, w2, w3, w4, w5⟩ := w
    exact ⟨w1, hlt w2, hc w3, w4, w5⟩
  due d := d
  tick := htick
  sent := List.suffix_refl _

/-! ### One parameter -/

/-- The active copy of a parameter is written. -/
theorem wr (s : State) (p i v : Nat) (h : F.par p = true := by rfl) : F.Covers s (s.wr p i v) where
  parts x _ := by cases x <;> simp [State.Keeps, State.Same]
  pars o q j hq _ := State.rd_wr_ne o (by rintro rfl; simp [h] at hq) i j v
  ordered o := State.ordered_wr o p i v
  canon w := w.of_tabsWf (fun ht => by simp_all [State.tabsWf, State.wr, tabWf_tabSet]) rfl rfl rfl
  due d := d
  tick := rfl
  sent := List.suffix_refl _

theorem wrF (s : State) (p i : Nat) (x : Rat) (h : F.par p = true := by rfl) : F.Covers s (s.wrF p i x) := wr s p i _ h

theorem wrP (s : State) (p i : Nat) (x : Int) (h : F.par p = true := by rfl) : F.Covers s (s.wrP p i x) := wr s p i _ h

theorem wrBit (s : State) (p i : Nat) (k : Nat) (b : Bool) (h : F.par p = true := by rfl) : F.Covers s (s.wrBit p i k b) := wr s p i _ h

theorem orBits (s : State) (p i : Nat) (m : Nat) (h : F.par p = true := by rfl) : F.Covers s (s.orBits p i m) := wr s p i _ h

theorem clrBits (s : State) (p i : Nat) (m : Nat) (h : F.par p = true := by rfl) : F.Covers s (s.clrBits p i m) := wr s p i _ h

theorem inc (s : State) (p i : Nat) (h : F.par p = true := by rfl) : F.Covers s (s.inc p i) := wr s p i _ h

/-- A loss counter counts in every footprint. -/
theorem incLoss (s : State) (p i : Nat) (h : lossCount p = true := by rfl) : F.Covers s (s.inc p i) where
  parts x _ := by cases x <;> simp [State.Keeps, State.Same, State.inc]
  pars o q j _ hl := State.rd_wr_ne o (by rintro rfl; simp [h] at hl) i j _
  ordered o := State.ordered_wr o p i _
  canon w := w.of_tabsWf (fun ht => by simp_all [State.tabsWf, State.inc, State.wr, tabWf_tabSet]) rfl rfl rfl
  due d := d
  tick := rfl
  sent := List.suffix_refl _

/-! ### The sender's side -/

/-- The sender's side is no part, and what is sent joins what was sent. -/
theorem sends (s : State) (h : HostState) (l : List Out) : F.Covers s { s with host := h, sent := l ++ s.sent } where
  parts x _ := by cases x <;> simp [State.Keeps, State.Same]
  pars _ _ _ _ _ := rfl
  ordered o := o
  canon w := w
  due d := d
  tick := rfl
  sent := List.suffix_append _ _

theorem setHost (s : State) (h : HostState) : F.Covers s (s.setHost h) := sends s h []

theorem setRegs (s : State) (r : HostRegs) : F.Covers s (s.setRegs r) := setHost s _

theorem out (s : State) (o : Out) : F.Covers s (s.out o) := sends s s.host [o]

theorem frame (s : State) (k : FrameKind) (p : Nat) (b : List Byte) : F.Covers s (s.frame k p b) := out s _

theorem enqueue (s : State) (d : Dest) (e : Ev) : F.Covers s (s.enqueue d e) :=
  .ite (.setHost ..) <| .trans (.setHost ..) (.incLoss ..)

theorem logEv (s : State) (e : Ev) : F.Covers s (s.logEv e) :=
  .ite (.ite (.trans (.setHost ..) (.incLoss ..)) (.setHost ..)) (.setHost ..)

theorem raiseEv (s : State) (e : Ev) : F.Covers s (s.raiseEv e) := by
  rw [State.raiseEv_eq]
  exact .trans (.logEv s e) <| .foldl _ fun s b => .enqueue s b.dest e

theorem raise (s : State) (c i : Nat) (d : List Byte) : F.Covers s (s.raise c i d) := raiseEv s _

theorem raiseIf (s : State) (b : Bool) (c i : Nat) (d : List Byte) : F.Covers s (s.raiseIf b c i d) := .ite (.raise ..) (.refl s)

theorem complete (s : State) (q : Req) (id e st d w v : Nat) : F.Covers s (s.complete q id e st d w v) :=
  .ite (.refl s) <| .trans (.setHost s _) (.enqueue ..)

theorem ringReply {s s' : State} {r : Reply} (h : s.ringReply r = some s') : F.Covers s s' := by
  unfold State.ringReply at h
  dsimp only at h
  split at h
  · split at h
    · cases h
    · cases h
      exact sends s _ _
  · cases h

theorem deliver (s : State) (r : Reply) : F.Covers s (s.deliver r) := by
  unfold State.deliver
  split
  · split
    · split
      next h => exact ringReply h
      next => exact setHost s _
    · exact .ite (.incLoss ..) (.setHost s _)
  · exact sends s _ _
  · exact sends s s.host _

theorem reply (s : State) (q : Req) (st : Nat) (b : List Byte) : F.Covers s (s.reply q st b) :=
  .trans (.setHost s _) (.deliver ..)

/-! ### Results beside a state -/

theorem ite_snd {α : Type} {p : Prop} [Decidable p] {x y : α × State} (h : F.Covers a x.2) (k : F.Covers a y.2) :
    F.Covers a (if p then x else y).2 := by
  split <;> assumption

theorem ite_fst {α : Type} {p : Prop} [Decidable p] {x y : State × α} (h : F.Covers a x.1) (k : F.Covers a y.1) :
    F.Covers a (if p then x else y).1 := by
  split <;> assumption

theorem ite_snd_snd {α β : Type} {p : Prop} [Decidable p] {x y : α × β × State} (h : F.Covers a x.2.2) (k : F.Covers a y.2.2) :
    F.Covers a (if p then x else y).2.2 := by
  split <;> assumption

end Foot.Covers

/-! ### Requests and events -/

namespace Foot.Grants

variable {F G : Foot} {a b : State} {r : OpRes}

/-- A wider footprint grants no less. -/
theorem mono (hle : F.le G = true) (h : F.Grants a r) : G.Grants a r := by
  cases r with
  | ok st l s' => exact Foot.Covers.mono hle h
  | no x => trivial

theorem after (k : F.Grants b r) (h : F.Covers a b) : F.Grants a r := by
  cases r with
  | ok st l s' => exact h.trans k
  | no x => trivial

theorem ok {st : Nat} {l : List Byte} (h : F.Covers a b) : F.Grants a (.ok st l b) := h

theorem ite {p : Prop} [Decidable p] {x y : OpRes} (h : F.Grants a x) (k : F.Grants a y) : F.Grants a (if p then x else y) := by
  split <;> assumption

theorem guarded (l : List (Bool × Rsn)) (k : F.Grants a r) : F.Grants a (guarded l r) := by
  unfold Machine.guarded
  split
  · trivial
  · exact k

theorem beside (c : Bool) (x : Rsn) (f : Nat → Bool) (k : F.Grants a r) : F.Grants a (r.beside c x f) := by
  cases c <;> cases r <;> simp only [OpRes.beside, Bool.false_eq_true, if_true, if_false]
  · exact k
  · trivial
  · trivial
  · split <;> trivial

end Foot.Grants

namespace Foot.Allows

variable {F G : Foot} {s : State}

theorem mono {t : Nat} {r : Res} (hle : F.le G = true) (h : F.Allows t s r) : G.Allows t s r := by
  cases r with
  | next s' => exact Foot.Covers.mono hle h
  | refused x => trivial
  | fault f => trivial

theorem onEvent {f : State → State} (t : Nat) (h : ∀ s, F.Covers s (f s)) : F.Allows t s (onEvent t s f) := h _

theorem onUnit {f : State → State} (t : Nat) (ok : Bool) (h : ∀ s, F.Covers s (f s)) : F.Allows t s (onUnit t s ok f) := by
  unfold Machine.onUnit
  split
  · exact h _
  · trivial

/-- A request changes what its operation changes, and is answered. -/
theorem runOp {f : State → OpRes} (t : Nat) (q : Req) (i l : Bool) (h : ∀ s, F.Grants s (f s)) : F.Allows t s (runOp t q s i l f) := by
  refine .ite (.reply ..) <| .ite (.reply ..) ?_
  have hb := (h (s.advance t)).beside ((s.advance t).host.broken.contains q) ⟨0x0202, 0, 0, 0⟩ (before359 q)
  split
  next st b s' he => exact .after (.reply ..) (by rwa [he] at hb)
  next => exact .reply ..

theorem runReq {f : State → OpRes} (op t : Nat) (q : Req) (h : ∀ s, F.Grants s (f s)) : F.Allows t s (runReq op t q s f) :=
  runOp _ _ _ _ fun s => (h s).beside ..

theorem runParam {f : State → OpRes} (t : Nat) (q : Req) (l : Bool) (h : ∀ s, F.Grants s (f s)) : F.Allows t s (runParam t q s l f) :=
  runOp _ _ _ _ fun s => (h s).beside ..

end Foot.Allows

end Sys2Proof.Machine

end

/-! The footprint of each operation of the model and of each command: what it may change of the state, and what it keeps. -/

section

-- One declaration after the other: elaborated at once they need more threads than the check has memory for.
set_option Elab.async false

namespace Sys2Proof.Machine

namespace Foot.Covers

variable {F : Foot}

theorem sendCold (s : State) (phase) : F.Covers s (s.sendCold phase) := .after (.frame ..) <| .frame ..

theorem delayGain (s : State) (a) : F.Covers s (s.delayGain a) := .raiseIf ..

theorem delayMap (s : State) (a) : F.Covers s (s.delayMap a) :=
  .ite (.refl _) <| .ite (.refl _) <| .foldl _ fun _ _ => .foldl _ fun _ _ => .raiseIf ..

theorem feRaise (s : State) (code inst more) : F.Covers s (s.feRaise code inst more) := .raise ..

theorem lostNotice (s : State) (d) : F.Covers s (s.lostNotice d) := .ite (.refl _) (.setHost ..)

theorem fireVec (s : State) (k) : F.Covers s (s.fireVec k) :=
  .ite (.refl _) <| .ite (.setRegs ..) <| .ite (.refl _) (.after (.setRegs ..) <| .out ..)

theorem cancelsEnd (s : State) (status l) : F.Covers s (s.cancelsEnd status l) := .foldl _ fun _ _ => .complete ..

theorem rollSend (s : State) (port kind count id num) : F.Covers s (s.rollSend port kind count id num) := .frame ..

theorem cellTrip (s : State) (a tript b13) : F.Covers s (s.cellTrip a tript b13) := .raiseEv ..

theorem sendPlace (s : State) (f) : F.Covers s (s.sendPlace f) := .after (.frame ..) <| .frame ..

theorem joinSet (s : State) (g key) (h : Foot.le { parts := [.staged], pars := [] } F = true := by rfl) : F.Covers s (s.joinSet g key) :=
  .mono h <| .setStaged ..

theorem takeId (s : State) (h : Foot.le { parts := [.nextId], pars := [] } F = true := by rfl) : F.Covers s (s.takeId).2 :=
  .mono h <| .bumpId ..

end Foot.Covers

namespace Foot.Grants

variable {F : Foot}

theorem accept (s : State) (q target) (h : Foot.le { parts := [.commits, .nextId], pars := [] } F = true := by rfl) :
    F.Grants s (s.accept q target) :=
  .mono h <| .ok <| Foot.Covers.after (.setCommits { s with par := { s.par with nextId := bumpId s.par.nextId } } _) (.bumpId s)

theorem commitReq (s : State) (q off c3 c2) (h : Foot.le { parts := [.commits, .nextId], pars := [] } F = true := by rfl) :
    F.Grants s (s.commitReq q off c3 c2) :=
  .mono h <| .guarded _ <| .accept ..

end Foot.Grants

namespace Foot.Covers

variable {F : Foot}

theorem takeFree (s : State) (kind) (h : Foot.le { parts := [.free], pars := [] } F = true := by rfl) : F.Covers s (s.takeFree kind).2 :=
  .mono h <| .setFree ..

theorem entry (s : State) (o lv x) (h : Foot.le { parts := [.ferry], pars := [] } F = true := by rfl) : F.Covers s (s.entry o lv x) :=
  .mono h <| .setGroup ..

theorem pushNew (s : State) (o new) (h : Foot.le { parts := [.ferry], pars := [] } F = true := by rfl) : F.Covers s (s.pushNew o new) :=
  .mono h <| .ite (.refl _) (.foldl _ fun s x => .entry ..)

theorem pushLine (s : State) (mask x) (h : Foot.le { parts := [.ferry], pars := [] } F = true := by rfl) :
    F.Covers s (s.pushLine mask x) :=
  .mono h <| .foldl _ fun s x => .ite (.refl _) (.pushNew ..)

theorem setGp (s : State) (n r) (h : Foot.le { parts := [.mod], pars := [] } F = true := by rfl) : F.Covers s (s.setGp n r) :=
  .mono h <| .setMod ..

theorem gpOff (s : State) (n) (h : Foot.le { parts := [.mod], pars := [] } F = true := by rfl) : F.Covers s (s.gpOff n) :=
  .mono h <| .after (.frame ..) <| .setGp ..

theorem vmRefresh (s : State) (h : Foot.le { parts := [.vm], pars := [] } F = true := by rfl) : F.Covers s (s.vmRefresh) :=
  .mono h <| .foldl _ fun s x => .ite (.refl _) (.ite (.setVm ..) (.setVm ..))

theorem vmMoveApply (s : State) (q) (h : Foot.le { parts := [.vm], pars := [] } F = true := by rfl) : F.Covers s (s.vmMoveApply q) :=
  .mono h <| .ite (.refl _) (.setVm ..)

theorem vmStopApply (s : State) (q) (h : Foot.le { parts := [.vm], pars := [] } F = true := by rfl) : F.Covers s (s.vmStopApply q) :=
  .mono h <| .setVm ..

theorem cplClear (s : State) (a) (h : Foot.le { parts := [.cpl], pars := [P.CplState] } F = true := by rfl) : F.Covers s (s.cplClear a) :=
  .mono h <| .after (.clrBits ..) <| .setCpl ..

theorem putGroup (s : State) (g r) (h : Foot.le { parts := [.ferry], pars := [] } F = true := by rfl) : F.Covers s (s.putGroup g r) :=
  .mono h <| .after (.foldl _ fun s x => .ite (.refl _) (.frame ..)) <| .setGroup ..

theorem levelsTake (s : State) (h : Foot.le { parts := [.ferry], pars := [] } F = true := by rfl) : F.Covers s (s.levelsTake) :=
  .mono h <| .foldl _ fun s x => .setGroup ..

theorem dqReleaseApply (s : State) (q) (h : Foot.le { parts := [.ferry], pars := [] } F = true := by rfl) :
    F.Covers s (s.dqReleaseApply q) :=
  .mono h <| .foldl _ fun s x => .setGroup ..

theorem sendCfg (s : State) (g addr v) (h : Foot.le { parts := [.ferry], pars := [] } F = true := by rfl) :
    F.Covers s (s.sendCfg g addr v) :=
  .mono h <| .setGroup ..

theorem fieldChanged (s : State) (idx i) (h : Foot.le { parts := [.ferry], pars := [] } F = true := by rfl) :
    F.Covers s (s.fieldChanged idx i) :=
  .mono h <| .ite (.pushLine ..) <| .ite (.sendCfg ..) <| .ite (.sendCfg ..) <| .ite (.sendCfg ..) <|
  .ite (.sendCfg ..) (.ite (.sendCfg ..) (.refl _))

theorem feLoadAll (s : State) (h : Foot.le { parts := [.mod], pars := [P.ModLoadAllState] } F = true := by rfl) :
    F.Covers s (s.feLoadAll) := by
  refine .mono h ?_
  unfold State.feLoadAll
  split
  · exact .refl _
  · exact .after (.wr ..) <| .setMod ..

theorem bridgeOff (s : State) (h : Foot.le { parts := [.mod], pars := [] } F = true := by rfl) : F.Covers s (s.bridgeOff) :=
  .mono h <| .foldl _ fun s x => .ite (.refl _) (.setGp ..)

theorem rideTarget (s : State) (h : Foot.le { parts := [.free], pars := [] } F = true := by rfl) : F.Covers s s.rideTarget.2 :=
  .mono h <| .ite_snd (.takeFree s 6) (.refl _)

theorem bridgeDuties (s : State) (th u b) (h : Foot.le { parts := [.mod], pars := [] } F = true := by rfl) :
    F.Covers s (s.bridgeDuties th u b) :=
  .mono h <| .foldl _ fun s x => .foldl _ fun s x => .setGp ..

theorem clearDuties (s : State) (h : Foot.le { parts := [.mod], pars := [] } F = true := by rfl) : F.Covers s (s.clearDuties) :=
  .mono h <| .foldl _ fun s x => .setGp ..

theorem aqRevoke (s : State) (u) (h : Foot.le { parts := [], pars := [P.AqGrant, P.AqFlags] } F = true := by rfl) :
    F.Covers s (s.aqRevoke u) :=
  .mono h <| .after (.wrBit ..) <| .wr ..

theorem bellStep (s : State) (h : Foot.le { parts := [.can], pars := [] } F = true := by rfl) : F.Covers s (s.bellStep) :=
  .mono h <| .foldl _ fun s x => .ite (.setCanC ..) (.refl _)

theorem canSsp (s : State) (c o delay) (h : Foot.le { parts := [.free], pars := [] } F = true := by rfl) :
    F.Covers s (s.canSsp c o delay).2 :=
  .mono h <| .ite_snd (.refl _) <| .ite_snd (.refl _) (.takeFree s 11)

theorem attemptOver (s : State) (c) (h : Foot.le { parts := [.can], pars := [] } F = true := by rfl) : F.Covers s (s.attemptOver c) :=
  .mono h <| .setCanC ..

theorem bellFails (s : State) (c) (h : Foot.le { parts := [.can], pars := [] } F = true := by rfl) : F.Covers s (s.bellFails c) :=
  .mono h <| .setCanC ..

theorem outputsOff (s : State) (h : Foot.le { parts := [.mod], pars := [] } F = true := by rfl) : F.Covers s (s.outputsOff) :=
  .mono h <| .after (.foldl _ fun s x => .gpOff ..) <| .foldl _ fun s x => .ite (.frame ..) (.refl _)

theorem pairsOff (s : State) (h : Foot.le { parts := [.mod], pars := [] } F = true := by rfl) : F.Covers s (s.pairsOff) :=
  .mono h <| .foldl _ fun s x => .after (.gpOff ..) <| .setGp ..

theorem commitSet (s : State) (g id) (h : Foot.le { parts := [.staged], pars := [] } F = true := by rfl) :
    F.Covers s (s.commitSet g id) :=
  .mono h <| .setStaged ..

theorem dqApply (s : State) (q) (h : Foot.le { parts := [.ferry], pars := [] } F = true := by rfl) : F.Covers s (s.dqApply q) :=
  .mono h <| .pushLine ..

theorem arrive (s : State) (d bytes) (h : packetSide.le F = true := by rfl) : F.Covers s (s.arrive d bytes) := by
  refine .mono h ?_
  unfold State.arrive
  refine .ite (.refl _) ?_
  refine .ite (.refl _) ?_
  dsimp only
  split
  · exact .after (.inc ..) <| .inc ..
  · exact .ite (.after (.deliver ..) <| .inc ..) <| .after (.ite (.wr ..) (.refl _)) <| .after (.setHost ..) <| .inc ..

theorem setNode (s : State) (k r) (h : linkSide.le F = true := by rfl) : F.Covers s (s.setNode k r) := .mono h <| .setLink ..

theorem setElk (s : State) (v) (h : linkSide.le F = true := by rfl) : F.Covers s (s.setElk v) :=
  .mono h <| .after (.setLink ..) <| .wr ..

theorem endStart (s : State) (status detail val) (h : linkSide.le F = true := by rfl) : F.Covers s (s.endStart status detail val) := by
  refine .mono h ?_
  unfold State.endStart
  split
  · exact .refl _
  · exact .after (.complete ..) <| .setLink ..

theorem dropAnn (s : State) (h : linkSide.le F = true := by rfl) : F.Covers s (s.dropAnn) := by
  refine .mono h ?_
  unfold State.dropAnn
  split
  · exact .refl _
  · exact .after (.ite (.refl _) (.after (.complete ..) <| .setStaged ..)) <| .setLink ..

theorem dropSvc (s : State) (h : linkSide.le F = true := by rfl) : F.Covers s (s.dropSvc) :=
  .mono h <| .after (.foldl _ fun s x => .complete ..) <| .setLink ..

theorem linkOff (s : State) (st) (h : linkSide.le F = true := by rfl) : F.Covers s (s.linkOff st) :=
  .mono h <| .after (.foldl _ fun s x => .complete ..) <| .after (.setLink ..) <| .after (.dropSvc ..) <| .after (.dropAnn ..) <|
  .after (.wr ..) <| .after (.wr ..) <| .setElk ..

theorem coldFail (s : State) (phase val) (h : linkSide.le F = true := by rfl) : F.Covers s (s.coldFail phase val) :=
  .mono h <| .after (.endStart ..) <| .linkOff ..

theorem enterDownload (s : State) (h : linkSide.le F = true := by rfl) : F.Covers s (s.enterDownload) := by
  refine .mono h ?_
  unfold State.enterDownload
  refine .ite (.after (.coldFail ..) <| .after (.setLink ..) <| .setElk ..) ?_
  refine .after (.foldl _ fun s x => ?_) ?_
  · refine .ite (.refl _) ?_
    split
    · exact .refl _
    · exact .after (.foldl _ fun s x => .complete ..) <| .after (.raise ..) <| .setLink ..
  · exact .after (.setLink ..) <| .setElk ..

theorem sendStarts (s : State) (h : linkSide.le F = true := by rfl) : F.Covers s s.sendStarts :=
  .mono h <| .ite (.refl _) <| .after (.setLink ..) (.sends s s.host _)

theorem svcSend (s : State) (h : linkSide.le F = true := by rfl) : F.Covers s s.svcSend := by
  refine .mono h ?_
  unfold State.svcSend
  split
  · exact .refl _
  · extract_lets D lost l s1
    have h1 : linkSide.Covers s s1 := .setLink ..
    split
    · exact h1
    · exact .after (.out ..) <| .after (.out ..) <| .after (.setLink ..) h1

theorem announceStart (s : State) (h : linkSide.le F = true := by rfl) : F.Covers s (s.announceStart) := .mono h <| .setLink ..

theorem endDiscover (s : State) (i) (h : linkSide.le F = true := by rfl) : F.Covers s (s.endDiscover i) :=
  .mono h <| .after (.ite (.after (.endStart ..) <| .setLink ..) (.enterDownload ..)) <| .after (.wrF ..) <|
  .after (.foldl _ fun s x => .wrF ..) <| .after (.wrF ..) <| .after (.foldl _ fun s x => .wrF ..) <| .after (.wr ..) <|
  .after (.setLink ..) <| .after (.foldl _ fun s x => .raise ..) <| .raiseIf ..

theorem lateChannel (s : State) (ch) (h : linkSide.le F = true := by rfl) : F.Covers s (s.lateChannel ch) :=
  .mono h <| .ite (.refl _) <| .after (.foldl _ fun s x => .wrF ..) <| .setLink ..

theorem counterPoll (s : State) (node) (h : linkSide.le F = true := by rfl) : F.Covers s (s.counterPoll node) :=
  .mono h <| .ite (.after (.setLink ..) <| .setNode ..) (.refl _)

theorem takeRxpd (s : State) (k rxpd) (h : linkSide.le F = true := by rfl) : F.Covers s (s.takeRxpd k rxpd) :=
  .mono h <| .ite (.refl _) <| .after (.wrF ..) <| .ite (.foldl _ fun s x => .wrF ..) (.refl _)

theorem svcFail (s : State) (op) (h : linkSide.le F = true := by rfl) : F.Covers s (s.svcFail op) := by
  refine .mono h ?_
  unfold State.svcFail
  split
  · exact .complete ..
  · exact .complete ..
  · exact .refl _
  · exact .setLink ..

theorem svcDone (s : State) (op data) (h : linkSide.le F = true := by rfl) : F.Covers s (s.svcDone op data) := by
  refine .mono h ?_
  unfold State.svcDone
  split
  · split
    · exact .setLink ..
    · exact .complete ..
  · exact .ite (.ite (.setLink ..) (.after (.svcFail ..) <| .raise ..)) <| .ite (.setLink ..) (.after (.wr ..) <| .setLink ..)
  · exact .setLink ..
  · exact .refl _
  · split
    · exact .ite (.setLink ..) (.setLink ..)
    · exact .refl _
  · exact .after (.wr ..) <| .wr ..

theorem switchDecide (s : State) (h : linkSide.le F = true := by rfl) : F.Covers s (s.switchDecide) := by
  refine .mono h ?_
  unfold State.switchDecide
  split
  · exact .ite (.setLink ..) (.refl _)
  · exact .refl _

theorem linkSample (s : State) (haltIsland) (h : linkSide.le F = true := by rfl) : F.Covers s (s.linkSample haltIsland) :=
  .mono h <| .ite (.refl _) <| .ite (.linkOff ..) <| .after (.setLink ..) <| .after (.ite (.svcSend ..) (.refl _)) <|
  .after (.frame ..) <| .frame ..

theorem stoCompare (s : State) (k) (h : linkSide.le F = true := by rfl) : F.Covers s (s.stoCompare k) := by
  refine .mono h ?_
  unfold State.stoCompare
  split
  · exact .refl _
  · exact .ite (.setNode ..) (.ite (.setNode ..) (.refl _))

theorem hold (s : State) (a k) (h : feedback.le F = true := by rfl) : F.Covers s (s.hold a k) :=
  .mono h <| .after (.ite (.after (.setAxis ..) <| .after (.wrBit ..) <| .wr ..) (.refl _)) <| .wrBit ..

theorem unhold (s : State) (a k) (h : feedback.le F = true := by rfl) : F.Covers s (s.unhold a k) := .mono h <| .wrBit ..

theorem verdict (s : State) (a code) (h : feedback.le F = true := by rfl) : F.Covers s (s.verdict a code) := by
  refine .mono h ?_
  unfold State.verdict
  split
  · exact .ite (.after (.setAxis ..) <| .wr ..) (.refl _)
  · exact .after (.hold ..) <| .ite (.refl _) (.wr ..)
  · exact .after (.foldl _ fun s x => .after (.setAxis ..) <| .hold ..) <| .after (.hold ..) <| .wr ..
  · exact .after (.setAxis ..) <| .ite (.wr ..) (.refl _)
  · exact .refl _

theorem fbFlags (s : State) (i old new keep) (h : feedback.le F = true := by rfl) : F.Covers s (s.fbFlags i old new keep) :=
  .mono h <| .after (.orBits ..) <| .wr ..

theorem addHist (s : State) (src pos valid subst) (h : feedback.le F = true := by rfl) : F.Covers s (s.addHist src pos valid subst) :=
  .mono h <| .setHist ..

theorem fbEnable (s : State) (i) (h : feedback.le F = true := by rfl) : F.Covers s (s.fbEnable i) :=
  .mono h <| .after (.wrP ..) <| .after (.clrBits ..) <| .setFb ..

theorem fbLose (s : State) (i wire) (h : feedback.le F = true := by rfl) : F.Covers s (s.fbLose i wire) :=
  .mono h <| .after (.ite (.verdict ..) (.refl _)) <| .after (.raiseIf ..) <| .after (.setFb ..) <| .after (.wrP ..) <|
  .after (.ite (.wrBit ..) (.refl _)) <| .fbFlags ..

theorem freezeNow (s : State) (a) (h : feedback.le F = true := by rfl) : F.Covers s (s.freezeNow a) :=
  .mono h <| .after (.verdict ..) <| .after (.raise ..) <| .after (.setFb ..) <| .after (.wrP ..) <| .after (.wrBit ..) <| .wr ..

theorem fbWarn (s : State) (i warn) (h : feedback.le F = true := by rfl) : F.Covers s (s.fbWarn i warn) :=
  .mono h <| .after (.raiseIf ..) <| .after (.setFb ..) <| .after (.wrBit ..) <| .ite (.wrBit ..) (.refl _)

theorem monCond (s : State) (a k on code act) (h : feedback.le F = true := by rfl) : F.Covers s (s.monCond a k on code act) :=
  .mono h <| .after (.ite (.verdict ..) (.refl _)) <| .after (.ite (.after (.raise ..) <| .wrBit ..) (.refl _)) <|
  .after (.setAxis ..) <| .wrBit ..

theorem monIdle (s : State) (a) (h : feedback.le F = true := by rfl) : F.Covers s (s.monIdle a) :=
  .mono h <| .after (.setAxis ..) <| .wr ..

theorem stopEnds (s : State) (a) (h : feedback.le F = true := by rfl) : F.Covers s (s.stopEnds a) := .mono h <| .ite (.wr ..) (.refl _)

theorem monLimits (s : State) (a) (h : feedback.le F = true := by rfl) : F.Covers s (s.monLimits a) :=
  .mono h <| .after (.monCond ..) <| .monCond ..

theorem fbChanged (s : State) (idx i old) (h : feedback.le F = true := by rfl) : F.Covers s (s.fbChanged idx i old) :=
  .mono h <| .ite (.fbEnable ..) (.refl _)

theorem fbLatchedClear (s : State) (i v) (h : feedback.le F = true := by rfl) : F.Covers s (s.fbLatchedClear i v) :=
  .mono h <| .clrBits ..

theorem setLatch (s : State) (u r) (h : feedback.le F = true := by rfl) : F.Covers s (s.setLatch u r) :=
  .mono h <| .after (.wrBit ..) <| .after (.wrBit ..) <| .after (.wr ..) <| .after (.wr ..) <| .setLat ..

theorem latTrig (s : State) (u x) (h : feedback.le F = true := by rfl) : F.Covers s (s.latTrig u x) :=
  .mono h <| .ite (.setLatch ..) (.refl _)

theorem latEdge (s : State) (inp stampNs rising) (h : feedback.le F = true := by rfl) : F.Covers s (s.latEdge inp stampNs rising) :=
  .mono h <| .foldl _ fun s x => .ite (.latTrig ..) (.refl _)

theorem latIndex (s : State) (inst) (h : feedback.le F = true := by rfl) : F.Covers s (s.latIndex inst) := by
  refine .mono h ?_
  unfold State.latIndex
  split
  · exact .refl _
  · exact .foldl _ fun s x => .ite (.latTrig ..) (.refl _)

theorem latCin (s : State) (node old new) (h : feedback.le F = true := by rfl) : F.Covers s (s.latCin node old new) :=
  .mono h <| .foldl _ fun s x => .ite (.latTrig ..) (.refl _)

theorem latForm (s : State) (u) (h : feedback.le F = true := by rfl) : F.Covers s (s.latForm u).2 := by
  refine .mono h ?_
  unfold State.latForm
  extract_lets r
  split
  · exact .refl _
  · refine .ite_snd (.setLatch ..) <| .ite_snd (.after (.inc ..) <| .setLatch ..) ?_
    split
    · exact .setLatch ..
    · refine .ite_snd (.after (.inc ..) <| .setLatch ..) <| .ite_snd (.after (.setLatch ..) <| .inc ..) ?_
      exact .after (.raise ..) <| .after (.wrBit ..) <| .after (.inc ..) <| .after (.setLatch ..) <| .inc ..

theorem latArm (s : State) (u v) (h : feedback.le F = true := by rfl) : F.Covers s (s.latArm u v) :=
  .mono h <| .ite (.ite (.ite (.setLatch ..) (.refl _)) (.setLatch ..)) (.ite (.setLatch ..) (.refl _))

theorem latBefore (s : State) (idx i) (h : feedback.le F = true := by rfl) : F.Covers s (s.latBefore idx i) :=
  .mono h <| .ite (.ite (.setLatch ..) (.refl _)) (.refl _)

theorem passPos (s : State) (a) (h : feedback.le F = true := by rfl) : F.Covers s (s.passPos a) :=
  .mono h <| .after (.setAxis ..) <| .after (.wrBit ..) <| .wrBit ..

theorem stepTime (s : State) (a) (h : feedback.le F = true := by rfl) : F.Covers s (s.stepTime a) :=
  .mono h <| .ite (.setAxis ..) (.setAxis ..)

theorem endOpen (s : State) (a) (h : feedback.le F = true := by rfl) : F.Covers s (s.endOpen a) := .mono h <| .ite (.wr ..) (.refl _)

theorem regRecord (s : State) (a stamp) (h : feedback.le F = true := by rfl) : F.Covers s (s.regRecord a stamp) := by
  refine .mono h ?_
  unfold State.regRecord
  refine .ite (.refl _) ?_
  refine .ite (.inc ..) ?_
  dsimp only
  split
  · exact .refl _
  · exact .after (.ite (.refl _) (.wrBit ..)) <| .after (.setCpl ..) <| .after (.wrBit ..) <| .wrP ..

theorem unblockOthers (s : State) (a) (h : feedback.le F = true := by rfl) : F.Covers s (s.unblockOthers a) :=
  .mono h <| .foldl _ fun s x => .ite (.after (.ite (.unhold ..) (.refl _)) <| .setAxis ..) (.refl _)

theorem clearAxis (s : State) (a) (h : feedback.le F = true := by rfl) : F.Covers s (s.clearAxis a) :=
  .mono h <| .after (.raise ..) <| .after (.unblockOthers ..) <| .after (.unhold ..) <| .after (.unhold ..) <|
  .after (.ite (.wr ..) (.refl _)) <| .after (.ite (.fbEnable ..) (.refl _)) <| .clrBits ..

theorem slotHolds (s : State) (k a b13) (h : feedback.le F = true := by rfl) : F.Covers s (s.slotHolds k a b13) :=
  .mono h <| .after (.ite (.ite (.hold ..) (.ite (.refl _) (.unhold ..))) <| .after (.ite (.refl _) (.unhold ..)) <| .setAxis ..) <|
  .ite (.hold ..) (.refl _)

theorem stoHolds (s : State) (h : feedback.le F = true := by rfl) : F.Covers s (s.stoHolds) :=
  .mono h <| .foldl _ fun s x => .ite (.refl _) (.ite (.hold ..) (.unhold ..))

theorem checkDue (s : State) (a m) (h : motion.le F = true := by rfl) : F.Covers s (s.checkDue a m) := .mono h <| .setGm ..

theorem delayCheck (s : State) (a) (h : motion.le F = true := by rfl) : F.Covers s (s.delayCheck a) := .mono h <| .checkDue ..

theorem delayChecks (s : State) (a) (h : motion.le F = true := by rfl) : F.Covers s (s.delayChecks a) :=
  .mono h <| .ite (.refl _) <| .after (.ite (.delayMap ..) (.refl _)) <| .after (.ite (.delayGain ..) (.refl _)) <| .setGm ..

theorem gmStaged (s : State) (a) (h : motion.le F = true := by rfl) : F.Covers s (s.gmStaged a) := .mono h <| .wrBit ..

theorem gmKeep (s : State) (idx a) (h : motion.le F = true := by rfl) : F.Covers s (s.gmKeep idx a) :=
  .mono h <| .ite (.setGm ..) (.refl _)

theorem gmRelease (s : State) (a) (h : motion.le F = true := by rfl) : F.Covers s (s.gmRelease a) := .mono h <| .setGm ..

theorem keysHold (s : State) (a) (h : motion.le F = true := by rfl) : F.Covers s (s.keysHold a) := .mono h <| .ite (.refl _) (.setGm ..)

theorem keySample (s : State) (a speed ubus) (h : motion.le F = true := by rfl) : F.Covers s (s.keySample a speed ubus) :=
  .mono h <| .setGm ..

theorem keyInertia (s : State) (a v) (h : motion.le F = true := by rfl) : F.Covers s (s.keyInertia a v) := by
  refine .mono h ?_
  unfold State.keyInertia
  dsimp only
  split
  · exact .ite (.setGm ..) (.refl _)
  · exact .refl _

theorem tSet (s : State) (a k b) (h : motion.le F = true := by rfl) : F.Covers s (s.tSet a k b) :=
  .mono h <| .after (.ite (.wrBit ..) (.refl _)) <| .wrBit ..

theorem setTarget (s : State) (a x) (h : motion.le F = true := by rfl) : F.Covers s (s.setTarget a x) := .mono h <| .wrP ..

theorem queueReport (s : State) (a) (h : motion.le F = true := by rfl) : F.Covers s (s.queueReport a) :=
  .mono h <| .after (.wr ..) <| .wr ..

theorem entryStart (s : State) (a prev keep) (h : motion.le F = true := by rfl) : F.Covers s (s.entryStart a prev keep) := by
  refine .mono h ?_
  unfold State.entryStart
  split
  · exact .setTraj ..
  · exact .after (.ite (.tSet ..) (.setTraj ..)) <| .after (.setTarget ..) <| .setTraj ..

theorem entryEnd (s : State) (a) (h : motion.le F = true := by rfl) : F.Covers s (s.entryEnd a) := by
  refine .mono h ?_
  unfold State.entryEnd
  dsimp only
  split
  · exact .refl _
  · exact .after (.ite (.after (.raise ..) <| .after (.tSet ..) <| .after (.tSet ..) <| .setTraj ..) (.entryStart ..)) <|
      .after (.setTraj ..) <| .raiseIf ..

theorem skipSame (s : State) (a n) (h : motion.le F = true := by rfl) : F.Covers s (s.skipSame a n) := by
  refine .mono h ?_
  induction n generalizing s with
  | zero => exact .refl _
  | succ n ih => exact .ite (.after (ih _) <| .entryEnd ..) (.refl _)

theorem queuePass (s : State) (a n) (h : motion.le F = true := by rfl) : F.Covers s (s.queuePass a n) := by
  refine .mono h ?_
  induction n generalizing s with
  | zero => exact .refl _
  | succ n ih => exact .ite (.after (ih _) <| .after (.skipSame ..) <| .entryEnd ..) (.refl _)

theorem queueRun (s : State) (a) (h : motion.le F = true := by rfl) : F.Covers s (s.queueRun a) := by
  refine .mono h <| .ite (.refl _) ?_
  split
  · exact .ite (.after (.queuePass ..) <| .setTraj ..) (.after (.queuePass ..) <| .setTraj ..)
  · exact .after (.queuePass ..) <| .setTraj ..

theorem queueStep (s : State) (a) (h : motion.le F = true := by rfl) : F.Covers s (s.queueStep a) :=
  .mono h <| .after (.queueReport ..) <| .after (.queueRun ..) <| .ite (.refl _) (.after (.skipSame ..) <| .entryStart ..)

theorem homeFail (s : State) (a) (h : motion.le F = true := by rfl) : F.Covers s (s.homeFail a) :=
  .mono h <| .after (.raise ..) <| .after (.tSet ..) <| .after (.tSet ..) <| .after (.tSet ..) <| .setTraj ..

theorem homeEdge (s : State) (inp stamp rising) (h : motion.le F = true := by rfl) : F.Covers s (s.homeEdge inp stamp rising) :=
  .mono h <| .foldl _ fun s x => .ite (.setTraj ..) (.refl _)

theorem moveDone (s : State) (a) (h : motion.le F = true := by rfl) : F.Covers s (s.moveDone a) :=
  .mono h <| .after (.raise ..) <| .after (.tSet ..) <| .setTraj ..

theorem taskStep (s : State) (a) (h : motion.le F = true := by rfl) : F.Covers s (s.taskStep a) := by
  refine .mono h ?_
  unfold State.taskStep
  extract_lets r
  split
  · exact .after (.ite (.setTarget ..) (.refl _)) <| .setTraj ..
  · exact .after (.ite (.moveDone ..) (.refl _)) <| .setTraj ..
  · exact .after (.tSet ..) <| .after (.tSet ..) <| .setTraj ..
  · refine .ite (.ite (.setTraj ..) (.after (.tSet ..) <| .setTraj ..)) <| .ite ?_ ?_
    · exact .ite (.after (.setTarget ..) <| .setTraj ..) (.setTraj ..)
    · exact .ite (.after (.raise ..) <| .after (.tSet ..) <| .after (.tSet ..) <| .setTraj ..) (.setTraj ..)
  · split
    · exact .ite (.refl _) (.after (.setTarget ..) <| .setTraj ..)
    · exact .ite (.setTraj ..) <| .ite (.after (.moveDone ..) <| .setTraj ..) (.setTraj ..)
  · exact .queueStep ..

theorem genFlags (s : State) (a) (h : motion.le F = true := by rfl) : F.Covers s (s.genFlags a) :=
  .mono h <| .after (.ite (.tSet ..) (.refl _)) <| .after (.tSet ..) <| .tSet ..

theorem endTask (s : State) (a) (h : motion.le F = true := by rfl) : F.Covers s (s.endTask a) := by
  refine .mono h ?_
  unfold State.endTask
  refine .after (.tSet ..) ?_
  refine .after (.tSet ..) ?_
  refine .after (.tSet ..) ?_
  split
  · exact .after (.tSet ..) <| .after (.tSet ..) <| .setTraj ..
  · exact .after (.raise ..) <| .after (.tSet ..) <| .setTraj ..
  · exact .setTraj ..

theorem trjTrack (s : State) (a) (h : motion.le F = true := by rfl) : F.Covers s (s.trjTrack a) :=
  .mono h <| .ite (.refl _) <| .after (.genFlags ..) <| .after (.tSet ..) <| .after (.tSet ..) <| .after (.wr ..) <|
  .after (.setTarget ..) <| .after (.setTraj ..) <| .after (.raiseIf ..) <| .endTask ..

theorem trjEngage (s : State) (a src q) (h : motion.le F = true := by rfl) : F.Covers s (s.trjEngage a src q) :=
  .mono h <| .after (.genFlags ..) <| .after (.ite (.refl _) (.wr ..)) <| .after (.tSet ..) <| .after (.wr ..) <|
  .after (.setTraj ..) <| .after (.endTask ..) <| .ite (.tSet ..) (.refl _)

theorem trjTakeOver (s : State) (a quick) (h : motion.le F = true := by rfl) : F.Covers s (s.trjTakeOver a quick) :=
  .mono h <| .after (.genFlags ..) <| .after (.ite (.refl _) (.after (.tSet ..) <| .wr ..)) <|
  .after (.ite (.setTarget ..) (.refl _)) <| .after (.wr ..) <| .after (.setTraj ..) <| .endTask ..

theorem trjStop (s : State) (a quick) (h : motion.le F = true := by rfl) : F.Covers s (s.trjStop a quick) := by
  refine .mono h ?_
  unfold State.trjStop
  refine .ite (.refl _) ?_
  refine .after (.genFlags ..) ?_
  refine .after (.ite (.setTarget ..) (.refl _)) ?_
  split
  · exact .after (.tSet ..) <| .after (.setTraj ..) <| .after (.tSet ..) <| .after (.endTask ..) <| .ite (.after (.wr ..) <|
      .setTraj ..) (.refl _)
  · exact .after (.tSet ..) <| .after (.setTraj ..) <| .after (.tSet ..) <| .after (.endTask ..) <| .ite (.after (.wr ..) <|
      .setTraj ..) (.refl _)
  · exact .after (.setTraj ..) <| .after (.tSet ..) <| .after (.endTask ..) <| .ite (.after (.wr ..) <| .setTraj ..) (.refl _)

theorem camReport (s : State) (h : motion.le F = true := by rfl) : F.Covers s (s.camReport) := .mono h <| .after (.wr ..) <| .wr ..

theorem cplDrop (s : State) (a) (h : motion.le F = true := by rfl) : F.Covers s (s.cplDrop a) :=
  .mono h <| .foldl _ fun s x => .dropShadow ..

theorem cplLapse (s : State) (a) (h : motion.le F = true := by rfl) : F.Covers s (s.cplLapse a) := by
  refine .mono h ?_
  unfold State.cplLapse
  dsimp only
  split
  · exact .refl _
  · exact .after (.complete ..) <| .after (.raise ..) <| .after (.ite (.refl _) (.cplDrop ..)) <| .setCpl ..

theorem cplDisengage (s : State) (a quick) (h : motion.le F = true := by rfl) : F.Covers s (s.cplDisengage a quick) :=
  .mono h <| .after (.ite (.after (.trjTakeOver ..) <| .cplClear ..) (.refl _)) <| .ite (.cplLapse ..) (.refl _)

theorem cplStop (s : State) (a quick) (h : motion.le F = true := by rfl) : F.Covers s (s.cplStop a quick) :=
  .mono h <| .after (.raise ..) <| .cplDisengage ..

theorem cplShadow (s : State) (a b) (h : motion.le F = true := by rfl) : F.Covers s (s.cplShadow a b) :=
  .mono h <| .foldl _ fun s x => .wrShadow ..

theorem camFail (s : State) (n cause) (h : motion.le F = true := by rfl) : F.Covers s (s.camFail n cause) :=
  .mono h <| .after (.raise ..) <| .foldl _ fun s x => .after (.ite (.cplStop ..) (.refl _)) <| .ite (.cplLapse ..) (.refl _)

theorem pgReport (s : State) (g) (h : motion.le F = true := by rfl) : F.Covers s (s.pgReport g) :=
  .mono h <| .after (.wr ..) <| .after (.wr ..) <| .after (.wr ..) <| .after (.wrP ..) <| .wrP ..

theorem pgEntryEnd (s : State) (g) (h : motion.le F = true := by rfl) : F.Covers s (s.pgEntryEnd g) := by
  refine .mono h ?_
  unfold State.pgEntryEnd
  dsimp only
  split
  · exact .refl _
  · exact .after (.ite (.after (.ite (.raise ..) (.refl _)) <| .setPg ..) (.refl _)) <| .after (.setPg ..) <| .raiseIf ..

theorem pgPass (s : State) (g t n) (h : motion.le F = true := by rfl) : F.Covers s (s.pgPass g t n) := by
  refine .mono h ?_
  induction n generalizing s with
  | zero => exact .refl _
  | succ n ih =>
    unfold State.pgPass
    extract_lets r
    split
    · exact .refl _
    · exact .ite (.refl _) <| .ite (.pgEntryEnd ..) <| .ite (.refl _) <| .after (ih _) <| .after (.setPg ..) <| .pgEntryEnd ..

theorem pgRun (s : State) (g t) (h : motion.le F = true := by rfl) : F.Covers s (s.pgRun g t) := by
  refine .mono h ?_
  unfold State.pgRun
  split
  · exact .refl _
  · exact .ite (.after (.ite (.setPg ..) <| .ite (.setPg ..) <| .after (.setPg ..) <| .after (.pgEntryEnd ..) <| .setPg ..) <|
      .wrBit ..) <| .after (.pgPass ..) <| .after (.setPg ..) <| .wrBit ..

theorem pgStep (s : State) (g) (h : motion.le F = true := by rfl) : F.Covers s (s.pgStep g) :=
  .mono h <| .ite (.refl _) <| .after (.pgReport ..) <| .ite (.refl _) (.ite (.refl _) (.pgRun ..))

theorem pgStop (s : State) (g quick) (h : motion.le F = true := by rfl) : F.Covers s (s.pgStop g quick) :=
  .mono h <| .ite (.after (.pgReport ..) <| .setPg ..) (.refl _)

theorem pgDiscard (s : State) (g keep) (h : motion.le F = true := by rfl) : F.Covers s (s.pgDiscard g keep) :=
  .mono h <| .after (.raise ..) <| .after (.pgReport ..) <| .setPg ..

theorem pgBind (s : State) (g) (h : motion.le F = true := by rfl) : F.Covers s (s.pgBind g) :=
  .mono h <| .after (.pgReport ..) <| .after (.foldl _ fun s x => .trjEngage ..) <| .setPg ..

theorem pgStart (s : State) (g) (h : motion.le F = true := by rfl) : F.Covers s (s.pgStart g) :=
  .mono h <| .ite (.refl _) (.after (.pgReport ..) <| .setPg ..)

theorem pgRelease (s : State) (g) (h : motion.le F = true := by rfl) : F.Covers s (s.pgRelease g) :=
  .mono h <| .after (.pgReport ..) <| .after (.setPg ..) <| .foldl _ fun s x => .after (.genFlags ..) <| .after (.setTarget ..) <|
  .after (.wr ..) <| .setTraj ..

theorem queueDiscard (s : State) (a keep) (h : motion.le F = true := by rfl) : F.Covers s (s.queueDiscard a keep) :=
  .mono h <| .after (.raise ..) <| .after (.queueReport ..) <| .after (.ite (.after (.tSet ..) <| .tSet ..) (.refl _)) <| .setTraj ..

theorem fresh (s : State) (a) (h : motion.le F = true := by rfl) : F.Covers s (s.fresh a) :=
  .mono h <| .after (.ite (.refl _) (.tSet ..)) <| .after (.tSet ..) <| .after (.tSet ..) <| .after (.setTraj ..) <| .endTask ..

theorem startMove (s : State) (a x own tag) (h : motion.le F = true := by rfl) : F.Covers s (s.startMove a x own tag) :=
  .mono h <| .after (.genFlags ..) <| .after (.ite (.moveDone ..) (.refl _)) <| .after (.setTarget ..) <| .after (.setTraj ..) <|
  .fresh ..

theorem startQueue (s : State) (a) (h : motion.le F = true := by rfl) : F.Covers s (s.startQueue a) :=
  .mono h <| .after (.genFlags ..) <| .after (.queueReport ..) <| .after (.entryStart ..) <| .after (.tSet ..) <| .after (.tSet ..) <|
  .after (.setTraj ..) <| .fresh ..

theorem pgLeave (s : State) (a quick) (h : motion.le F = true := by rfl) : F.Covers s (s.pgLeave a quick) := by
  refine .mono h ?_
  unfold State.pgLeave
  split
  · exact .refl _
  · exact .after (.raise ..) <| .after (.trjTakeOver ..) <| .after (.pgReport ..) <| .after (.setPg ..) <| .pgStop ..

theorem stopAxis (s : State) (a quick) (h : motion.le F = true := by rfl) : F.Covers s (s.stopAxis a quick) := by
  refine .mono h ?_
  unfold State.stopAxis
  split
  · exact .trjStop ..
  · exact .cplStop ..
  · exact .pgLeave ..

theorem moveApply (s : State) (q) (h : motion.le F = true := by rfl) : F.Covers s (s.moveApply q) := by
  refine .mono h <| .ite (.ite (.refl _) (.stopAxis ..)) <| .ite (.after (.raise ..) <| .tSet ..) ?_
  dsimp only
  split
  · exact .startMove ..
  · exact .startMove ..
  · exact .after (.genFlags ..) <| .after (.ite (.tSet ..) (.refl _)) <| .after (.tSet ..) <| .after (.setTraj ..) <| .fresh ..
  · exact .after (.genFlags ..) <| .after (.tSet ..) <| .after (.tSet ..) <| .after (.setTraj ..) <| .fresh ..
  · exact .after (.genFlags ..) <| .after (.setTarget ..) <| .after (.setTraj ..) <| .fresh ..
  · split
    · exact .startMove ..
    · have h1 : motion.Covers s (((s.fresh q.inst).tSet q.inst tQRUN true).tSet q.inst tQPAUSED false) :=
        .after (.tSet ..) <| .after (.tSet ..) <| .fresh ..
      split
      · exact .after (.genFlags ..) <| .after (.setTarget ..) <| .after (.setTraj ..) h1
      · exact .after (.startQueue ..) h1
  · exact .startQueue ..
  · exact .refl _

theorem trjHolds (s : State) (h : motion.le F = true := by rfl) : F.Covers s (s.trjHolds) := by
  refine .mono h ?_
  unfold State.trjHolds
  refine .foldl _ fun s x => ?_
  refine .ite (.refl _) ?_
  refine .ite ?_ (.trjTrack ..)
  split
  · exact .after (.pgStop ..) <| .trjTrack ..
  · exact .trjTrack ..

theorem trjLimit (s : State) (idx a old) (h : motion.le F = true := by rfl) : F.Covers s (s.trjLimit idx a old) :=
  .mono h <| .ite (.refl _) <| .after (.ite (.after (.raise ..) <| .tSet ..) (.ite (.tSet ..) (.refl _))) <| .setTraj ..

theorem dropKey (s : State) (k) (h : motion.le F = true := by rfl) : F.Covers s (s.dropKey k) :=
  .mono h <| .ite (.after (.gmStaged ..) <| .setGm ..) (.ite (.cplDrop ..) (.dropShadow ..))

theorem dropStaged (s : State) (h : motion.le F = true := by rfl) : F.Covers s (s.dropStaged) :=
  .mono h <| .after (.setStaged ..) <| .foldl _ fun s x => .foldl _ fun s x => .dropKey ..

theorem offSet (s : State) (a) (h : modulation.le F = true := by rfl) : F.Covers s (s.offSet a) := .mono h <| .after (.wr ..) <| .wr ..

theorem formEdges (s : State) (a) (h : modulation.le F = true := by rfl) : F.Covers s (s.formEdges a) :=
  .mono h <| .ite (.offSet ..) <| .after (.raiseIf ..) <| .after (.wr ..) <| .wr ..

theorem gpUpdate (s : State) (n cur) (h : modulation.le F = true := by rfl) : F.Covers s (s.gpUpdate n cur) :=
  .mono h <| .after (.ite (.refl _) (.frame ..)) <| .after (.raiseIf ..) <| .after (.wr ..) <| .after (.wr ..) <| .setGp ..

theorem tripLatch (s : State) (pair input edge) (h : frontEnd.le F = true := by rfl) :
    F.Covers s (s.tripLatch pair input edge).2 := by
  refine .mono h <| .ite_snd ?_ (.refl _)
  refine .after (.raise ..) <| .after (.foldl _ fun s x => .gpOff ..) <| .after (.foldl _ fun s x => ?_) ?_
  · exact .after (.setGp ..) <| .wrBit ..
  · exact .after (.setGp ..) <| .after (.wr ..) <| .wrBit ..

theorem feBit (s : State) (k b) (h : frontEnd.le F = true := by rfl) : F.Covers s (s.feBit k b) := .mono h <| .wrBit ..

theorem feOutput (s : State) (p on) (h : frontEnd.le F = true := by rfl) : F.Covers s (s.feOutput p on).2 :=
  .mono h <| .ite_snd (.refl _) <| .after (.setDqFe (s.entry ..) _) (.entry ..)

theorem feOpen (s : State) (h : frontEnd.le F = true := by rfl) : F.Covers s (s.feOpen) :=
  .mono h <| .after (.setFe ..) <| .after (.feOutput ..) <| .feOutput ..

theorem feEndStart (s : State) (status) (h : frontEnd.le F = true := by rfl) : F.Covers s (s.feEndStart status) := by
  refine .mono h ?_
  unfold State.feEndStart
  split
  · exact .refl _
  · exact .after (.complete ..) <| .setFe ..

theorem feFault (s : State) (cause) (h : frontEnd.le F = true := by rfl) : F.Covers s (s.feFault cause) :=
  .mono h <| .ite (.refl _) <| .after (.vmRefresh ..) <| .after (.foldl _ fun s x => .complete ..) <| .after (.setFe ..) <|
  .after (.feEndStart ..) <| .after (.feRaise ..) <| .after (.feBit ..) <| .after (.setFe ..) <| .after (.wrF ..) <| .after (.wr ..) <|
  .after (.feOpen ..) <| .after (.bridgeOff ..) <| .wr ..

theorem tripNow (s : State) (pair input) (h : frontEnd.le F = true := by rfl) : F.Covers s (s.tripNow pair input) :=
  .mono h <| .after (.ite (.feFault ..) (.refl _)) <| .tripLatch ..

theorem tripsNow (s : State) (h : frontEnd.le F = true := by rfl) : F.Covers s (s.tripsNow) :=
  .mono h <| .foldl _ fun s x => .foldl _ fun s x => .tripNow ..

theorem sequences (s : State) (h : frontEnd.le F = true := by rfl) : F.Covers s (s.sequences).2.2 := .mono h <| .setFe ..

theorem pll (s : State) (p up) (h : frontEnd.le F = true := by rfl) : F.Covers s (s.pll p up) :=
  .mono h <| .after (.ite (.feRaise ..) (.refl _)) <| .after (.feBit ..) <| .setFe ..

theorem setDemand (s : State) (x) (h : frontEnd.le F = true := by rfl) : F.Covers s (s.setDemand x) :=
  .mono h <| .after (.vmRefresh ..) <| .wrF ..

theorem rideBegin (s : State) (sg) (h : frontEnd.le F = true := by rfl) : F.Covers s (s.rideBegin sg) :=
  .mono h <| .after (.feRaise ..) <| .after (.setFe ..) <| .after (.setDemand ..) <| .after (.feBit ..) <| .wr ..

theorem rideOnDip (s : State) (h : frontEnd.le F = true := by rfl) : F.Covers s (s.rideOnDip) :=
  .mono h <| .ite (.after (.ite (.rideBegin ..) (.refl _)) <| .rideTarget ..) (.refl _)

theorem rideFloor (s : State) (u) (h : frontEnd.le F = true := by rfl) : F.Covers s (s.rideFloor u) :=
  .mono h <| .ite (.after (.setDemand ..) <| .feBit ..) (.refl _)

theorem rideRecover (s : State) (h : frontEnd.le F = true := by rfl) : F.Covers s (s.rideRecover) :=
  .mono h <| .ite (.feBit ..) (.refl _)

theorem rideStep (s : State) (u) (h : frontEnd.le F = true := by rfl) : F.Covers s (s.rideStep u) :=
  .mono h <| .after (.ite (.after (.rideRecover ..) <| .after (.rideFloor ..) <| .after (.ite (.refl _) <| .after (.setDemand ..) <|
  .rideTarget ..) <| .ite (.feBit ..) (.refl _)) <| .ite (.after (.ite (.after (.rideFloor ..) <| .after (.rideBegin ..) <|
  .rideTarget ..) <| .after (.rideRecover ..) <| .rideFloor ..) <| .after (.ite (.feBit ..) (.refl _)) <| .rideOnDip ..) (.refl _)) <|
  .setFe ..

theorem busLoop (s : State) (u pax) (h : frontEnd.le F = true := by rfl) : F.Covers s (s.busLoop u pax).2.2 :=
  .mono h <| .ite_snd_snd (.after (.feBit ..) <| .setFe ..) (.after (.feBit ..) <| .setFe ..)

theorem chopper (s : State) (u) (h : frontEnd.le F = true := by rfl) : F.Covers s (s.chopper u) :=
  .mono h <| .after (.foldl _ fun s x => .setGp ..) <| .after (.ite (.feRaise ..) (.refl _)) <| .after (.feBit ..) <|
  .after (.feBit ..) <| .setFe ..

theorem chopperRest (s : State) (h : frontEnd.le F = true := by rfl) : F.Covers s (s.chopperRest) :=
  .mono h <| .after (.ite (.feBit ..) (.refl _)) <| .after (.feBit ..) <| .setFe ..

theorem feSync (s : State) (h : frontEnd.le F = true := by rfl) : F.Covers s (s.feSync) :=
  .mono h <| .after (.setFe ..) <| .after (.wr ..) <| .feLoadAll ..

theorem feStopped (s : State) (status) (h : frontEnd.le F = true := by rfl) : F.Covers s (s.feStopped status) :=
  .mono h <| .after (.foldl _ fun s x => .complete ..) <| .setFe ..

theorem feChanged (s : State) (idx old) (h : frontEnd.le F = true := by rfl) : F.Covers s (s.feChanged idx old) :=
  .mono h <| .ite (.raiseIf ..) <| .ite (.after (.ite (.after (.setDqFe ..) <| .pushNew ..) (.refl _)) <|
  .ite (.after (.pushLine ..) <| .setDqFe ..) (.refl _)) <| .ite (.setFe ..) (.ite (.setFe ..) (.refl _))

theorem setSafIn (s : State) (i x) (h : lockkeeper.le F = true := by rfl) : F.Covers s (s.setSafIn i x) := .mono h <| .setSaf ..

theorem setProc (s : State) (p x) (h : lockkeeper.le F = true := by rfl) : F.Covers s (s.setProc p x) := .mono h <| .setSaf ..

theorem safExchange (s : State) (h : lockkeeper.le F = true := by rfl) : F.Covers s (s.safExchange) :=
  .mono h <| .foldl _ fun s x => .setProc ..

theorem safLines (s : State) (h : lockkeeper.le F = true := by rfl) : F.Covers s (s.safLines) := .mono h <| .wr ..

theorem setGroupState (s : State) (p g v) (h : lockkeeper.le F = true := by rfl) : F.Covers s (s.setGroupState p g v) :=
  .mono h <| .ite (.refl _) <| .after (.raiseIf ..) <| .after (.safLines ..) <| .setProc ..

theorem safFault (s : State) (code) (h : lockkeeper.le F = true := by rfl) : F.Covers s (s.safFault code) :=
  .mono h <| .ite (.refl _) <| .after (.raise ..) <| .after (.safLines ..) <| .setSaf ..

theorem demandReport (s : State) (g new) (h : lockkeeper.le F = true := by rfl) : F.Covers s (s.demandReport g new) :=
  .mono h <| .foldl _ fun s x => .after (.raise ..) <| .after (.wr ..) <| .inc ..

theorem guardTest (s : State) (p g) (h : lockkeeper.le F = true := by rfl) : F.Covers s (s.guardTest p g) :=
  .mono h <| .ite (.refl _) <| .ite (.setProc ..) (.ite (.setProc ..) (.refl _))

theorem groupSettle (s : State) (p g) (h : lockkeeper.le F = true := by rfl) : F.Covers s (s.groupSettle p g) := by
  refine .mono h ?_
  unfold State.groupSettle
  extract_lets dm s1 s2 s3
  have h1 : lockkeeper.Covers s s1 := .ite (.setGroupState ..) (.refl _)
  have h2 : lockkeeper.Covers s s2 := .after (.ite (.setGroupState ..) (.refl _)) h1
  have h3 : lockkeeper.Covers s s3 := .after (.ite (.setGroupState ..) (.refl _)) h2
  exact .after (.ite (.after (.setGroupState ..) <| .setProc ..) (.refl _)) h3

theorem groupEval (s : State) (p g) (h : lockkeeper.le F = true := by rfl) : F.Covers s (s.groupEval p g) :=
  .mono h <| .after (.ite (.setGroupState ..) <| .after (.groupSettle ..) <| .ite (.refl _) <|
  .ite (.after (.ite (.setGroupState ..) <| .after (.setGroupState ..) <| .setProc ..) <| .setProc ..) <|
  .ite (.setGroupState ..) (.ite (.setGroupState ..) (.refl _))) <| .after (.setProc ..) <| .after (.guardTest ..) <| .demandReport ..

theorem safEval (s : State) (p) (h : lockkeeper.le F = true := by rfl) : F.Covers s (s.safEval p) :=
  .mono h <| .ite (.after (.setProc ..) <| .foldl _ fun s x => .groupEval ..) (.refl _)

theorem safEvals (s : State) (h : lockkeeper.le F = true := by rfl) : F.Covers s (s.safEvals) :=
  .mono h <| .after (.safEval ..) <| .safEval ..

theorem safReset (s : State) (h : lockkeeper.le F = true := by rfl) : F.Covers s (s.safReset) :=
  .mono h <| .after (.safEvals ..) <| .after (.setSaf ..) <| .after (.foldl _ fun s x => .ite (.setSafIn ..) (.refl _)) <|
  .foldl _ fun s x => .after (.foldl _ fun s x => .ite (.after (.setGroupState ..) <| .setProc ..) (.refl _)) <| .setProc ..

theorem safChecks (s : State) (i) (h : lockkeeper.le F = true := by rfl) : F.Covers s (s.safChecks i) :=
  .mono h <| .after (.ite (.safFault ..) (.refl _)) <| .after (.ite (.refl _) (.safFault ..)) <|
  .after (.ite (.refl _) (.safFault ..)) <| .after (.ite (.safFault ..) (.refl _)) <| .ite (.safFault ..) (.refl _)

theorem safBegin (s : State) (h : lockkeeper.le F = true := by rfl) : F.Covers s (s.safBegin) :=
  .mono h <| .foldl _ fun s x => .setProc ..

theorem safAsk (s : State) (h : lockkeeper.le F = true := by rfl) : F.Covers s (s.safAsk) :=
  .mono h <| .after (.foldl _ fun s x => .setProc ..) <| .setSaf ..

theorem safShow (s : State) (f) (h : lockkeeper.le F = true := by rfl) : F.Covers s (s.safShow f) :=
  .mono h <| .after (.wr ..) <| .after (.wr ..) <| .after (.wr ..) <| .after (.wrF ..) <| .after (.wrF ..) <| .after (.wr ..) <|
  .after (.wr ..) <| .after (.wr ..) <| .after (.wr ..) <| .after (.wr ..) <| .after (.foldl _ fun s x => .wr ..) <|
  .foldl _ fun s x => .wr ..

theorem cmpDue (s : State) (u) (h : fieldIo.le F = true := by rfl) : F.Covers s (s.cmpDue u) :=
  .mono h <| .ite (.refl _) <| .after (.foldl _ fun s x => .raiseEv ..) <| .setCmp ..

theorem cmpDueAll (s : State) (h : fieldIo.le F = true := by rfl) : F.Covers s (s.cmpDueAll) :=
  .mono h <| .foldl _ fun s x => .cmpDue ..

theorem cmpNewC (s : State) (u) (h : fieldIo.le F = true := by rfl) : F.Covers s (s.cmpNewC u) :=
  .mono h <| .ite (.after (.pushLine ..) <| .setCmp ..) (.ite (.setCmp ..) (.refl _))

theorem cmpLateEntry (s : State) (o x) (h : fieldIo.le F = true := by rfl) : F.Covers s (s.cmpLateEntry o x) :=
  .mono h <| .foldl _ fun s x => .ite (.after (.raise ..) <| .after (.inc ..) <| .setCmp ..) (.refl _)

theorem ferryReady (s : State) (g) (h : fieldIo.le F = true := by rfl) : F.Covers s (s.ferryReady g) := .mono h <| .wrBit ..

theorem storeEntry (s : State) (g e) (h : fieldIo.le F = true := by rfl) : F.Covers s (s.storeEntry g e) :=
  .mono h <| .ite (.setGroup ..) <| .ite (.setGroup ..) <| .after (.cmpLateEntry ..) <| .after (.inc ..) <| .putGroup ..

theorem setPrDamaged (s : State) (l) (h : processor.le F = true := by rfl) : F.Covers s (s.setPrDamaged l) :=
  .mono h <| .setPr s { s.pr with damaged := l }

theorem setThread (s : State) (n r) (h : Foot.le { parts := [.pr], pars := [] } F = true := by rfl) : F.Covers s (s.setThread n r) :=
  .mono h <| .setPr ..

theorem setCore (s : State) (c r) (h : Foot.le { parts := [.pr], pars := [] } F = true := by rfl) : F.Covers s (s.setCore c r) :=
  .mono h <| .setPr ..

theorem setFlow (s : State) (f r) (h : Foot.le { parts := [.pr], pars := [] } F = true := by rfl) : F.Covers s (s.setFlow f r) :=
  .mono h <| .setPr ..

theorem setTask (s : State) (k r) (h : Foot.le { parts := [.pr], pars := [] } F = true := by rfl) : F.Covers s (s.setTask k r) :=
  .mono h <| .setPr ..

theorem coreRun (s : State) (c n) (h : dispatchSide.le F = true := by rfl) : F.Covers s (s.coreRun c n) := by
  refine .mono h ?_
  unfold State.coreRun
  extract_lets k s1 hist s2 s3
  have h1 : dispatchSide.Covers s s1 := by
    unfold s1
    split
    · exact .refl _
    · split
      · exact .refl _
      · exact .setThread ..
  have h3 : dispatchSide.Covers s s3 := .after (.wr ..) <| .after (.setCore ..) h1
  split
  · exact h3
  · split
    · exact h3
    · extract_lets k
      split
      · exact .ite (.after (.complete ..) <| .after (.setTask ..) h3) h3
      · exact h3

theorem dispatchPass (s : State) (h : dispatchSide.le F = true := by rfl) : F.Covers s (s.dispatchPass) := by
  refine .mono h ?_
  unfold State.dispatchPass
  refine .foldl _ fun s x => ?_
  split
  · exact .refl _
  · split
    · exact .coreRun ..
    · exact .ite (.coreRun ..) (.refl _)

theorem schedReport (s : State) (h : dispatchSide.le F = true := by rfl) : F.Covers s (s.schedReport) :=
  .mono h <| .after (.wr ..) <| .wr ..

theorem dispatch (s : State) (h : dispatchSide.le F = true := by rfl) : F.Covers s (s.dispatch) :=
  .mono h <| .after (.schedReport ..) <| .foldl _ fun s x => .dispatchPass ..

theorem postItem (s : State) (f owner item) (h : processor.le F = true := by rfl) : F.Covers s (s.postItem f owner item) :=
  .mono h <| .after (.schedReport ..) <| .setFlow ..

theorem taskReport (s : State) (k) (h : processor.le F = true := by rfl) : F.Covers s (s.taskReport k) := .mono h <| .wr ..

theorem taskWrite (s : State) (k addr b) (h : processor.le F = true := by rfl) : F.Covers s (s.taskWrite k addr b) := by
  refine .mono h ?_
  unfold State.taskWrite
  dsimp only
  split
  · exact .ite (.setTask ..) (.refl _)
  · exact .refl _

theorem mapStack (s : State) (k n) (h : processor.le F = true := by rfl) : F.Covers s (s.mapStack k n) :=
  .mono h <| .ite (.refl _) (.after (.taskReport ..) <| .setTask ..)

theorem setChain (s : State) (c l) (h : processor.le F = true := by rfl) : F.Covers s (s.setChain c l) := .mono h <| .setPr ..

theorem dmaPost (s : State) (k c) (h : processor.le F = true := by rfl) : F.Covers s (s.dmaPost k c) :=
  .mono h <| .ite (.setTask ..) (.refl _)

theorem dmaEnd (s : State) (c st go) (h : processor.le F = true := by rfl) : F.Covers s (s.dmaEnd c st go) := by
  refine .mono h ?_
  unfold State.dmaEnd
  split
  · exact .refl _
  · exact .after (.ite (.after (.wr ..) <| .setChain ..) (.after (.wrBit ..) <| .setChain ..)) <| .after (.wr ..) <|
      .after (.wrBit ..) <| .after (.ite (.dmaPost ..) (.refl _)) <| .ite (.after (.taskWrite ..) <| .taskWrite ..) (.refl _)

theorem dmaFree (s : State) (k st) (h : processor.le F = true := by rfl) : F.Covers s (s.dmaFree k st) :=
  .mono h <| .foldl _ fun s x => .ite (.after (.wr ..) <| .after (.wr ..) <| .after (.wr ..) <| .dmaEnd ..) (.refl _)

theorem dmaPark (s : State) (c vpage) (h : processor.le F = true := by rfl) : F.Covers s (s.dmaPark c vpage) :=
  .mono h <| .after (.raise ..) <| .after (.dmaPost ..) <| .after (.wrBit ..) <| .wr ..

theorem dmaResume (s : State) (k) (h : processor.le F = true := by rfl) : F.Covers s (s.dmaResume k) :=
  .mono h <| .foldl _ fun s x => .ite (.after (.wr ..) <| .wrBit ..) (.refl _)

theorem taskHalt (s : State) (k st) (h : processor.le F = true := by rfl) : F.Covers s (s.taskHalt k st) :=
  .mono h <| .after (.dispatch ..) <| .after (.foldl _ fun s x => .ite (.aqRevoke ..) (.refl _)) <| .after (.setTask ..) <|
  .after (.dmaFree ..) <| .after (.setPr ..) <| .foldl _ fun s x => .ite (.coreRun ..) (.refl _)

theorem taskFault (s : State) (k code core th pc addr st) (h : processor.le F = true := by rfl) :
    F.Covers s (s.taskFault k code core th pc addr st) := by
  refine .mono h ?_
  unfold State.taskFault
  refine .after (.raise ..) ?_
  refine .after (.wr ..) ?_
  refine .after (.wr ..) ?_
  refine .after (.taskHalt ..) ?_
  split
  · exact .complete ..
  · exact .refl _

theorem putBlock (s : State) (u b) (h : acquisition.le F = true := by rfl) : F.Covers s (s.putBlock u b) := .mono h <| .setAq ..

theorem aqLow (s : State) (u) (h : acquisition.le F = true := by rfl) : F.Covers s (s.aqLow u) := .mono h <| .ite (.refl _) (.setAq ..)

theorem aqDivReport (s : State) (u) (h : acquisition.le F = true := by rfl) : F.Covers s (s.aqDivReport u) :=
  .mono h <| .after (.wrBit ..) <| .wr ..

theorem aqBoundary (s : State) (u) (h : acquisition.le F = true := by rfl) : F.Covers s (s.aqBoundary u) :=
  .mono h <| .after (.ite (.after (.raise ..) <| .inc ..) (.refl _)) <| .after (.aqDivReport ..) <| .setAq ..

theorem openBlock (s : State) (u t0 cyc) (h : acquisition.le F = true := by rfl) : F.Covers s (s.openBlock u t0 cyc) :=
  .mono h <| .setAq ..

theorem closeBlock (s : State) (u) (h : acquisition.le F = true := by rfl) : F.Covers s (s.closeBlock u) := by
  refine .mono h ?_
  unfold State.closeBlock
  dsimp only
  split
  · exact .refl _
  · exact .after (.aqLow ..) <| .after (.putBlock ..) <| .setAq ..

theorem capBegin (s : State) (u) (h : acquisition.le F = true := by rfl) : F.Covers s (s.capBegin u) :=
  .mono h <| .after (.wr ..) <| .after (.foldl _ fun s x => .inc ..) <| .setAq ..

theorem capDone (s : State) (u) (h : acquisition.le F = true := by rfl) : F.Covers s (s.capDone u) := by
  refine .mono h ?_
  unfold State.capDone
  split
  · exact .refl _
  · exact .after (.ite (.after (.wrBit ..) <| .after (.wr ..) <| .setAq ..) <| .after (.capBegin ..) <| .after (.setAq ..) <|
      .ite (.aqBoundary ..) (.refl _)) <| .after (.raise ..) <| .after (.wr ..) <| .after (.setAq ..) <|
        .after (.foldl _ fun s x => .putBlock ..) <| .closeBlock ..

theorem aqTake (s : State) (u frame time flags) (h : acquisition.le F = true := by rfl) : F.Covers s (s.aqTake u frame time flags) :=
  .mono h <| .after (.ite (.capDone ..) (.refl _)) <| .after (.wr ..) <| .after (.wr ..) <| .setAq ..

theorem aqDisarm (s : State) (u st) (h : acquisition.le F = true := by rfl) : F.Covers s (s.aqDisarm u st) :=
  .mono h <| .after (.wrBit ..) <| .after (.wr ..) <| .setAq ..

theorem formFrame (s : State) (u time cyc rephase) (h : acquisition.le F = true := by rfl) :
    F.Covers s (s.formFrame u time cyc rephase) := by
  refine .mono h ?_
  unfold State.formFrame
  extract_lets s1 r chs f
  have h1 : acquisition.Covers s s1 := .ite (.openBlock ..) (.refl _)
  split
  · exact h1
  · extract_lets b s2 s3
    have h3 : acquisition.Covers s s3 := .after (.ite (.after (.aqBoundary ..) <| .closeBlock ..) (.refl _)) <| .after (.setAq ..) h1
    split
    · exact .ite (.after (.wr ..) <| .after (.setAq ..) h3) h3
    · exact .ite (.after (.capDone ..) h3) h3
    · exact h3

theorem baseSample (s : State) (u row time cyc rephase) (h : acquisition.le F = true := by rfl) :
    F.Covers s (s.baseSample u row time cyc rephase) :=
  .mono h <| .ite (.refl _) <| .after (.ite (.aqDisarm ..) (.refl _)) <| .after (.aqLow ..) <|
  .after (.ite (.formFrame ..) (.refl _)) <| .after (.ite (.aqTake ..) (.refl _)) <| .setAq ..

theorem aqCycle (s : State) (h : acquisition.le F = true := by rfl) : F.Covers s (s.aqCycle) :=
  .mono h <| .foldl _ fun s x => .ite (.baseSample ..) (.refl _)

theorem fastRow (s : State) (u time pins) (h : acquisition.le F = true := by rfl) : F.Covers s (s.fastRow u time pins).2 := by
  refine .mono h <| .foldl_snd _ _ fun x k => ?_
  extract_lets v pin s
  split
  · exact .setAq ..
  · exact .refl _
  · exact .refl _

theorem aqOverrun (s : State) (u) (h : acquisition.le F = true := by rfl) : F.Covers s (s.aqOverrun u) :=
  .mono h <| .after (.raise ..) <| .after (.wrBit ..) <| .aqDisarm ..

theorem aqHalt (s : State) (h : acquisition.le F = true := by rfl) : F.Covers s (s.aqHalt) :=
  .mono h <| .foldl _ fun s x => .ite (.aqDisarm ..) (.refl _)

theorem canSendEnd (s : State) (i status effc val cstat) (h : canBus.le F = true := by rfl) :
    F.Covers s (s.canSendEnd i status effc val cstat) := by
  refine .mono h ?_
  unfold State.canSendEnd
  refine .after (.clrBits ..) ?_
  refine .after (.setCanO ..) ?_
  refine .after (.cancelsEnd ..) ?_
  split
  · exact .complete ..
  · exact .refl _

theorem setCounters (s : State) (c t r) (h : canBus.le F = true := by rfl) : F.Covers s (s.setCounters c t r) := .mono h <| .wr ..

theorem canRestate (s : State) (c) (h : canBus.le F = true := by rfl) : F.Covers s (s.canRestate c) :=
  .mono h <| .ite (.after (.raise ..) <| .after (.inc ..) <| .wr ..) <| .ite (.after (.raiseIf ..) <| .wr ..) (.wr ..)

theorem bellReport (s : State) (c) (h : canBus.le F = true := by rfl) : F.Covers s (s.bellReport c) :=
  .mono h <| .after (.wrBit ..) <| .wrBit ..

theorem attemptFails (s : State) (c o) (h : canBus.le F = true := by rfl) : F.Covers s (s.attemptFails c o) :=
  .mono h <| .ite (.canSendEnd ..) (.ite (.canSendEnd ..) (.wrBit ..))

theorem canCollide (s : State) (c o) (h : canBus.le F = true := by rfl) : F.Covers s (s.canCollide c o).1 := by
  refine .mono h <| .ite_fst ?_ ?_
  · refine .ite_fst (.setCanC ..) ?_
    exact .after (.bellReport ..) <| .after (.raise ..) <| .after (.wrBit ..) <| .after (.setCanC ..) <| .setCanC ..
  · refine .ite_fst (.after (.inc ..) <| .setCanO ..) ?_
    exact .after (.raise ..) <| .after (.wrBit ..) <| .after (.canSendEnd ..) <| .after (.inc ..) <| .setCanO ..

theorem rxAllPut (s : State) (c b) (h : canBus.le F = true := by rfl) : F.Covers s (s.rxAllPut c b) :=
  .mono h <| .ite (.after (.wr ..) <| .setCanC ..) <| .after (.raiseIf ..) <| .after (.inc ..) <| .setCanC ..

theorem objPut (s : State) (i b) (h : canBus.le F = true := by rfl) : F.Covers s (s.objPut i b) :=
  .mono h <| .after (.raiseIf ..) <| .after (.ite (.after (.inc ..) <| .wrBit ..) (.wrBit ..)) <| .setCanO ..

theorem canStop (s : State) (c) (h : canBus.le F = true := by rfl) : F.Covers s (s.canStop c) :=
  .mono h <| .after (.wr ..) <| .after (.setCounters ..) <| .after (.setCanC ..) <| .after (.foldl _ fun s x => .complete ..) <|
  .foldl _ fun s x => .ite (.canSendEnd ..) (.refl _)

theorem canChanged (s : State) (idx inst old) (h : canBus.le F = true := by rfl) : F.Covers s (s.canChanged idx inst old) :=
  .mono h <| .ite (.after (.bellReport ..) <| .ite (.canStop ..) (.ite (.wr ..) (.refl _))) <| .ite (.after (.wr ..) <| .setCanC ..) <|
  .ite (.after (.bellReport ..) <| .after (.wrBit ..) <| .setCanC ..) (.refl _)

theorem timeStep (s : State) (d16) (h : timeService.le F = true := by rfl) : F.Covers s (s.timeStep d16) :=
  .mono h <| .after (.raise ..) <| .after (.bellStep ..) <| .after (.ite (.orBits ..) (.refl _)) <|
  .setTime s _ rfl (fun _ => by dsimp only; omega) id

theorem stepRefused (s : State) (d16) (h : timeService.le F = true := by rfl) : F.Covers s (s.stepRefused d16) :=
  .mono h <| .after (.raise ..) <| .wrBit ..

theorem ntLock (s : State) (b) (h : timeService.le F = true := by rfl) : F.Covers s (s.ntLock b) :=
  .mono h <| .ite (.refl _) <| .ite (.after (.raise ..) <| .after (.setNt ..) <| .wrBit ..) <| .after (.raise ..) <|
  .after (.wrBit ..) <| .wrBit ..

theorem ntRuns (s : State) (inside) (h : timeService.le F = true := by rfl) : F.Covers s (s.ntRuns inside) :=
  .mono h <| .after (.ite (.ntLock ..) (.ite (.ntLock ..) (.refl _))) <| .setNt ..

theorem ntOffset (s : State) (o) (h : timeService.le F = true := by rfl) : F.Covers s (s.ntOffset o) :=
  .mono h <| .ite (.refl _) <| .after (.ntRuns ..) <| .after (.setNt ..) <| .after (.ite (.timeStep ..) <| .ite (.after (.wr ..) <|
  .setNt ..) <| .ite (.timeStep ..) <| .after (.ntLock ..) <| .after (.wrBit ..) <| .stepRefused ..) <|
  .after (.ite (.wrBit ..) (.refl _)) <| .wrF ..

theorem syncDone (s : State) (origin ingress) (h : timeService.le F = true := by rfl) : F.Covers s (s.syncDone origin ingress) :=
  .mono h <| .after (.ntOffset ..) <| .setNt ..

theorem ntSelect (s : State) (h : timeService.le F = true := by rfl) : F.Covers s (s.ntSelect) := by
  refine .mono h ?_
  unfold State.ntSelect
  refine .ite (.after (.ite (.refl _) <| .after (.raise ..) <| .after (.wrBit ..) <| .wr ..) <| .after (.wrBit ..) <| .setNt ..) ?_
  split
  · exact .after (.ite (.refl _) <| .after (.raise ..) <| .after (.wrBit ..) <| .wr ..) <| .after (.wrBit ..) <| .setNt ..
  · exact .refl _

theorem transitDrop (s : State) (h : timeService.le F = true := by rfl) : F.Covers s (s.transitDrop) :=
  .mono h <| .after (.wr ..) <| .setNt ..

theorem netChanged (s : State) (idx) (h : timeService.le F = true := by rfl) : F.Covers s (s.netChanged idx) :=
  .mono h <| .ite (.ite (.setNt ..) (.refl _)) <| .ite (.after (.wrBit ..) <| .setNt ..) (.refl _)

theorem vmLost (s : State) (m) (h : lineSide.le F = true := by rfl) : F.Covers s (s.vmLost m) :=
  .mono h <| .after (.raise ..) <| .after (.wrBit ..) <| .setVm ..

theorem vmReport (s : State) (m) (h : lineSide.le F = true := by rfl) : F.Covers s (s.vmReport m) :=
  .mono h <| .after (.wr ..) <| .after (.wrF ..) <| .after (.wrP ..) <| .after (.wrP ..) <| .wrP ..

theorem lineNote (s : State) (m) (h : lineSide.le F = true := by rfl) : F.Covers s (s.lineNote m) := .mono h <| .setLine ..

theorem lineIssue (s : State) (sendAt kind value lims q) (h : lineSide.le F = true := by rfl) :
    F.Covers s (s.lineIssue sendAt kind value lims q).2 :=
  .mono h <| .setLine ..

end Foot.Covers

namespace Foot.Grants

variable {F : Foot}

theorem lineReq (s : State) (q kind value lims bad) (h : lineSide.le F = true := by rfl) : F.Grants s (s.lineReq q kind value lims bad) :=
  .mono h <| .guarded _ <| .after (.ok (.refl _)) <| .lineIssue ..

end Foot.Grants

namespace Foot.Covers

variable {F : Foot}

theorem lineDue (s : State) (h : lineSide.le F = true := by rfl) : F.Covers s s.lineDue := by
  refine .mono h <| .ite (.refl _) <| .after (.foldl _ fun s c => ?_) (.setLine ..)
  extract_lets s1 _ s2
  have h1 : lineSide.Covers s s1 := by
    refine .ite (.refl _) ?_
    split
    · exact .refl _
    · exact .setVm ..
  have h2 : lineSide.Covers s s2 := .after (.ite (.wr ..) <| .ite (.setLine ..) (.setLine ..)) h1
  split
  · exact .after (.complete ..) h2
  · exact h2

theorem lineHalt (s : State) (h : lineSide.le F = true := by rfl) : F.Covers s (s.lineHalt) := by
  refine .mono h ?_
  unfold State.lineHalt
  dsimp only
  split
  · exact .setLine ..
  · exact .after (.setVm ..) <| .setLine ..

theorem lineFlag (s : State) (k b) (h : lineSide.le F = true := by rfl) : F.Covers s (s.lineFlag k b) := by
  refine .mono h ?_
  unfold State.lineFlag
  split
  · exact .refl _
  · exact .wrBit ..

theorem lineForward (s : State) (m n t) (h : lineSide.le F = true := by rfl) : F.Covers s (s.lineForward m n t) := by
  refine .mono h ?_
  induction n generalizing s t with
  | zero => exact .refl _
  | succ n ih =>
    refine .ite (.refl _) <| .after (ih _ _) <| .after (.setVm ..) <| .after (.foldl _ fun s c => ?_) (.setLine ..)
    exact .after (.ite (.wr ..) (.refl _)) <| .setVm ..

theorem lineAdopt (s : State) (b) (h : lineSide.le F = true := by rfl) : F.Covers s (s.lineAdopt b) := by
  refine .mono h ?_
  unfold State.lineAdopt
  extract_lets _ s1 s2
  have h2 : lineSide.Covers s s2 := .after (.wr ..) <| .after (.wr ..) <| .setLine ..
  split
  · exact h2
  · refine .after (.foldl _ fun s a => .ite (.wr ..) (.refl _)) <| .after (.vmReport ..) <| .after (.setVm ..) ?_
    refine .after (.lineNote ..) <| .after (.setLine ..) <| .after (.lineDue ..) <| .after (.setVm ..) ?_
    exact .after (.lineForward ..) <| .after (.setVm ..) h2

theorem lineTake (s : State) (b) (h : lineSide.le F = true := by rfl) : F.Covers s (s.lineTake b) :=
  .mono h <| .foldl _ fun s x => .ite (.ite (.refl _) (.setLine ..)) (.refl _)

theorem lineFollow (s : State) (bytes) (h : lineSide.le F = true := by rfl) : F.Covers s (s.lineFollow bytes) :=
  .mono h <| .ite (.setLine ..) <| .ite (.after (.raise ..) <| .after (.lineHalt ..) <| .after (.wr ..) <| .setLine ..) <|
  .ite (.after (.raise ..) <| .after (.lineHalt ..) <| .after (.inc ..) <| .after (.lineFlag ..) <| .after (.wr ..) <| .setLine ..) <|
  .after (.ite (.lineAdopt ..) (.wr ..)) <| .after (.setLine ..) <| .after (.lineFlag ..) <| .lineTake ..

theorem lineSwitch (s : State) (h : lineSide.le F = true := by rfl) : F.Covers s (s.lineSwitch) := by
  refine .mono h ?_
  unfold State.lineSwitch
  refine .ite ?_ (.after (.lineFlag ..) <| .after (.lineFlag ..) <| .after (.setLine ..) <| .wr ..)
  refine .ite (.after (.wr ..) <| .after (.setLine ..) <| .setLine ..) ?_
  split
  · exact .after (.lineFollow ..) <| .after (.wr ..) <| .after (.setLine ..) <| .setLine ..
  · exact .after (.wr ..) <| .after (.lineHalt ..) <| .setLine ..

theorem setAddress (s : State) (a) (h : lineSide.le F = true := by rfl) : F.Covers s (s.setAddress a) :=
  .mono h <| .ite (.refl _) <| .after (.ite (.after (.raise ..) <| .after (.lineHalt ..) <| .wr ..) (.refl _)) <| .wr ..

theorem rollDone (s : State) (count) (h : lineSide.le F = true := by rfl) : F.Covers s (s.rollDone count) :=
  .mono h <| .after (.foldl _ fun s x => .complete ..) <| .after (.setRoll ..) <| .after (.wr ..) <| .after (.wr ..) <|
  .ite (.refl _) (.setAddress ..)

theorem takeAddress (s : State) (a) (h : lineSide.le F = true := by rfl) : F.Covers s (s.takeAddress a) :=
  .mono h <| .after (.ite (.after (.rollDone ..) <| .ite (.refl _) (.rollSend ..)) (.refl _)) <| .after (.rollSend ..) <|
  .after (.ite (.setAddress ..) (.after (.raise ..) <| .setAddress ..)) <| .setRoll ..

theorem rollDue (s : State) (h : lineSide.le F = true := by rfl) : F.Covers s (s.rollDue) := by
  refine .mono h ?_
  unfold State.rollDue
  split
  · exact .ite (.takeAddress ..) (.refl _)
  · exact .refl _

theorem setNeighbour (s : State) (port id) (h : lineSide.le F = true := by rfl) : F.Covers s (s.setNeighbour port id) :=
  .mono h <| .ite (.refl _) (.after (.setRoll ..) <| .wr ..)

theorem slotReport (s : State) (k) (h : upkeep.le F = true := by rfl) : F.Covers s (s.slotReport k) :=
  .mono h <| .ite (.after (.wr ..) <| .wr ..) (.after (.wr ..) <| .wr ..)

theorem sfpReport (s : State) (h : upkeep.le F = true := by rfl) : F.Covers s (s.sfpReport) := .mono h <| .foldl _ fun s x => .wr ..

theorem setCage (s : State) (n v) (h : upkeep.le F = true := by rfl) : F.Covers s (s.setCage n v) :=
  .mono h <| .after (.wr ..) <| .setBoot ..

theorem turnAxis (s : State) (m a) : every.Covers s (s.turnAxis m a) :=
  .after (.ite (.setGm ..) (.refl _)) <| .after (.wr ..) <| .wr ..

theorem applyTurn (s : State) (m) : every.Covers s (s.applyTurn m) := .foldl _ fun _ _ => .turnAxis ..

theorem slotEmpty (s : State) (c node) : every.Covers s (s.slotEmpty c node) := .ite (.refl _) (.after (.inc ..) <| .setNode ..)

theorem slotsMissing (s : State) : every.Covers s (s.slotsMissing) :=
  .ite (.refl _) <| .foldl _ fun _ _ => .after (.slotEmpty ..) <| .slotEmpty ..

theorem takeSlot (s : State) (ch node tau b) : every.Covers s (s.takeSlot ch node tau b).2 := by
  unfold State.takeSlot
  extract_lets late s1 s2 r f s3 _ s4 _
  have h1 : every.Covers s s1 := .ite (.inc ..) (.refl _)
  have h2 : every.Covers s s2 := .after (.setNode ..) h1
  have h4 : every.Covers s s4 := by
    unfold s4
    split
    · exact .ite (.after (.setLink ..) <| .after (.setNode ..) h2) (.after (.setNode ..) h2)
    · exact .after (.setNode ..) h2
  clear_value s1 s2 s4
  refine .ite_snd (.after (.slotEmpty ..) h1) <| .ite_snd h2 <| .ite_snd h2 ?_
  exact .after (.takeRxpd ..) <| .after (.foldl _ fun s x => .complete ..) <| .after (.setLink ..) h4

theorem switchAct (s : State) : every.Covers s s.switchAct.2 := by
  unfold State.switchAct
  split
  · extract_lets _ s1 s2
    have h1 : every.Covers s s1 := .setLink ..
    have h2 : every.Covers s s2 := .after (.raise ..) h1
    refine .ite_snd (.ite_snd ?_ <| .ite_snd (.after (.setLink ..) h2) <| .after (.complete ..) h2) (.refl _)
    exact .after (.complete ..) <| .after (.applyTurn ..) <| .after (.wr ..) h1
  · exact .refl _

theorem fbHold (s : State) (i x err run same) : every.Covers s (s.fbHold i x err run same) :=
  .after (.addHist ..) <| .after (.wrP ..) <| .after (.ite (.verdict ..) (.refl _)) <| .after (.ite (.refl _) (.fbWarn ..)) <|
  .after (.wr ..) <| .after (.setFb ..) <| .ite (.inc ..) (.refl _)

theorem fbErr (s : State) (i run) : every.Covers s (s.fbErr i run) :=
  .after (.ite (.after (.addHist ..) <| .after (.setFb ..) <| .wr ..) <| .after (.ite (.after (.addHist ..) <|
  .freezeNow ..) (.addHist ..)) <| .after (.wr ..) <| .after (.wrP ..) <| .setFb ..) <| .inc ..

theorem fbSample (s : State) (i d) : every.Covers s (s.fbSample i d) := by
  unfold State.fbSample
  extract_lets _ s1 f pOld s2 x sg delta c1 hallBad err run latched s3 s4 fresh ref c f0 dc k froze s5 P' ci E0 learn dd slip mis c'
    f0' s6 s7 edge old dirUp still now zst b m
  have h1 : every.Covers s s1 := .ite (.setAxis ..) (.refl _)
  refine .ite h1 <| .ite ?_ <| .ite ?_ <| .ite (.after (.fbHold ..) h1) <| .ite (.after (.fbErr ..) h1) ?_
  · exact .after (.addHist ..) <| .after (.fbLose ..) <| .after (.setFb ..) <| .after (.ite (.inc ..) (.refl _)) h1
  · exact .after (.addHist ..) <| .after (.fbLose ..) <| .after (.setFb ..) <| .after (.ite (.inc ..) (.refl _)) h1
  have h7 : every.Covers s s7 := by
    refine .after (.ite (.after (.wr ..) <| .inc ..) (.refl _)) <| .after (.ite (.wr ..) (.refl _)) ?_
    exact .after (.ite (.freezeNow ..) (.refl _)) h1
  split
  next s8 f1 dir' still' forced he =>
  have h8 : every.Covers s s8 := by
    rw [show s8 = _ from (congrArg Prod.fst he).symm]
    clear_value edge
    split
    · refine .ite_fst h7 <| .ite_fst (.after (.raise ..) h7) <| .ite_fst ?_ h7
      exact .ite_fst (.after (.takeFree s7 3) h7) h7
    · exact .ite_fst h7 <| .ite_fst h7 h7
  refine .after (.addHist ..) <| .after (.ite (.verdict ..) (.refl _)) <| .after (.raiseIf ..) <| .after (.raiseIf ..) ?_
  exact .after (.fbFlags ..) <| .after (.setFb ..) <| .after (.wrP ..) <| .after (.wrP ..) h8

theorem monitor (s : State) (a) : every.Covers s (s.monitor a) :=
  .ite (.monIdle ..) <| .after (.ite (.ite (.after (.stopEnds ..) <| .monLimits ..) (.refl _)) <| .after (.stopEnds ..) <|
  .after (.ite (.monCond ..) (.refl _)) <| .after (.setFb ..) <| .after (.ite (.refl _) (.monCond ..)) <| .after (.monLimits ..) <|
  .monCond ..) <| .after (.setAxis ..) <| .wrP ..

theorem cmpArm (s : State) (u) : every.Covers s (s.cmpArm u) := .ite (.refl _) <| .after (.pushLine ..) <| .after (.wr ..) <| .setCmp ..

theorem cmpDisarm (s : State) (u x) : every.Covers s (s.cmpDisarm u x) :=
  .after (.pushLine ..) <| .after (.wrBit ..) <| .after (.wr ..) <| .setCmp ..

theorem cmpLostHits (s : State) (x : CmpCtx) (r) : every.Covers s (s.cmpLostHits x r).1 := .wr ..

/-- What the prediction of the hits of a cycle writes. -/
theorem cmpLoop (x : CmpCtx) (n room first s r) : every.Covers s (State.cmpLoop x n room first s r).1 := by
  induction n generalizing room first s r with
  | zero => exact .refl _
  | succ n ih =>
    have late (p : Prop) [Decidable p] : every.Covers s (if p then (s.inc P.CmpLate x.u).raise E.compareLate x.u [] else s) :=
      .ite (.after (.raise ..) <| .inc ..) (.refl _)
    refine .ite_fst (.refl _) <| .ite_fst (.refl _) <| .ite_fst (.cmpLostHits ..) <| .ite_fst (.after (ih ..) (late _)) ?_
    refine .ite_fst (.after (.wr ..) <| .after (.inc ..) (late _)) <| .ite_fst (.after (.wr ..) <| .after (.inc ..) (late _)) ?_
    exact .after (ih ..) <| .after (.wr ..) <| .after (.inc ..) (late _)

theorem cmpPredict (s : State) (u t0 p v vm valid) : every.Covers s (s.cmpPredict u t0 p v vm valid) := by
  unfold State.cmpPredict
  extract_lets r sp src x beyond k s1 r1 r2
  have h1 : every.Covers s s1 := .ite (.wrBit ..) (.refl _)
  refine .ite (.refl _) <| .ite (.after (.raise ..) <| .after (.wrBit ..) <| .cmpDisarm ..) ?_
  refine .ite (.after (.setCmp ..) h1) <| .ite (.after (.setCmp ..) h1) ?_
  split
  next s2 r3 first done he =>
  have h2 : every.Covers s1 s2 := by
    rw [show s2 = _ from (congrArg Prod.fst he).symm]
    exact .cmpLoop ..
  extract_lets s3 s4
  have h3 : every.Covers s s3 := .after (.setCmp ..) <| .after h2 h1
  have h4 : every.Covers s s4 := by
    unfold s4
    split
    · exact .after (.pushLine ..) h3
    · exact h3
  exact .ite (.after (.cmpDisarm ..) <| .after (.wrBit ..) h4) h4

theorem cmpSample (s : State) (src) : every.Covers s (s.cmpSample src) := by
  unfold State.cmpSample
  split
  · exact .refl _
  · exact .foldl _ fun s x => .ite (.cmpPredict ..) (.refl _)

theorem emuUpdate (s : State) (e) : every.Covers s (s.emuUpdate e) := by
  unfold State.emuUpdate
  extract_lets r prev st sg lost s1 kmax b0
  have h1 : every.Covers s s1 := .ite (.after (.raise ..) <| .wr ..) (.refl _)
  refine .ite (.refl _) ?_
  split
  · exact .after (.wr ..) <| .wr ..
  · refine .ite (.after (.wr ..) <| .wr ..) ?_
    extract_lets q q0 pend k sn b bl ovf s2
    have h2 : every.Covers s s2 := .after (.ite (.refl _) <| .frame ..) h1
    refine .after (.ite (.refl _) <| .after (.raise ..) <| .wr ..) <| .after (.wrBit ..) <| .after (.raiseIf ..) ?_
    exact .after (.wr ..) <| .after (.setEmu ..) h2

theorem emuSwitch (s : State) (e) : every.Covers s (s.emuSwitch e) :=
  .ite (.ite (.refl _) (.wr ..)) <| .after (.wr ..) <| .after (.wr ..) <| .setEmu ..

theorem latChanged (s : State) (idx i) : every.Covers s (s.latChanged idx i) :=
  .ite (.ite (.cmpArm ..) (.ite (.cmpDisarm ..) (.refl _))) <| .ite (.cmpNewC ..) (.ite (.emuSwitch ..) (.refl _))

theorem takeMember (s : State) (i) : every.Covers s (s.takeMember i) := by
  refine .foldl _ fun s x => ?_
  dsimp only
  split
  · exact .ite (.refl _) <| .after (.dropShadow ..) <| .after (.wr ..) <| .setMod ..
  · exact .refl _

theorem loadAllReload (s : State) : every.Covers s (s.loadAllReload) :=
  .foldl _ fun s x => .after (.complete ..) <| .after (.raise ..) <| .after (.foldl _ fun s x => .after (.wr ..) <| .wr ..) <|
  .after (.foldl _ fun s x => .after (.ite (.ite (.after (.unhold ..) <| .setMod ..) (.refl _)) <|
  .after (.ite (.setGp ..) (.refl _)) <| .ite (.wrBit ..) (.refl _)) <| .takeMember ..) <| .setMod ..

theorem gmCommit (s : State) (a) : every.Covers s (s.gmCommit a) :=
  .after (.checkDue ..) <| .after (.gmStaged ..) <| .after (.wrBit ..) <| .after (.wr ..) <| .setGm ..

theorem gmOff (s : State) (a) : every.Covers s (s.gmOff a) :=
  .after (.gmStaged ..) <| .after (.wr ..) <| .after (.clrBits ..) <| .after (.wr ..) <| .setGm ..

theorem gmEvaluate (s : State) (a) : every.Covers s (s.gmEvaluate a) :=
  .after (.ite (.refl _) <| .ite (.after (.wr ..) <| .after (.wrBit ..) <| .setGm ..) <| .after (.wr ..) <| .after (.wr ..) <|
  .after (.wr ..) <| .after (.wr ..) <| .setGm ..) <| .after (.keysHold ..) <| .delayChecks ..

theorem inertiaStep (s : State) (a am iqPrev) : every.Covers s (s.inertiaStep a am iqPrev) :=
  .after (.keyInertia ..) <| .after (.wrF ..) <| .setGm ..

theorem passVel (s : State) (a) : every.Covers s (s.passVel a) :=
  .after (.setAxis ..) <| .after (.wrF ..) <| .after (.wrF ..) <| .after (.wrBit ..) <| .after (.wrBit ..) <| .after (.wrBit ..) <|
  .inertiaStep ..

theorem measReport (s : State) (a d q) : every.Covers s (s.measReport a d q) := .after (.wrF ..) <| .wrF ..

theorem voltCmd (s : State) (a r mA mB us um pw) : every.Covers s (s.voltCmd a r mA mB us um pw) :=
  .after (.setAxis ..) <| .after (.wr ..) <| .after (.wrBit ..) <| .wrBit ..

theorem passCur (s : State) (a) : every.Covers s (s.passCur a) :=
  .after (.ite (.voltCmd ..) (.ite (.voltCmd ..) (.voltCmd ..))) <| .measReport ..

theorem axisJob (s : State) (a) : every.Covers s (s.axisJob a) :=
  .ite (.refl _) <| .ite (.after (.setAxis ..) <| .after (.offSet ..) <| .after (.wr ..) <| .after (.wr ..) <| .measReport ..) <|
  .after (.setAxis ..) <| .after (.formEdges ..) <| .after (.passCur ..) <| .after (.wrF ..) <|
  .after (.ite (.setAxis ..) (.refl _)) <| .after (.ite (.passVel ..) (.refl _)) <| .after (.ite (.passPos ..) (.refl _)) <|
  .stepTime ..

theorem jobReady (s : State) (j) : every.Covers s (s.jobReady j) := .setEng ..

theorem cellForms (s : State) (a) : every.Covers s (s.cellForms a) := .foldl _ fun s x => .ite (.refl _) (.wr ..)

theorem engRelease (s : State) (a) : every.Covers s (s.engRelease a) :=
  .after (.gmRelease ..) <| .after (.endOpen ..) <| .after (.wr ..) <| .after (.wr ..) <| .after (.setAxis ..) <|
  .after (.ite (.after (.wr ..) <| .setGm ..) (.refl _)) <| .cellForms ..

theorem engDisable (s : State) (a) : every.Covers s (s.engDisable a) :=
  .after (.offSet ..) <| .after (.endOpen ..) <| .after (.wrBit ..) <| .after (.wr ..) <| .setAxis ..

theorem loopChanged (s : State) (idx i) : every.Covers s (s.loopChanged idx i) :=
  .ite (.checkDue ..) <| .ite (.ite (.refl _) (.setAxis ..)) <| .ite (.after (.dropShadow ..) <| .wr ..) (.ite (.setAxis ..) (.refl _))

theorem homeRef (s : State) (a pe) : every.Covers s (s.homeRef a pe) := by
  unfold State.homeRef
  extract_lets r old sh s1 whole s2 s3 _ s4 ax s5 m s6
  have h2 : every.Covers s s2 := .after (.wrBit ..) <| .after (.wrP ..) <| .wrP ..
  have h3 : every.Covers s s3 := .after (.setHist ..) h2
  have h5 : every.Covers s s5 := .after (.wrP ..) <| .after (.setAxis ..) <| .after (.setFb ..) h3
  exact .after (.tSet ..) <| .after (.setTraj ..) <| .after (.wr ..) h5

theorem homeSample (s : State) (a) : every.Covers s (s.homeSample a) := by
  unfold State.homeSample
  extract_lets r m idx none' seen0 seen s1 r1 d _ s2
  have h1 : every.Covers s s1 := .ite (.refl _) (.setTraj ..)
  have h2 : every.Covers s s2 := .after (.setTraj ..) h1
  clear_value idx r1 s1 s2
  refine .ite (.refl _) <| .ite (.ite (.homeRef ..) <| .ite (.homeRef ..) (.refl _)) <| .ite ?_ ?_
  · split
    · exact .homeRef ..
    · exact .refl _
  · split
    · exact h1
    · split
      · refine .ite (.after (.setTraj ..) h1) <| .ite ?_ (.after (.homeRef ..) h1)
        split
        · exact .after (.homeRef ..) h2
        · exact h2
      · exact h1
      · exact .after (.setTraj ..) h1

theorem setPoint (s : State) (a k) : every.Covers s (s.setPoint a k) :=
  .after (.tSet ..) <| .after (.setTraj ..) <| .after (.ite (.addHist ..) (.refl _)) <| .after (.wrP ..) <| .after (.wrP ..) <|
  .after (.wrP ..) <| .setAxis ..

theorem chaseTo (s : State) (a c b q) : every.Covers s (s.chaseTo a c b q) :=
  .after (.ite (.after (.setPoint ..) <| .after (.tSet ..) <| .wr ..) <| .after (.setPoint ..) <| .ite (.tSet ..) (.refl _)) <|
  .setTraj ..

theorem chainStep (s : State) (a q) : every.Covers s (s.chainStep a q) := by
  unfold State.chainStep
  extract_lets r s1
  have h1 : every.Covers s s1 := .setTraj ..
  split
  · exact .after (.setPoint ..) h1
  · exact .after (.chaseTo ..) h1
  · refine .ite ?_ (.after (.setPoint ..) h1)
    exact .after (.setPoint ..) <| .after (.setTraj ..) <| .after (.raise ..) <| .after (.tSet ..) <| .after (.wr ..) h1

theorem trjRelease (s : State) (a) : every.Covers s (s.trjRelease a) :=
  .after (.setPoint ..) <| .after (.genFlags ..) <| .after (.wr ..) <| .after (.ite (.setTarget ..) (.refl _)) <|
  .after (.setTraj ..) <| .after (.raiseIf ..) <| .endTask ..

theorem trjModeChange (s : State) (a) : every.Covers s (s.trjModeChange a) :=
  .ite (.refl _) <| .after (.setPoint ..) <| .after (.wr ..) <| .setTraj ..

theorem vmMake (s : State) (m) : every.Covers s (s.vmMake m) :=
  .after (.foldl _ fun s x => .ite (.cmpPredict ..) (.refl _)) <| .after (.setVm ..) <| .ite (.vmLost ..) (.ite (.setVm ..) (.setVm ..))

theorem vmCompute (s : State) : every.Covers s (s.vmCompute) := .foldl _ fun _ _ => .ite (.vmMake ..) (.refl _)

theorem vmSample (s : State) (src) : every.Covers s (s.vmSample src) := .foldl _ fun _ _ => .ite (.vmMake ..) (.refl _)

theorem vmReform (s : State) (n m) : every.Covers s (s.vmReform n m) := by
  induction n generalizing s m with
  | zero => exact .refl _
  | succ n ih =>
    refine .ite (.refl _) <| .after (.foldl _ fun s j => .ite (ih ..) (.refl _)) ?_
    exact .after (.setHist ..) <| .after (.vmReport ..) <| .setVm ..

theorem vmAdopt (s : State) : every.Covers s (s.vmAdopt) :=
  .foldl _ fun s x => .after (.ite (.lineNote ..) (.refl _)) <| .after (.addHist ..) <| .after (.vmReport ..) <| .after (.setVm ..) <|
  .ite (.vmMake ..) (.refl _)

theorem vmSwitch (s : State) (m) : every.Covers s (s.vmSwitch m) :=
  .after (.ite (.after (.vmReform ..) <| .setVm ..) (.setVm ..)) <| .wrBit ..

theorem cplStep (s : State) (a) : every.Covers s (s.cplStep a).2 := .after (.wrF ..) <| .wrBit ..

theorem cplTake (s : State) (a) : every.Covers s (s.cplTake a) := .foldl _ fun s x => .after (.dropShadow ..) <| .wr ..

theorem anchorAt (s : State) (a p) : every.Covers s (s.anchorAt a p) := .wrP ..

theorem cplEngage (s : State) (a) : every.Covers s (s.cplEngage a) := by
  unfold State.cplEngage
  extract_lets s1 _ s2 s3
  have h1 : every.Covers s s1 := .ite (.anchorAt ..) (.refl _)
  exact .after (.trjEngage ..) <| .after (.cplStep ..) <| .after (.wr ..) <| .after (.setCpl ..) h1

theorem cplChange (s : State) (a) : every.Covers s (s.cplChange a) :=
  .after (.ite (.after (.wr ..) <| .setTraj ..) (.refl _)) <| .after (.cplStep ..) <| .after (.ite (.anchorAt ..) (.refl _)) <|
  .after (.setCpl ..) <| .cplTake ..

theorem cplDue (s : State) (a) : every.Covers s (s.cplDue a) := by
  unfold State.cplDue
  split
  · exact .refl _
  · refine .ite (.refl _) ?_
    refine .after (.complete ..) ?_
    split
    · exact .after (.cplEngage ..) <| .after (.cplTake ..) <| .setCpl ..
    · exact .after (.cplDisengage ..) <| .setCpl ..
    · exact .after (.cplChange ..) <| .setCpl ..

end Foot.Covers

namespace Foot.Grants

variable {F : Foot}

theorem cplAccept (s : State) (q kind m off) : every.Grants s (s.cplAccept q kind m off) :=
  .after (.ok (.refl _)) <| .after (.wr ..) <| .after (.setCpl ..) <| .takeId ..

end Foot.Grants

namespace Foot.Covers

variable {F : Foot}

theorem regStep (s : State) (a) : every.Covers s (s.regStep a) :=
  .ite (.refl _) <| .ite (.setCpl ..) <| .after (.ite (.after (.wrBit ..) <| .setCpl ..) (.setCpl ..)) <| .wrP ..

theorem monStops (s : State) (a) : every.Covers s (s.monStops a) :=
  .ite (.refl _) <| .after (.ite (.refl _) (.stopAxis ..)) <| .setAxis ..

theorem axisSet (s : State) (a) : every.Covers s (s.axisSet a) := by
  unfold State.axisSet
  refine .ite (.refl _) ?_
  split
  · exact .after (.chainStep ..) <| .ite (.refl _) (.after (.genFlags ..) <| .taskStep ..)
  · exact .after (.chainStep ..) <| .cplStep ..
  · split
    · exact .chainStep ..
    · exact .refl _

theorem trjSample (s : State) : every.Covers s (s.trjSample) :=
  .after (.foldl _ fun s x => .axisSet ..) <| .after (.foldl _ fun s x => .pgStep ..) <|
  .after (.foldl _ fun s x => .ite (.regStep ..) (.refl _)) <| .after (.foldl _ fun s x => .ite (.monStops ..) (.refl _)) <|
  .after (.lineDue ..) <| .vmAdopt ..

theorem trjChanged (s : State) (idx i old) : every.Covers s (s.trjChanged idx i old) :=
  .ite (.trjLimit ..) <| .ite (.trjModeChange ..) <| .ite (.vmSwitch ..) <| .ite (.vmReform ..) <| .ite (.lineSwitch ..) <|
  .ite (.ite (.refl _) (.setVm ..)) (.refl _)

theorem edgeIn (s : State) (inp stamp rising locked) : every.Covers s (s.edgeIn inp stamp rising locked) :=
  .ite (.after (.homeEdge ..) <| .after (.latEdge ..) <| .after (.wr ..) <| .inc ..) (.inc ..)

theorem sdTake (s : State) (sd) : every.Covers s (s.sdTake sd) := .foldl _ fun s x => .ite (.refl _) (.after (.wrBit ..) <| .wrF ..)

theorem gridFlags (s : State) (m un) : every.Covers s (s.gridFlags m un) := by
  unfold State.gridFlags
  extract_lets up
  split
  next u s1 he =>
  have h1 : every.Covers s s1 := by
    rw [show s1 = _ from (congrArg Prod.snd he).symm]
    exact .ite_snd (.takeFree s 5) (.refl _)
  extract_lets pu dip um lock r r1 s2 s3 s4 s5
  have h4 : every.Covers s s4 := .after (.ite (.feBit ..) <| .ite (.feBit ..) (.refl _)) <| .after (.wr ..) <| .after (.setFe ..) h1
  have h5 : every.Covers s s5 := .after (.ite (.after (.feRaise ..) <| .feBit ..) <| .ite (.feBit ..) (.refl _)) h4
  exact .after (.ite (.after (.feRaise ..) <| .after (.setFe ..) <| .feBit ..) <| .ite (.feBit ..) (.refl _)) h5

theorem learnLoad (s : State) (pax) : every.Covers s (s.learnLoad pax) :=
  .ite (.setFe ..) <| .after (.ite (.wrF ..) (.refl _)) <| .setFe ..

theorem curLoops (s : State) (th u idq) : every.Covers s (s.curLoops th u idq).2 := .after (.wr ..) <| .setFe ..

theorem stoMapApply (s : State) (q) : every.Covers s (s.stoMapApply q) :=
  .after (.foldl _ fun s x => .wr ..) <| .foldl _ fun s x => .wr ..

theorem ss1Stops (s : State) (g fresh) : every.Covers s (s.ss1Stops g fresh) := by
  unfold State.ss1Stops
  refine .after (.foldl _ fun s x => .ite (.pgStop ..) (.refl _)) ?_
  refine .after (.foldl _ fun s x => ?_) ?_
  · split
    · exact .trjStop ..
    · exact .ite (.refl _) (.cplStop ..)
    · split
      · exact .ite (.pgStop ..) (.pgLeave ..)
      · exact .refl _
  · exact .foldl _ fun s x => .ite (.after (.lineHalt ..) <| .after (.lineFlag ..) <| .wr ..) (.setVm ..)

theorem sincArm (s : State) (u) : every.Covers s (s.sincArm u) := by
  refine .after (.foldl _ fun s k => .ite ?_ (.refl _)) <| .setAq ..
  exact .after (.setAq ..) <| .takeFree s 10

theorem aqReport (s : State) (u) : every.Covers s (s.aqReport u) := .after (.wrF ..) <| .wr ..

theorem aqArm (s : State) (u) : every.Covers s (s.aqArm u) :=
  .after (.capBegin ..) <| .after (.aqReport ..) <| .after (.aqDivReport ..) <| .after (.sincArm ..) <| .after (.wrBit ..) <|
  .after (.wrBit ..) <| .after (.setAq ..) <| .ite (.aqDisarm ..) (.refl _)

theorem aqDataError (s : State) (u off) : every.Covers s (s.aqDataError u off) :=
  .after (.ite (.aqOverrun ..) (.refl _)) <| .after (.setAq ..) <| .ite (.refl _) <| .after (.raise ..) <| .after (.inc ..) <| .setAq ..

theorem aqChanged (s : State) (idx i) : every.Covers s (s.aqChanged idx i) :=
  .after (.ite (.after (.aqReport ..) <| .ite (.after (.aqDivReport ..) <| .setAq ..) (.refl _)) (.refl _)) <|
  .ite (.setAq ..) (.refl _)

theorem startPacket (s : State) (q) : every.Covers s (s.startPacket q) := by
  unfold State.startPacket
  extract_lets _ s1 damaged s2 asm _ s0 refuse next
  have h1 : every.Covers s s1 := .setHost ..
  have h2 : every.Covers s s2 := .after (.setPrDamaged ..) h1
  have h0 : every.Covers s s0 := .after (.setHost ..) h2
  have hr (st : Nat) : every.Covers s (refuse st) := .after (.reply ..) h0
  clear_value asm
  split
  · exact .after (.deliver ..) <| .after (.inc ..) <| .after (.setHost ..) h1
  · split
    · exact hr _
    · refine .ite (hr _) <| .ite (hr _) <| .ite ?_ ?_
      · exact .ite (.after (.reply ..) h2) <| .ite (hr _) <| .ite (hr _) (hr _)
      · split
        · refine .ite (.ite (hr _) ?_) <| .ite (hr _) <| .ite (hr _) (.after (.setHost ..) h0)
          exact .ite (.after (.reply ..) <| .after (.setHost ..) h0) (.after (.setHost ..) h0)
        · exact .ite (hr _) <| .ite (.after (.reply ..) <| .after (.setHost ..) h0) (.after (.setHost ..) h0)

theorem coresStop (s : State) (h : stopSide.le F = true := by rfl) : F.Covers s s.coresStop := by
  refine .mono h ?_
  unfold State.coresStop
  extract_lets s1 _ s2 s3 _ s4 _ s5 s6 s7 _ s8
  have h3 : stopSide.Covers s s3 := .after (.dropStaged ..) <| .after (.setHost ..) <| .foldl _ fun s q => .incLoss ..
  have h4 : stopSide.Covers s s4 := .after (.setCommits ..) h3
  have h5 : stopSide.Covers s s5 := .after (.setMod ..) h4
  have h6 : stopSide.Covers s s6 := .after (.mapCanObj _ _ fun e he => ?_) h5
  have h7 : stopSide.Covers s s7 := .after (.mapCpl _ _ fun e he => ?_) h6
  have h8 : stopSide.Covers s s8 := .after (.setLink ..) h7
  exact .after (.setPr ..) h8
  · obtain ⟨k, engaged, pend, wait, delta, travel, off0, missed, lastPm, lastMm⟩ := e
    simpa [CplRec.init] using he
  · obtain ⟨k, held, data, send, deadline, cancels, consec⟩ := e
    simpa [CanObjRec.init] using he

theorem serviceRestart (s : State) : every.Covers s s.serviceRestart :=
  .after (.setBoot (s.coresStop.inc ..) _) <| .after (.inc ..) <| .coresStop ..

theorem retirePage (s : State) (p page) : every.Covers s (s.retirePage p page) :=
  .ite (.refl _) <| .after (.ite (.camReport ..) (.refl _)) <| .after (.inc ..) <| .setPr ..

theorem eccHit (s : State) (again hit) : every.Covers s (s.eccHit again hit) := by
  unfold State.eccHit
  split
  · exact .refl _
  · exact .refl _
  · exact .serviceRestart ..
  · exact .ite (.after (.camFail ..) <| .wr ..) (.refl _)
  · exact .ite (.queueDiscard ..) (.refl _)
  · exact .ite (.pgDiscard ..) (.refl _)
  · refine .ite (.refl _) ?_
    split
    · exact .setPr ..
    · exact .refl _
  · refine .ite (.refl _) ?_
    split
    · exact .ite (.taskFault ..) (.serviceRestart ..)
    · exact .refl _
  · exact .aqDataError ..
  · exact .ite (.taskFault ..) (.refl _)

theorem partSizes (s : State) : every.Covers s (s.partSizes) := .after (.wr ..) <| .after (.wr ..) <| .wr ..

theorem clearIsland (s : State) : every.Covers s (s.clearIsland) :=
  .after (.raise ..) <| .after (.ite (.setMod ..) (.refl _)) <| .setBoot ..

theorem afterRead (s : State) (r i) : every.Covers s (s.afterRead r i) :=
  .after (.ite (.wr ..) (.refl _)) <| .ite (.setPr s { s.pr with peakFrom := s.time.tick }) (.refl _)

theorem readEntry (s : State) (idx i shadow) : every.Covers s (s.readEntry idx i shadow).2 := by
  unfold State.readEntry
  split
  · exact .refl _
  · exact .ite_snd (.refl _) (.afterRead ..)

theorem changed (s : State) (idx i old) : every.Covers s (s.changed idx i old) := by
  unfold State.changed
  extract_lets _ s1 was s2 s3 s4 s5 s6 s7
  have h1 : every.Covers s s1 := .ite (.setTime s _ rfl id id) (.refl _)
  have h3 : every.Covers s s3 := by
    refine .after (.ite (.ite ?_ ?_) <| .ite (.foldl _ fun s a => .delayCheck ..) (.refl _)) h1
    · exact .after (.cellForms ..) <| .turnAxis ..
    · exact .after (.delayCheck ..) <| .after (.cellForms ..) <| .turnAxis ..
  have h4 : every.Covers s s4 := .after (.ite (.latArm ..) (.latChanged ..)) h3
  have h5 : every.Covers s s5 := .after (.trjChanged ..) <| .after (.loopChanged ..) <| .after (.fbChanged ..) h4
  have h6 : every.Covers s s6 := .after (.aqChanged ..) <| .after (.fieldChanged ..) <| .after (.feChanged ..) h5
  exact .after (.netChanged ..) <| .after (.canChanged ..) <| .after (.ite (.tripsNow ..) (.refl _)) h6

theorem beforeWrite (s : State) (idx i) : every.Covers s (s.beforeWrite idx i) := .after (.gmKeep ..) <| .latBefore ..

theorem takeCopy (s : State) (idx i) : every.Covers s (s.takeCopy idx i) :=
  .ite (.refl _) <| .after (.dropShadow ..) <| .after (.wr ..) <| .beforeWrite ..

theorem setValues (s : State) (g) : every.Covers s (s.setValues g).2 := .after (.foldl _ fun s x => .takeCopy ..) <| .setStaged ..

theorem setFollows (s : State) (g olds) : every.Covers s (s.setFollows g olds) :=
  .after (.foldl _ fun _ _ => .changed ..) <| .foldl _ fun _ _ => .ite (.gmCommit ..) (.ite (.cplChange ..) (.cplTake ..))

theorem applySet (s : State) (g) : every.Covers s (s.applySet g) := .after (.setFollows ..) <| .setValues ..

theorem clearBits (s : State) (idx i v) : every.Covers s (s.clearBits idx i v) := .ite (.fbLatchedClear ..) (.clrBits ..)

end Foot.Covers

namespace Foot.Grants

variable {F : Foot}

theorem acceptWrite (s : State) (q r v staged) : every.Grants s (s.acceptWrite q r v staged) := by
  unfold State.acceptWrite
  refine .ite (.ok (.clearBits ..)) ?_
  refine .ite ?_ (.ite (.ok <| .after (.wr ..) <| .latArm ..) <| .ite (.ok (.wr ..)) <|
    .ite (.ok (.ite (.after (.ite (.tripsNow ..) (.refl _)) <| .after (.dropShadow ..) <| .wr ..) (.wrShadow ..))) <|
      .ite (.ok (.setHost ..)) (.after (.accept ..) <| .wrShadow ..))
  split
  · trivial
  · exact .ok <| .after (.joinSet ..) <| .wrShadow ..

end Foot.Grants

namespace Foot.Covers

variable {F : Foot}

theorem writeValue (s : State) (q) : every.Covers s (s.writeValue q).2 := by
  unfold State.writeValue
  extract_lets idx
  split
  · exact .refl _
  · exact .after (.ite (.refl _) (.dropShadow ..)) <| .after (.wr ..) <| .beforeWrite ..

theorem dqValues (s : State) (q) : every.Covers s (s.dqValues q) := .foldl _ fun s x => .after (.ite (.wrShadow ..) (.refl _)) <| .wr ..

theorem fbFollow (s : State) (i) : every.Covers s (s.fbFollow i) := .after (.cmpSample ..) <| .after (.vmSample ..) <| .latIndex ..

theorem axisFollow (s : State) (a ubus) : every.Covers s (s.axisFollow a ubus) := by
  unfold State.axisFollow
  extract_lets r s1 s2 ok
  have h2 : every.Covers s s2 := .after (.homeSample ..) <| .after (.monitor ..) <| .after (.latIndex ..) <| .setAxis ..
  exact .after (.cmpSample ..) <| .after (.vmSample ..) <| .after (.keySample ..) h2

theorem axisMissed (s : State) (a) : every.Covers s (s.axisMissed a) := .after (.axisFollow ..) <| .fbSample ..

theorem slotFailed (s : State) (k) : every.Covers s (s.slotFailed k) :=
  .ite (.refl _) <| .after (.ite (.refl _) (.foldl _ fun s x => .axisMissed ..)) <| .setNode ..

theorem slotAxis (s : State) (k a b) : every.Covers s (s.slotAxis k a b) :=
  .ite (.axisMissed ..) <| .after (.ite (.jobReady ..) (.refl _)) <| .after (.axisFollow ..) <| .after (.fbSample ..) <|
  .after (.slotHolds ..) <| .after (.ite (.cellTrip ..) (.refl _)) <| .setAxis ..

theorem histFill (s : State) : every.Covers s (s.histFill) :=
  .foldl _ fun s x => .ite (.refl _) <| .after (.ite (.cmpSample ..) (.refl _)) <| .addHist ..

theorem cycleMissed (s : State) : every.Covers s s.cycleMissed := by
  unfold State.cycleMissed
  extract_lets s1
  have h1 : every.Covers s s1 := .slotsMissing ..
  exact .after (.histFill ..) <| .after (.foldl _ fun s a => .ite (.refl _) (.axisMissed ..)) h1

theorem nextCycle (s : State) : every.Covers s s.nextCycle :=
  .after (.setMod { s with time := _ } _) <| .setTime s _ rfl id fun _ => by dsimp only; omega

theorem takeValues (s : State) (c) : every.Covers s (s.takeValues c).2 := by
  unfold State.takeValues
  extract_lets set _ s1 _ s2
  have h1 : every.Covers s s1 := .setCommits ..
  have h2 : every.Covers s s2 := .after (.ite (.setTraj ..) (.refl _)) h1
  split
  · exact .after (.cplTake ..) h2
  · exact .after (.dqValues ..) h2
  · exact .after (.writeValue ..) h2
  · exact .after (.setValues ..) h2
  · exact h2

theorem applyCommit (s : State) (x) : every.Covers s (s.applyCommit x).2 := by
  unfold State.applyCommit
  extract_lets q a staged
  have hs : every.Covers s staged := by
    unfold staged
    split
    · exact .setFollows ..
    · exact .refl _
  split
  · exact .foldl _ fun s x => .changed ..
  · exact hs
  · exact hs
  · exact .after (.foldl _ fun s x => .hold ..) <| .wr ..
  · exact .ite_snd (.raise ..) <| .ite_snd (.refl _) <| .after (.trjRelease ..) <| .engRelease ..
  · exact .after (.ite (.refl _) (.unhold ..)) <| .engDisable ..
  · exact .gmCommit ..
  · exact .gmOff ..
  · exact .vmMoveApply ..
  · exact .vmStopApply ..
  · dsimp only
    exact .cplEngage ..
  · exact .cplDisengage ..
  · exact .pgBind ..
  · exact .pgStart ..
  · exact .pgStop ..
  · exact .pgRelease ..
  · exact .dqApply ..
  · exact .dqReleaseApply ..
  · exact .aqArm ..
  · exact .stoMapApply ..
  · exact .ite (.moveApply ..) (.refl _)

theorem runCommit (s : State) (x) : every.Covers s (s.runCommit x) := by
  have h : every.Covers s (s.applyCommit x).2 := .applyCommit ..
  unfold State.runCommit
  extract_lets c
  split
  next no s1 he =>
  rw [he] at h
  split
  · exact .after (.complete ..) h
  · exact .after (.complete ..) h

theorem runCommits (s : State) : every.Covers s s.runCommits := by
  unfold State.runCommits
  extract_lets due
  split
  next xs s1 he =>
  have h1 : every.Covers s s1 := by
    rw [show s1 = _ from (congrArg Prod.snd he).symm]
    exact .foldl_snd _ _ fun x c => .takeValues ..
  refine .after (.ite (.refl _) (.wr ..)) <| .after (.foldl _ fun s x => .runCommit ..) <| .after (.foldl _ fun s a => ?_) h1
  exact .ite (.cplDue ..) (.refl _)

theorem switchStep (s : State) : every.Covers s s.switchStep := by
  unfold State.switchStep
  dsimp only
  have h1 : every.Covers s s.switchDecide.switchAct.2 := .after (.switchAct ..) <| .switchDecide ..
  split
  · exact h1
  · refine .ite h1 ?_
    split
    · split
      · exact .after (.setStaged ..) h1
      · exact h1
    · refine .ite h1 ?_
      split
      · exact .after (.applySet ..) <| .after (.wr ..) h1
      · exact .after (.wr ..) h1

theorem switchCheck (s : State) : every.Covers s (s.switchCheck) :=
  .ite (.refl _) <| .after (.foldl _ fun s x => .ite (.refl _) (.delayCheck ..)) <| .switchStep ..

theorem ss1Step (s : State) (fresh) : every.Covers s (s.ss1Step fresh) :=
  .after (.setSaf ..) <| .foldl _ fun s x => .ss1Stops ..

theorem reFollow (s : State) (a) : every.Covers s (s.reFollow a) := by
  have hsrc (p : Prop) [Decidable p] (k : Kin) (s : State) : every.Covers s (if p then s.cplStep a else (k, s)).2 :=
    .ite_snd (.cplStep ..) (.refl _)
  unfold State.reFollow
  dsimp only
  split
  · exact .ite (.refl _) <| .after (.chaseTo ..) <| .after (.wr ..) (hsrc ..)
  · refine .ite ?_ (.refl _)
    exact .after (.ite (.setPoint ..) <| .after (.raise ..) <| .after (.tSet ..) <| .wr ..) <| .after (.setTraj ..) (hsrc ..)

theorem sample (s : State) : every.Covers s (s.sample) :=
  .after (.ite (.refl _) (.linkSample ..)) <| .after (.foldl _ fun s x => .emuUpdate ..) <| .after (.vmCompute ..) <|
  .after (.foldl _ fun s x => .gmEvaluate ..) <| .after (.ss1Step ..) <| .after (.trjHolds ..) <|
  .after (.foldl _ fun s x => .reFollow ..) <| .after (.switchCheck ..) <| .after (.stoHolds ..) <| .after (.runCommits ..) <|
  .after (.stoHolds ..) <| .after (.trjSample ..) <| .after (.cmpDueAll ..) <| .after (.levelsTake ..) <| .after (.nextCycle ..) <|
  .after (.aqCycle ..) <| .cycleMissed ..

theorem haltSample (s : State) : every.Covers s (s.haltSample) := .ite (.refl _) <| .after (.linkSample ..) <| .nextCycle ..

/-- What every command may change is all but the queue, in canonical form, at the same tick, and with what was sent still there. -/
theorem every_of {a b : State} (ho : a.ordered → b.ordered) (hc : a.canon → b.canon) (hd : a.boot.due = 0 → b.boot.due = 0)
    (ht : b.time.tick = a.time.tick) (hs : a.sent <:+ b.sent) (hq : b.pending = a.pending) : every.Covers a b where
  parts x hx := by cases x <;> simp [Foot.part, every] at hx; exact hq
  pars _ p i hp _ := by cases hp
  ordered := ho
  canon := hc
  due := hd
  tick := ht
  sent := hs

/-- A reset discards every part: what it needs is that the state before it has sent all that was sent, and keeps the queue. -/
theorem chipReset_of {a b : State} (c : Nat) (l : Bool) (ht : b.time.tick = a.time.tick) (hs : a.sent <:+ b.sent)
    (hq : b.pending = a.pending) : every.Covers a (b.chipReset c l) := by
  have h : every.Covers State.reset ((State.reset.wr P.SysResetCause 0 c).wr P.SafLines 0 (b.chipReset c l).safLineWord) :=
    .after (.wr ..) <| .wr ..
  have hr : State.reset.canon := by decide
  exact every_of (fun _ => h.ordered rfl) (fun _ => h.canon hr) (fun _ => rfl) ht (hs.trans (outputsOff b : every.Covers _ _).sent) hq

theorem chipReset (s : State) (c l) : every.Covers s (s.chipReset c l) := chipReset_of c l rfl (List.suffix_refl _) rfl

end Foot.Covers

namespace Foot.Allows

variable {F : Foot}

theorem execModeCheck (t q) (s : State) : nothing.Allows t s (execModeCheck t q s) :=
  .runReq _ _ _ fun _ => .ite trivial (.guarded _ <| .ok (.refl _))

theorem execMicrostepRead (t q) (s : State) : nothing.Allows t s (execMicrostepRead t q s) := .runReq _ _ _ fun _ => .ok (.refl _)

theorem execGainMapRead (t q) (s : State) : nothing.Allows t s (execGainMapRead t q s) := .runReq _ _ _ fun _ => .ok (.refl _)

theorem execCamRead (t q) (s : State) : nothing.Allows t s (execCamRead t q s) := .runReq _ _ _ fun _ => .ok (.refl _)

theorem execIoSnapshot (t q) (s : State) : nothing.Allows t s (execIoSnapshot t q s) := .runReq _ _ _ fun _ => .ok (.refl _)

theorem execSafStatusRead (t q) (s : State) : nothing.Allows t s (execSafStatusRead t q s) := .runReq _ _ _ fun _ => .ok (.refl _)

theorem execAcqRead (t q) (s : State) : nothing.Allows t s (execAcqRead t q s) := by
  unfold Machine.execAcqRead
  refine .runReq _ _ _ fun s => ?_
  refine .ite trivial ?_
  split
  · trivial
  · exact .ok (.refl _)

theorem execAcqCaptures (t q) (s : State) : nothing.Allows t s (execAcqCaptures t q s) := .runReq _ _ _ fun _ => .ok (.refl _)

theorem execCommandTimedOut (t flow pos) (s : State) : nothing.Allows t s (execCommandTimedOut t flow pos s) := by
  unfold Machine.execCommandTimedOut
  refine .onEvent _ fun s => ?_
  split
  · exact .refl _
  · exact .ite (.after (.reply ..) <| .setHost ..) (.refl _)

theorem execEventSubscribe (t q) (s : State) : nothing.Allows t s (execEventSubscribe t q s) :=
  .runReq _ _ _ fun _ => .guarded _ <| .ok (.setHost ..)

theorem execEventRead (t q) (s : State) : nothing.Allows t s (execEventRead t q s) :=
  .runReq _ _ _ fun _ => .guarded _ <| .after (.ok (.refl _)) <| .ite (.refl _) (.after (.lostNotice ..) <| .setHost ..)

theorem execIdentify (t q) (s : State) : nothing.Allows t s (execIdentify t q s) := .runReq _ _ _ fun _ => .ok (.refl _)

theorem execDbReqTailWrite (t v) (s : State) : nothing.Allows t s (execDbReqTailWrite t v s) :=
  .onEvent _ fun _ => .ite (.setRegs ..) (.refl _)

theorem execDbRplHeadWrite (t v) (s : State) : nothing.Allows t s (execDbRplHeadWrite t v s) :=
  .onEvent _ fun _ => .ite (.setRegs ..) (.refl _)

theorem execDbEvtHeadWrite (t v) (s : State) : nothing.Allows t s (execDbEvtHeadWrite t v s) :=
  .onEvent _ fun _ => .ite (.setRegs ..) (.refl _)

theorem execHbEnable (t on) (s : State) : nothing.Allows t s (execHbEnable t on s) := .onEvent _ fun _ => .setRegs ..

theorem execHbEvtLostRead (t) (s : State) : nothing.Allows t s (execHbEvtLostRead t s) :=
  .onEvent _ fun _ => .after (.setRegs ..) <| .frame ..

theorem execRegisterWrite (t off size v) (s : State) : nothing.Allows t s (execRegisterWrite t off size v s) :=
  .onEvent _ fun _ => .ite (.ite (.refl _) (.setRegs ..)) <| .ite (.ite (.ite (.refl _) (.setRegs ..)) (.refl _)) <|
  .ite (.ite (.refl _) (.setRegs ..)) <| .ite (.ite (.ite (.refl _) (.setRegs ..)) (.refl _)) <| .ite (.ite (.refl _) (.setRegs ..)) <|
  .ite (.ite (.ite (.refl _) (.setRegs ..)) (.refl _)) <| .ite (.ite (.refl _) (.setRegs ..)) <|
  .ite (.ite (.setRegs ..) (.refl _)) (.ite (.setRegs ..) (.refl _))

theorem execMsixFire (t vec) (s : State) : nothing.Allows t s (execMsixFire t vec s) := .onUnit _ _ fun _ => .fireVec ..

theorem execHostBlockDmaError (t cause addr) (s : State) : nothing.Allows t s (execHostBlockDmaError t cause addr s) :=
  .onUnit _ _ fun _ => .after (.fireVec ..) <| .setRegs ..

theorem execArpRequest (t ip sender) (s : State) : nothing.Allows t s (execArpRequest t ip sender s) :=
  .onEvent _ fun _ => .ite (.frame ..) (.refl _)

theorem execIcmpEchoRequest (t ip sender bytes) (s : State) : nothing.Allows t s (execIcmpEchoRequest t ip sender bytes s) :=
  .onEvent _ fun _ => .ite (.frame ..) (.refl _)

theorem execTaskMemRead (t q) (s : State) : nothing.Allows t s (execTaskMemRead t q s) := by
  unfold Machine.execTaskMemRead
  refine .runReq _ _ _ fun s => ?_
  refine .ite trivial ?_
  refine .ite trivial ?_
  split
  · trivial
  · exact .ok (.refl _)

theorem execMemInfo (t q) (s : State) : nothing.Allows t s (execMemInfo t q s) := .runReq _ _ _ fun _ => .ok (.refl _)

theorem execFaultLogRead (t q) (s : State) : nothing.Allows t s (execFaultLogRead t q s) :=
  .runReq _ _ _ fun _ => .guarded _ <| .ok (.ite (.setHost ..) (.refl _))

theorem execNodeRetire (t q) (s : State) : commitRequest.Allows t s (execNodeRetire t q s) :=
  .runReq _ _ _ fun s => .guarded _ <| .accept ..

theorem execGainMapCommit (t q) (s : State) : commitRequest.Allows t s (execGainMapCommit t q s) := .runReq _ _ _ fun s => .commitReq ..

theorem execGainMapOff (t q) (s : State) : commitRequest.Allows t s (execGainMapOff t q s) := .runReq _ _ _ fun s => .commitReq ..

theorem execAxisEnable (t q) (s : State) : commitRequest.Allows t s (execAxisEnable t q s) := .runReq _ _ _ fun s => .commitReq ..

theorem execAxisDisable (t q) (s : State) : commitRequest.Allows t s (execAxisDisable t q s) := .runReq _ _ _ fun s => .commitReq ..

theorem execVmMove (t q) (s : State) : commitRequest.Allows t s (execVmMove t q s) := .runReq _ _ _ fun s => .commitReq ..

theorem execVmStop (t q) (s : State) : commitRequest.Allows t s (execVmStop t q s) := .runReq _ _ _ fun s => .commitReq ..

theorem execPathBind (t q) (s : State) : commitRequest.Allows t s (execPathBind t q s) := .runReq _ _ _ fun s => .commitReq ..

theorem execPathStart (t q) (s : State) : commitRequest.Allows t s (execPathStart t q s) := .runReq _ _ _ fun s => .commitReq ..

theorem execPathStop (t q) (s : State) : commitRequest.Allows t s (execPathStop t q s) := .runReq _ _ _ fun s => .commitReq ..

theorem execPathRelease (t q) (s : State) : commitRequest.Allows t s (execPathRelease t q s) := .runReq _ _ _ fun s => .commitReq ..

theorem execMoveAbs (t q) (s : State) : commitRequest.Allows t s (execMoveAbs t q s) := .runReq _ _ _ fun s => .commitReq ..

theorem execMoveRel (t q) (s : State) : commitRequest.Allows t s (execMoveRel t q s) := .runReq _ _ _ fun s => .guarded _ <| .accept ..

theorem execMoveJog (t q) (s : State) : commitRequest.Allows t s (execMoveJog t q s) := .runReq _ _ _ fun s => .commitReq ..

theorem execMoveStop (t q) (s : State) : commitRequest.Allows t s (execMoveStop t q s) := .runReq _ _ _ fun s => .commitReq ..

theorem execMoveHome (t q) (s : State) : commitRequest.Allows t s (execMoveHome t q s) := .runReq _ _ _ fun s => .commitReq ..

theorem execMoveTest (t q) (s : State) : commitRequest.Allows t s (execMoveTest t q s) := .runReq _ _ _ fun s => .commitReq ..

theorem execMoveResume (t q) (s : State) : commitRequest.Allows t s (execMoveResume t q s) := .runReq _ _ _ fun s => .commitReq ..

theorem execQueueStart (t q) (s : State) : commitRequest.Allows t s (execQueueStart t q s) := .runReq _ _ _ fun s => .commitReq ..

theorem execDqRelease (t q) (s : State) : commitRequest.Allows t s (execDqRelease t q s) := .runReq _ _ _ fun s => .commitReq ..

theorem execStoMapSet (t q) (s : State) : commitRequest.Allows t s (execStoMapSet t q s) := .runReq _ _ _ fun s => .commitReq ..

theorem execAcqArm (t q) (s : State) : commitRequest.Allows t s (execAcqArm t q s) := .runReq _ _ _ fun s => .commitReq ..

theorem execDqWrite (t q) (s : State) : commitRequest.Allows t s (execDqWrite t q s) := .runReq _ _ _ fun s => .commitReq ..

theorem execPacketArrival (t tr sender bytes) (s : State) : packetSide.Allows t s (execPacketArrival t tr sender bytes s) :=
  .onEvent _ fun s => .arrive ..

theorem execEventSend (t d) (s : State) : packetSide.Allows t s (execEventSend t d s) := by
  refine .onEvent _ fun s => ?_
  dsimp only
  split
  · exact .refl _
  · split
    · exact .refl _
    · refine .ite (.refl _) ?_
      split
      · exact .after (.lostNotice ..) <| .after (.sends _ _ _) (.setHost ..)
      · exact .after (.inc ..) <| .after (.setRegs ..) <| .setHost ..
    · exact .after (.lostNotice ..) <| .after (.out ..) <| .setHost ..

theorem execDescriptorFetch (t addr len bytes) (s : State) :
    packetSide.Allows t s (execDescriptorFetch t addr len bytes s) := by
  refine .onEvent _ fun s => .ite ?_ (.refl _)
  exact .after (.ite (.arrive ..) <| .after (.inc ..) <| .inc ..) (.sends s _ _)

theorem execHbReset (t) (s : State) : packetSide.Allows t s (execHbReset t s) :=
  .onEvent _ fun s => .after (.setHost ..) <| .after (.wr ..) <| .wr ..

theorem execLinkStart (t q) (s : State) : linkSide.Allows t s (execLinkStart t q s) :=
  .runReq _ _ _ fun s => .guarded _ <| .after (.ok (.ite (.enterDownload ..) (.after (.setElk ..) <| .setLink ..))) <| .setLink ..

theorem execLinkStop (t q) (s : State) : linkSide.Allows t s (execLinkStop t q s) :=
  .runReq _ _ _ fun s => .ite (.ok (.setElk ..)) <| .after (.ite (.ok (.setLink ..)) <| .ok <| .after (.complete ..) <| .linkOff ..) <|
  .after (.endStart ..) <| .sendStarts ..

theorem execModeLoad (t q) (s : State) : linkSide.Allows t s (execModeLoad t q s) := by
  unfold Machine.execModeLoad
  refine .runReq _ _ _ fun s => ?_
  refine .ite trivial ?_
  refine .guarded _ ?_
  split
  · exact .ok <| .after (.setLink ..) <| .setLink ..
  · exact .ok <| .after (.setLink ..) <| .setLink ..

theorem execModeSwitch (t q) (s : State) : linkSide.Allows t s (execModeSwitch t q s) :=
  .runReq _ _ _ fun s => .guarded _ <| .after (.ok (.setLink ..)) <| .takeId ..

theorem execNodeJoin (t q) (s : State) : linkSide.Allows t s (execNodeJoin t q s) :=
  .runReq _ _ _ fun s => .guarded _ <| .ok (.setLink ..)

theorem execColdStartPhaseEnd (t i) (s : State) : linkSide.Allows t s (execColdStartPhaseEnd t i s) := by
  refine .onEvent _ fun s => .ite (.refl _) ?_
  dsimp only
  split
  · exact .ite (.after (.setElk ..) <| .after (.sendCold ..) <| .setLink ..) (.refl _)
  · refine .ite (.after (.setElk ..) <| .after (.sendCold ..) <| .after (.sendCold ..) <| .after (.sendCold ..) ?_) (.refl _)
    exact .after (.setLink ..) <| .after (.wr ..) <| .sendStarts ..
  · split
    · exact .refl _
    · exact .ite (.after (.setElk ..) <| .setLink ..) (.refl _)
  · exact .ite (.refl _) (.endDiscover ..)
  · refine .ite (.refl _) <| .after (.foldl _ fun s q => .complete ..) ?_
    exact .after (.announceStart ..) <| .after (.setElk ..) <| .setLink ..
  · exact .ite (.after (.endStart ..) <| .after (.setElk ..) <| .setLink ..) (.refl _)
  · exact .refl _

theorem execColdStartPhaseTimeout (t) (s : State) : linkSide.Allows t s (execColdStartPhaseTimeout t s) :=
  .onEvent _ fun s => .ite (.after (.coldFail ..) <| .sendStarts ..) (.refl _)

theorem execForeignHeadFrame (t b) (s : State) : linkSide.Allows t s (execForeignHeadFrame t b s) := by
  unfold Machine.execForeignHeadFrame
  refine .onEvent _ fun s => ?_
  refine .ite ?_ ?_
  · split
    · exact .ite (.refl _) (.setLink ..)
    · exact .refl _
  · split
    · exact .ite (.after (.raise ..) <| .after (.linkOff ..) <| .after (.endStart ..) <| .sendStarts ..) (.refl _)
    · exact .refl _

theorem execEchoMarkerReceived (t ch trip) (s : State) : linkSide.Allows t s (execEchoMarkerReceived t ch trip s) :=
  .onEvent _ fun s => .after (.ite (.refl _) (.wrF ..)) <| .setLink ..

theorem execCycleStartFrameReturned (t ch trip b) (s : State) : linkSide.Allows t s (execCycleStartFrameReturned t ch trip b s) :=
  .onEvent _ fun s => .ite (.refl _) <| .after (.ite (.wrF ..) (.refl _)) <| .after (.wrF ..) <| .setLink ..

theorem execRingDelayDisagreement (t ch) (s : State) : linkSide.Allows t s (execRingDelayDisagreement t ch s) :=
  .onEvent _ fun s => .ite (.after (.raise ..) <| .setLink ..) (.refl _)

theorem execRingOpen (t ch) (s : State) : linkSide.Allows t s (execRingOpen t ch s) :=
  .onEvent _ fun s => .ite (.after (.raise ..) <| .after (.wrBit ..) <| .wrBit ..) (.refl _)

theorem execRingClosed (t ch) (s : State) : linkSide.Allows t s (execRingClosed t ch s) :=
  .onEvent _ fun s => .ite (.after (.setLink ..) <| .after (.wrBit ..) <| .wrBit ..) (.refl _)

theorem execRingSettled (t ch) (s : State) : linkSide.Allows t s (execRingSettled t ch s) :=
  .onEvent _ fun s => .ite (.after (.lateChannel ..) <| .wrBit ..) (.refl _)

theorem execScheduleRecheck (t) (s : State) : linkSide.Allows t s (execScheduleRecheck t s) :=
  .onEvent _ fun s => .ite (.after (.foldl _ fun s x => .raiseIf ..) <| .setLink ..) (.refl _)

theorem execCellCounterPoll (t node count) (s : State) : linkSide.Allows t s (execCellCounterPoll t node count s) :=
  .onUnit _ _ fun s => .foldl _ fun s x => .counterPoll ..

theorem execServiceReplyReceived (t ch f) (s : State) : linkSide.Allows t s (execServiceReplyReceived t ch f s) := by
  unfold Machine.execServiceReplyReceived
  refine .onEvent _ fun s => ?_
  refine .ite (.refl _) ?_
  split
  · exact .refl _
  · exact .after (.ite (.setLink ..) (.ite (.svcFail ..) (.svcDone ..))) <| .setLink ..

theorem execStoWiringMismatch (t node) (s : State) : linkSide.Allows t s (execStoWiringMismatch t node s) := by
  unfold Machine.execStoWiringMismatch
  refine .onUnit _ _ fun s => ?_
  refine .ite ?_ (.refl _)
  refine .after (.foldl _ fun s x => ?_) ?_
  · split
    · exact .refl _
    · exact .after (.raise ..) <| .inc ..
  · exact .setNode ..

theorem execFollowingErrorTimeout (t axis) (s : State) : feedback.Allows t s (execFollowingErrorTimeout t axis s) :=
  .onUnit _ _ fun s => .ite (.monCond ..) (.refl _)

theorem execFeedbackFreeze (t inst) (s : State) : feedback.Allows t s (execFeedbackFreeze t inst s) :=
  .onUnit _ _ fun s => .ite (.after (.setHist ..) <| .freezeNow ..) (.refl _)

theorem execStandstillTimeout (t inst) (s : State) : feedback.Allows t s (execStandstillTimeout t inst s) :=
  .onUnit _ _ fun s => .ite (.after (.setFb ..) <| .after (.wrP ..) <| .wr ..) (.refl _)

theorem execLatchRead (t q) (s : State) : feedback.Allows t s (execLatchRead t q s) :=
  .runReq _ _ _ fun s => .guarded _ <| .ok <| .after (.wrBit ..) <| .setLatch ..

theorem execLatchFlush (t q) (s : State) : feedback.Allows t s (execLatchFlush t q s) := .runReq _ _ _ fun s => .ok (.setLatch ..)

theorem execRegistrationMarkMissing (t axis) (s : State) : feedback.Allows t s (execRegistrationMarkMissing t axis s) :=
  .onUnit _ _ fun s => .ite (.after (.raise ..) <| .after (.inc ..) <| .after (.wrBit ..) <| .setCpl ..) (.refl _)

theorem execLatchRecordForm (t unit) (s : State) : feedback.Allows t s (execLatchRecordForm t unit s) := by
  refine .onUnit _ _ fun s => .ite (.latForm ..) ?_
  dsimp only
  split
  · exact .after (.setLatch ..) <| .after (.latForm ..) <| .setLatch ..
  · exact .after (.foldl _ fun s a => .regRecord ..) <| .after (.setLatch ..) <| .after (.latForm ..) <| .setLatch ..

theorem execGainMapLoad (t q) (s : State) : motion.Allows t s (execGainMapLoad t q s) := by
  unfold Machine.execGainMapLoad
  refine .runReq _ _ _ fun s => ?_
  refine .guarded _ ?_
  refine .after (.ok (.gmStaged ..)) ?_
  split
  · exact .after (.joinSet ..) <| .setGm ..
  · exact .setGm ..

theorem execCamLoad (t q) (s : State) : motion.Allows t s (execCamLoad t q s) :=
  .runReq _ _ _ fun s => .guarded _ <| .after (.ok <| .after (.camReport ..) <| .after (.wr ..) <| .wr ..) <|
  .after (.setCamHeld ..) <| .setCams ..

theorem execCamDelete (t q) (s : State) : motion.Allows t s (execCamDelete t q s) :=
  .runReq _ _ _ fun s => .guarded _ <| .after (.ok <| .after (.camReport ..) <| .after (.wr ..) <| .wr ..) <|
  .after (.setCamHeld ..) <| .setCams ..

theorem execCamPrefetch (t table seg) (s : State) : motion.Allows t s (execCamPrefetch t table seg s) :=
  .onUnit _ _ fun s => .ite (.setCamHeld ..) (.refl _)

theorem execCouplingChangeLapsed (t axis) (s : State) : motion.Allows t s (execCouplingChangeLapsed t axis s) := by
  unfold Machine.execCouplingChangeLapsed
  refine .onUnit _ _ fun s => ?_
  split
  · exact .refl _
  · exact .ite (.cplLapse ..) (.refl _)

theorem execCamFetchLate (t table) (s : State) : motion.Allows t s (execCamFetchLate t table s) := .onUnit _ _ fun s => .camFail ..

theorem execPathAppend (t q) (s : State) : motion.Allows t s (execPathAppend t q s) :=
  .runReq _ _ _ fun s => .guarded _ <| .after (.accept ..) <| .after (.pgReport ..) <| .setPg ..

theorem execQueueAppend (t q) (s : State) : motion.Allows t s (execQueueAppend t q s) :=
  .runReq _ _ _ fun s => .guarded _ <| .after (.accept ..) <| .after (.queueReport ..) <| .setTraj ..

theorem execQueueClear (t q) (s : State) : motion.Allows t s (execQueueClear t q s) :=
  .runReq _ _ _ fun s => .guarded _ <| .after (.ok <| .after (.queueReport ..) <| .tSet ..) <| .after (.ite (.tSet ..) (.refl _)) <|
  .setTraj ..

theorem execQueueRefill (t axis bad) (s : State) : motion.Allows t s (execQueueRefill t axis bad s) :=
  .onUnit _ _ fun s => .ite (.refl _) <| .ite (.ite (.refl _) <| .ite (.queueDiscard ..) (.after (.queueReport ..) <| .setTraj ..)) <|
  .ite (.refl _) <| .ite (.pgDiscard ..) (.after (.pgReport ..) <| .setPg ..)

theorem execHomingFailed (t axis) (s : State) : motion.Allows t s (execHomingFailed t axis s) :=
  .onUnit _ _ fun s => .ite (.homeFail ..) (.refl _)

theorem execLoadAll (t q) (s : State) : modulation.Allows t s (execLoadAll t q s) :=
  .runReq _ _ _ fun s => .guarded _ <| .after (.ok (.foldl _ fun s x => .wr ..)) <| .after (.setMod ..) <| .takeId ..

theorem execDelayLineCalibration (t pair high n) (s : State) : modulation.Allows t s (execDelayLineCalibration t pair high n s) :=
  .onUnit _ _ fun s => .after (.ite (.raise ..) (.ite (.raise ..) (.refl _))) <| .after (.wrBit ..) <| .after (.wr ..) <| .setGp ..

theorem execLocalDataNotReady (t pair) (s : State) : modulation.Allows t s (execLocalDataNotReady t pair s) :=
  .onUnit _ _ fun s => .ite (.after (.raise ..) <| .after (.inc ..) <| .setGp ..) (.refl _)

theorem execTripInputInactive (t pair input) (s : State) : modulation.Allows t s (execTripInputInactive t pair input s) :=
  .onUnit _ _ fun s => .after (.wrBit ..) <| .setGp ..

theorem execTripClear (t q) (s : State) : modulation.Allows t s (execTripClear t q s) :=
  .runReq _ _ _ fun s => .guarded _ <| .after (.ok (.refl _)) <|
  .foldl _ fun s x => .after (.foldl _ fun s x => .ite (.after (.wrBit ..) <| .setGp ..) (.refl _)) <| .after (.setGp ..) <| .wr ..

theorem execMicrostepLoad (t q) (s : State) : modulation.Allows t s (execMicrostepLoad t q s) :=
  .runReq _ _ _ fun s => .ite trivial (.guarded _ <| .ok (.setMod ..))

theorem execMicrostepShape (t q) (s : State) : modulation.Allows t s (execMicrostepShape t q s) :=
  .runReq _ _ _ fun s => .guarded _ <| .ok (.setMod ..)

theorem execUpdateInstant (t) (s : State) : modulation.Allows t s (execUpdateInstant t s) :=
  .onEvent _ fun s => .ite (.refl _) (.foldl _ fun s x => .gpUpdate ..)

theorem execGateTrip (t pair input edge) (s : State) : frontEnd.Allows t s (execGateTrip t pair input edge s) :=
  .onUnit _ _ fun s => .ite (.refl _) <| .after (.tripNow ..) <| .after (.wrBit ..) <| .setGp ..

theorem execSigmaDeltaFault (t input) (s : State) : frontEnd.Allows t s (execSigmaDeltaFault t input s) :=
  .onUnit _ _ fun s => .ite (.refl _) <| .after (.ite (.feFault ..) (.refl _)) <| .after (.feRaise ..) <| .wr ..

theorem execSigmaDeltaStreamResumed (t input) (s : State) : frontEnd.Allows t s (execSigmaDeltaStreamResumed t input s) :=
  .onUnit _ _ fun s => .wrBit ..

theorem execDipDetected (t) (s : State) : frontEnd.Allows t s (execDipDetected t s) :=
  .onEvent _ fun s => .ite (.after (.ite (.feBit ..) (.refl _)) <| .after (.rideOnDip ..) <| .after (.ite (.after (.setDemand ..) <|
  .after (.rideTarget ..) <| .feBit ..) (.refl _)) <| .feBit ..) (.refl _)

theorem execDipCleared (t) (s : State) : frontEnd.Allows t s (execDipCleared t s) :=
  .onEvent _ fun s => .ite (.after (.rideRecover ..) <| .feBit ..) (.refl _)

theorem execPhaseLossTimeout (t) (s : State) : frontEnd.Allows t s (execPhaseLossTimeout t s) :=
  .onEvent _ fun s => .ite (.feFault ..) (.refl _)

theorem execFrequencyFault (t) (s : State) : frontEnd.Allows t s (execFrequencyFault t s) :=
  .onEvent _ fun s => .ite (.feFault ..) (.refl _)

theorem execRideRecoveryStep (t) (s : State) : frontEnd.Allows t s (execRideRecoveryStep t s) :=
  .onEvent _ fun s => .ite (.after (.ite (.after (.feRaise ..) <| .after (.setFe ..) <| .after (.clrBits ..) <| .wr ..) (.refl _)) <|
  .setDemand ..) (.refl _)

theorem execRideThroughExhausted (t) (s : State) : frontEnd.Allows t s (execRideThroughExhausted t s) :=
  .onEvent _ fun s => .ite (.after (.feRaise ..) <| .after (.setDemand ..) <| .feBit ..) (.refl _)

theorem execFeStart (t q) (s : State) : frontEnd.Allows t s (execFeStart t q s) :=
  .runReq _ _ _ fun s => .guarded _ <| .after (.ok <| .after (.setFe ..) <| .wr ..) <| .feOutput ..

theorem execContactorFeedbackChange (t main closed) (s : State) : frontEnd.Allows t s (execContactorFeedbackChange t main closed s) := by
  unfold Machine.execContactorFeedbackChange
  refine .onEvent _ fun s => ?_
  refine .ite (.refl _) ?_
  refine .ite (.after (.feFault ..) <| .setFe ..) ?_
  split
  · exact .after (.setFe ..) <| .setFe ..
  · exact .after (.setFe ..) <| .setFe ..
  · exact .after (.feSync ..) <| .setFe ..
  · exact .setFe ..

theorem execPrechargeLevelReached (t) (s : State) : frontEnd.Allows t s (execPrechargeLevelReached t s) :=
  .onEvent _ fun s => .ite (.after (.setFe ..) <| .after (.wr ..) <| .feOutput ..) (.refl _)

theorem execPreOpenDelayExpiry (t) (s : State) : frontEnd.Allows t s (execPreOpenDelayExpiry t s) :=
  .onEvent _ fun s => .ite (.after (.ite (.refl _) (.feSync ..)) <| .after (.setFe ..) <| .feOutput ..) (.refl _)

theorem execFeSequenceTimeout (t) (s : State) : frontEnd.Allows t s (execFeSequenceTimeout t s) :=
  .onEvent _ fun s => .ite (.feFault ..) (.ite (.feFault ..) (.refl _))

theorem execBusSettled (t) (s : State) : frontEnd.Allows t s (execBusSettled t s) :=
  .onEvent _ fun s => .ite (.after (.feEndStart ..) <| .after (.feRaise ..) <| .after (.rideRecover ..) <| .after (.setFe ..) <|
  .wr ..) (.refl _)

theorem execFeStop (t q) (s : State) : frontEnd.Allows t s (execFeStop t q s) :=
  .runReq _ _ _ fun s => .ite (.ok (.setFe ..)) <| .after (.ok <| .after (.setFe ..) <| .wr ..) <| .after (.feBit ..) <|
  .after (.feBit ..) <| .feEndStart ..

theorem execFeStopRampEnd (t) (s : State) : frontEnd.Allows t s (execFeStopRampEnd t s) :=
  .onEvent _ fun s => .ite (.after (.feStopped ..) <| .after (.wr ..) <| .after (.feOpen ..) <| .bridgeOff ..) (.refl _)

theorem execFeFaultClear (t q) (s : State) : frontEnd.Allows t s (execFeFaultClear t q s) :=
  .runReq _ _ _ fun s => .guarded _ <| .ok (.ite (.refl _) <| .after (.feStopped ..) <| .after (.wr ..) <| .wr ..)

theorem execSafetyInputSample (t proc levels) (s : State) : lockkeeper.Allows t s (execSafetyInputSample t proc levels s) :=
  .onUnit _ _ fun s => .after (.safEval ..) <| .foldl _ fun s x => .setSafIn ..

theorem execDiscrepancyTimeout (t input) (s : State) : lockkeeper.Allows t s (execDiscrepancyTimeout t input s) :=
  .onUnit _ _ fun s => .ite (.after (.safEvals ..) <| .setSafIn ..) (.refl _)

theorem execTestPulse (t b shorts) (s : State) : lockkeeper.Allows t s (execTestPulse t b shorts s) :=
  .onEvent _ fun s => .after (.ite (.safFault ..) <| .after (.safEvals ..) <| .foldl _ fun s x => .ite (.refl _) (.setSafIn ..)) <|
  .after (.frame ..) <| .setSaf ..

theorem execSafetyCycle (t i) (s : State) : lockkeeper.Allows t s (execSafetyCycle t i s) :=
  .onEvent _ fun s => .after (.frame ..) <| .after (.frame ..) <| .after (.ite (.safReset ..) (.refl _)) <|
  .after (.ite (.after (.safEvals ..) <| .safExchange ..) (.refl _)) <| .after (.safChecks ..) <| .setSaf ..

theorem execStoTestPulse (t out _second off quiet) (s : State) : lockkeeper.Allows t s (execStoTestPulse t out _second off quiet s) :=
  .onUnit _ _ fun s => .ite (.safFault ..) (.ite (.safFault ..) (.refl _))

theorem execSafetySelfTest (t proc passed) (s : State) : lockkeeper.Allows t s (execSafetySelfTest t proc passed s) :=
  .onUnit _ _ fun s => .ite (.refl _) (.safFault ..)

theorem execSafetySupplyLoss (t) (s : State) : lockkeeper.Allows t s (execSafetySupplyLoss t s) :=
  .onEvent _ fun s => .after (.safLines ..) <| .after (.safFault ..) <| .setSaf ..

theorem execSafetyStartupComplete (t passed bankA bankB same) (s : State) :
    lockkeeper.Allows t s (execSafetyStartupComplete t passed bankA bankB same s) :=
  .onEvent _ fun s => .ite (.refl _) <| .after (.ite (.safFault ..) <| .ite (.safFault ..) <| .ite (.safFault ..) <|
  .after (.safEvals ..) <| .after (.safBegin ..) <| .after (.safExchange ..) <| .after (.ite (.refl _) (.after (.raise ..) <|
  .setSaf ..)) <| .setSaf ..) <| .setSaf ..

theorem execSs1DelayExpiry (t group) (s : State) : lockkeeper.Allows t s (execSs1DelayExpiry t group s) :=
  .onUnit _ _ fun s => .foldl _ fun s x => .ite (.after (.groupSettle ..) <| .setGroupState ..) (.refl _)

theorem execSrstPress (t) (s : State) : lockkeeper.Allows t s (execSrstPress t s) := .onEvent _ fun s => .ite (.refl _) (.setSaf ..)

theorem execSrstRelease (t) (s : State) : lockkeeper.Allows t s (execSrstRelease t s) :=
  .onEvent _ fun s => .ite (.refl _) <| .ite (.after (.raiseIf ..) <| .setSaf ..) <| .ite (.setSaf ..) <| .ite (.after (.raise ..) <|
  .setSaf ..) <| .ite (.after (.safAsk ..) <| .setSaf ..) (.setSaf ..)

theorem execResetHeld (t) (s : State) : lockkeeper.Allows t s (execResetHeld t s) :=
  .onEvent _ fun s => .ite (.after (.raise ..) <| .setSaf ..) (.refl _)

theorem execSafetyStatusFrame (t proc bytes) (s : State) : lockkeeper.Allows t s (execSafetyStatusFrame t proc bytes s) :=
  .onUnit _ _ fun s => .ite (.inc ..) <| .ite (.after (.raiseIf ..) <| .after (.ite (.safShow ..) (.refl _)) <|
  .setSaf ..) (.after (.inc ..) <| .setSaf ..)

theorem execSafetyStatusLost (t) (s : State) : lockkeeper.Allows t s (execSafetyStatusLost t s) :=
  .onEvent _ fun s => .ite (.after (.raise ..) <| .setSaf ..) (.refl _)

theorem execFerryDownFrame (t group) (s : State) : fieldIo.Allows t s (execFerryDownFrame t group s) :=
  .onUnit _ _ fun s => .ite (.refl _) <| .after (.ferryReady ..) <| .after (.frame ..) <| .after (.setGroup ..) <|
  .ite (.inc ..) (.refl _)

theorem execFerryDownFrameReceived (t group bytes) (s : State) : fieldIo.Allows t s (execFerryDownFrameReceived t group bytes s) :=
  .onUnit _ _ fun s => .ite (.after (.ferryReady ..) <| .after (.setGroup ..) <| .inc ..) <| .after (.ferryReady ..) <|
  .after (.foldl _ fun s x => .storeEntry ..) <| .putGroup ..

theorem execFerryUpFrame (t group) (s : State) : fieldIo.Allows t s (execFerryUpFrame t group s) := by
  refine .onUnit _ _ fun s => ?_
  dsimp only
  split
  · exact .refl _
  · exact .ite (.refl _) (.after (.frame ..) <| .setGroup ..)

theorem execFerryStale (t group) (s : State) : fieldIo.Allows t s (execFerryStale t group s) :=
  .onUnit _ _ fun s => .ite (.refl _) <| .after (.raise ..) <| .after (.ferryReady ..) <| .after (.setGroup ..) <| .wrBit ..

theorem execFerryWatchdog (t group) (s : State) : fieldIo.Allows t s (execFerryWatchdog t group s) :=
  .onUnit _ _ fun s => .ite (.refl _) (.putGroup ..)

theorem execFieldEntryApply (t group) (s : State) : fieldIo.Allows t s (execFieldEntryApply t group s) :=
  .onUnit _ _ fun s => .after (.cmpDueAll ..) <| .putGroup ..

theorem execFastInputEdge (t input rising) (s : State) : fieldIo.Allows t s (execFastInputEdge t input rising s) :=
  .onUnit _ _ fun s => .ite (.after (.raise ..) <| .after (.inc ..) <| .setGroup ..) (.setGroup ..)

theorem execInputFilterExpiry (t input x) (s : State) : fieldIo.Allows t s (execInputFilterExpiry t input x s) :=
  .onUnit _ _ fun s => .ite (.ite (.refl _) (.setGroup ..)) (.ite (.refl _) (.setGroup ..))

theorem execInputWireBreak (t input broken) (s : State) : fieldIo.Allows t s (execInputWireBreak t input broken s) :=
  .onUnit _ _ fun s => .after (.raiseIf ..) <| .setGroup ..

theorem execOutputOverload (t out) (s : State) : fieldIo.Allows t s (execOutputOverload t out s) :=
  .onUnit _ _ fun s => .ite (.refl _) <| .after (.raise ..) <| .after (.inc ..) <| .putGroup ..

theorem execOutputOverloadClear (t out) (s : State) : fieldIo.Allows t s (execOutputOverloadClear t out s) :=
  .onUnit _ _ fun s => .ite (.refl _) (.putGroup ..)

theorem execOutputFedBack (t out high) (s : State) : fieldIo.Allows t s (execOutputFedBack t out high s) :=
  .onUnit _ _ fun s => .after (.raiseIf ..) <| .setGroup ..

theorem execFieldSupplyLow (t group) (s : State) : fieldIo.Allows t s (execFieldSupplyLow t group s) :=
  .onUnit _ _ fun s => .after (.raiseIf ..) <| .setGroup ..

theorem execFieldSupplyRestored (t group) (s : State) : fieldIo.Allows t s (execFieldSupplyRestored t group s) :=
  .onUnit _ _ fun s => .setGroup ..

theorem execTimeSliceExpiry (t core) (s : State) : processor.Allows t s (execTimeSliceExpiry t core s) := by
  refine .onUnit _ _ fun s => ?_
  dsimp only
  split
  · exact .refl _
  · split
    · refine .ite ?_ (.refl _)
      split
      · exact .after (.dispatch ..) <| .after (.setPr ..) <| .after (.setThread ..) <| .coreRun ..
      · exact .coreRun ..
    · exact .refl _

theorem execBudgetExhausted (t th core) (s : State) : processor.Allows t s (execBudgetExhausted t th core s) := by
  refine .onUnit _ _ fun s => ?_
  dsimp only
  split
  · exact .refl _
  · refine .ite ?_ (.refl _)
    split
    · exact .after (.dispatch ..) <| .after (.inc ..) <| .after (.setThread ..) <| .coreRun ..
    · exact .coreRun ..

theorem execBudgetWindow (t) (s : State) : processor.Allows t s (execBudgetWindow t s) :=
  .onEvent _ fun s => .after (.dispatch ..) <| .setPr ..

theorem execWorkItemPost (t flow handler arg) (s : State) : processor.Allows t s (execWorkItemPost t flow handler arg s) :=
  .onUnit _ _ fun s => .ite (.postItem ..) (.refl _)

theorem execWorkItemEnd (t flow) (s : State) : processor.Allows t s (execWorkItemEnd t flow s) :=
  .onUnit _ _ fun s => .after (.schedReport ..) <| .setFlow ..

theorem execThreadReady (t th task prio cores) (s : State) :
    processor.Allows t s (execThreadReady t th task prio cores s) := by
  refine .onUnit _ _ fun s => ?_
  extract_lets seq _ s0 mine old go im s1
  have hgo (p cs : Nat) : processor.Covers s (go p cs) := by
    refine .after (.ite (.refl _) (.wrF ..)) <| .after (.dispatch ..) <| .after (.takeFree _ 7) <| .after (.setThread ..) <| .setPr ..
  refine .ite (.refl _) <| .ite (.ite (hgo ..) (.refl _)) <| .ite ?_ (.refl _)
  exact .ite (hgo ..) <| .ite (.refl _) <| .ite (.ite (.after (.mapStack ..) (hgo ..)) (hgo ..)) (.refl _)

theorem execDmaStart (t ch owner prio chain) (s : State) : processor.Allows t s (execDmaStart t ch owner prio chain s) :=
  .onUnit _ _ fun s => .ite (.after (.wr ..) <| .after (.wr ..) <| .after (.wr ..) <| .after (.wr ..) <| .setChain ..) (.refl _)

theorem execDmaBurst (t) (s : State) : processor.Allows t s (execDmaBurst t s) := by
  have hfin (c n len) (s : State) : processor.Covers s
      (if dmaLen n ≤ len then (s.wr P.DmaBytes c len).dmaEnd c 0 true else s.wr P.DmaBytes c len) :=
    .ite (.after (.dmaEnd ..) <| .wr ..) (.wr ..)
  refine .onEvent _ fun s => ?_
  split
  · exact .refl _
  next c _ =>
  dsimp only
  split
  · exact .after (.wrBit ..) <| .setPr ..
  · refine .ite (.after (hfin ..) <| .setPr ..) ?_
    split
    · exact .after (.dmaPark ..) <| .setPr ..
    · exact .after (.dmaPark ..) <| .setPr ..
    · exact .ite (.after (hfin ..) <| .after (.taskWrite ..) <| .setPr ..) (.after (.dmaEnd ..) <| .setPr ..)

theorem execTaskFault (t task code core th pc addr) (s : State) : processor.Allows t s (execTaskFault t task code core th pc addr s) :=
  .onUnit _ _ fun s => .ite (.taskFault ..) (.refl _)

theorem execTaskWatchdogExpiry (t task) (s : State) : processor.Allows t s (execTaskWatchdogExpiry t task s) :=
  .onUnit _ _ fun s => .ite (.taskFault ..) (.refl _)

theorem execTaskWatchdogKick (t task) (s : State) : processor.Allows t s (execTaskWatchdogKick t task s) :=
  .onUnit _ _ fun s => .ite (.setTask ..) (.refl _)

theorem execTaskLoad (t q) (s : State) : processor.Allows t s (execTaskLoad t q s) :=
  .runReq _ _ _ fun s => .guarded _ <| .ite (.ok <| .after (.wr ..) <| .after (.wr ..) <| .setTask ..) (.ok <| .after (.wr ..) <|
  .setTask ..)

theorem execTaskStart (t q) (s : State) : processor.Allows t s (execTaskStart t q s) :=
  .runReq _ _ _ fun s => .guarded _ <| .after (.ok <| .after (.taskReport ..) <| .wr ..) <| .setTask ..

theorem execTaskStop (t q) (s : State) : processor.Allows t s (execTaskStop t q s) := by
  unfold Machine.execTaskStop
  refine .runReq _ _ _ fun s => ?_
  refine .guarded _ ?_
  refine .after (.ok (.complete ..)) ?_
  refine .after (.wr ..) ?_
  refine .after (.taskHalt ..) ?_
  split
  · exact .complete ..
  · exact .refl _

theorem execTaskUnload (t q) (s : State) : processor.Allows t s (execTaskUnload t q s) :=
  .runReq _ _ _ fun s => .guarded _ <| .ok <| .after (.taskReport ..) <| .after (.wr ..) <| .after (.wr ..) <| .setTask ..

theorem execTaskMap (t q) (s : State) : processor.Allows t s (execTaskMap t q s) :=
  .runReq _ _ _ fun s => .guarded _ <| .ok <| .after (.dmaResume ..) <| .after (.taskReport ..) <| .setTask ..

theorem execServiceRestartComplete (t) (s : State) : processor.Allows t s (execServiceRestartComplete t s) :=
  .onEvent _ fun s => .ite (.after (.raise ..) <| .setPr ..) (.refl _)

theorem execPatrolScrub (t) (s : State) : processor.Allows t s (execPatrolScrub t s) := .onEvent _ fun s => .setPr ..

theorem execAcqFrameFormed (t unit samples) (s : State) : acquisition.Allows t s (execAcqFrameFormed t unit samples s) :=
  .onUnit _ _ fun s => .ite (.refl _) <| .foldl _ fun s x => .ite (.refl _) (.after (.baseSample ..) <| .fastRow ..)

theorem execAcqTrigger (t unit) (s : State) : acquisition.Allows t s (execAcqTrigger t unit s) := by
  unfold Machine.execAcqTrigger
  refine .onUnit _ _ fun s => ?_
  split
  · exact .ite (.aqTake ..) (.refl _)
  · exact .refl _

theorem execAcqAutoTimeout (t unit) (s : State) : acquisition.Allows t s (execAcqAutoTimeout t unit s) := by
  unfold Machine.execAcqAutoTimeout
  refine .onUnit _ _ fun s => ?_
  refine .ite ?_ (.refl _)
  split
  · exact .aqTake ..
  · exact .aqTake ..

theorem execAcqBlockWrite (t unit) (s : State) : acquisition.Allows t s (execAcqBlockWrite t unit s) := .onUnit _ _ fun s => .setAq ..

theorem execAcqOverrun (t unit) (s : State) : acquisition.Allows t s (execAcqOverrun t unit s) :=
  .onUnit _ _ fun s => .ite (.aqOverrun ..) (.refl _)

theorem execAcqRateRestore (t unit) (s : State) : acquisition.Allows t s (execAcqRateRestore t unit s) :=
  .onUnit _ _ fun s => .ite (.setAq ..) (.refl _)

theorem execAcqStop (t q) (s : State) : acquisition.Allows t s (execAcqStop t q s) :=
  .runReq _ _ _ fun s => .ok (.ite (.setAq ..) (.refl _))

theorem execAcqForce (t q) (s : State) : acquisition.Allows t s (execAcqForce t q s) :=
  .runReq _ _ _ fun s => .guarded _ <| .ok (.setAq ..)

theorem execAcqGrant (t q) (s : State) : acquisition.Allows t s (execAcqGrant t q s) :=
  .runReq _ _ _ fun s => .guarded _ <| .ok <| .after (.wrBit ..) <| .after (.wr ..) <| .setAq ..

theorem execAcqRevoke (t q) (s : State) : acquisition.Allows t s (execAcqRevoke t q s) := .runReq _ _ _ fun s => .ok (.aqRevoke ..)

theorem execBellmanDue (t c) (s : State) : canBus.Allows t s (execBellmanDue t c s) :=
  .onUnit _ _ fun s => .ite (.after (.bellReport ..) <| .after (.foldl _ fun s x => .after (.raise ..) <| .inc ..) <|
  .setCanC ..) (.refl _)

theorem execCanTransmitStart (t x) (s : State) : canBus.Allows t s (execCanTransmitStart t x s) := by
  unfold Machine.execCanTransmitStart
  extract_lets c
  refine .onUnit _ _ fun s => .ite ?_ (.refl _)
  split
  · exact .refl _
  · refine .after (.frame ..) <| .after (.ite (.refl _) (.wrBit ..)) <| .after (.setCanC ..) <| .after (.canSsp ..) ?_
    exact .takeFree s 8

theorem execCanTxComplete (t c) (s : State) : canBus.Allows t s (execCanTxComplete t c s) := by
  unfold Machine.execCanTxComplete
  refine .onUnit _ _ fun s => ?_
  split
  · exact .refl _
  · exact .after (.ite (.ite (.after (.bellReport ..) <| .after (.setCanC ..) <| .after (.wr ..) <| .wr ..) (.refl _)) <|
      .after (.canSendEnd ..) <| .after (.wr ..) <| .setCanO ..) <| .after (.canRestate ..) <| .after (.setCounters ..) <|
        .after (.inc ..) <| .attemptOver ..

theorem execCanArbitrationLost (t c) (s : State) : canBus.Allows t s (execCanArbitrationLost t c s) := by
  unfold Machine.execCanArbitrationLost
  refine .onUnit _ _ fun s => ?_
  split
  · exact .refl _
  · exact .after (.ite (.bellFails ..) (.attemptFails ..)) <| .attemptOver ..

theorem execCanError (t c e) (s : State) : canBus.Allows t s (execCanError t c e s) := by
  refine .onUnit _ _ fun s => ?_
  split
  · exact .refl _
  next kind _ =>
  extract_lets cur own s1 s2 s3
  have h2 : canBus.Covers s s2 := .after (.ite (.ite (.refl _) (.setCounters ..)) (.setCounters ..)) <| .wr ..
  refine .after (.canRestate ..) <| .ite ?_ h2
  clear_value cur s2
  split
  · exact h2
  · refine .after (.ite (.refl _) <| .ite (.bellFails ..) (.attemptFails ..)) ?_
    exact .after (.ite_fst (.canCollide ..) (.refl _)) <| .after (.attemptOver ..) h2

theorem execCanTxTimeout (t c obj) (s : State) : canBus.Allows t s (execCanTxTimeout t c obj s) :=
  .onUnit _ _ fun s => .ite (.canSendEnd ..) (.refl _)

theorem execCanBusIntegration (t c) (s : State) : canBus.Allows t s (execCanBusIntegration t c s) :=
  .onUnit _ _ fun s => .ite (.canRestate ..) (.refl _)

theorem execCanBusOffRecovery (t c) (s : State) : canBus.Allows t s (execCanBusOffRecovery t c s) :=
  .onUnit _ _ fun s => .ite (.after (.foldl _ fun s x => .complete ..) <| .after (.raise ..) <| .after (.setCanC ..) <|
  .after (.wr ..) <| .setCounters ..) (.refl _)

theorem execCanFrameReceived (t c f) (s : State) : canBus.Allows t s (execCanFrameReceived t c f s) := by
  refine .onUnit _ _ fun s => .ite (.refl _) <| .ite (.wr ..) ?_
  extract_lets s1
  split
  next _ s2 he =>
  have h2 : canBus.Covers s s2 := by
    rw [show s2 = _ from (congrArg Prod.snd he).symm]
    exact .after (.ite_snd (.takeFree ..) (.refl _)) (.inc ..)
  extract_lets s3 _
  have h3 : canBus.Covers s s3 := .after (.canRestate ..) <| .after (.setCounters ..) h2
  split
  · exact .after (.objPut ..) h3
  · exact .ite (.after (.rxAllPut ..) h3) (.after (.inc ..) h3)

theorem execCanSend (t q) (s : State) : canBus.Allows t s (execCanSend t q s) :=
  .runReq _ _ _ fun s => .guarded _ <| .after (.ok <| .after (.wrBit ..) <| .wrBit ..) <| .after (.setCanO ..) <| .takeId ..

theorem execCanCancel (t q) (s : State) : canBus.Allows t s (execCanCancel t q s) :=
  .runReq _ _ _ fun s => .guarded _ <| .ite (.after (.ok <| .after (.wrBit ..) <| .setCanO ..) <| .takeId ..) (.ok (.canSendEnd ..))

theorem execCanRead (t q) (s : State) : canBus.Allows t s (execCanRead t q s) := by
  refine .runReq _ _ _ fun s => ?_
  dsimp only
  split
  · exact .ok (.refl _)
  · exact .ok <| .after (.wrBit ..) <| .wrBit ..

theorem execCanRxAllRead (t q) (s : State) : canBus.Allows t s (execCanRxAllRead t q s) :=
  .runReq _ _ _ fun s => .guarded _ <| .after (.ok (.refl _)) <| .after (.wr ..) <| .after (.wr ..) <| .setCanC ..

theorem execCanRecover (t q) (s : State) : canBus.Allows t s (execCanRecover t q s) :=
  .runReq _ _ _ fun s => .guarded _ <| .ok (.setCanC ..)

theorem execTimeStep (t q) (s : State) : timeService.Allows t s (execTimeStep t q s) :=
  .runReq _ _ _ fun s => .guarded _ <| .ite (.ok (.stepRefused ..)) <| .after (.ok (.ite (.wrBit ..) (.refl _))) <| .timeStep ..

theorem execPtpSyncReceived (t m) (s : State) : timeService.Allows t s (execPtpSyncReceived t m s) :=
  .onEvent _ fun s => .ite (.refl _) <| .after (.ite (.setNt ..) (.syncDone ..)) <| .after (.wrBit ..) <| .setNt ..

theorem execFollowUpReceived (t m) (s : State) : timeService.Allows t s (execFollowUpReceived t m s) := by
  unfold Machine.execFollowUpReceived
  refine .onEvent _ fun s => ?_
  refine .ite (.refl _) ?_
  split
  · exact .refl _
  · exact .ite (.after (.syncDone ..) <| .setNt ..) (.refl _)

theorem execDelayRespReceived (t m) (s : State) : timeService.Allows t s (execDelayRespReceived t m s) := by
  unfold Machine.execDelayRespReceived
  refine .onEvent _ fun s => ?_
  refine .ite (.refl _) ?_
  split
  · exact .ite (.after (.wrF ..) <| .setNt ..) (.refl _)
  · exact .refl _

theorem execPtpAnnounceReceived (t m) (s : State) : timeService.Allows t s (execPtpAnnounceReceived t m s) :=
  .onEvent _ fun s => .ite (.refl _) (.after (.ntSelect ..) <| .setNt ..)

theorem execPtpMasterLoss (t) (s : State) : timeService.Allows t s (execPtpMasterLoss t s) :=
  .onEvent _ fun s => .ite (.refl _) <| .ite (.after (.ntSelect ..) <| .after (.setNt ..) <| .after (.ntLock ..) <|
  .after (.wrBit ..) <| .ite (.wr ..) (.refl _)) (.ite (.ntSelect ..) (.refl _))

theorem execPtpMessageSend (t kind) (s : State) : timeService.Allows t s (execPtpMessageSend t kind s) :=
  .onUnit _ _ fun s => .ite (.refl _) <| .ite (.after (.frame ..) <| .setNt ..) (.refl _)

theorem execDelayReqReceived (t m) (s : State) : nothing.Allows t s (execDelayReqReceived t m s) :=
  .onEvent _ fun _ => .ite (.frame ..) (.refl _)

theorem execPtpTransit (t m inPort residence) (s : State) : timeService.Allows t s (execPtpTransit t m inPort residence s) := by
  unfold Machine.execPtpTransit
  refine .onUnit _ _ fun s => ?_
  refine .ite (.frame ..) ?_
  refine .ite ?_ (.ite (.after (.ite (.after (.frame ..) <| .setNt ..) (.frame ..)) <| .after (.ite (.wrF ..) (.refl _)) <|
    .transitDrop ..) (.after (.frame ..) <| .transitDrop ..))
  split
  · exact .after (.frame ..) <| .after (.setNt ..) <| .transitDrop ..
  · exact .after (.frame ..) <| .transitDrop ..

theorem execFollowUpTimeout (t) (s : State) : timeService.Allows t s (execFollowUpTimeout t s) := .onEvent _ fun s => .transitDrop ..

theorem execLineMove (t q) (s : State) : lineSide.Allows t s (execLineMove t q s) := .runReq _ _ _ fun s => .lineReq ..

theorem execLineStop (t q) (s : State) : lineSide.Allows t s (execLineStop t q s) := .runReq _ _ _ fun s => .lineReq ..

theorem execLineFrameSend (t) (s : State) : lineSide.Allows t s (execLineFrameSend t s) :=
  .onEvent _ fun s => .ite (.refl _) <| .after (.frame ..) <| .after (.frame ..) <| .after (.setLine ..) <|
  .after (.ite (.lineIssue ..) (.refl _)) <| .after (.wr ..) <| .setLine ..

theorem execLineFrameReceived (t d) (s : State) : lineSide.Allows t s (execLineFrameReceived t d s) :=
  .onEvent _ fun s => .ite (.refl _) <| .after (.ite (.refl _) <| .after (.ite (.refl _) (.lineFollow ..)) <| .setLine ..) <|
  .ite (.setLine ..) (.refl _)

theorem execLineTimeout (t) (s : State) : lineSide.Allows t s (execLineTimeout t s) :=
  .onEvent _ fun s => .ite (.after (.raise ..) <| .after (.lineFlag ..) <| .wr ..) (.refl _)

theorem execBeaconSend (t) (s : State) : lineSide.Allows t s (execBeaconSend t s) :=
  .onEvent _ fun s => .after (.ite (.refl _) <| .after (.frame ..) <| .after (.frame ..) <| .setRoll ..) <| .rollDue ..

theorem execBeaconReceived (t port id) (s : State) : lineSide.Allows t s (execBeaconReceived t port id s) :=
  .onUnit _ _ fun s => .after (.setNeighbour ..) <| .after (.setRoll ..) <| .rollDue ..

theorem execNeighbourLost (t port) (s : State) : lineSide.Allows t s (execNeighbourLost t port s) := by
  refine .onUnit _ _ fun s => ?_
  dsimp only
  split
  · exact .ite (.after (.setNeighbour ..) <| .after (.setRoll ..) <| .rollDue ..) (.rollDue ..)
  · exact .rollDue ..

theorem execRollCallStart (t) (s : State) : lineSide.Allows t s (execRollCallStart t s) :=
  .onEvent _ fun s => .after (.ite (.after (.rollSend ..) <| .after (.rollSend ..) <| .after (.wr ..) <| .setRoll ..) (.refl _)) <|
  .rollDue ..

theorem execRollCallFrameReceived (t port f) (s : State) : lineSide.Allows t s (execRollCallFrameReceived t port f s) := by
  unfold Machine.execRollCallFrameReceived
  refine .onUnit _ _ fun s => ?_
  split
  · exact .ite (.ite (.after (.raise ..) <| .after (.wr ..) <| .after (.setRoll ..) <| .rollDue ..) (.rollDue ..)) <|
      .ite (.rollDue ..) <| .after (.rollSend ..) <| .after (.wr ..) <| .after (.setRoll ..) <| .rollDue ..
  · exact .ite (.after (.takeAddress ..) <| .rollDue ..) (.rollDue ..)
  · exact .ite (.after (.rollDone ..) <| .after (.ite (.refl _) (.rollSend ..)) <| .rollDue ..) (.rollDue ..)
  · exact .ite (.after (.setRoll ..) <| .rollDue ..) (.after (.rollSend ..) <| .rollDue ..)
  · exact .rollDue ..

theorem execRollCallTimeout (t) (s : State) : lineSide.Allows t s (execRollCallTimeout t s) := by
  refine .onEvent _ fun s => ?_
  dsimp only
  split
  · exact .ite (.after (.foldl _ fun s x => .complete ..) <| .after (.raise ..) <| .after (.wr ..) <| .after (.setRoll ..) <|
      .rollDue ..) (.rollDue ..)
  · exact .rollDue ..

theorem execRollCallRetry (t) (s : State) : lineSide.Allows t s (execRollCallRetry t s) := by
  refine .onEvent _ fun s => ?_
  dsimp only
  split
  · exact .ite (.after (.rollSend ..) <| .after (.setRoll ..) <| .rollDue ..) (.rollDue ..)
  · exact .rollDue ..

theorem execLineRollCall (t q) (s : State) : lineSide.Allows t s (execLineRollCall t q s) :=
  .runReq _ _ _ fun s => .after (.ok (.ite (.refl _) (.rollSend ..))) <| .setRoll ..

theorem execSysBootStore (t q) (s : State) : upkeep.Allows t s (execSysBootStore t q s) := .runReq _ _ _ fun s => .ok (.setBoot ..)

theorem execBootRecordWritten (t) (s : State) : upkeep.Allows t s (execBootRecordWritten t s) := by
  refine .onEvent _ fun s => ?_
  split
  · exact .refl _
  · extract_lets seq _ s1
    have h1 : upkeep.Covers s s1 := .setBoot ..
    split
    · exact .after (.complete ..) h1
    · exact h1

theorem execImageWrite (t q) (s : State) : upkeep.Allows t s (execImageWrite t q s) :=
  .runReq _ _ _ fun s => .guarded _ <| .after (.ok <| .after (.wr ..) <| .wr ..) <| .after (.setBoot ..) <| .ite (.after (.wr ..) <|
  .after (.wr ..) <| .wr ..) (.refl _)

theorem execImageCheck (t q) (s : State) : upkeep.Allows t s (execImageCheck t q s) :=
  .runReq _ _ _ fun s => .guarded _ <| .after (.ite (.ok (.refl _)) (.ok (.refl _))) <| .after (.ite (.wr ..) (.refl _)) <|
  .slotReport ..

theorem execFirmwareTrialEnd (t) (s : State) : upkeep.Allows t s (execFirmwareTrialEnd t s) := by
  unfold Machine.execFirmwareTrialEnd
  refine .onEvent _ fun s => ?_
  split
  · exact .refl _
  · exact .ite (.after (.setBoot ..) <| .after (.wr ..) <| .wr ..) (.refl _)

theorem execAuxSupplyOverload (t n) (s : State) : upkeep.Allows t s (execAuxSupplyOverload t n s) :=
  .onUnit _ _ fun s => .ite (.refl _) (.after (.wrBit ..) <| .setBoot ..)

theorem execAuxSupplyRetry (t n overloaded) (s : State) : upkeep.Allows t s (execAuxSupplyRetry t n overloaded s) :=
  .onUnit _ _ fun s => .ite (.ite (.setBoot ..) (.wrBit ..)) (.refl _)

theorem execSfpInserted (t port answers ident) (s : State) : upkeep.Allows t s (execSfpInserted t port answers ident s) :=
  .onUnit _ _ fun s => .setCage ..

theorem execSfpRemoved (t port txFault) (s : State) : upkeep.Allows t s (execSfpRemoved t port txFault s) :=
  .onUnit _ _ fun s => .setCage ..

theorem execEngineJobDispatch (t) (s : State) : every.Allows t s (execEngineJobDispatch t s) := by
  refine .onEvent _ fun s => ?_
  split
  · exact .refl _
  · refine .ite (.refl _) <| .after (.ite (.axisJob ..) <| .ite (.setFe ..) (.refl _)) ?_
    exact .after (.ite (.wrF ..) (.refl _)) <| .after (.wr ..) <| .setEng ..

theorem execStepHoldDelay (t axis) (s : State) : every.Allows t s (execStepHoldDelay t axis s) :=
  .onUnit _ _ fun s => .ite (.setAxis ..) (.refl _)

theorem execCouplingEngage (t q) (s : State) : every.Allows t s (execCouplingEngage t q s) :=
  .runReq _ _ _ fun s => .ite (.guarded _ <| .after (.cplAccept ..) <| .cplShadow ..) <| .guarded _ <| .after (.accept ..) <|
  .cplShadow ..

theorem execCouplingDisengage (t q) (s : State) : every.Allows t s (execCouplingDisengage t q s) :=
  .runReq _ _ _ fun s => .ite (.guarded _ <| .cplAccept ..) (.commitReq ..)

theorem execCouplingChange (t q) (s : State) : every.Allows t s (execCouplingChange t q s) := by
  refine .runReq _ _ _ fun s => ?_
  dsimp only
  split
  · exact .guarded _ <| .ok <| .after (.joinSet ..) <| .cplShadow ..
  · exact .guarded _ <| .after (.cplAccept ..) <| .cplShadow ..

theorem execFerryUpFrameReceived (t group bytes) (s : State) : every.Allows t s (execFerryUpFrameReceived t group bytes s) := by
  unfold Machine.execFerryUpFrameReceived
  refine .onUnit _ _ fun s => ?_
  refine .ite (.after (.ferryReady ..) <| .after (.setGroup ..) <| .after (.inc ..) <| .inc ..) ?_
  split
  · exact .refl _
  · exact .after (.ferryReady ..) <| .after (.foldl _ fun s x => .edgeIn ..) <| .after (.raiseIf ..) <| .after (.wr ..) <|
      .after (.foldl _ fun s x => .after (.wrBit ..) <| .wrBit ..) <| .after (.wr ..) <| .after (.wr ..) <| .after (.wr ..) <|
        .after (.wr ..) <| .after (.wr ..) <| .after (.wrF ..) <| .setGroup ..

theorem execLoadAllReload (t) (s : State) : every.Allows t s (execLoadAllReload t s) :=
  .onEvent _ fun s => .after (.tripsNow ..) <| .loadAllReload ..

theorem execFrontEndJobs (t sd) (s : State) : every.Allows t s (execFrontEndJobs t sd s) := by
  refine .onEvent _ fun s => ?_
  extract_lets s1 u _ s2
  have h2 : every.Covers s s2 := .after (.clearDuties ..) <| .after (.setFe ..) <| .after (.wrF ..) <| .after (.sdTake ..) <| .jobReady ..
  split
  next p n s3 he =>
  have h3 : every.Covers s s3 := by
    rw [show s3 = _ from (congrArg (·.2.2) he).symm]
    exact .after (.sequences ..) h2
  extract_lets s4
  split
  extract_lets s5 pax s6 busIn s7 s8 st runs th i s9 s10
  have h6 : every.Covers s s6 := .after (.learnLoad ..) <| .after (.wrF ..) <| .after (.gridFlags ..) <| .after (.pll ..) h3
  have h8 : every.Covers s s8 :=
    .after (.ite (.feFault ..) <| .ite (.feFault ..) (.refl _)) <| .after (.ite (.feFault ..) <| .ite (.feFault ..) (.refl _)) h6
  have h9 : every.Covers s s9 := .after (.wr ..) h8
  have h10 : every.Covers s s10 := by
    refine .ite ?_ h9
    split
    next idr iqr s11 he =>
    have h11 : every.Covers s s11 := by
      rw [show s11 = _ from (congrArg (·.2.2) he).symm]
      exact .after (.busLoop s9 u pax) h9
    refine .after (.ite (.setFe ..) <| .ite (.refl _) ?_) <| .after (.rideStep ..) h11
    exact .after (.bridgeDuties ..) <| .curLoops ..
  clear_value busIn s10
  split
  · exact .ite (.after (.chopperRest ..) h10) (.after (.chopper ..) h10)
  · exact .after (.chopperRest ..) h10

theorem execPacketStart (t flow) (s : State) : every.Allows t s (execPacketStart t flow s) := by
  unfold Machine.execPacketStart
  refine .onEvent _ fun s => ?_
  split
  · exact .refl _
  · exact .ite (.startPacket ..) (.refl _)

theorem execServiceRestart (t) (s : State) : every.Allows t s (execServiceRestart t s) := .onEvent _ fun _ => .serviceRestart ..

theorem execMemoryEccError (t addr correctable again hit) (s : State) :
    every.Allows t s (execMemoryEccError t addr correctable again hit s) := by
  unfold Machine.execMemoryEccError
  refine .onEvent _ fun s => ?_
  split
  · exact .refl _
  · exact .ite (.after (.ite (.after (.raise ..) <| .setPr ..) (.refl _)) <| .after (.ite (.retirePage ..) (.refl _)) <|
      .after (.setPr ..) <| .inc ..) <| .after (.eccHit ..) <| .after (.retirePage ..) <| .after (.raise ..) <| .after (.wr ..) <| .inc ..

theorem execPowerUp (t) (s : State) : every.Allows t s (execPowerUp t s) := .onEvent _ fun _ => .chipReset ..

theorem execBrownOut (t) (s : State) : every.Allows t s (execBrownOut t s) := .onEvent _ fun _ => .chipReset ..

theorem execSupplyInterruption (t ns) (s : State) : every.Allows t s (execSupplyInterruption t ns s) :=
  .onEvent _ fun _ => .ite (.refl _) (.chipReset ..)

theorem execSystemWatchdog (t) (s : State) : every.Allows t s (execSystemWatchdog t s) :=
  .onEvent _ fun _ => .ite (.chipReset ..) (.refl _)

theorem execBoot (t) (s : State) : every.Allows t s (execBoot t s) := by
  refine .onEvent _ fun s => .ite (.refl _) ?_
  extract_lets sel _ s1 s2 go _ s3
  have h1 : every.Covers s s1 := .setTime s _ rfl (fun _ => Nat.two_pow_pos 88) (fun _ => Nat.two_pow_pos 32)
  have h3 : every.Covers s s3 := .after (.setBoot ..) <| .after (.slotReport ..) <| .after (.slotReport ..) h1
  have hgo (k f : Nat) (s : State) : every.Covers s (go k f s) := .after (.wr ..) <| .after (.wr ..) <| .wr ..
  exact .ite (.after (hgo ..) h3) <| .ite (.after (hgo ..) h3) <| .after (.wr ..) h3

theorem execReady (t) (s : State) : every.Allows t s (execReady t s) :=
  .onEvent _ fun s => .ite (.refl _) <| .after (.raiseIf ..) <| .after (.wrF ..) <| .after (.sfpReport ..) <| .after (.setBoot ..) <|
  .ite (.refl _) <| .after (.partSizes ..) <| .foldl _ fun s x => .wr ..

theorem execIslandMeasurement (t m) (s : State) : every.Allows t s (execIslandMeasurement t m s) :=
  .onEvent _ fun s => .after (.ite (.refl _) <| .after (.ite (.refl _) <| .after (.foldl _ fun s x => .hold ..) <|
  .after (.pairsOff ..) <| .setMod ..) <| .after (.ite (.refl _) (.foldl _ fun s x => .raise ..)) <| .setBoot ..) <|
  .after (.ite (.refl _) (.setBoot ..)) <| .after (.orBits ..) <| .wr ..

theorem execIslandHalt (t island) (s : State) : every.Allows t s (execIslandHalt t island s) :=
  .onUnit _ _ fun s => .after (.foldl _ fun s x => .hold ..) <| .after (.pairsOff ..) <| .setMod ..

theorem execIslandResume (t island) (s : State) : every.Allows t s (execIslandResume t island s) :=
  .onUnit _ _ fun s => .ite (.after (.ite (.foldl _ fun s x => .wr ..) (.refl _)) <| .setBoot ..) <| .ite (.refl _) <|
  .after (.ite (.refl _) <| .after (.foldl _ fun s x => .unhold ..) <| .setMod ..) <| .setMod ..

theorem execIslandHaltOffLoopPath (t island) (s : State) : every.Allows t s (execIslandHaltOffLoopPath t island s) :=
  .onUnit _ _ fun s => .after (.ite (.aqHalt ..) <| .ite (.foldl _ fun s x => .wr ..) (.refl _)) <| .setBoot ..

theorem execFirmwareSwitched (t) (s : State) : every.Allows t s (execFirmwareSwitched t s) := by
  unfold Machine.execFirmwareSwitched
  refine .onEvent _ fun s => ?_
  split
  · exact .refl _
  · exact .after (.complete ..) <| .after (.raise ..) <| .after (.wr ..) <| .after (.wr ..) <| .after (.wr ..) <|
      .after (.setPr ..) <| .setBoot ..

theorem execFaultClear (t q) (s : State) : every.Allows t s (execFaultClear t q s) :=
  .runReq _ _ _ fun s => .guarded _ <| .ok (.ite (.clearAxis ..) (.clearIsland ..))

theorem execParamRead (t q) (s : State) : every.Allows t s (execParamRead t q s) := by
  unfold Machine.execParamRead
  refine .runParam _ _ _ fun s => ?_
  split
  · trivial
  · exact .ok (.afterRead ..)

theorem execParamReadList (t q) (s : State) : every.Allows t s (execParamReadList t q s) :=
  .runReq _ _ _ fun _ => .guarded _ <| .ok <| .foldl_snd _ _ fun _ _ => .readEntry ..

theorem execStageOpen (t q) (s : State) : every.Allows t s (execStageOpen t q s) :=
  .runReq _ _ _ fun s => .guarded _ <| .ok (.setStaged ..)

theorem execStageCommit (t q) (s : State) : every.Allows t s (execStageCommit t q s) := by
  refine .runReq _ _ _ fun s => ?_
  dsimp only
  split
  · exact .guarded _ trivial
  · exact .guarded _ <| .after (.accept ..) <| .after (.ite (.wr ..) (.refl _)) <| .commitSet ..

theorem execStageDiscard (t q) (s : State) : every.Allows t s (execStageDiscard t q s) := by
  unfold Machine.execStageDiscard
  refine .runReq _ _ _ fun s => ?_
  split
  · exact .guarded _ <| trivial
  · exact .guarded _ <| .ok <| .after (.foldl _ fun s x => .dropKey ..) <| .setStaged ..

theorem execParamWrite (t q) (s : State) : every.Allows t s (execParamWrite t q s) := by
  unfold Machine.execParamWrite
  refine .runParam _ _ _ fun s => ?_
  split
  · trivial
  · exact .ite trivial (.guarded _ <| .acceptWrite ..)

theorem execHostConfigApply (t) (s : State) : every.Allows t s (execHostConfigApply t s) :=
  .onEvent _ fun s => .after (.foldl _ fun s x => .after (.netChanged ..) <| .wr ..) <| .setHost ..

theorem execGroupChange (t q) (s : State) : every.Allows t s (execGroupChange t q s) := by
  refine .runReq _ _ _ fun s => ?_
  extract_lets g m bad pend none' lock locked tg id s1
  have hl (n : Nat) : Foot.Covers { parts := [.staged], pars := [P.GroupCycle] } s (locked n) := by
    refine .after (.wr ..) ?_
    split
    · exact .commitSet ..
    · exact .refl _
  refine .ite (.guarded _ <| .after (.accept ..) <| .mono rfl (hl _)) <| .guarded _ <| .ok ?_
  rw [show id = s1.par.nextId from ((hl tg.1).parts .nextId rfl).symm]
  exact .after (.setLink { s1 with par := _ } _) <| .after (.bumpId s1) <| .mono rfl (hl _)

theorem execLocalFeedbackSample (t port f) (s : State) : every.Allows t s (execLocalFeedbackSample t port f s) := by
  refine .onUnit _ _ fun s => .after (.fbFollow ..) <| .after (.fbSample ..) <| .after (.setFb ..) ?_
  exact .ite_snd (.takeFree ..) (.refl _)

theorem execPlaceFrameSend (t node) (s : State) : every.Allows t s (execPlaceFrameSend t node s) :=
  .onUnit _ _ fun s => .ite (.refl _) <| .after (.ite (.sendPlace ..) <| .ite (.foldl _ fun s x => .inc ..) (.sendPlace ..)) <|
  .setNode ..

theorem execSampleInstant (t) (s : State) : every.Allows t s (execSampleInstant t s) :=
  .onEvent _ fun _ => .ite (.haltSample ..) (.sample ..)

end Foot.Allows

end Sys2Proof.Machine

end

/-! The two requests whose effect follows their reply, SYS_RESET and FIRMWARE_SWITCH, and the commands beside them. -/

section

-- One declaration after the other: elaborated at once they need more threads than the check has memory for.
set_option Elab.async false

namespace Sys2Proof.Machine

/-- Refusals that hold beside an operation let nothing be carried out that it does not carry out. -/
theorem OpRes.ok_of_beside {c : Bool} {x : Rsn} {first : Nat → Bool} {r : OpRes} {st : Nat} {l : List Byte} {s' : State}
    (h : r.beside c x first = .ok st l s') : r = .ok st l s' := by
  cases c <;> cases r <;> simp_all [OpRes.beside]
  split at h <;> cases h

/-- A request is refused, and nothing but the reply follows, or its operation is carried out and answered. -/
theorem runReq_cases (op t : Nat) (q : Req) (s : State) (f : State → OpRes) :
    (∃ st l, runReq op t q s f = .next ((s.advance t).reply q st l)) ∨
      ∃ st l s', f (s.advance t) = .ok st l s' ∧ runReq op t q s f = .next (s'.reply q st l) := by
  unfold runReq runOp
  dsimp only
  split
  · exact .inl ⟨_, _, rfl⟩
  · split
    · exact .inl ⟨_, _, rfl⟩
    · split
      next st l s' he => exact .inr ⟨st, l, s', OpRes.ok_of_beside (OpRes.ok_of_beside he), rfl⟩
      next => exact .inl ⟨_, _, rfl⟩

/-- A request behind refusals that is carried out has met none. -/
theorem ok_of_guarded {g : List (Bool × Rsn)} {r : OpRes} {st : Nat} {l : List Byte} {s' : State}
    (h : guarded g r = .ok st l s') : r = .ok st l s' := by
  unfold guarded at h
  split at h
  · cases h
  · exact h

/-- The operation of SYS_RESET: the reset is left to follow the reply. -/
def sysResetOp (q : Req) (s : State) : OpRes :=
  guarded [(!bitOf (fld q.body 0 1) 0 && ((List.range 128).any s.axisOn || s.rb P.FeState 0), ⟨0x0217, 0, 0, 0⟩)]
    (.ok 0 [] (s.setBoot { s.boot with due := 1 }))

theorem execSysReset_eq (t : Nat) (q : Req) (s : State) :
    execSysReset t q s = match runReq 0x010A t q s (sysResetOp q) with
      | .next s => .next (if s.boot.due = 1 then s.chipReset 2 false else s)
      | x => x := rfl

/-- The operation of FIRMWARE_SWITCH: the stop of the cores is left to follow the reply. -/
def firmwareSwitchOp (q : Req) (s : State) : OpRes :=
  let k := fld q.body 0 1
  guarded [(decide (1 < k) || s.rd P.SysBootSlot 0 == k, ⟨0x0304, 0, 0, 0⟩), (!s.slotOk k, ⟨0x0331, 0, 0, 0⟩),
      (s.slotVersion k / 2 ^ 24 != s.rd P.SysFirmwareVersion 0 / 2 ^ 24, ⟨0x0243, 0, 0, 0⟩),
      (s.openRequests || s.host.assemblies ≠ [] || s.par.staged ≠ [] || s.boot.switch.isSome, ⟨0x0244, 0, 0, 0⟩)]
    (.ok 0x0101 [] (s.setBoot { s.boot with switch := some (k, q, s.time.tick), due := 2 }))

theorem execFirmwareSwitch_eq (t : Nat) (q : Req) (s : State) :
    execFirmwareSwitch t q s = match runReq 0x0F12 t q s (firmwareSwitchOp q) with
      | .next s => .next (if s.boot.due = 2 then ((s.setBoot { s.boot with due := 0 }).wr P.UpdState 0 2).coresStop else s)
      | x => x := rfl

namespace Foot.Allows

theorem execReplyRelease (t) (s : State) : Foot.nothing.Allows t s (execReplyRelease t s) := by
  refine .onEvent _ fun s => ?_
  split
  · exact .refl _
  · split
    · exact .refl _
    next h => exact .after (.setHost ..) (.ringReply h)

theorem execUpstreamSlotReceived (t ch node tau b) (s : State) :
    every.Allows t s (execUpstreamSlotReceived t ch node tau b s) := by
  refine .onUnit _ _ fun s => .ite (.refl _) ?_
  have h : every.Covers s (s.takeSlot ch node tau b).2 := .takeSlot ..
  dsimp only
  split
  next he =>
    rw [he] at h
    exact .after (.slotFailed ..) h
  next he =>
    rw [he] at h
    exact .after (.foldl _ fun s a => .slotAxis ..) <| .after (.stoCompare ..) <| .after (.ite (.refl _) (.latCin ..)) h

theorem execSysReset (t q) (s : State) : every.Allows t s (execSysReset t q s) := by
  rw [execSysReset_eq]
  obtain ⟨st, l, h⟩ | ⟨st, l, s', he, h⟩ := runReq_cases 0x010A t q s (sysResetOp q)
  · rw [h]
    exact .ite (.after (.chipReset ..) <| .reply ..) (.reply ..)
  · rw [h]
    obtain ⟨rfl, rfl, rfl⟩ := OpRes.ok.inj (ok_of_guarded he)
    have hr : every.Covers ((s.advance t).setBoot { (s.advance t).boot with due := 1 }) _ := .reply _ q 0 []
    simp only [State.reply_frame, State.setBoot, if_true]
    exact .chipReset_of 2 false hr.tick hr.sent (hr.parts .queue rfl)

theorem execFirmwareSwitch (t q) (s : State) : every.Allows t s (execFirmwareSwitch t q s) := by
  have hstop (x : State) : every.Covers (x.setBoot { x.boot with due := 0 }) ((x.setBoot { x.boot with due := 0 }).wr P.UpdState 0 2).coresStop :=
    .after (.coresStop ..) <| .wr ..
  rw [execFirmwareSwitch_eq]
  obtain ⟨st, l, h⟩ | ⟨st, l, s', he, h⟩ := runReq_cases 0x0F12 t q s (firmwareSwitchOp q)
  · rw [h]
    exact .ite (.after (hstop _) <| .after (.setBoot (hd := fun _ => rfl) ..) <| .reply ..) (.reply ..)
  · rw [h]
    obtain ⟨rfl, rfl, rfl⟩ := OpRes.ok.inj (ok_of_guarded he)
    generalize hx : (s.advance t).setBoot _ = x
    have hr : every.Covers x (x.reply q 0x0101 []) := .reply ..
    have hd : (x.reply q 0x0101 []).boot.due = 2 := by
      simp only [State.reply_frame, ← hx, State.setBoot]
    simp only [hd, if_true]
    refine .after (hstop _) ?_
    subst hx
    exact .every_of hr.ordered hr.canon (fun _ => rfl) hr.tick hr.sent (hr.parts .queue rfl)

end Foot.Allows
end Sys2Proof.Machine
end

/-! The footprint of each command, and what it says of the frames of the families. -/

section

-- One declaration after the other: elaborated at once they need more threads than the check has memory for.
set_option Elab.async false

namespace Sys2Proof.Machine

/-! ### Families of commands -/

theorem Foot.Allows.of_isHostSide {c : Instr} (h : c.isHostSide = true) (s : State) : ∃ t, Foot.nothing.Allows t s (exec c s) := by
  cases c with
  | commandTimedOut => exact ⟨_, .execCommandTimedOut ..⟩
  | eventSubscribe => exact ⟨_, .execEventSubscribe ..⟩
  | eventRead => exact ⟨_, .execEventRead ..⟩
  | identify => exact ⟨_, .execIdentify ..⟩
  | replyRelease => exact ⟨_, .execReplyRelease ..⟩
  | dbReqTailWrite => exact ⟨_, .execDbReqTailWrite ..⟩
  | dbRplHeadWrite => exact ⟨_, .execDbRplHeadWrite ..⟩
  | dbEvtHeadWrite => exact ⟨_, .execDbEvtHeadWrite ..⟩
  | hbEnable => exact ⟨_, .execHbEnable ..⟩
  | hbEvtLostRead => exact ⟨_, .execHbEvtLostRead ..⟩
  | registerWrite => exact ⟨_, .execRegisterWrite ..⟩
  | msixFire => exact ⟨_, .execMsixFire ..⟩
  | hostBlockDmaError => exact ⟨_, .execHostBlockDmaError ..⟩
  | modeCheck => exact ⟨_, .execModeCheck ..⟩
  | gainMapRead => exact ⟨_, .execGainMapRead ..⟩
  | camRead => exact ⟨_, .execCamRead ..⟩
  | microstepRead => exact ⟨_, .execMicrostepRead ..⟩
  | safStatusRead => exact ⟨_, .execSafStatusRead ..⟩
  | ioSnapshot => exact ⟨_, .execIoSnapshot ..⟩
  | taskMemRead => exact ⟨_, .execTaskMemRead ..⟩
  | memInfo => exact ⟨_, .execMemInfo ..⟩
  | acqRead => exact ⟨_, .execAcqRead ..⟩
  | acqCaptures => exact ⟨_, .execAcqCaptures ..⟩
  | faultLogRead => exact ⟨_, .execFaultLogRead ..⟩
  | delayReqReceived => exact ⟨_, .execDelayReqReceived ..⟩
  | arpRequest => exact ⟨_, .execArpRequest ..⟩
  | icmpEchoRequest => exact ⟨_, .execIcmpEchoRequest ..⟩
  | _ => simp [Instr.isHostSide] at h

theorem Foot.Allows.of_isCommitRequest {c : Instr} (h : c.isCommitRequest = true) (s : State) : ∃ t,
  Foot.commitRequest.Allows t s (exec c s) := by
  cases c with
  | nodeRetire => exact ⟨_, .execNodeRetire ..⟩
  | axisEnable => exact ⟨_, .execAxisEnable ..⟩
  | axisDisable => exact ⟨_, .execAxisDisable ..⟩
  | gainMapCommit => exact ⟨_, .execGainMapCommit ..⟩
  | gainMapOff => exact ⟨_, .execGainMapOff ..⟩
  | moveAbs => exact ⟨_, .execMoveAbs ..⟩
  | moveRel => exact ⟨_, .execMoveRel ..⟩
  | moveJog => exact ⟨_, .execMoveJog ..⟩
  | moveStop => exact ⟨_, .execMoveStop ..⟩
  | moveHome => exact ⟨_, .execMoveHome ..⟩
  | moveTest => exact ⟨_, .execMoveTest ..⟩
  | moveResume => exact ⟨_, .execMoveResume ..⟩
  | queueStart => exact ⟨_, .execQueueStart ..⟩
  | vmMove => exact ⟨_, .execVmMove ..⟩
  | vmStop => exact ⟨_, .execVmStop ..⟩
  | pathBind => exact ⟨_, .execPathBind ..⟩
  | pathStart => exact ⟨_, .execPathStart ..⟩
  | pathStop => exact ⟨_, .execPathStop ..⟩
  | pathRelease => exact ⟨_, .execPathRelease ..⟩
  | stoMapSet => exact ⟨_, .execStoMapSet ..⟩
  | dqWrite => exact ⟨_, .execDqWrite ..⟩
  | dqRelease => exact ⟨_, .execDqRelease ..⟩
  | acqArm => exact ⟨_, .execAcqArm ..⟩
  | _ => simp [Instr.isCommitRequest] at h

theorem Foot.Allows.of_isPacketSide {c : Instr} (h : c.isPacketSide = true) (s : State) : ∃ t, Foot.packetSide.Allows t s (exec c s) := by
  cases c with
  | packetArrival => exact ⟨_, .execPacketArrival ..⟩
  | eventSend => exact ⟨_, .execEventSend ..⟩
  | descriptorFetch _ addr => exact ⟨_, .execDescriptorFetch (addr := addr) ..⟩
  | hbReset => exact ⟨_, .execHbReset ..⟩
  | _ => simp [Instr.isPacketSide] at h

theorem Foot.Allows.of_isLink {c : Instr} (h : c.isLink = true) (s : State) : ∃ t, Foot.linkSide.Allows t s (exec c s) := by
  cases c with
  | linkStart => exact ⟨_, .execLinkStart ..⟩
  | linkStop => exact ⟨_, .execLinkStop ..⟩
  | modeLoad => exact ⟨_, .execModeLoad ..⟩
  | modeSwitch => exact ⟨_, .execModeSwitch ..⟩
  | nodeJoin => exact ⟨_, .execNodeJoin ..⟩
  | coldStartPhaseEnd => exact ⟨_, .execColdStartPhaseEnd ..⟩
  | coldStartPhaseTimeout => exact ⟨_, .execColdStartPhaseTimeout ..⟩
  | foreignHeadFrame => exact ⟨_, .execForeignHeadFrame ..⟩
  | ringOpen => exact ⟨_, .execRingOpen ..⟩
  | ringClosed => exact ⟨_, .execRingClosed ..⟩
  | ringSettled => exact ⟨_, .execRingSettled ..⟩
  | ringDelayDisagreement => exact ⟨_, .execRingDelayDisagreement ..⟩
  | cellCounterPoll => exact ⟨_, .execCellCounterPoll ..⟩
  | serviceReplyReceived => exact ⟨_, .execServiceReplyReceived ..⟩
  | echoMarkerReceived => exact ⟨_, .execEchoMarkerReceived ..⟩
  | cycleStartFrameReturned => exact ⟨_, .execCycleStartFrameReturned ..⟩
  | stoWiringMismatch => exact ⟨_, .execStoWiringMismatch ..⟩
  | scheduleRecheck => exact ⟨_, .execScheduleRecheck ..⟩
  | _ => simp [Instr.isLink] at h

theorem Foot.Allows.of_isFeedback {c : Instr} (h : c.isFeedback = true) (s : State) : ∃ t, Foot.feedback.Allows t s (exec c s) := by
  cases c with
  | feedbackFreeze => exact ⟨_, .execFeedbackFreeze ..⟩
  | standstillTimeout => exact ⟨_, .execStandstillTimeout ..⟩
  | followingErrorTimeout => exact ⟨_, .execFollowingErrorTimeout ..⟩
  | latchRecordForm => exact ⟨_, .execLatchRecordForm ..⟩
  | registrationMarkMissing => exact ⟨_, .execRegistrationMarkMissing ..⟩
  | latchRead => exact ⟨_, .execLatchRead ..⟩
  | latchFlush => exact ⟨_, .execLatchFlush ..⟩
  | _ => simp [Instr.isFeedback] at h

theorem Foot.Allows.of_isMotion {c : Instr} (h : c.isMotion = true) (s : State) : ∃ t, Foot.motion.Allows t s (exec c s) := by
  cases c with
  | homingFailed => exact ⟨_, .execHomingFailed ..⟩
  | queueAppend => exact ⟨_, .execQueueAppend ..⟩
  | queueClear => exact ⟨_, .execQueueClear ..⟩
  | queueRefill => exact ⟨_, .execQueueRefill ..⟩
  | camLoad => exact ⟨_, .execCamLoad ..⟩
  | camDelete => exact ⟨_, .execCamDelete ..⟩
  | camPrefetch => exact ⟨_, .execCamPrefetch ..⟩
  | camFetchLate => exact ⟨_, .execCamFetchLate ..⟩
  | couplingChangeLapsed => exact ⟨_, .execCouplingChangeLapsed ..⟩
  | pathAppend => exact ⟨_, .execPathAppend ..⟩
  | gainMapLoad => exact ⟨_, .execGainMapLoad ..⟩
  | _ => simp [Instr.isMotion] at h

theorem Foot.Allows.of_isModulation {c : Instr} (h : c.isModulation = true) (s : State) : ∃ t, Foot.modulation.Allows t s (exec c s) := by
  cases c with
  | loadAll => exact ⟨_, .execLoadAll ..⟩
  | tripClear => exact ⟨_, .execTripClear ..⟩
  | tripInputInactive => exact ⟨_, .execTripInputInactive ..⟩
  | localDataNotReady => exact ⟨_, .execLocalDataNotReady ..⟩
  | delayLineCalibration => exact ⟨_, .execDelayLineCalibration ..⟩
  | microstepLoad => exact ⟨_, .execMicrostepLoad ..⟩
  | microstepShape => exact ⟨_, .execMicrostepShape ..⟩
  | updateInstant => exact ⟨_, .execUpdateInstant ..⟩
  | _ => simp [Instr.isModulation] at h

theorem Foot.Allows.of_isFrontEnd {c : Instr} (h : c.isFrontEnd = true) (s : State) : ∃ t, Foot.frontEnd.Allows t s (exec c s) := by
  cases c with
  | dipDetected => exact ⟨_, .execDipDetected ..⟩
  | dipCleared => exact ⟨_, .execDipCleared ..⟩
  | phaseLossTimeout => exact ⟨_, .execPhaseLossTimeout ..⟩
  | frequencyFault => exact ⟨_, .execFrequencyFault ..⟩
  | rideRecoveryStep => exact ⟨_, .execRideRecoveryStep ..⟩
  | rideThroughExhausted => exact ⟨_, .execRideThroughExhausted ..⟩
  | sigmaDeltaFault => exact ⟨_, .execSigmaDeltaFault ..⟩
  | feStart => exact ⟨_, .execFeStart ..⟩
  | contactorFeedbackChange => exact ⟨_, .execContactorFeedbackChange ..⟩
  | prechargeLevelReached => exact ⟨_, .execPrechargeLevelReached ..⟩
  | preOpenDelayExpiry => exact ⟨_, .execPreOpenDelayExpiry ..⟩
  | feSequenceTimeout => exact ⟨_, .execFeSequenceTimeout ..⟩
  | busSettled => exact ⟨_, .execBusSettled ..⟩
  | feStop => exact ⟨_, .execFeStop ..⟩
  | feStopRampEnd => exact ⟨_, .execFeStopRampEnd ..⟩
  | feFaultClear => exact ⟨_, .execFeFaultClear ..⟩
  | sigmaDeltaStreamResumed => exact ⟨_, .execSigmaDeltaStreamResumed ..⟩
  | gateTrip => exact ⟨_, .execGateTrip ..⟩
  | _ => simp [Instr.isFrontEnd] at h

theorem Foot.Allows.of_isLockkeeper {c : Instr} (h : c.isLockkeeper = true) (s : State) : ∃ t, Foot.lockkeeper.Allows t s (exec c s) := by
  cases c with
  | safetyInputSample => exact ⟨_, .execSafetyInputSample ..⟩
  | discrepancyTimeout => exact ⟨_, .execDiscrepancyTimeout ..⟩
  | safetyCycle => exact ⟨_, .execSafetyCycle ..⟩
  | testPulse => exact ⟨_, .execTestPulse ..⟩
  | stoTestPulse _ _ second => exact ⟨_, .execStoTestPulse (_second := second) ..⟩
  | safetySelfTest => exact ⟨_, .execSafetySelfTest ..⟩
  | safetySupplyLoss => exact ⟨_, .execSafetySupplyLoss ..⟩
  | ss1DelayExpiry => exact ⟨_, .execSs1DelayExpiry ..⟩
  | srstPress => exact ⟨_, .execSrstPress ..⟩
  | srstRelease => exact ⟨_, .execSrstRelease ..⟩
  | resetHeld => exact ⟨_, .execResetHeld ..⟩
  | safetyStartupComplete => exact ⟨_, .execSafetyStartupComplete ..⟩
  | safetyStatusFrame => exact ⟨_, .execSafetyStatusFrame ..⟩
  | safetyStatusLost => exact ⟨_, .execSafetyStatusLost ..⟩
  | _ => simp [Instr.isLockkeeper] at h

theorem Foot.Allows.of_isFieldIo {c : Instr} (h : c.isFieldIo = true) (s : State) : ∃ t, Foot.fieldIo.Allows t s (exec c s) := by
  cases c with
  | ferryDownFrame => exact ⟨_, .execFerryDownFrame ..⟩
  | ferryDownFrameReceived => exact ⟨_, .execFerryDownFrameReceived ..⟩
  | ferryUpFrame => exact ⟨_, .execFerryUpFrame ..⟩
  | ferryStale => exact ⟨_, .execFerryStale ..⟩
  | ferryWatchdog => exact ⟨_, .execFerryWatchdog ..⟩
  | fieldEntryApply => exact ⟨_, .execFieldEntryApply ..⟩
  | fastInputEdge => exact ⟨_, .execFastInputEdge ..⟩
  | inputFilterExpiry => exact ⟨_, .execInputFilterExpiry ..⟩
  | inputWireBreak => exact ⟨_, .execInputWireBreak ..⟩
  | outputOverload => exact ⟨_, .execOutputOverload ..⟩
  | outputOverloadClear => exact ⟨_, .execOutputOverloadClear ..⟩
  | outputFedBack => exact ⟨_, .execOutputFedBack ..⟩
  | fieldSupplyLow => exact ⟨_, .execFieldSupplyLow ..⟩
  | fieldSupplyRestored => exact ⟨_, .execFieldSupplyRestored ..⟩
  | _ => simp [Instr.isFieldIo] at h

theorem Foot.Allows.of_isProcessor {c : Instr} (h : c.isProcessor = true) (s : State) : ∃ t, Foot.processor.Allows t s (exec c s) := by
  cases c with
  | serviceRestartComplete => exact ⟨_, .execServiceRestartComplete ..⟩
  | threadReady => exact ⟨_, .execThreadReady ..⟩
  | timeSliceExpiry => exact ⟨_, .execTimeSliceExpiry ..⟩
  | budgetExhausted => exact ⟨_, .execBudgetExhausted ..⟩
  | budgetWindow => exact ⟨_, .execBudgetWindow ..⟩
  | workItemPost => exact ⟨_, .execWorkItemPost ..⟩
  | workItemEnd => exact ⟨_, .execWorkItemEnd ..⟩
  | taskLoad => exact ⟨_, .execTaskLoad ..⟩
  | taskStart => exact ⟨_, .execTaskStart ..⟩
  | taskStop => exact ⟨_, .execTaskStop ..⟩
  | taskUnload => exact ⟨_, .execTaskUnload ..⟩
  | taskMap => exact ⟨_, .execTaskMap ..⟩
  | taskFault => exact ⟨_, .execTaskFault ..⟩
  | taskWatchdogExpiry => exact ⟨_, .execTaskWatchdogExpiry ..⟩
  | taskWatchdogKick => exact ⟨_, .execTaskWatchdogKick ..⟩
  | dmaStart => exact ⟨_, .execDmaStart ..⟩
  | dmaBurst => exact ⟨_, .execDmaBurst ..⟩
  | patrolScrub => exact ⟨_, .execPatrolScrub ..⟩
  | _ => simp [Instr.isProcessor] at h

theorem Foot.Allows.of_isAcquisition {c : Instr} (h : c.isAcquisition = true) (s : State) : ∃ t,
  Foot.acquisition.Allows t s (exec c s) := by
  cases c with
  | acqStop => exact ⟨_, .execAcqStop ..⟩
  | acqForce => exact ⟨_, .execAcqForce ..⟩
  | acqTrigger => exact ⟨_, .execAcqTrigger ..⟩
  | acqAutoTimeout => exact ⟨_, .execAcqAutoTimeout ..⟩
  | acqBlockWrite => exact ⟨_, .execAcqBlockWrite ..⟩
  | acqOverrun => exact ⟨_, .execAcqOverrun ..⟩
  | acqRateRestore => exact ⟨_, .execAcqRateRestore ..⟩
  | acqGrant => exact ⟨_, .execAcqGrant ..⟩
  | acqRevoke => exact ⟨_, .execAcqRevoke ..⟩
  | acqFrameFormed => exact ⟨_, .execAcqFrameFormed ..⟩
  | _ => simp [Instr.isAcquisition] at h

theorem Foot.Allows.of_isCan {c : Instr} (h : c.isCan = true) (s : State) : ∃ t, Foot.canBus.Allows t s (exec c s) := by
  cases c with
  | canSend => exact ⟨_, .execCanSend ..⟩
  | canCancel => exact ⟨_, .execCanCancel ..⟩
  | canRead => exact ⟨_, .execCanRead ..⟩
  | canRxAllRead => exact ⟨_, .execCanRxAllRead ..⟩
  | canRecover => exact ⟨_, .execCanRecover ..⟩
  | canFrameReceived => exact ⟨_, .execCanFrameReceived ..⟩
  | canTransmitStart => exact ⟨_, .execCanTransmitStart ..⟩
  | canTxComplete => exact ⟨_, .execCanTxComplete ..⟩
  | canArbitrationLost => exact ⟨_, .execCanArbitrationLost ..⟩
  | canError => exact ⟨_, .execCanError ..⟩
  | canTxTimeout => exact ⟨_, .execCanTxTimeout ..⟩
  | canBusIntegration => exact ⟨_, .execCanBusIntegration ..⟩
  | canBusOffRecovery => exact ⟨_, .execCanBusOffRecovery ..⟩
  | bellmanDue => exact ⟨_, .execBellmanDue ..⟩
  | _ => simp [Instr.isCan] at h

theorem Foot.Allows.of_isTimeService {c : Instr} (h : c.isTimeService = true) (s : State) : ∃ t,
  Foot.timeService.Allows t s (exec c s) := by
  cases c with
  | timeStep => exact ⟨_, .execTimeStep ..⟩
  | ptpSyncReceived => exact ⟨_, .execPtpSyncReceived ..⟩
  | ptpAnnounceReceived => exact ⟨_, .execPtpAnnounceReceived ..⟩
  | ptpMasterLoss => exact ⟨_, .execPtpMasterLoss ..⟩
  | ptpMessageSend => exact ⟨_, .execPtpMessageSend ..⟩
  | ptpTransit => exact ⟨_, .execPtpTransit ..⟩
  | followUpTimeout => exact ⟨_, .execFollowUpTimeout ..⟩
  | followUpReceived => exact ⟨_, .execFollowUpReceived ..⟩
  | delayRespReceived => exact ⟨_, .execDelayRespReceived ..⟩
  | delayReqReceived => exact ⟨_, (Foot.Allows.execDelayReqReceived ..).mono rfl⟩
  | _ => simp [Instr.isTimeService] at h

theorem Foot.Allows.of_isLine {c : Instr} (h : c.isLine = true) (s : State) : ∃ t, Foot.lineSide.Allows t s (exec c s) := by
  cases c with
  | beaconSend => exact ⟨_, .execBeaconSend ..⟩
  | beaconReceived => exact ⟨_, .execBeaconReceived ..⟩
  | neighbourLost => exact ⟨_, .execNeighbourLost ..⟩
  | rollCallStart => exact ⟨_, .execRollCallStart ..⟩
  | rollCallFrameReceived => exact ⟨_, .execRollCallFrameReceived ..⟩
  | rollCallTimeout => exact ⟨_, .execRollCallTimeout ..⟩
  | rollCallRetry => exact ⟨_, .execRollCallRetry ..⟩
  | lineRollCall => exact ⟨_, .execLineRollCall ..⟩
  | lineMove => exact ⟨_, .execLineMove ..⟩
  | lineStop => exact ⟨_, .execLineStop ..⟩
  | lineFrameSend => exact ⟨_, .execLineFrameSend ..⟩
  | lineFrameReceived => exact ⟨_, .execLineFrameReceived ..⟩
  | lineTimeout => exact ⟨_, .execLineTimeout ..⟩
  | _ => simp [Instr.isLine] at h

theorem Foot.Allows.of_isUpkeep {c : Instr} (h : c.isUpkeep = true) (s : State) : ∃ t, Foot.upkeep.Allows t s (exec c s) := by
  cases c with
  | sysBootStore => exact ⟨_, .execSysBootStore ..⟩
  | bootRecordWritten => exact ⟨_, .execBootRecordWritten ..⟩
  | auxSupplyOverload => exact ⟨_, .execAuxSupplyOverload ..⟩
  | auxSupplyRetry => exact ⟨_, .execAuxSupplyRetry ..⟩
  | imageWrite => exact ⟨_, .execImageWrite ..⟩
  | imageCheck => exact ⟨_, .execImageCheck ..⟩
  | firmwareTrialEnd => exact ⟨_, .execFirmwareTrialEnd ..⟩
  | sfpInserted => exact ⟨_, .execSfpInserted ..⟩
  | sfpRemoved => exact ⟨_, .execSfpRemoved ..⟩
  | _ => simp [Instr.isUpkeep] at h

/-- Each command stays within what a command may touch; the queue of waiting commands is none of it. -/
theorem Foot.Allows.of_exec (c : Instr) (s : State) : ∃ t, Foot.every.Allows t s (exec c s) := by
  by_cases hisHostSide : c.isHostSide = true
  · exact (Foot.Allows.of_isHostSide hisHostSide s).imp fun t h => h.mono rfl
  by_cases hisCommitRequest : c.isCommitRequest = true
  · exact (Foot.Allows.of_isCommitRequest hisCommitRequest s).imp fun t h => h.mono rfl
  by_cases hisPacketSide : c.isPacketSide = true
  · exact (Foot.Allows.of_isPacketSide hisPacketSide s).imp fun t h => h.mono rfl
  by_cases hisLink : c.isLink = true
  · exact (Foot.Allows.of_isLink hisLink s).imp fun t h => h.mono rfl
  by_cases hisFeedback : c.isFeedback = true
  · exact (Foot.Allows.of_isFeedback hisFeedback s).imp fun t h => h.mono rfl
  by_cases hisMotion : c.isMotion = true
  · exact (Foot.Allows.of_isMotion hisMotion s).imp fun t h => h.mono rfl
  by_cases hisModulation : c.isModulation = true
  · exact (Foot.Allows.of_isModulation hisModulation s).imp fun t h => h.mono rfl
  by_cases hisFrontEnd : c.isFrontEnd = true
  · exact (Foot.Allows.of_isFrontEnd hisFrontEnd s).imp fun t h => h.mono rfl
  by_cases hisLockkeeper : c.isLockkeeper = true
  · exact (Foot.Allows.of_isLockkeeper hisLockkeeper s).imp fun t h => h.mono rfl
  by_cases hisFieldIo : c.isFieldIo = true
  · exact (Foot.Allows.of_isFieldIo hisFieldIo s).imp fun t h => h.mono rfl
  by_cases hisProcessor : c.isProcessor = true
  · exact (Foot.Allows.of_isProcessor hisProcessor s).imp fun t h => h.mono rfl
  by_cases hisAcquisition : c.isAcquisition = true
  · exact (Foot.Allows.of_isAcquisition hisAcquisition s).imp fun t h => h.mono rfl
  by_cases hisCan : c.isCan = true
  · exact (Foot.Allows.of_isCan hisCan s).imp fun t h => h.mono rfl
  by_cases hisTimeService : c.isTimeService = true
  · exact (Foot.Allows.of_isTimeService hisTimeService s).imp fun t h => h.mono rfl
  by_cases hisLine : c.isLine = true
  · exact (Foot.Allows.of_isLine hisLine s).imp fun t h => h.mono rfl
  by_cases hisUpkeep : c.isUpkeep = true
  · exact (Foot.Allows.of_isUpkeep hisUpkeep s).imp fun t h => h.mono rfl
  cases c with
  | packetStart => exact ⟨_, .execPacketStart ..⟩
  | paramRead => exact ⟨_, .execParamRead ..⟩
  | paramWrite => exact ⟨_, .execParamWrite ..⟩
  | paramReadList => exact ⟨_, .execParamReadList ..⟩
  | stageOpen => exact ⟨_, .execStageOpen ..⟩
  | stageCommit => exact ⟨_, .execStageCommit ..⟩
  | stageDiscard => exact ⟨_, .execStageDiscard ..⟩
  | hostConfigApply => exact ⟨_, .execHostConfigApply ..⟩
  | upstreamSlotReceived => exact ⟨_, .execUpstreamSlotReceived ..⟩
  | engineJobDispatch => exact ⟨_, .execEngineJobDispatch ..⟩
  | placeFrameSend => exact ⟨_, .execPlaceFrameSend ..⟩
  | sampleInstant => exact ⟨_, .execSampleInstant ..⟩
  | loadAllReload => exact ⟨_, .execLoadAllReload ..⟩
  | islandMeasurement => exact ⟨_, .execIslandMeasurement ..⟩
  | islandHalt => exact ⟨_, .execIslandHalt ..⟩
  | islandResume => exact ⟨_, .execIslandResume ..⟩
  | localFeedbackSample => exact ⟨_, .execLocalFeedbackSample ..⟩
  | stepHoldDelay => exact ⟨_, .execStepHoldDelay ..⟩
  | couplingEngage => exact ⟨_, .execCouplingEngage ..⟩
  | couplingDisengage => exact ⟨_, .execCouplingDisengage ..⟩
  | couplingChange => exact ⟨_, .execCouplingChange ..⟩
  | frontEndJobs => exact ⟨_, .execFrontEndJobs ..⟩
  | ferryUpFrameReceived => exact ⟨_, .execFerryUpFrameReceived ..⟩
  | serviceRestart => exact ⟨_, .execServiceRestart ..⟩
  | memoryEccError => exact ⟨_, .execMemoryEccError ..⟩
  | powerUp => exact ⟨_, .execPowerUp ..⟩
  | brownOut => exact ⟨_, .execBrownOut ..⟩
  | supplyInterruption => exact ⟨_, .execSupplyInterruption ..⟩
  | systemWatchdog => exact ⟨_, .execSystemWatchdog ..⟩
  | boot => exact ⟨_, .execBoot ..⟩
  | ready => exact ⟨_, .execReady ..⟩
  | sysReset => exact ⟨_, .execSysReset ..⟩
  | faultClear => exact ⟨_, .execFaultClear ..⟩
  | groupChange => exact ⟨_, .execGroupChange ..⟩
  | firmwareSwitch => exact ⟨_, .execFirmwareSwitch ..⟩
  | firmwareSwitched => exact ⟨_, .execFirmwareSwitched ..⟩
  | islandHaltOffLoopPath => exact ⟨_, .execIslandHaltOffLoopPath ..⟩
  | _ => simp_all [Instr.isHostSide, Instr.isCommitRequest, Instr.isPacketSide, Instr.isLink, Instr.isFeedback, Instr.isMotion,
    Instr.isModulation, Instr.isFrontEnd, Instr.isLockkeeper, Instr.isFieldIo, Instr.isProcessor, Instr.isAcquisition, Instr.isCan,
      Instr.isTimeService, Instr.isLine, Instr.isUpkeep]

/-! ### From a footprint to a frame -/

/-- Advancing to the tick that an advance has reached is that advance. -/
theorem State.advance_tick_advance (s : State) (t : Nat) : s.advance (s.advance t).time.tick = s.advance t := by
  by_cases h : t ≤ s.time.tick
  · simp [State.advance, h]
  · rw [show (s.advance t).time.tick = t by simp [State.advance, h]]

theorem State.le_tick_advance (s : State) (t : Nat) : s.time.tick ≤ (s.advance t).time.tick := by
  unfold State.advance
  split
  · exact le_refl _
  · exact (not_le.1 ‹_›).le

/-- Line time stays within its 88 bits, and the rest stands, when the tick advances. -/
theorem State.canon_advance {s : State} (t : Nat) (h : s.canon) : (s.advance t).canon := by
  unfold State.advance
  split
  · exact h
  · obtain ⟨htabs, -, hrest⟩ := h
    exact ⟨htabs, Nat.mod_lt _ (by decide), hrest⟩

theorem State.wf_iff (s : State) : s.wf ↔ s.canon ∧ s.boot.due = 0 := by
  simp only [State.wf, State.canon, and_assoc]

theorem State.wf_advance {s : State} (t : Nat) (h : s.wf) : (s.advance t).wf := by
  rw [State.wf_iff] at h ⊢
  refine ⟨State.canon_advance t h.1, ?_⟩
  simpa using h.2

/-- An advance leaves the cycle grid. -/
theorem State.grid_advance (s : State) (t : Nat) :
    (s.advance t).time = { s.time with tick := (s.advance t).time.tick, lt := (s.advance t).time.lt } := by
  unfold State.advance
  split <;> rfl

/-- What stands from the tick of a command on is the same as before the command. -/
theorem State.Keeps.same {s s' : State} {t : Nat} {x : Part} (h : (s.advance t).Keeps s' x) (ht : s'.time.tick = (s.advance t).time.tick) :
    s.Same s' x := by
  cases x
  case lineTime =>
    rw [State.Same, ht, State.advance_tick_advance]
    exact h
  case grid =>
    simp only [State.Keeps, State.Same] at h ⊢
    rwa [State.grid_advance] at h
  all_goals simpa [State.Keeps, State.Same] using h

theorem Foot.Allows.covers {F : Foot} {t : Nat} {s s' : State} {r : Res} (h : F.Allows t s r) (he : r = .next s') :
    F.Covers (s.advance t) s' := by
  rw [he] at h
  exact h

/-- The parts outside the footprint of a command are as before. -/
theorem Foot.Allows.sameBut {F : Foot} {s s' : State} {r : Res} (h : ∃ t, F.Allows t s r) (he : r = .next s') : s.sameBut s' F.parts := by
  obtain ⟨t, h⟩ := h
  have hc := h.covers he
  exact fun x hx => (hc.parts x (by simpa [Foot.part] using hx)).same hc.tick

/-- The parameters outside the footprint of a command are as before. -/
theorem Foot.Allows.parsBut {F : Foot} {s s' : State} {r : Res} (h : ∃ t, F.Allows t s r) (he : r = .next s')
    (hF : F.anyPar = false := by rfl) : s.parsBut s' F.pars := by
  obtain ⟨t, h⟩ := h
  intro ho p i hp hl
  have hc := (h.covers he).pars (State.ordered_advance ho t) p i (by simpa [Foot.par, hF] using hp) hl
  simpa using hc

/-- A command of a family leaves all but the footprint of its family. -/
theorem Foot.Allows.frame {F : Foot} {s s' : State} {r : Res} (h : ∃ t, F.Allows t s r) (he : r = .next s')
    (hF : F.anyPar = false := by rfl) : s.sameBut s' F.parts ∧ s.parsBut s' F.pars :=
  ⟨Foot.Allows.sameBut h he, Foot.Allows.parsBut h he hF⟩

end Sys2Proof.Machine

end

/-! ### The frames of the families, and what every step keeps -/

section

-- One declaration after the other: elaborated at once they need more threads than the check has memory for.
set_option Elab.async false

namespace Sys2Proof.Machine

/-- Settles O17: each of the commands keeps to the footprint of its family. -/
theorem readsAndPacketsLeaveTheDevice : Obligations.ReadsAndPacketsLeaveTheDevice :=
  ⟨fun _ s _ h he => Foot.Allows.frame (Foot.Allows.of_isHostSide h s) he,
    fun _ s _ h he => Foot.Allows.frame (Foot.Allows.of_isPacketSide h s) he⟩

/-- Settles O18: each of the commands keeps to the footprint of the family. -/
theorem commitRequestsWait : Obligations.CommitRequestsWait :=
  fun _ s _ h he => Foot.Allows.frame (Foot.Allows.of_isCommitRequest h s) he

/-- Settles O19: each of the commands keeps to the footprint of the family. -/
theorem linkCommandsFrame : Obligations.LinkCommandsFrame :=
  fun _ s _ h he => Foot.Allows.frame (Foot.Allows.of_isLink h s) he

/-- Settles O20: each of the commands keeps to the footprint of its family. -/
theorem feedbackAndMotionFrame : Obligations.FeedbackAndMotionFrame :=
  ⟨fun _ s _ h he => Foot.Allows.frame (Foot.Allows.of_isFeedback h s) he,
    fun _ s _ h he => Foot.Allows.frame (Foot.Allows.of_isMotion h s) he⟩

/-- Settles O21: each of the commands keeps to the footprint of its family. -/
theorem powerSideFrame : Obligations.PowerSideFrame :=
  ⟨fun _ s _ h he => Foot.Allows.frame (Foot.Allows.of_isModulation h s) he,
    fun _ s _ h he => Foot.Allows.frame (Foot.Allows.of_isFrontEnd h s) he⟩

/-- Settles O22: each of the commands keeps to the footprint of the family. -/
theorem lockkeeperFrame : Obligations.LockkeeperFrame :=
  fun _ s _ h he => Foot.Allows.frame (Foot.Allows.of_isLockkeeper h s) he

/-- Settles O23: each of the commands keeps to the footprint of the family. -/
theorem fieldIoFrame : Obligations.FieldIoFrame :=
  fun _ s _ h he => Foot.Allows.frame (Foot.Allows.of_isFieldIo h s) he

/-- Settles O24: each of the commands keeps to the footprint of its family. -/
theorem processorAndAcquisitionFrame : Obligations.ProcessorAndAcquisitionFrame :=
  ⟨fun _ s _ h he => Foot.Allows.frame (Foot.Allows.of_isProcessor h s) he,
    fun _ s _ h he => Foot.Allows.frame (Foot.Allows.of_isAcquisition h s) he⟩

/-- Settles O25: each of the commands keeps to the footprint of the family. -/
theorem canCommandsFrame : Obligations.CanCommandsFrame :=
  fun _ s _ h he => Foot.Allows.frame (Foot.Allows.of_isCan h s) he

/-- Settles O26: each of the commands keeps to the footprint of its family. -/
theorem timeAndLineFrame : Obligations.TimeAndLineFrame :=
  ⟨fun _ s _ h he => Foot.Allows.frame (Foot.Allows.of_isTimeService h s) he,
    fun _ s _ h he => Foot.Allows.frame (Foot.Allows.of_isLine h s) he⟩

/-- Settles O27: each of the commands keeps to the footprint of the family. -/
theorem upkeepFrame : Obligations.UpkeepFrame :=
  fun _ s _ h he => Foot.Allows.frame (Foot.Allows.of_isUpkeep h s) he

/-- The tick does not run back, and what was sent stays sent, over what a footprint covers. -/
theorem Foot.Allows.time {F : Foot} {s s' : State} {r : Res} (h : ∃ t, F.Allows t s r) (he : r = .next s') :
    s.time.tick ≤ s'.time.tick ∧ s.sent <:+ s'.sent := by
  obtain ⟨t, h⟩ := h
  have hc := h.covers he
  refine ⟨hc.tick ▸ s.le_tick_advance t, ?_⟩
  simpa using hc.sent

/-- A command that goes on keeps the state well formed. -/
theorem Foot.Allows.wf {F : Foot} {s s' : State} {r : Res} (h : ∃ t, F.Allows t s r) (he : r = .next s') (hw : s.wf) : s'.wf := by
  obtain ⟨t, h⟩ := h
  exact (h.covers he).wf (State.wf_advance t hw)

theorem exec_pending {c : Instr} {s s' : State} (he : exec c s = .next s') : s'.pending = s.pending :=
  Foot.Allows.sameBut (Foot.Allows.of_exec c s) he .queue (by decide)

theorem step_of_pending {c : Instr} {cs : List Instr} {s : State} (h : s.pending = c :: cs) :
    step s = exec c { s with pending := cs } := by
  rw [step, h]

theorem step_of_idle {s : State} (h : s.pending = []) : step s = .next s := by
  rw [step, h]

/-- Settles O6: the queue is in no command's footprint. -/
theorem commandsLeaveTheQueue : Obligations.CommandsLeaveTheQueue :=
  ⟨fun _ _ _ he => exec_pending he, fun _ _ _ _ h he => exec_pending ((step_of_pending h).symm.trans he)⟩

/-- Settles O7: every command advances to its tick first and keeps that tick; it adds to what was sent. -/
theorem timeNeverRunsBack : Obligations.TimeNeverRunsBack :=
  fun c s _ he => Foot.Allows.time (Foot.Allows.of_exec c s) he

/-- Settles O5: the empty queue changes nothing, and every command keeps what its footprint's well-formedness says. -/
theorem stepsKeepWellFormed : Obligations.StepsKeepWellFormed := by
  intro s s' hw he
  cases hp : s.pending with
  | nil =>
    rw [step_of_idle hp] at he
    cases he
    exact hw
  | cons c cs =>
    rw [step_of_pending hp] at he
    exact Foot.Allows.wf (Foot.Allows.of_exec c _) he hw

/-- Settles O1. -/
theorem stepRunsTheFrontCommand : Obligations.StepRunsTheFrontCommand :=
  fun _ _ _ h => step_of_pending h

/-- Settles O2. -/
theorem emptyQueueIdles : Obligations.EmptyQueueIdles :=
  fun _ h => step_of_idle h

end Sys2Proof.Machine

end

/-! The state after reset, the queue of commits, and the form a request must have. -/

section

-- One declaration after the other: elaborated at once they need more threads than the check has memory for.
set_option Elab.async false

namespace Sys2Proof.Machine

/-- Settles O3: no entry stands in the parameter table after reset, so each parameter reads the value of its row. -/
theorem resetReadsTheTables : Obligations.ResetReadsTheTables :=
  ⟨fun _ _ => rfl, rfl, rfl, by decide, rfl, rfl, rfl⟩

/-- Settles O4. -/
theorem resetIsWellFormed : Obligations.ResetIsWellFormed := by
  unfold Obligations.ResetIsWellFormed
  decide

/-! ### Requests of the wrong form -/

/-- A request with an opcode of its own is run by its operation; where that leaves nothing but a reply, nothing follows it. -/
theorem exec_of_request {c : Instr} {t op : Nat} {q : Req} {s : State} (h : c.request = some (t, op, q)) (hd : s.boot.due = 0) :
    ∃ f, ∀ st b, runReq op t q s f = .next ((s.advance t).reply q st b) → exec c s = .next ((s.advance t).reply q st b) := by
  cases c with
  | sysReset t q =>
    cases h
    refine ⟨sysResetOp q, fun st b hf => ?_⟩
    change execSysReset t q s = _
    rw [execSysReset_eq, hf]
    simp [hd]
  | firmwareSwitch t q =>
    cases h
    refine ⟨firmwareSwitchOp q, fun st b hf => ?_⟩
    change execFirmwareSwitch t q s = _
    rw [execFirmwareSwitch_eq, hf]
    simp [hd]
  | _ => cases h <;> exact ⟨_, fun _ _ hf => by dsimp only [exec]; exact hf⟩

theorem runReq_of_inst {op t : Nat} {q : Req} {s : State} (f : State → OpRes) (hi : instOk op q = false) :
    runReq op t q s f = .next ((s.advance t).reply q 0x0302 (refBytes 0 0 0)) := by
  simp [runReq, runOp, hi]

theorem runReq_of_len {op t : Nat} {q : Req} {s : State} (f : State → OpRes) (hi : instOk op q = true) (hl : lenOk op q = false) :
    runReq op t q s f = .next ((s.advance t).reply q 0x0303 (refBytes 0 0 0)) := by
  simp [runReq, runOp, hi, hl]

/-- Where a refusal holds beside an operation, the operation is refused: with it, or with what goes first. -/
theorem OpRes.beside_of_true {r : Rsn} {first : Nat → Bool} (x : OpRes) :
    ∃ y, OpRes.beside true r first x = .no y ∧ (y = r ∨ first y.status = true) := by
  cases x with
  | ok => exact ⟨r, rfl, .inl rfl⟩
  | no y =>
    cases h : first y.status
    · exact ⟨r, by simp [OpRes.beside, h], .inl rfl⟩
    · exact ⟨y, by simp [OpRes.beside, h], .inr h⟩

theorem runReq_of_recovery {op t : Nat} {q : Req} {s : State} (f : State → OpRes) (hi : instOk op q = true) (hl : lenOk op q = true)
    (hb : s.host.broken.contains q = false) (hr : s.boot.recovery = true) (ho : recoveryOp op = false) :
    ∃ st b, runReq op t q s f = .next ((s.advance t).reply q st b) ∧ (st = 0x0240 ∨ before469 q st = true) := by
  obtain ⟨y, hy, hst⟩ := OpRes.beside_of_true (r := ⟨0x0240, 0, 0, 0⟩) (first := before469 q) (f (s.advance t))
  refine ⟨y.status, refBytes y.detail y.wh y.val, ?_, hst.imp_left fun h => by rw [h]⟩
  simp only [runReq, runOp, hi, hl, State.advance_frame, hb, hr, ho, Bool.not_true, Bool.not_false, Bool.and_true, hy]
  rfl

theorem runReq_of_broken {op t : Nat} {q : Req} {s : State} (f : State → OpRes) (hi : instOk op q = true) (hl : lenOk op q = true)
    (hb : s.host.broken.contains q = true) :
    ∃ st b, runReq op t q s f = .next ((s.advance t).reply q st b) ∧ (st = 0x0202 ∨ before359 q st = true) := by
  obtain ⟨y, hy, hst⟩ := OpRes.beside_of_true (r := ⟨0x0202, 0, 0, 0⟩) (first := before359 q)
    ((f (s.advance t)).beside (s.boot.recovery && !recoveryOp op) ⟨0x0240, 0, 0, 0⟩ (before469 q))
  refine ⟨y.status, refBytes y.detail y.wh y.val, ?_, hst.imp_left fun h => by rw [h]⟩
  simp only [runReq, runOp, hi, hl, State.advance_frame, hb, hy]
  rfl

/-- Settles O8: the form of a request is checked before its operation, and a refusal beside the operation stands. -/
theorem requestsOfTheWrongFormAreRefused : Obligations.RequestsOfTheWrongFormAreRefused := by
  refine ⟨?inst, ?len, ?recovery, ?broken⟩ <;> intro c t op q s h hd hi
  case inst =>
    obtain ⟨f, hf⟩ := exec_of_request h hd
    exact hf _ _ (runReq_of_inst f hi)
  case len =>
    intro hl
    obtain ⟨f, hf⟩ := exec_of_request h hd
    exact hf _ _ (runReq_of_len f hi hl)
  case recovery =>
    intro hl hb hr ho
    obtain ⟨f, hf⟩ := exec_of_request h hd
    obtain ⟨st, b, he, hst⟩ := runReq_of_recovery f hi hl hb hr ho
    exact ⟨st, b, hf st b he, hst⟩
  case broken =>
    intro hl hb
    obtain ⟨f, hf⟩ := exec_of_request h hd
    obtain ⟨st, b, he, hst⟩ := runReq_of_broken f hi hl hb
    exact ⟨st, b, hf st b he, hst⟩

/-! ### Commits that are due -/

/-- Axis 0 is to leave its coupling once its master, at rest at 0, is at position 0 or above. -/
def dueDisengage : CplPend where
  kind := 1
  master := 0
  psw := 0
  up := true
  lapse := 0
  id := 1
  req := { dest := ⟨.usb, 0⟩, arrival := 0, gen := 2, more := false, noEvent := false, flow := 0, seq := 1, opcode := 0x0707, inst := 0,
           timeout := 0, crc := 0, body := [] }

/-- The state after reset, with that change pending and no commit. -/
def State.withDueDisengage : State :=
  { State.reset with cpl := [(0, { CplRec.init with engaged := true, pend := some dueDisengage })] }

/-- Refutes O9: with no commit due, a change at a master position that is due still takes effect with the commits of the cycle. -/
theorem not_dueCommitsRunAndLeave : ¬ Obligations.DueCommitsRunAndLeave := by
  rintro ⟨-, -, hnone⟩
  have h := congrArg (fun s => (s.cplr 0).pend.isSome) (hnone State.withDueDisengage (by decide))
  exact absurd h (by decide +kernel)

end Sys2Proof.Machine

end

/-! Requests whose conditions are met. -/

section

-- One declaration after the other: elaborated at once they need more threads than the check has memory for.
set_option Elab.async false

namespace Sys2Proof.Machine

/-- The state that a command leads to; where it does not go on, the one it started from. -/
def Res.after (s : State) : Res → State
  | .next s' => s'
  | _ => s

/-- The state after reset with entries in its parameter table. -/
def State.resetWith (l : List (Nat × Nat)) : State := { State.reset with par := { State.reset.par with active := l } }

/-- A request none of whose refusals holds is carried out. -/
theorem guarded_of_none {l : List (Bool × Rsn)} {k : OpRes} (h : firstBad l = none) : guarded l k = k := by
  rw [guarded, h]

@[simp] theorem firstBad_nil : firstBad [] = none := rfl

@[simp] theorem firstBad_cons (c : Bool) (r : Rsn) (l : List (Bool × Rsn)) :
    firstBad ((c, r) :: l) = if c then some r else firstBad l := rfl

@[simp] theorem firstBad_append (l k : List (Bool × Rsn)) : firstBad (l ++ k) = (firstBad l).or (firstBad k) := by
  induction l with
  | nil => rfl
  | cons x l ih =>
    obtain ⟨c, r⟩ := x
    cases c <;> simp [ih]

/-! ### What an advance leaves of the clock -/

@[simp] theorem State.cycle_advance (s : State) (t : Nat) : (s.advance t).time.cycle = s.time.cycle := by rw [State.grid_advance]
@[simp] theorem State.lastS_advance (s : State) (t : Nat) : (s.advance t).time.lastS = s.time.lastS := by rw [State.grid_advance]
@[simp] theorem State.nextS_advance (s : State) (t : Nat) : (s.advance t).time.nextS = s.time.nextS := by rw [State.grid_advance]
@[simp] theorem State.rephase_advance (s : State) (t : Nat) : (s.advance t).time.rephase = s.time.rephase := by rw [State.grid_advance]
@[simp] theorem State.offGrid_advance (s : State) (t : Nat) : (s.advance t).time.offGrid = s.time.offGrid := by rw [State.grid_advance]
@[simp] theorem State.lastTick_advance (s : State) (t : Nat) : (s.advance t).time.lastTick = s.time.lastTick := by rw [State.grid_advance]

@[simp] theorem State.retired_advance_eq (s : State) (t : Nat) : (s.advance t).retired = s.retired := funext fun _ => by simp

/-! ### Parameters beside the rest of the state -/

@[simp] theorem State.rd_setHost (s : State) (h : HostState) (p j : Nat) : (s.setHost h).rd p j = s.rd p j := rfl
@[simp] theorem State.rd_setRegs (s : State) (r : HostRegs) (p j : Nat) : (s.setRegs r).rd p j = s.rd p j := rfl
@[simp] theorem State.rd_setLink (s : State) (l : LinkState) (p j : Nat) : (s.setLink l).rd p j = s.rd p j := rfl
@[simp] theorem State.rd_setFb (s : State) (i : Nat) (r : FbRec) (p j : Nat) : (s.setFb i r).rd p j = s.rd p j := rfl
@[simp] theorem State.rd_setAxis (s : State) (a : Nat) (r : AxisRec) (p j : Nat) : (s.setAxis a r).rd p j = s.rd p j := rfl
@[simp] theorem State.rd_setCmp (s : State) (u : Nat) (r : CmpRec) (p j : Nat) : (s.setCmp u r).rd p j = s.rd p j := rfl
@[simp] theorem State.rd_setEmu (s : State) (e : Nat) (r : EmuRec) (p j : Nat) : (s.setEmu e r).rd p j = s.rd p j := rfl
@[simp] theorem State.rd_setGroup (s : State) (g : Nat) (r : FerryRec) (p j : Nat) : (s.setGroup g r).rd p j = s.rd p j := rfl
@[simp] theorem State.rd_setGm (s : State) (a : Nat) (r : GmRec) (p j : Nat) : (s.setGm a r).rd p j = s.rd p j := rfl
@[simp] theorem State.rd_setTraj (s : State) (a : Nat) (r : TrjRec) (p j : Nat) : (s.setTraj a r).rd p j = s.rd p j := rfl
@[simp] theorem State.rd_setVm (s : State) (m : Nat) (r : VmRec) (p j : Nat) : (s.setVm m r).rd p j = s.rd p j := rfl
@[simp] theorem State.rd_setLine (s : State) (l : LineRec) (p j : Nat) : (s.setLine l).rd p j = s.rd p j := rfl
@[simp] theorem State.rd_setCpl (s : State) (a : Nat) (r : CplRec) (p j : Nat) : (s.setCpl a r).rd p j = s.rd p j := rfl
@[simp] theorem State.rd_setPg (s : State) (g : Nat) (r : PgRec) (p j : Nat) : (s.setPg g r).rd p j = s.rd p j := rfl
@[simp] theorem State.rd_setMod (s : State) (m : ModState) (p j : Nat) : (s.setMod m).rd p j = s.rd p j := rfl
@[simp] theorem State.rd_setFe (s : State) (r : FeRec) (p j : Nat) : (s.setFe r).rd p j = s.rd p j := rfl
@[simp] theorem State.rd_setSaf (s : State) (r : SafRec) (p j : Nat) : (s.setSaf r).rd p j = s.rd p j := rfl
@[simp] theorem State.rd_setPr (s : State) (r : ProcRec) (p j : Nat) : (s.setPr r).rd p j = s.rd p j := rfl
@[simp] theorem State.rd_setAq (s : State) (u : Nat) (r : AqRec) (p j : Nat) : (s.setAq u r).rd p j = s.rd p j := rfl
@[simp] theorem State.rd_setCanC (s : State) (c : Nat) (r : CanRec) (p j : Nat) : (s.setCanC c r).rd p j = s.rd p j := rfl
@[simp] theorem State.rd_setCanO (s : State) (i : Nat) (r : CanObjRec) (p j : Nat) : (s.setCanO i r).rd p j = s.rd p j := rfl
@[simp] theorem State.rd_setNt (s : State) (r : NtRec) (p j : Nat) : (s.setNt r).rd p j = s.rd p j := rfl
@[simp] theorem State.rd_setRoll (s : State) (r : RollRec) (p j : Nat) : (s.setRoll r).rd p j = s.rd p j := rfl
@[simp] theorem State.rd_setBoot (s : State) (b : BootState) (p j : Nat) : (s.setBoot b).rd p j = s.rd p j := rfl

/-! ### A part that is set twice -/

@[simp] theorem State.setHost_setHost (s : State) (x y : HostState) : (s.setHost x).setHost y = s.setHost y := rfl
@[simp] theorem State.setLink_setLink (s : State) (x y : LinkState) : (s.setLink x).setLink y = s.setLink y := rfl
@[simp] theorem State.setLine_setLine (s : State) (x y : LineRec) : (s.setLine x).setLine y = s.setLine y := rfl
@[simp] theorem State.setMod_setMod (s : State) (x y : ModState) : (s.setMod x).setMod y = s.setMod y := rfl
@[simp] theorem State.setFe_setFe (s : State) (x y : FeRec) : (s.setFe x).setFe y = s.setFe y := rfl
@[simp] theorem State.setSaf_setSaf (s : State) (x y : SafRec) : (s.setSaf x).setSaf y = s.setSaf y := rfl
@[simp] theorem State.setPr_setPr (s : State) (x y : ProcRec) : (s.setPr x).setPr y = s.setPr y := rfl
@[simp] theorem State.setNt_setNt (s : State) (x y : NtRec) : (s.setNt x).setNt y = s.setNt y := rfl
@[simp] theorem State.setRoll_setRoll (s : State) (x y : RollRec) : (s.setRoll x).setRoll y = s.setRoll y := rfl
@[simp] theorem State.setBoot_setBoot (s : State) (x y : BootState) : (s.setBoot x).setBoot y = s.setBoot y := rfl

/-- A loop keeps what its body keeps. -/
theorem foldl_keeps {α β γ : Type} (π : α → γ) {g : α → β → α} (h : ∀ a x, π (g a x) = π a) (l : List β) (a : α) :
    π (l.foldl g a) = π a := by
  induction l generalizing a with
  | nil => rfl
  | cons x r ih => exact (ih _).trans (h a x)

/-! ### What a footprint leaves -/

/-- A parameter outside the footprint reads as before. -/
theorem Foot.Covers.rd {F : Foot} {a b : State} (h : F.Covers a b) (ho : a.ordered) {p : Nat} (hp : F.par p = false)
    (hl : lossCount p = false) (i : Nat) : b.rd p i = a.rd p i :=
  h.pars ho p i hp hl

theorem Foot.Covers.rb {F : Foot} {a b : State} (h : F.Covers a b) (ho : a.ordered) {p : Nat} (hp : F.par p = false)
    (hl : lossCount p = false) (i : Nat) : b.rb p i = a.rb p i := by
  rw [State.rb, State.rb, h.rd ho hp hl]

theorem Foot.Covers.cycle {F : Foot} {a b : State} (h : F.Covers a b) (hg : F.part .grid = false) : b.time.cycle = a.time.cycle :=
  (h.parts .grid hg).1

/-- The completion of a request changes no parameter but the counts of what could not be kept. -/
theorem State.rd_complete {s : State} (ho : s.ordered) (q : Req) (id e st d w v : Nat) {p : Nat} (hl : lossCount p = false) (i : Nat) :
    (s.complete q id e st d w v).rd p i = s.rd p i :=
  (Foot.Covers.complete (F := .nothing) ..).rd ho rfl hl i

/-- An event changes no parameter but the counts of what could not be kept. -/
theorem State.rd_raise {s : State} (ho : s.ordered) (c i : Nat) (d : List Byte) {p : Nat} (hl : lossCount p = false) (j : Nat) :
    (s.raise c i d).rd p j = s.rd p j :=
  (Foot.Covers.raise (F := .nothing) ..).rd ho rfl hl j

/-! ### Bits -/

/-- A bit that is not set is added without a carry. -/
theorem testBit_add_two_pow_ne {v j k : Nat} (hv : v.testBit k = false) (hj : j ≠ k) : (v + 2 ^ k).testBit j = v.testBit j := by
  have hlt : v % 2 ^ k < 2 ^ k := Nat.mod_lt _ (Nat.two_pow_pos k)
  have hv' : v = 2 ^ k * (v / 2 ^ k) + v % 2 ^ k := (Nat.div_add_mod ..).symm
  have hadd : v + 2 ^ k = 2 ^ k * (v / 2 ^ k + 1) + v % 2 ^ k := by rw [Nat.mul_add, Nat.mul_one]; omega
  have hev : v / 2 ^ k % 2 = 0 := by simpa [Nat.testBit_eq_decide_div_mod_eq] using hv
  rw [hadd, Nat.testBit_two_pow_mul_add _ hlt]
  conv_rhs => rw [hv', Nat.testBit_two_pow_mul_add _ hlt]
  split
  · rfl
  · obtain ⟨n, hn⟩ : ∃ n, j - k = n + 1 := ⟨j - k - 1, by omega⟩
    rw [hn, Nat.testBit_add_one, Nat.testBit_add_one, show (v / 2 ^ k + 1) / 2 = v / 2 ^ k / 2 by omega]

theorem bitOf_setBit_ne {j k : Nat} (hj : j ≠ k) (v : Nat) (b : Bool) : bitOf (setBit v k b) j = bitOf v j := by
  unfold bitOf setBit
  by_cases hv : v.testBit k = b
  · simp [hv]
  · cases b with
    | true => simpa [hv] using testBit_add_two_pow_ne (by simpa using hv) hj
    | false =>
      have hk : v.testBit k = true := by simpa using hv
      obtain ⟨w, rfl⟩ := Nat.exists_eq_add_of_le' (Nat.ge_two_pow_of_testBit hk)
      have hw : w.testBit k = false := by simpa [Nat.add_comm w, Nat.testBit_two_pow_add_eq] using hk
      simpa [hk] using (testBit_add_two_pow_ne hw hj).symm

/-- Writing one bit of a parameter leaves its other bits. -/
theorem State.bitOf_rd_wrBit_ne {s : State} (ho : s.ordered) (p i : Nat) {j k : Nat} (hj : j ≠ k) (b : Bool) :
    bitOf ((s.wrBit p i k b).rd p i) j = bitOf (s.rd p i) j := by
  rw [State.wrBit, State.rd_wr_same ho, bitOf_setBit_ne hj]

theorem State.rp_wrP_zero {s : State} (ho : s.ordered) (p i : Nat) : (s.wrP p i 0).rp p i = 0 := by
  rw [State.rp, State.wrP, State.rd_wr_same ho]
  rfl

end Sys2Proof.Machine

end

/-! The requests of the Elkob link. -/

section

-- One declaration after the other: elaborated at once they need more threads than the check has memory for.
set_option Elab.async false

namespace Sys2Proof.Machine

/-- Outside ElkState 2 no start frames are due. -/
theorem State.sendStarts_of_ne {s : State} (h : s.rd P.ElkState 0 ≠ 2) : s.sendStarts = s :=
  if_pos h

/-- The footprint of a link that gives up its announcement and its service exchanges: no parameter. -/
def Foot.linkDrop : Foot where
  parts := [.link, .staged]
  pars := []

theorem State.linkDrop_dropAnn (s : State) : Foot.linkDrop.Covers s s.dropAnn := by
  unfold State.dropAnn
  split
  · exact .refl _
  · exact .ite (.setLink ..) (.after (.complete ..) <| .after (.setStaged ..) <| .setLink ..)

theorem State.linkDrop_dropSvc (s : State) : Foot.linkDrop.Covers s s.dropSvc :=
  .after (.foldl _ fun _ _ => .complete ..) <| .setLink ..

theorem State.linkDrop_endStart (s : State) (st d v : Nat) : Foot.linkDrop.Covers s (s.endStart st d v) := by
  unfold State.endStart
  split
  · exact .refl _
  · exact .after (.complete ..) <| .setLink ..

theorem State.linkDrop_sendStarts (s : State) : Foot.linkDrop.Covers s s.sendStarts :=
  .ite (.refl _) (.after (.setLink ..) <| .sends s s.host _)

/-- A link that goes off is in the state named, without an active mode or a closed ring. -/
theorem State.rd_linkOff {s : State} (ho : s.ordered) (st : Nat) :
    (s.linkOff st).rd P.ElkState 0 = st ∧ (s.linkOff st).rd P.ElkActiveMode 0 = 0xFF ∧ (s.linkOff st).rd P.ElkRingState 0 = 0 := by
  have h : Foot.linkDrop.Covers (((s.setElk st).wr P.ElkActiveMode 0 0xFF).wr P.ElkRingState 0 0) (s.linkOff st) :=
    .after (.foldl _ fun _ _ => .complete ..) <| .after (.setLink ..) <| .after (State.linkDrop_dropSvc _) (State.linkDrop_dropAnn _)
  have ho1 : (s.wr P.ElkState 0 st).ordered := State.ordered_wr ho ..
  have ho2 : ((s.setElk st).wr P.ElkActiveMode 0 0xFF).ordered := State.ordered_wr ho1 ..
  have ho3 := State.ordered_wr ho2 P.ElkRingState 0 0
  refine ⟨(h.rd ho3 rfl rfl 0).trans ?_, (h.rd ho3 rfl rfl 0).trans ?_, (h.rd ho3 rfl rfl 0).trans ?_⟩
  · exact (State.rd_wr_ne ho2 (by decide) ..).trans ((State.rd_wr_ne ho1 (by decide) ..).trans (State.rd_wr_same ho ..))
  · exact (State.rd_wr_ne ho2 (by decide) ..).trans (State.rd_wr_same ho1 ..)
  · rw [State.rd_wr_same ho2]

theorem State.link_dropAnn (s : State) : s.dropAnn.link = { s.link with ann := none } := by
  unfold State.dropAnn
  split
  next h => rw [← h]
  next =>
    dsimp only
    split <;> simp

/-- A link that goes off keeps the LinkStart that runs and what Discover found. -/
theorem State.link_linkOff (s : State) (st : Nat) :
    (s.linkOff st).link.startReq = s.link.startReq ∧ (s.linkOff st).link.discovered = s.link.discovered := by
  unfold State.linkOff State.dropSvc
  dsimp only
  rw [foldl_keeps State.link (fun _ _ => by simp)]
  simp only [State.setLink_link]
  rw [foldl_keeps State.link (fun _ _ => by simp)]
  simp [State.link_dropAnn, State.setElk]

theorem State.link_endStart (s : State) (st d v : Nat) : (s.endStart st d v).link = { s.link with startReq := none } := by
  unfold State.endStart
  split
  next h => rw [← h]
  next => simp

/-- Settles O28. -/
theorem linkRequestsComplete : Obligations.LinkRequestsComplete := by
  refine ⟨?linkStart, ?linkStart2, ?linkStop, ?linkStop2, ?linkStop3, ?modeLoad, ?modeLoad2, ?modeCheck, ?modeSwitch, ?nodeRetire,
   ?nodeJoin⟩
  case linkStart =>
    intro t q s hs hst
    change execLinkStart t q s = _
    refine runReq_of_ok hs ?_
    obtain h | h | h := hst <;> simp [guarded, h]
  case linkStart2 =>
    intro t q s hs h1 h2
    change execLinkStart t q s = _
    refine runReq_of_ok hs ?_
    simp [guarded, h1, h2]
  case linkStop =>
    intro t q s hs h1
    change execLinkStop t q s = _
    refine runReq_of_ok hs ?_
    simp [h1]
  case linkStop2 =>
    intro t q s hs ho h2 h3
    have h0 : ¬ (s.rd P.ElkState 0 = 0 ∨ s.rd P.ElkState 0 = 8 ∨ s.rd P.ElkState 0 = 9) := by omega
    have h4 : ¬ 4 ≤ s.rd P.ElkState 0 := by omega
    have hf : Foot.linkDrop.Covers (s.advance t) (s.advance t).sendStarts := State.linkDrop_sendStarts _
    have hc := hf.trans (State.linkDrop_endStart (s.advance t).sendStarts 0x0205 (s.rd P.ElkState 0) 0)
    have hcyc := hc.cycle rfl
    have hu := hc.ordered (State.ordered_advance ho t)
    have hn := congrArg LinkState.startReq (State.link_endStart (s.advance t).sendStarts 0x0205 (s.rd P.ElkState 0) 0)
    generalize hg : (s.advance t).sendStarts.endStart 0x0205 (s.rd P.ElkState 0) 0 = u at *
    obtain ⟨hst, hmode, hring⟩ := State.rd_linkOff hu 0
    have ho' : (u.linkOff 0).ordered := (Foot.Covers.linkOff (F := .linkSide) u 0).ordered hu
    refine ⟨(u.linkOff 0).complete q 0 u.time.cycle 0 0 0 0, ?_, ?_⟩
    · change execLinkStop t q s = _
      refine runReq_of_ok hs ?_
      simp [h0, h4, hg, hcyc]
    · simp [State.rd_complete ho' _ _ _ _ _ _ _ (p := P.ElkState) rfl, State.rd_complete ho' _ _ _ _ _ _ _ (p := P.ElkActiveMode) rfl,
        State.rd_complete ho' _ _ _ _ _ _ _ (p := P.ElkRingState) rfl, (State.link_linkOff u 0).1, hst, hmode, hring, hn]
  case linkStop3 =>
    intro t q s hs h1 h2
    change execLinkStop t q s = _
    refine runReq_of_ok hs ?_
    have h0 : ¬ (s.rd P.ElkState 0 = 0 ∨ s.rd P.ElkState 0 = 8 ∨ s.rd P.ElkState 0 = 9) := by omega
    have hn : (s.advance t).sendStarts = s.advance t := State.sendStarts_of_ne (by simp; omega)
    simp [h0, h1, hn]
  case modeLoad =>
    intro t q s hs h1 h2 h3 h4 h5
    change execModeLoad t q s = _
    refine runReq_of_ok hs ?_
    simp at h2
    have hn : ¬ (s.rd P.ElkState 0 = 7 ∧ (modeSvc s.activeMode).isSome = true) := by
      rintro ⟨h7, hm⟩
      simp [h5.resolve_left (not_not_intro h7)] at hm
    cases ha : s.link.ann <;> rw [ha] at h4 <;> simp at h4 <;> simp [guarded, schedRsn, elkRun, h1, h2, h3, h4, ha, hn]
  case modeLoad2 =>
    intro t q s k hs h1 h2 h3 h4 h5 h6 h7
    change execModeLoad t q s = _
    refine runReq_of_ok hs ?_
    simp at h2
    cases ha : s.link.ann <;> simp_all [guarded, schedRsn, elkRun]
  case modeCheck =>
    intro t q s hs h1 h2
    change execModeCheck t q s = _
    refine runReq_of_ok hs ?_
    simp at h2
    simp [guarded, h1, h2, schedRsn]
  case modeSwitch =>
    intro t q s hs h1 h2 h3 h4
    change execModeSwitch t q s = _
    refine runReq_of_ok hs ?_
    simp at h1
    simp [guarded, State.switchBad, h1, h2, h3, h4, elkRun, State.takeId]
  case nodeRetire =>
    intro t q s hs h1 h2 h3 h4
    change execNodeRetire t q s = _
    refine runReq_of_ok hs ?_
    have hax : ¬ ∃ x ∈ s.nodeAxes q.inst, ¬ s.rd P.AxisState x = 0 := by simpa using h3
    rw [State.activeMode_advance, State.measuredChans_advance] at h2
    simp [guarded, schedRsn, h1, h2, hax, h4, elkRun, State.accept, State.withCommit]
  case nodeJoin =>
    intro t q s hs h1 h2
    change execNodeJoin t q s = _
    refine runReq_of_ok hs ?_
    have hb : ¬ ∃ x < q.inst, s.retired x = true ∧ (x : Int) - 1 - s.retiredBelow x = (q.inst : Int) - 1 - s.retiredBelow q.inst := by
      simp at h1
      rintro ⟨x, hx, hr, he⟩
      exact (h1 x hx).elim (by simp [hr]) (· he)
    simp [guarded, hb, h2, elkRun]

end Sys2Proof.Machine

end

/-! The cold start of the Elkob link. -/

section

-- One declaration after the other: elaborated at once they need more threads than the check has memory for.
set_option Elab.async false

namespace Sys2Proof.Machine

/-- A cold start that fails leaves the link off, in ElkState 9, with no LinkStart running. -/
theorem State.rd_coldFail {s : State} (ho : s.ordered) (phase val : Nat) :
    (s.coldFail phase val).rd P.ElkState 0 = 9 ∧ (s.coldFail phase val).rd P.ElkActiveMode 0 = 0xFF ∧
      (s.coldFail phase val).rd P.ElkRingState 0 = 0 := by
  have h := State.linkDrop_endStart (s.linkOff 9) 0x0503 phase val
  have ho' : (s.linkOff 9).ordered := (Foot.Covers.linkOff (F := .linkSide) s 9).ordered ho
  obtain ⟨hst, hmode, hring⟩ := State.rd_linkOff ho 9
  exact ⟨(h.rd ho' rfl rfl 0).trans hst, (h.rd ho' rfl rfl 0).trans hmode, (h.rd ho' rfl rfl 0).trans hring⟩

theorem State.link_coldFail (s : State) (phase val : Nat) :
    (s.coldFail phase val).link.startReq = none ∧ (s.coldFail phase val).link.discovered = s.link.discovered := by
  simp [State.coldFail, State.link_endStart, State.link_linkOff]

/-- What Discover reports before it holds the link or begins the Download phase. -/
def Foot.discover : Foot where
  parts := [.link]
  pars := [P.ElkCellCount, P.ElkHopDelay, P.ElkRingDelay]

/-- The end of Discover reports what has been found; then the link is held, or the Download phase begins. -/
theorem State.endDiscover_cases (s : State) (i : ColdInfo) :
    ∃ u, Foot.discover.Covers s u ∧ u.link.discovered = true ∧
      s.endDiscover i =
        if u.rb P.ElkHoldAfterDiscover 0 then (u.setLink { u.link with held := true }).endStart 0 4 0 else u.enterDownload := by
  refine ⟨_, ?_, ?_, rfl⟩
  · refine .after (.wrF ..) <| .after (.foldl _ fun _ _ => .wrF ..) <| .after (.wrF ..) <| .after (.foldl _ fun _ _ => .wrF ..) <|
      .after (.wr ..) <|
      .after (.setLink ..) <| .after (.foldl _ fun _ _ => .raise ..) <| .raiseIf ..
  · simp only [State.wrF, State.wr_frame]
    rw [foldl_keeps State.link (fun _ _ => by simp)]
    simp only [State.wr_frame]
    rw [foldl_keeps State.link (fun _ _ => by simp)]
    simp

/-- The Download phase begins in ElkState 5, or the start mode fails its checks: ElkState 9. What Discover found stays. -/
theorem State.enterDownload_cases {s : State} (ho : s.ordered) :
    s.enterDownload.link.discovered = s.link.discovered ∧ (s.enterDownload.rd P.ElkState 0 = 5 ∨ s.enterDownload.rd P.ElkState 0 = 9) := by
  unfold State.enterDownload
  extract_lets _ u sm
  have hu : u.ordered := State.ordered_wr ho ..
  have hst : u.rd P.ElkState 0 = 5 := State.rd_wr_same ho ..
  have hd : u.link.discovered = s.link.discovered := rfl
  split
  · exact ⟨(State.link_coldFail u 5 0).2.trans hd, .inr (State.rd_coldFail hu 5 0).1⟩
  · refine ⟨(foldl_keeps (fun s : State => s.link.discovered) (fun s m => ?_) _ _).trans hd,
      .inl ((Foot.Covers.rd (F := .linkDrop) (.foldl _ fun s m => .ite (.refl _) ?_) hu rfl rfl 0).trans hst)⟩
    · dsimp only
      split
      · rfl
      · split
        · rfl
        · rw [foldl_keeps State.link (fun _ _ => by simp)]
          simp
    · split
      · exact .refl _
      · exact .after (.foldl _ fun _ _ => .complete ..) <| .after (.raise ..) <| .setLink ..

theorem endDiscover_of_found {t : Nat} {i : ColdInfo} {s : State} (h0 : s.link.stopLeft = 0) (h1 : s.rd P.ElkState 0 = 4)
    (h2 : s.link.held = false) (h3 : (s.advance t).cellsFound i.mismatch = true) :
    exec (.coldStartPhaseEnd t i) s = .next ((s.advance t).endDiscover i) := by
  change execColdStartPhaseEnd t i s = _
  rw [State.cellsFound_advance] at h3
  simp [execColdStartPhaseEnd, onEvent, h0, h1, h2, h3]

/-- Settles O29. -/
theorem coldStartPhasesAct : Obligations.ColdStartPhasesAct := by
  refine ⟨?coldStartPhaseEnd, ?coldStartPhaseEnd2, ?coldStartPhaseEnd3, ?coldStartPhaseEnd4, ?coldStartPhaseEnd5,
    ?coldStartPhaseEnd6, ?coldStartPhaseEnd7, ?coldStartPhaseTimeout, ?foreignHeadFrame, ?foreignHeadFrame2⟩
  case coldStartPhaseEnd =>
    intro t i s h0 h1 h2
    change execColdStartPhaseEnd t i s = _
    simp [execColdStartPhaseEnd, onEvent, h0, h1, h2]
  case coldStartPhaseEnd2 =>
    intro t i s a b h0 h1 h2 h3 h4
    change execColdStartPhaseEnd t i s = _
    have hc := (State.linkDrop_sendStarts (s.advance t)).cycle rfl
    subst h2 h3
    simp only [execColdStartPhaseEnd, onEvent, State.advance_frame, State.advance_rd, h0, h1]
    rw [if_neg (by simp), if_pos (by simpa using h4)]
    simp [hc]
  case coldStartPhaseEnd3 =>
    intro t i s n h0 h1 h2 h3 h4
    change execColdStartPhaseEnd t i s = _
    simp at h2 h3
    simp [execColdStartPhaseEnd, onEvent, h0, h1, h2, h3, h4]
  case coldStartPhaseEnd4 =>
    intro t i s h0 h1 h2 h3 h4 ho
    obtain ⟨u, hc, hd, he⟩ := (s.advance t).endDiscover_cases i
    have ho' := State.ordered_advance ho t
    have hu : u.rb P.ElkHoldAfterDiscover 0 = s.rb P.ElkHoldAfterDiscover 0 := (hc.rb ho' rfl rfl 0).trans (State.rb_advance ..)
    have hst : u.rd P.ElkState 0 = 4 := ((hc.rd ho' rfl rfl 0).trans (State.advance_rd ..)).trans h1
    rw [hu, if_pos h4] at he
    refine ⟨_, endDiscover_of_found h0 h1 h2 h3, ?_, ?_, ?_⟩
    · simp [he, State.link_endStart]
    · simp [he, State.link_endStart, hd]
    · rw [he]
      exact ((State.linkDrop_endStart (u.setLink { u.link with held := true }) 0 4 0).rd (hc.ordered ho') rfl rfl 0).trans hst
  case coldStartPhaseEnd5 =>
    intro t i s h0 h1 h2 h3 h4 ho
    obtain ⟨u, hc, hd, he⟩ := (s.advance t).endDiscover_cases i
    have ho' := State.ordered_advance ho t
    have hu : u.rb P.ElkHoldAfterDiscover 0 = s.rb P.ElkHoldAfterDiscover 0 := (hc.rb ho' rfl rfl 0).trans (State.rb_advance ..)
    rw [hu, if_neg (Bool.eq_false_iff.1 h4)] at he
    obtain ⟨hk, hst⟩ := State.enterDownload_cases (hc.ordered ho')
    refine ⟨_, endDiscover_of_found h0 h1 h2 h3, ?_, ?_⟩
    · rw [he, hk, hd]
    · rwa [he]
  case coldStartPhaseEnd6 =>
    intro t i s h0 h1 h2 h3
    change execColdStartPhaseEnd t i s = _
    simp [execColdStartPhaseEnd, onEvent, h0, h1, h2, h3]
  case coldStartPhaseEnd7 =>
    intro t i s h0 h1 h2
    change execColdStartPhaseEnd t i s = _
    simp [execColdStartPhaseEnd, onEvent, h0, h1, h2]
  case coldStartPhaseTimeout =>
    intro t s h0 ho h2 h3 h4 h5
    have hu := (State.linkDrop_sendStarts (s.advance t)).ordered (State.ordered_advance ho t)
    let v := if s.rd P.ElkState 0 = 1 then s.link.foreignId % 2 ^ 32 else 0
    obtain ⟨hst, hmode, hring⟩ := State.rd_coldFail hu (s.rd P.ElkState 0) v
    refine ⟨_, ?_, hst, hmode, hring, (State.link_coldFail ..).1⟩
    change execColdStartPhaseTimeout t s = _
    simp only [State.phaseLimit_advance] at h5
    simp [execColdStartPhaseTimeout, onEvent, h0, h2, h3, h4, h5, v]
  case foreignHeadFrame =>
    intro t b s id ho h1 h2 h3 h4
    have hu := ((State.linkDrop_sendStarts (s.advance t)).trans (State.linkDrop_endStart _ 0x0503 (s.rd P.ElkState 0) 0)).ordered
      (State.ordered_advance ho t)
    obtain ⟨hst, -, hring⟩ := State.rd_linkOff hu 8
    have hl := (Foot.Covers.linkOff (F := .linkSide) _ 8).ordered hu
    refine ⟨_, ?_, (State.rd_raise hl E.foreignHead 0 [] rfl 0).trans hst, (State.rd_raise hl E.foreignHead 0 [] rfl 0).trans hring⟩
    change execForeignHeadFrame t b s = _
    have h1' : s.rd P.ElkState 0 ≠ 1 := by omega
    simp [execForeignHeadFrame, onEvent, h1, h2, h1', h3, h4]
  case foreignHeadFrame2 =>
    intro t b s id h0 h1 h2
    change execForeignHeadFrame t b s = _
    simp [execForeignHeadFrame, onEvent, h0, h1, h2]

end Sys2Proof.Machine

end

/-! The service exchanges of the Elkob link. -/

section

-- One declaration after the other: elaborated at once they need more threads than the check has memory for.
set_option Elab.async false

namespace Sys2Proof.Machine

/-- What a valid reply to a waiting request does: by its STAT (R75). -/
def State.svcReply (s : State) (x : SvcSent) (b : List Byte) : State :=
  let u := s.setLink { s.link with svcOut := s.link.svcOut.erase x }
  if fld b 3 1 = 3 then u.setLink { u.link with svc := x.op :: u.link.svc }
  else if fld b 3 1 ≠ 0 then u.svcFail x.op
  else u.svcDone x.op (slice b 7 (fld b 6 1))

theorem exec_serviceReplyReceived_of_found {t : Nat} {ch : Channel} {tau : Int} {b : List Byte} {s : State} {x : SvcSent}
    (hv : replyValid b = true) (hx : s.link.svcOut.find? ((s.advance t).answersIn ch ⟨tau, b⟩) = some x) :
    exec (.serviceReplyReceived t ch ⟨tau, b⟩) s = .next ((s.advance t).svcReply x b) := by
  change execServiceReplyReceived t ch ⟨tau, b⟩ s = _
  rw [← (s.advance_frame t).2.2.2.2.1] at hx
  rw [execServiceReplyReceived, onEvent]
  simp only [hv, Bool.not_true, Bool.false_eq_true, if_false, hx]
  rfl

/-- Settles O30. -/
theorem serviceExchangesAct : Obligations.ServiceExchangesAct := by
  refine ⟨?load, ?join, ?counters, ?identify, ?busy, ?loadFails, ?poll, ?polls⟩
  case load =>
    intro t ch tau b s x q m k hv hx hst hop hlast
    rw [exec_serviceReplyReceived_of_found hv hx]
    rw [State.mode] at hlast
    simp [State.svcReply, State.svcDone, State.mode, hst, hop, hlast]
  case join =>
    intro t ch tau b s x q k hv hx hst hop
    rw [exec_serviceReplyReceived_of_found hv hx]
    simp [State.svcReply, State.svcDone, hst, hop]
  case counters =>
    intro t ch tau b s x k hv hx hst hop
    rw [exec_serviceReplyReceived_of_found hv hx]
    simp [State.svcReply, State.svcDone, hst, hop]
  case identify =>
    intro t ch tau b s x k hv hx hst hop
    rw [exec_serviceReplyReceived_of_found hv hx]
    simp [State.svcReply, State.svcDone, hst, hop]
  case busy =>
    intro t ch tau b s x hv hx hst
    rw [exec_serviceReplyReceived_of_found hv hx]
    simp [State.svcReply, hst]
  case loadFails =>
    intro t ch tau b s x q m k hv hx hst hst' hop
    rw [exec_serviceReplyReceived_of_found hv hx]
    simp [State.svcReply, State.svcFail, hst, hst', hop]
  case poll =>
    intro t k s hk hk' hrun ha hr hp
    change execCellCounterPoll t k 1 s = _
    have hlt : k < 64 := by omega
    simp [execCellCounterPoll, onUnit, List.range_succ, State.counterPoll, hk, hlt, hrun, ha, hr, hp, elkRun, State.setNode]
  case polls =>
    intro t k n s hk hk'
    change execCellCounterPoll t k (n + 1) s = _
    have hlt : k + (n + 1) ≤ 64 := by omega
    simp [execCellCounterPoll, onUnit, hk, hlt, List.range_succ]

end Sys2Proof.Machine

end

/-! The ring events of the Elkob link. -/

section

-- One declaration after the other: elaborated at once they need more threads than the check has memory for.
set_option Elab.async false

namespace Sys2Proof.Machine

/-- One node has been discovered over channel B alone; channel A has closed since and settles until cycle 0. -/
def State.withLateChannel : State :=
  { State.resetWith [(pkey P.ElkRingState 0, 4)] with link := { LinkState.reset with discovered := true, ringCount := 1, measured := 2 } }

/-- Refutes O31: at the end of settling a channel that was not measured when the nodes were discovered takes its delays and counts as measured,
so more than the settling bit changes. -/
theorem not_ringEventsAct : ¬ Obligations.RingEventsAct := by
  rintro ⟨-, -, hsettled, -⟩
  have h := hsettled 0 .a State.withLateChannel (by decide) (by decide)
  exact absurd (congrArg (fun r => (Res.after State.reset r).link.measured) h) (by decide +kernel)

end Sys2Proof.Machine

end

/-! Feedback time-outs, missing marks, latch records and the latch requests. -/

section

-- One declaration after the other: elaborated at once they need more threads than the check has memory for.
set_option Elab.async false

namespace Sys2Proof.Machine

theorem State.latch_setLatch_same {s : State} (h : tabSorted none s.lat = true) (u : Nat) (r : LatRec) : (s.setLatch u r).latch u = r :=
  tabGet_tabSet_same _ _ _ _ h

/-- What a verdict and a hold change: the axis and the state that its loops report. -/
def Foot.verdictSide : Foot where
  parts := [.ax]
  pars := [P.AxisHoldReason, P.AxisState, P.LoopStatus, P.MonVerdict]

theorem State.verdictSide_hold (s : State) (a k : Nat) : Foot.verdictSide.Covers s (s.hold a k) :=
  .after (.ite (.after (.setAxis ..) <| .after (.wrBit ..) <| .wr ..) (.refl _)) <| .wrBit ..

theorem State.verdictSide_verdict (s : State) (a code : Nat) : Foot.verdictSide.Covers s (s.verdict a code) := by
  unfold State.verdict
  split
  · exact .ite (.after (.setAxis ..) <| .wr ..) (.refl _)
  · exact .after (verdictSide_hold ..) <| .ite (.refl _) (.wr ..)
  · exact .after (.foldl _ fun _ _ => .after (.setAxis ..) <| verdictSide_hold ..) <| .after (verdictSide_hold ..) <| .wr ..
  · exact .after (.setAxis ..) <| .ite (.wr ..) (.refl _)
  · exact .refl _

/-- What a freeze does after its bits and speed are written. -/
def Foot.freezeEnd : Foot where
  parts := [.ax, .fb]
  pars := [P.AxisHoldReason, P.AxisState, P.LoopStatus, P.MonVerdict]

/-- The bits and the speed that a freeze leaves (R96). -/
theorem State.rd_freezeNow {s : State} (ho : s.ordered) (a : Nat) :
    bitOf ((s.freezeNow a).rd P.FbState a) fbFREEZE = true ∧ bitOf ((s.freezeNow a).rd P.FbState a) fbVALID = false ∧
      bitOf ((s.freezeNow a).rd P.FbState a) fbSPEEDVALID = false ∧ bitOf ((s.freezeNow a).rd P.FbLatched a) fbFREEZE = true ∧
      (s.freezeNow a).rp P.FbSpeed a = 0 := by
  let st := setBit (setBit (setBit (s.rd P.FbState a) fbVALID false) fbSPEEDVALID false) fbFREEZE true
  let u := ((s.wr P.FbState a st).wrBit P.FbLatched a fbFREEZE true).wrP P.FbSpeed a 0
  have o1 : (s.wr P.FbState a st).ordered := State.ordered_wr ho ..
  have o2 : ((s.wr P.FbState a st).wrBit P.FbLatched a fbFREEZE true).ordered := State.ordered_wr o1 ..
  have o3 : u.ordered := State.ordered_wr o2 ..
  have hc : Foot.freezeEnd.Covers u (s.freezeNow a) :=
    .after (.mono rfl (State.verdictSide_verdict ..)) <| .after (.raise ..) <| .setFb ..
  have hst : (s.freezeNow a).rd P.FbState a = st :=
    (hc.rd o3 rfl rfl a).trans <| (State.rd_wr_ne o2 (by decide) ..).trans <| (State.rd_wr_ne o1 (by decide) ..).trans (State.rd_wr_same ho ..)
  have hlat : (s.freezeNow a).rd P.FbLatched a = ((s.wr P.FbState a st).wrBit P.FbLatched a fbFREEZE true).rd P.FbLatched a :=
    (hc.rd o3 rfl rfl a).trans (State.rd_wr_ne o2 (by decide) ..)
  refine ⟨?_, ?_, ?_, ?_, ?_⟩
  · rw [hst, bitOf_setBit_same]
  · rw [hst, bitOf_setBit_ne (by decide), bitOf_setBit_ne (by decide), bitOf_setBit_same]
  · rw [hst, bitOf_setBit_ne (by decide), bitOf_setBit_same]
  · rw [hlat, State.bitOf_rd_wrBit_same o1]
  · rw [State.rp, hc.rd o3 rfl rfl a]
    exact State.rp_wrP_zero o2 ..

/-- A unit that no coupling names forms the record of its oldest trigger. -/
theorem exec_latchRecordForm_of_free {t u : Nat} {s : State} (hu : u < 64)
    (hfree : (List.range 128).all (fun x => s.rd P.CplRegLatch x != u) = true) :
    exec (.latchRecordForm t u) s = .next ((s.advance t).latForm u).2 := by
  change execLatchRecordForm t u s = _
  have h : ((List.range 128).filter fun a => s.rd P.CplRegLatch a == u) = [] := by simpa using hfree
  simp [execLatchRecordForm, onUnit, hu, h]

theorem LatRec.caught_of_trigs (r : LatRec) (l : List LatTrig) (stamp : Nat) :
    ({ r with trigs := l } : LatRec).caught stamp = r.caught stamp := rfl

/-- What a trigger that was caught in time, with a value and in the window, makes (R111 to R113). -/
theorem State.latForm_of_caught {s : State} {u : Nat} {x : LatTrig} {p : Int} {fl cyc : Nat}
    (hx : (s.latch u).trigs.find? (fun x => (s.latValue u x).isSome || s.latOld u x.stamp) = some x)
    (hc : (s.latch u).caught x.stamp = true) (hold : s.latOld u x.stamp = false) (hv : s.latValue u x = some (p, fl, cyc))
    (hw : (bitOf fl 7 || s.latWindow u x.stamp p) = true) (ho : s.ordered) {r : LatRec}
    (hr : r = if s.rd P.LatMode u = 0 then ({ s.latch u with trigs := (s.latch u).trigs.erase x } : LatRec).single x.stamp
      else { s.latch u with trigs := (s.latch u).trigs.erase x }) :
    (s.latForm u).2 = if r.fifo.length < 8 then
        (s.inc P.LatCaptures u).setLatch u
          { r with fifo := r.fifo ++ [latRecord u x.stamp fl ((s.rd P.LatCaptures u + 1) % 2 ^ 32) p cyc] }
      else ((((s.inc P.LatCaptures u).setLatch u r).inc P.LatLost u).wrBit P.LatState u 2 true).raise E.latchOverflow u [] := by
  have hm : (s.inc P.LatCaptures u).rd P.LatMode u = s.rd P.LatMode u := State.rd_wr_ne ho (by decide) ..
  have hn : (s.inc P.LatCaptures u).rd P.LatCaptures u = (s.rd P.LatCaptures u + 1) % 2 ^ 32 := State.rd_wr_same ho ..
  have hw' : (!bitOf fl 7 && !s.latWindow u x.stamp p) = false := by
    rw [← Bool.not_or, hw]
    rfl
  unfold State.latForm
  simp only [hx, LatRec.caught_of_trigs, hc, hold, hv, hw', hm, hn, ← hr]
  simp only [Bool.not_true, Bool.false_eq_true, if_false]
  split <;> rfl

theorem LatRec.fifo_single (r : LatRec) (stamp : Nat) : (r.single stamp).fifo = r.fifo := by
  unfold LatRec.single
  dsimp only
  split
  · split <;> rfl
  · rfl

theorem State.regRecord_lat (s : State) (a stamp : Nat) : (s.regRecord a stamp).lat = s.lat := by
  unfold State.regRecord
  dsimp only
  repeat' split
  all_goals rfl

theorem State.sorted_setLatch {s : State} (h : tabSorted none s.lat = true) (u : Nat) (r : LatRec) :
    tabSorted none (s.setLatch u r).lat = true :=
  tabSorted_tabSet _ _ _ _ none (by simp) h

theorem State.sorted_latForm {s : State} (h : tabSorted none s.lat = true) (u : Nat) : tabSorted none (s.latForm u).2.lat = true := by
  unfold State.latForm
  extract_lets r
  split
  · exact h
  · extract_lets r'
    split
    · exact sorted_setLatch h ..
    · split
      · exact sorted_setLatch h ..
      · split
        · exact sorted_setLatch h ..
        · split
          · exact sorted_setLatch h ..
          · extract_lets
            split
            · exact sorted_setLatch (s := s.inc P.LatCaptures u) h ..
            · rw [(Foot.Covers.raise (F := .nothing) ..).parts .lat rfl]
              exact sorted_setLatch (s := s.inc P.LatCaptures u) h ..

theorem exec_latchRecordForm_of_coupled {t u : Nat} {s : State} (hu : u < 64)
    (hn : ¬ ((List.range 128).filter fun a => s.rd P.CplRegLatch a == u) = []) :
    exec (.latchRecordForm t u) s = .next
      (let v := ((s.advance t).setLatch u { s.latch u with fifo := [] }).latForm u
       let w := v.2.setLatch u { v.2.latch u with fifo := [] }
       match v.1 with
       | none => w
       | some (stamp, _, _) => ((List.range 128).filter fun a => s.rd P.CplRegLatch a == u).foldl (fun s a => s.regRecord a stamp) w) := by
  change execLatchRecordForm t u s = _
  rw [execLatchRecordForm, onUnit, if_pos (by simpa using hu)]
  simp [hn] <;> rfl

/-- Settles O33. -/
theorem feedbackAndLatchCommandsAct : Obligations.FeedbackAndLatchCommandsAct := by
  refine ⟨?followingErrorTimeout, ?feedbackFreeze, ?standstillTimeout, ?registrationMarkMissing, ?continuous, ?single, ?full,
    ?outside, ?old, ?coupled, ?latchRead, ?latchFlush⟩
  case followingErrorTimeout =>
    intro t x s h0 h1 h2
    change execFollowingErrorTimeout t x s = _
    simp [execFollowingErrorTimeout, onUnit, h0, h1, h2]
  case feedbackFreeze =>
    intro t x s ho h1 h2 h3
    have he : ∃ l, exec (.feedbackFreeze t x) s = .next { (s.advance t).freezeNow x with hist := l } := by
      exact ⟨_, by
        change execFeedbackFreeze t x s = _
        simp only [State.frozen_advance] at h2
        simp [execFeedbackFreeze, onUnit, h1, h2, h3]
        rfl⟩
    obtain ⟨l, he⟩ := he
    exact ⟨_, he, State.rd_freezeNow (State.ordered_advance ho t) x⟩
  case standstillTimeout =>
    intro t i e s ho h1 h2 h3 h4 h5
    have ho' := State.ordered_advance ho t
    let st := setBit (setBit (s.rd P.FbState i) fbSTANDSTILL true) fbSPEEDVALID false
    let u := ((s.advance t).wr P.FbState i st).wrP P.FbSpeed i 0
    have o1 : ((s.advance t).wr P.FbState i st).ordered := State.ordered_wr ho' ..
    have hst : u.rd P.FbState i = st := (State.rd_wr_ne o1 (by decide) ..).trans (State.rd_wr_same ho' ..)
    refine ⟨u.setFb i { s.fbk i with v := 0, nSame := 0 }, ?_, ?_, ?_, ?_, ?_⟩
    · change execStandstillTimeout t i s = _
      simp [execStandstillTimeout, onUnit, h1, h2, h3, h4, h5, u, st]
    · rw [State.rd_setFb, hst, bitOf_setBit_ne (by decide), bitOf_setBit_same]
    · rw [State.rd_setFb, hst, bitOf_setBit_same]
    · exact State.rp_wrP_zero o1 ..
    · simp [State.setFb, u, State.wrP]
  case registrationMarkMissing =>
    intro t x s h0 h1 h2 h3
    change execRegistrationMarkMissing t x s = _
    simp [execRegistrationMarkMissing, onUnit, h0, h1, h2, h3]
  case continuous =>
    intro t u x p fl cyc s h0 ho h2 h3 h4 h5 h6 h7 h8 h9
    rw [exec_latchRecordForm_of_free h0 h2]
    rw [State.latForm_of_caught (by simpa using h3) (by simpa using h4) h5 h6 h7 (State.ordered_advance ho t) rfl]
    simp [h8, h9]
  case single =>
    intro t u x p fl cyc s h0 ho h2 h3 h4 h5 h6 h7 h8 h9
    rw [exec_latchRecordForm_of_free h0 h2]
    rw [State.latForm_of_caught (by simpa using h3) (by simpa using h4) h5 h6 h7 (State.ordered_advance ho t) rfl]
    simp [h8, h9, LatRec.fifo_single]
  case full =>
    intro t u x p fl cyc s h0 ho h2 h3 h4 h5 h6 h7 h8 h9
    rw [exec_latchRecordForm_of_free h0 h2]
    rw [State.latForm_of_caught (by simpa using h3) (by simpa using h4) h5 h6 h7 (State.ordered_advance ho t) rfl]
    simp [h8, h9.not_gt]
  case outside =>
    intro t u x p fl cyc s h0 h1 h2 h3 h4 h5 h6 h7
    rw [exec_latchRecordForm_of_free h0 h1]
    simp [State.latForm] at h2 h4 h5 h7 ⊢
    simp [h2, LatRec.caught_of_trigs, h3, h4, h5, h6, h7]
  case old =>
    intro t u x s h0 h1 h2 h3 h4
    rw [exec_latchRecordForm_of_free h0 h1]
    simp [State.latForm] at h2 h4 ⊢
    simp [h2, LatRec.caught_of_trigs, h3, h4]
  case coupled =>
    intro t u s h0 h1 h2
    have hn : ¬ ((List.range 128).filter fun a => s.rd P.CplRegLatch a == u) = [] := by simpa using h1
    have hreg (l : List Nat) (stamp : Nat) (v : State) : (l.foldl (fun s a => s.regRecord a stamp) v).lat = v.lat :=
      foldl_keeps State.lat (fun v a => (State.regRecord_lat v a stamp)) l v
    have hlat := State.sorted_latForm (State.sorted_setLatch (s := s.advance t) (by simpa using h2) u { s.latch u with fifo := [] }) u
    refine ⟨_, exec_latchRecordForm_of_coupled h0 hn, ?_⟩
    have hw := congrArg LatRec.fifo (State.latch_setLatch_same hlat u
      { (((s.advance t).setLatch u { s.latch u with fifo := [] }).latForm u).2.latch u with fifo := [] })
    dsimp only
    split
    · exact hw
    · rwa [State.latch, hreg]
  case latchRead =>
    intro t q s hs h1 h2 h3
    change execLatchRead t q s = _
    refine runReq_of_ok hs ?_
    have hn : ¬ (fld q.body 0 1 < 1 ∨ 8 < fld q.body 0 1) := by omega
    have hf : ((List.range 128).any fun a => s.rd P.CplRegLatch a == q.inst) = false := by simpa using h3
    refine (guarded_of_none (by simpa using hn)).trans ?_
    have hd (l : List (List Byte)) (n : Nat) : l.drop (min n l.length) = l.drop n := by
      obtain h | h := le_total n l.length <;> simp [h]
    simp [hf, hd]
  case latchFlush =>
    intro t q s hs
    change execLatchFlush t q s = _
    refine runReq_of_ok hs ?_
    simp

end Sys2Proof.Machine

end

/-! The ferry links: down and up frames, stale data, the watchdog and due entries of the field side. -/

section

-- One declaration after the other: elaborated at once they need more threads than the check has memory for.
set_option Elab.async false

namespace Sys2Proof.Machine

theorem State.group_setGroup_same {s : State} (h : tabSorted none s.ferry = true) (g : Nat) (r : FerryRec) : (s.setGroup g r).group g = r :=
  tabGet_tabSet_same _ _ _ _ h

theorem State.sorted_setGroup {s : State} (h : tabSorted none s.ferry = true) (g : Nat) (r : FerryRec) :
    tabSorted none (s.setGroup g r).ferry = true :=
  tabSorted_tabSet _ _ _ _ none (by simp) h

theorem State.ferryReady_ferry (s : State) (g : Nat) : (s.ferryReady g).ferry = s.ferry := by simp [State.ferryReady, State.wrBit]

theorem State.group_of_ferry {a b : State} (h : b.ferry = a.ferry) (g : Nat) : b.group g = a.group g := by rw [State.group, State.group, h]

/-- A group's new record, but for what its levels bring. -/
theorem State.group_putGroup {s : State} (h : tabSorted none s.ferry = true) (g : Nat) (r : FerryRec) :
    tabSorted none (s.putGroup g r).ferry = true ∧
      ∃ feed offAt, (s.putGroup g r).group g = { r with feed := feed, offAt := offAt } := by
  let off := (List.range 4).map fun i => if bitOf (s.group g).lvl i && !bitOf r.lvl i then s.time.tick else r.offAt.getD i 0
  have hf : (s.putGroup g r).ferry = (s.setGroup g { r with feed := r.feed - r.feed.land r.lvl, offAt := off }).ferry := by
    refine foldl_keeps State.ferry (fun s x => ?_) (List.range 4) _
    split
    · rfl
    · simp
  exact ⟨by rw [hf]; exact State.sorted_setGroup h .., _, _, (State.group_of_ferry hf g).trans (State.group_setGroup_same h ..)⟩

/-- Of a field side: what it is to answer, its last down frame and the entries that wait. -/
def State.fieldSide (s : State) (g : Nat) (answer : Option (Nat × Nat)) (lastDown : Nat) (wait : List FEntry) : Prop :=
  tabSorted none s.ferry = true ∧ (s.group g).answer = answer ∧ (s.group g).lastDown = lastDown ∧ (s.group g).wait = wait

theorem State.fieldSide_putGroup {s : State} (h : tabSorted none s.ferry = true) (g : Nat) (r : FerryRec) :
    (s.putGroup g r).fieldSide g r.answer r.lastDown r.wait := by
  obtain ⟨hs, feed, offAt, hp⟩ := State.group_putGroup h g r
  exact ⟨hs, by rw [hp], by rw [hp], by rw [hp]⟩

theorem State.fieldSide.of_ferry {a b : State} {g l : Nat} {x : Option (Nat × Nat)} {w : List FEntry} (h : a.fieldSide g x l w)
    (hf : b.ferry = a.ferry) : b.fieldSide g x l w := by
  obtain ⟨hs, h⟩ := h
  exact ⟨by rw [hf]; exact hs, by rw [State.group_of_ferry hf]; exact h⟩

theorem State.cmpLateEntry_ferry (s : State) (o x : Nat) : (s.cmpLateEntry o x).ferry = s.ferry := by
  refine foldl_keeps State.ferry (fun s u => ?_) (List.range 32) s
  dsimp only
  split <;> simp [State.inc]

theorem State.cmpDueAll_ferry (s : State) : s.cmpDueAll.ferry = s.ferry := by
  refine foldl_keeps State.ferry (fun s u => ?_) (List.range 32) s
  unfold State.cmpDue
  dsimp only
  split
  · rfl
  · exact foldl_keeps State.ferry (fun s x => (Foot.Covers.raiseEv (F := .nothing) s _).parts .ferry rfl) _ _

/-- An entry of a down frame changes levels and pending entries alone. -/
theorem State.fieldSide.storeEntry {s : State} {g l : Nat} {a : Option (Nat × Nat)} {w : List FEntry} (h : s.fieldSide g a l w) (e : FEntry) :
    (s.storeEntry g e).fieldSide g a l w := by
  obtain ⟨hs, ha, hl, hw⟩ := h
  unfold State.storeEntry
  extract_lets r now r'
  split
  · exact ⟨State.sorted_setGroup hs .., by simp [State.group_setGroup_same hs, r', r, ha, hl, hw]⟩
  · split
    · exact ⟨State.sorted_setGroup hs .., by simp [State.group_setGroup_same hs, r', r, ha, hl, hw]⟩
    · subst ha hl hw
      refine (State.fieldSide_putGroup hs g { r' with lvl := setBit r'.lvl e.out e.level }).of_ferry ?_
      rw [State.cmpLateEntry_ferry]
      simp [State.inc]

/-- A frame and the report that follows it leave the group's new record. -/
theorem State.group_downSent {s : State} (h : tabSorted none s.ferry = true) (g : Nat) (r : FerryRec) (k : FrameKind) (p : Nat)
    (b : List Byte) : (((s.setGroup g r).frame k p b).ferryReady g).group g = r := by
  rw [State.group_of_ferry (State.ferryReady_ferry ..), State.group_of_ferry (a := s.setGroup g r) (by simp), State.group_setGroup_same h]

theorem length_leBytes (n x : Nat) : (leBytes n x).length = n := by
  induction n generalizing x with
  | zero => rfl
  | succ n ih => simp [leBytes, ih]

theorem length_padTo (n : Nat) (l : List Byte) : (padTo n l).length = n := by
  simp [padTo]
  omega

/-- What a valid up frame makes of its group's record: the answered down frame and those before it are done (R347). -/
def FerryRec.answered (r : FerryRec) (now : TimeState) (G tk : Nat) (b : List Byte) : FerryRec :=
  let later := r.downs.filter fun x => decide (G < x.2.1)
  { r with
    downs := later, delays := ((now.tick - 736 - tk - 640 - fld b 8 2) :: r.delays).take 64
    free := fld b 7 1 % 64 - (later.map (·.2.2.2)).sum, upOk := min 16 (r.upOk + 1), upG := G
    upTick := now.tick, opened := r.opened || !bitOf (fld b 1 1) 6
    diS := if G ≤ now.lastS then fld b 2 1 else r.diS }

/-- What a valid up frame changes after the levels of its inputs. -/
def Foot.upTail : Foot where
  parts := []
  pars := [P.DqState, P.DiWireState, P.LiWireState, P.DqDiag, P.FerryState]

/-- Settles O43. -/
theorem ferryLinksAct : Obligations.FerryLinksAct := by
  refine ⟨?downFrame, ?downBad, ?downValid, ?upNothing, ?upFrame, ?upBad, ?upValid, ?stale, ?watchdog, ?entry⟩
  case downFrame =>
    intro t g s hg hh hdue hf
    have hf' : tabSorted none (s.advance t).ferry = true := by simpa using hf
    refine ⟨_, by
      change execFerryDownFrame t g s = _
      simp [execFerryDownFrame, onUnit, hg, hh, hdue]
      rfl, ?_⟩
    rw [State.group_downSent]
    · simp
    · split <;> simpa [State.inc] using hf
  case downBad =>
    intro t g b s hg hb
    change execFerryDownFrameReceived t g b s = _
    simp [execFerryDownFrameReceived, onUnit, hg, hb]
  case downValid =>
    intro t g b s hg hf hlen hcrc hfd hnow
    have hf' : tabSorted none (s.advance t).ferry = true := by simpa using hf
    have hlt : fld b 10 2 ≤ 300 ∧ (s.advance t).fieldNow g ≤ fld b 2 8 + 1000 := ⟨hfd, hnow⟩
    suffices h : ∃ s', exec (.ferryDownFrameReceived t g b) s = .next s' ∧
        s'.fieldSide g (some (fld b 0 1, fld b 2 8)) (s.advance t).time.tick (s.group g).wait by
      obtain ⟨s', he, -, h⟩ := h
      exact ⟨s', he, h⟩
    refine ⟨_, by
      change execFerryDownFrameReceived t g b s = _
      rw [execFerryDownFrameReceived, onUnit, if_pos (by simpa using hg), if_neg (by simp [hlen, hcrc])], ?_⟩
    refine State.fieldSide.of_ferry ?_ (State.ferryReady_ferry ..)
    refine List.foldlRecOn (motive := fun v : State => v.fieldSide g _ _ _) _ _ ?_ fun v hv i _ => State.fieldSide.storeEntry hv _
    have hkeep (r : FerryRec) (h1 : r.answer = some (fld b 0 1, fld b 2 8)) (h2 : r.lastDown = (s.advance t).time.tick)
        (h3 : r.wait = (s.group g).wait) : ((s.advance t).putGroup g r).fieldSide g (some (fld b 0 1, fld b 2 8)) (s.advance t).time.tick
          (s.group g).wait := by
      simpa [h1, h2, h3] using State.fieldSide_putGroup hf' g r
    refine hkeep _ ?_ ?_ ?_
    · simp [apply_ite FerryRec.answer, hlt]
    · simp [apply_ite FerryRec.lastDown]
    · simp [apply_ite FerryRec.wait]
  case upNothing =>
    intro t g s hg h
    change execFerryUpFrame t g s = _
    simp [execFerryUpFrame, onUnit, hg, h]
  case upFrame =>
    intro t g a s hg hf ha hnow
    have hf' : tabSorted none (s.advance t).ferry = true := by simpa using hf
    obtain ⟨seq, G⟩ := a
    refine ⟨_, by
      change execFerryUpFrame t g s = _
      simp [execFerryUpFrame, onUnit, hg, ha, hnow.not_gt]
      rfl, ?_, ?_⟩
    · change (((s.advance t).setGroup g _).group g).answer = none
      rw [State.group_setGroup_same hf']
    · exact ⟨_, by
        simp
        rfl, by simp [length_padTo, length_leBytes]⟩
  case upBad =>
    intro t g b s hg hb
    change execFerryUpFrameReceived t g b s = _
    simp [execFerryUpFrameReceived, onUnit, hg, hb]
  case upValid =>
    intro t g b d s hg hf ho hlen hcrc hedges hd
    obtain ⟨sq, G, tk, n⟩ := d
    have hf' : tabSorted none (s.advance t).ferry = true := by simpa using hf
    have ho' := State.ordered_advance ho t
    have hd' : ((s.advance t).group g).downs.find? (fun d => d.1 == fld b 0 1) = some (sq, G, tk, n) := by simpa using hd
    let r := ((s.advance t).group g).answered (s.advance t).time G tk b
    let u := ((s.advance t).setGroup g r).wrF P.FerryDelay g (mkRat r.delays.sum (2 * r.delays.length))
    let v := u.wr P.DiState 0 (putBits (u.rd P.DiState 0) (8 * g) 8 (fld b 2 1))
    let w := v.wr P.LiState 0 (putBits (v.rd P.LiState 0) (4 * g) 4 (fld b 3 1))
    have he : ∃ s', exec (.ferryUpFrameReceived t g b) s = .next s' ∧ Foot.upTail.Covers w s' := by
      refine ⟨_, by
        change execFerryUpFrameReceived t g b s = _
        rw [execFerryUpFrameReceived, onUnit, if_pos (by simpa using hg), if_neg (by simp [hlen, hcrc])], ?_⟩
      dsimp only
      rw [hd', hedges]
      exact .after (.wrBit ..) <| .after (.raiseIf ..) <| .after (.wr ..) <| .after (.foldl _ fun _ _ => .after (.wrBit ..) <| .wrBit ..) <|
        .after (.wr ..) <| .after (.wr ..) <| .wr ..
    obtain ⟨s', he, hcov⟩ := he
    have ou : u.ordered := State.ordered_wr (s := (s.advance t).setGroup g r) ho' ..
    have ov : v.ordered := State.ordered_wr ou ..
    have ow : w.ordered := State.ordered_wr ov ..
    have hrd (p : Nat) (hp : p ≠ P.FerryDelay) : u.rd p 0 = s.rd p 0 :=
      (State.rd_wr_ne (s := (s.advance t).setGroup g r) ho' hp ..).trans (by simp)
    have hr : s'.group g = r := by
      rw [State.group_of_ferry (a := (s.advance t).setGroup g r), State.group_setGroup_same hf']
      rw [hcov.parts .ferry rfl]
      simp [w, v, u, State.wrF]
    refine ⟨s', he, by rw [hr]; rfl, by rw [hr]; rfl, ?_, ?_⟩
    · rw [hcov.rd ow rfl rfl, State.rd_wr_ne ov (by decide), State.rd_wr_same ou, hrd _ (by decide)]
    · rw [hcov.rd ow rfl rfl, State.rd_wr_same ov, State.rd_wr_ne ou (by decide), hrd _ (by decide)]
  case stale =>
    intro t g s hg hf ho hst hlim
    have hf' : tabSorted none (s.advance t).ferry = true := by simpa using hf
    have ho' := State.ordered_advance ho t
    let u := ((s.advance t).wrBit P.FerryState g fySTALE true).setGroup g { s.group g with upOk := 0 }
    have ou : u.ordered := State.ordered_wrBit ho' ..
    have hu : bitOf (u.rd P.FerryState g) fySTALE = true := State.bitOf_rd_wrBit_same ho' ..
    have or : (u.ferryReady g).ordered := State.ordered_wrBit ou ..
    refine ⟨(u.ferryReady g).raise E.fieldDataStale g [], ?_, ?_, ?_, ?_⟩
    · change execFerryStale t g s = _
      have hlim' : ¬ ((s.advance t).time.tick : Int) - (s.group g).upTick < roundHE (s.rf P.FerryStaleTime g * 1000) := hlim.not_gt
      simp [execFerryStale, onUnit, hg, hst, hlim', u]
    · rw [State.rd_raise or _ _ _ rfl]
      exact (State.bitOf_rd_wrBit_ne ou _ _ (by decide) _).trans hu
    · rw [State.rd_raise or _ _ _ rfl, State.ferryReady, State.bitOf_rd_wrBit_same ou]
      simp [hu]
    · have hfer : ((u.ferryReady g).raise E.fieldDataStale g []).ferry = u.ferry := by simp [State.ferryReady_ferry]
      rw [State.group_of_ferry hfer, State.group_setGroup_same (by simpa [State.wrBit] using hf)]
  case watchdog =>
    intro t g s hg hf hdue
    obtain ⟨-, feed, offAt, hp⟩ := State.group_putGroup (s := s.advance t) (by simpa using hf) g
      { s.group g with held := true, pend := [], lvl := 0, downOk := 0 }
    refine ⟨(s.advance t).putGroup g { s.group g with held := true, pend := [], lvl := 0, downOk := 0 }, ?_, ?_⟩
    · change execFerryWatchdog t g s = _
      simp [execFerryWatchdog, onUnit, hg, hdue]
    · rw [hp]
      exact ⟨rfl, rfl, rfl⟩
  case entry =>
    intro t g e s hg hf hpend hat hheld
    obtain ⟨-, feed, offAt, hp⟩ := State.group_putGroup (s := s.advance t) (by simpa using hf) g
      { s.group g with pend := [], lvl := setBit (s.group g).lvl e.out e.level }
    refine ⟨((s.advance t).putGroup g { s.group g with pend := [], lvl := setBit (s.group g).lvl e.out e.level }).cmpDueAll, ?_, ?_⟩
    · change execFieldEntryApply t g s = _
      simp [execFieldEntryApply, onUnit, hg, hpend, hat, hheld, sortNat, insNat]
    · rw [State.group_of_ferry (State.cmpDueAll_ferry _), hp]
      exact ⟨rfl, rfl⟩

end Sys2Proof.Machine

end

/-! Threads, time slices, budgets, work items and service restarts. -/

section

-- One declaration after the other: elaborated at once they need more threads than the check has memory for.
set_option Elab.async false

namespace Sys2Proof.Machine

/-! ### What a dispatch leaves of the threads -/

/-- Every thread is still there; only what it has used of its budget may have grown. -/
def State.sameThreads (a b : State) : Prop :=
  tabSorted none a.pr.thr = true → tabSorted none b.pr.thr = true ∧
    ∀ n r, a.thread n = some r → ∃ used, b.thread n = some { r with used := used }

theorem State.sameThreads.refl (s : State) : s.sameThreads s := fun h => ⟨h, fun _ r hr => ⟨r.used, hr⟩⟩

theorem State.sameThreads.trans {a b c : State} (h : a.sameThreads b) (k : b.sameThreads c) : a.sameThreads c := by
  intro ha
  obtain ⟨hb, h⟩ := h ha
  obtain ⟨hc, k⟩ := k hb
  refine ⟨hc, fun n r hr => ?_⟩
  obtain ⟨u, hu⟩ := h n r hr
  obtain ⟨v, hv⟩ := k n _ hu
  exact ⟨v, hv⟩

theorem State.sameThreads_of_thr {a b : State} (h : b.pr.thr = a.pr.thr) : a.sameThreads b :=
  fun ha => ⟨by rwa [h], fun _ r hr => ⟨r.used, by rwa [State.thread, h]⟩⟩

theorem State.sameThreads_foldl {β : Type} {f : State → β → State} (l : List β) (h : ∀ (s : State) x, s.sameThreads (f s x)) (s : State) :
    s.sameThreads (l.foldl f s) := by
  induction l generalizing s with
  | nil => exact .refl s
  | cons x l ih => exact (h s x).trans (ih _)

/-- What a thread has used is written down. -/
theorem State.sameThreads_setUsed {s : State} {m : Nat} {r : ThrRec} (hr : s.thread m = some r) (used : List Nat) :
    s.sameThreads (s.setThread m (some { r with used := used })) := by
  refine fun h => ⟨tabSorted_tabSet _ _ _ _ none (by simp) h, fun n x hx => ?_⟩
  by_cases hn : n = m
  · subst hn
    obtain rfl : r = x := by simpa [hr] using hx
    exact ⟨used, tabGet_tabSet_same _ _ _ _ h⟩
  · exact ⟨x.used, (tabGet_tabSet_ne _ _ _ _ _ _ h hn).trans hx⟩

theorem State.sameThreads_coreRun (s : State) (c : Nat) (n : Option Nat) : s.sameThreads (s.coreRun c n) := by
  unfold State.coreRun
  extract_lets k s1 hist s2 s3
  have h1 : s.sameThreads s1 := by
    unfold s1
    split
    · exact .refl _
    · split
      · exact .refl _
      next hm => exact State.sameThreads_setUsed hm _
  have h3 : s.sameThreads s3 := h1.trans (State.sameThreads_of_thr rfl)
  split
  · exact h3
  · split
    · exact h3
    · extract_lets k
      split
      · split
        · exact h3.trans (State.sameThreads_of_thr (by simp [State.setTask]))
        · exact h3
      · exact h3

theorem State.sameThreads_dispatchPass (s : State) : s.sameThreads s.dispatchPass := by
  refine State.sameThreads_foldl (List.range 6) (fun s c => ?_) s
  split
  · exact .refl _
  · split
    · exact State.sameThreads_coreRun _ _ _
    · split
      · exact State.sameThreads_coreRun _ _ _
      · exact .refl _

theorem State.schedReport_pr (s : State) : s.schedReport.pr = s.pr := by simp [State.schedReport]

theorem State.sameThreads_dispatch (s : State) : s.sameThreads s.dispatch := by
  have h : s.sameThreads ((List.range 7).foldl (fun s _ => s.dispatchPass) s) :=
    State.sameThreads_foldl _ (fun s _ => s.sameThreads_dispatchPass) s
  exact h.trans (State.sameThreads_of_thr (congrArg ProcRec.thr (State.schedReport_pr _)))

/-! ### A thread becomes ready -/

/-- The record of a thread that becomes ready. -/
def State.readyThread (s : State) (n owner p c : Nat) : ThrRec :=
  { owner := owner, prio := p, cores := c, seq := s.pr.seq, spent := (s.thread n).elim 0 (·.spent)
    used := (s.thread n).elim [0, 0, 0, 0] (·.used) }

/-- The thread stands in the table as it became ready, but for what it has used since. -/
def State.readied (s : State) (n owner p c : Nat) (s' : State) : Prop :=
  tabSorted none s.pr.thr = true → ∃ used, s'.thread n = some { s.readyThread n owner p c with used := used }

theorem State.readied_of (s : State) (n owner p c : Nat) :
    s.readied n owner p c
      (let s1 := ((s.setPr { s.pr with seq := s.pr.seq + 1 }).setThread n (some (s.readyThread n owner p c))).takeFree 7
       let lim : Rat := if s1.2.onChip n then 2 else 6
       let took := satR 0 lim (mkRat s1.1 1000)
       let s2 := s1.2.dispatch
       if s2.threadIdle n || decide (took ≤ s2.rf P.ProcDispatchPeak 0) then s2 else s2.wrF P.ProcDispatchPeak 0 took) := by
  intro h
  extract_lets _ s1 lim took s2
  have h1 : s1.2.thread n = some (s.readyThread n owner p c) := tabGet_tabSet_same _ _ _ _ h
  have hs : tabSorted none s1.2.pr.thr = true := tabSorted_tabSet _ _ _ _ none (by simp) h
  obtain ⟨-, h2⟩ := s1.2.sameThreads_dispatch hs
  obtain ⟨u, hu⟩ := h2 n _ h1
  split
  · exact ⟨u, hu⟩
  · exact ⟨u, by simpa [State.wrF, State.thread] using hu⟩

/-! ### The stop of the services -/

theorem State.dropKey_host (s : State) (k : Nat) : (s.dropKey k).host = s.host := by
  unfold State.dropKey
  dsimp only
  split
  · rfl
  · split
    · exact foldl_keeps State.host (fun _ _ => rfl) cplCopies s
    · rfl

theorem State.dropStaged_host (s : State) : s.dropStaged.host = s.host := by
  unfold State.dropStaged
  dsimp only
  exact foldl_keeps State.host (fun s (x : Staged) => foldl_keeps State.host State.dropKey_host x.keys s) _ s

/-- The packets that wait or run are discarded. -/
theorem State.coresStop_host (s : State) : s.coresStop.host.waiting = [] ∧ s.coresStop.host.running = [] := by
  unfold State.coresStop
  extract_lets s1 _ s2 s3
  have h3 : s3.host.waiting = [] ∧ s3.host.running = [] := by
    rw [show s3.host = s2.host from State.dropStaged_host s2]
    exact ⟨rfl, rfl⟩
  exact h3

/-- Settles O48. -/
theorem schedulerAndFlowsAct : Obligations.SchedulerAndFlowsAct := by
  refine ⟨?readyFirmware, ?readyTask, ?sliceIdle, ?slice, ?budget, ?window, ?post, ?itemEnd, ?restart, ?restarted⟩
  case readyFirmware =>
    intro t n p c s hthr hn hidle h1 h31
    have hlt : n < 1024 := by omega
    have hidle' : (s.advance t).threadIdle n = true := by simpa [State.threadIdle] using hidle
    have he : ∃ s', exec (.threadReady t n 0xFE p c) s = .next s' ∧ State.readied (s.advance t) n 0xFE p
      (if p = 31 then c.land 0x3F else c.land 0x30) s' := by
      refine ⟨_, by
        change execThreadReady t n 0xFE p c s = _
        rw [execThreadReady, onUnit, if_pos (by simpa using hlt), if_neg (by simp [hidle']), if_pos rfl, if_pos ⟨hn, h1, h31⟩], ?_⟩
      exact State.readied_of (s.advance t) n 0xFE p _
    obtain ⟨s', he, h⟩ := he
    obtain ⟨used, hu⟩ := h (by simpa using hthr)
    exact ⟨s', he, _, hu, rfl, rfl, rfl, by simp [State.readyThread]⟩
  case readyTask =>
    intro t n k p c s hthr hn hlt hk hst hidle hany
    have hidle' : (s.advance t).threadIdle n = true := by simpa [State.threadIdle] using hidle
    have hfw : k ≠ fwOwner := by simp [fwOwner]; omega
    have hmine : ((s.advance t).pr.thr.filter fun e => e.2.elim false (·.owner == k)).length = 0 := by
      simpa [List.filter_eq_nil_iff] using hany
    have he : ∃ s', exec (.threadReady t n k p c) s = .next s' ∧
        State.readied (s.advance t) n k (fld (((s.advance t).taskR k).parts.flatMap (·.2)) 28 1) ((s.advance t).rd P.TaskCores k) s' := by
      refine ⟨_, by
        change execThreadReady t n k p c s = _
        rw [execThreadReady, onUnit, if_pos (by simpa using hlt), if_neg (by simp [hidle']), if_neg hfw,
          if_pos ⟨hk, hn, by simpa using hst⟩, if_pos hmine], ?_⟩
      exact State.readied_of (s.advance t) n k _ _
    obtain ⟨s', he, h⟩ := he
    obtain ⟨used, hu⟩ := h (by simpa using hthr)
    exact ⟨s', he, _, hu, rfl, by simp [State.readyThread, State.taskR], by simp [State.readyThread]⟩
  case sliceIdle =>
    intro t c s hc h
    change execTimeSliceExpiry t c s = _
    simp [execTimeSliceExpiry, onUnit, hc, h]
  case slice =>
    intro t c m n r b r2 s hc hrun hthr hbest hprio hsl hr2
    change execTimeSliceExpiry t c s = _
    have hthr' : (s.advance t).thread m = some r := by simpa [State.thread] using hthr
    have hrun' : ((s.advance t).coreR c).run = some m := by simpa [State.coreR] using hrun
    have hsl' : ((s.advance t).coreR c).slice + 100000 ≤ (s.advance t).time.tick := by simpa [State.coreR] using hsl
    rw [execTimeSliceExpiry, onUnit, if_pos (by simpa using hc)]
    dsimp only
    rw [hrun']
    dsimp only
    rw [hthr', hbest]
    dsimp only
    rw [if_pos ⟨hprio, hsl'⟩, hr2]
  case budget =>
    intro t n c r s hthr ho hn hc hcl hr hrun hown hline hused
    have ho' := State.ordered_advance ho t
    have hthr' : tabSorted none (s.advance t).pr.thr = true := by simpa using hthr
    have hr' : (s.advance t).thread n = some r := by simpa [State.thread] using hr
    let u := (s.advance t).coreRun c none
    obtain ⟨hu, hkeep⟩ := State.sameThreads_coreRun (s.advance t) c none hthr'
    obtain ⟨used, hn'⟩ := hkeep n r hr'
    let x : ThrRec := { r with used := used, spent := setBit r.spent c true }
    let v := (u.setThread n (some x)).inc P.TaskOverruns r.owner
    have hcov : Foot.dispatchSide.Covers (s.advance t) u := .coreRun ..
    have ou : u.ordered := hcov.ordered ho'
    have ov : v.ordered := State.ordered_wr (s := u.setThread n (some x)) ou ..
    have he : exec (.budgetExhausted t n c) s = .next v.dispatch := by
      change execBudgetExhausted t n c s = _
      have hrun' : ((s.advance t).coreR c).run = some n := by simpa [State.coreR] using hrun
      have hused' : (s.advance t).rf P.TaskBudget r.owner * 10000 ≤
          ((r.used.getD c 0 + ((s.advance t).time.tick - ((s.advance t).coreR c).at_) : Nat) : Rat) := by
        simpa [State.coreR] using hused
      rw [execBudgetExhausted, onUnit, if_pos (by simpa using ⟨hn, hc⟩)]
      dsimp only
      rw [hr']
      dsimp only
      rw [if_pos ⟨hrun', hown, hline, hused'⟩, hn']
    have hv : v.thread n = some x := tabGet_tabSet_same _ _ _ _ hu
    obtain ⟨-, hd⟩ := State.sameThreads_dispatch v (tabSorted_tabSet _ _ _ _ none (by simp) hu)
    obtain ⟨used', hx⟩ := hd n x hv
    refine ⟨_, he, ?_, _, hx, bitOf_setBit_same ..⟩
    rw [(Foot.Covers.dispatch (F := .dispatchSide) v).rd ov rfl rfl]
    refine (State.rd_wr_same (s := u.setThread n (some x)) ou ..).trans ?_
    have hrd : u.rd P.TaskOverruns r.owner = s.rd P.TaskOverruns r.owner := (hcov.rd ho' rfl rfl _).trans (by simp)
    exact congrArg (fun n => (n + 1) % 2 ^ 32) hrd
  case window =>
    intro t s
    change execBudgetWindow t s = _
    simp [execBudgetWindow, onEvent]
  case post =>
    intro t f h x s hf hfl htag
    have hthr : (s.advance t).thread h = s.thread h := by simp [State.thread]
    refine ⟨_, by
      change execWorkItemPost t f h x s = _
      rw [execWorkItemPost, onUnit, if_pos (by simpa using hf), hthr], ?_⟩
    dsimp only
    rw [if_pos htag, State.flow, State.postItem, State.schedReport_pr]
    refine (congrArg FlowRec.items (tabGet_tabSet_same _ _ _ _ (by simpa using hfl))).trans ?_
    simp [State.flow]
  case itemEnd =>
    intro t f s hf hfl
    refine ⟨_, by
      change execWorkItemEnd t f s = _
      rw [execWorkItemEnd, onUnit, if_pos (by simpa using hf)], ?_⟩
    rw [State.flow, State.schedReport_pr]
    refine (congrArg FlowRec.items (tabGet_tabSet_same _ _ _ _ (by simpa using hfl))).trans ?_
    simp [State.flow]
  case restart =>
    intro t s ho
    have ho' := State.ordered_advance ho t
    have hstop : Foot.stopSide.Covers (s.advance t) (s.advance t).coresStop := .coresStop _
    have host := hstop.ordered ho'
    obtain ⟨hw, hr⟩ := (s.advance t).coresStop_host
    refine ⟨_, rfl, rfl, hw, hr, ?_⟩
    refine (State.rd_wr_same host ..).trans ?_
    rw [hstop.rd ho' rfl rfl]
    simp
  case restarted =>
    intro t s hr hb
    change execServiceRestartComplete t s = _
    simp [execServiceRestartComplete, onEvent, hr, hb]

end Sys2Proof.Machine

end

section

-- One declaration after the other: elaborated at once they need more threads than the check has memory for.
set_option Elab.async false

namespace Sys2Proof.Machine

/-- Where every record is wanted and all fit, all are taken. -/
theorem rxScan_all (drop : Bool) {m : Nat} {l : List (List Byte)} (h : l.length ≤ m) : rxScan (fun _ => true) drop m l = (l, [], 0) := by
  induction l generalizing m with
  | nil => cases m <;> rfl
  | cons b l ih =>
    obtain ⟨m, rfl⟩ : ∃ n, m = n + 1 := ⟨m - 1, by simp at h; omega⟩
    rw [rxScan, ih (by simpa using h)]
    rfl

/-- Settles O51. -/
theorem canRequestsComplete : Obligations.CanRequestsComplete := by
  refine ⟨?canSend, ?canCancel, ?canCancel2, ?canRead, ?canRead2, ?canRxAllRead, ?canRecover⟩
  case canSend =>
    intro t q s hs h1 h2 h3 h4 h5
    change execCanSend t q s = _
    refine runReq_of_ok hs ?_
    have hmode : ¬ (s.rd P.CanMode (q.inst / 100) = 0 ∨ s.rd P.CanMode (q.inst / 100) = 3) := by omega
    refine (guarded_of_none ?_).trans ?_
    · simp [h1, h2, h3, h4, hmode]
    · simp [State.takeId, State.canO]
  case canCancel =>
    intro t q s hs h1 h2
    change execCanCancel t q s = _
    refine runReq_of_ok hs ?_
    simp [guarded, h1, h2]
  case canCancel2 =>
    intro t q s hs h1 h2
    change execCanCancel t q s = _
    refine runReq_of_ok hs ?_
    simp [guarded, h1, h2, State.takeId, State.canO]
  case canRead =>
    intro t q s hs h1
    change execCanRead t q s = _
    refine runReq_of_ok hs ?_
    simp [h1]
  case canRead2 =>
    intro t q s b hs h1
    change execCanRead t q s = _
    refine runReq_of_ok hs ?_
    simp [h1]
  case canRxAllRead =>
    intro t q s hs ho hcan hlen hnf h1 h64 hrx
    have ho' := State.ordered_advance ho t
    let r := s.canC q.inst
    let u := ((s.advance t).setCanC q.inst { r with rx := [], ovf := false }).wr P.CanRxAllFill q.inst 0
    have hu : u.ordered := State.ordered_wr (s := (s.advance t).setCanC ..) ho' ..
    refine ⟨u.wr P.CanRxFiltered q.inst (u.rd P.CanRxFiltered q.inst % 2 ^ 32), ?_, ?_, ?_⟩
    · change execCanRxAllRead t q s = _
      refine runReq_of_ok hs ?_
      refine (guarded_of_none ?_).trans ?_
      · have h0 : fld q.body 0 2 ≠ 0 := by omega
        simp [hlen, hnf, h0, h64]
      · simp [hnf, rxScan_all, hrx, u, r]
    · have hcan' : tabSorted none (s.advance t).can = true := by simpa using hcan
      exact congrArg CanRec.rx (tabGet_tabSet_same _ _ _ _ hcan')
    · exact (State.rd_wr_ne hu (by decide) ..).trans (State.rd_wr_same (s := (s.advance t).setCanC ..) ho' ..)
  case canRecover =>
    intro t q s hs h1
    change execCanRecover t q s = _
    refine runReq_of_ok hs ?_
    simp [guarded, h1]

end Sys2Proof.Machine

end

/-! CAN frames, attempts, errors, recovery and the Bellman reference. -/

section

-- One declaration after the other: elaborated at once they need more threads than the check has memory for.
set_option Elab.async false

namespace Sys2Proof.Machine

/-- What the reception of a frame changes before its record is kept. -/
def Foot.canReceive : Foot where
  parts := [.free]
  pars := [P.CanFramesRx, P.CanErrorCounters, P.CanState, P.CanBusOffs]

/-- What the end of a send changes. -/
def Foot.sendEnd : Foot where
  parts := [.canObj]
  pars := [P.CanObjState]

/-- What the counters and the state of a controller follow. -/
def Foot.canCounters : Foot where
  parts := []
  pars := [P.CanErrorCounters, P.CanState, P.CanBusOffs]

theorem State.canCounters_canRestate (s : State) (c : Nat) : Foot.canCounters.Covers s (s.canRestate c) :=
  .ite (.after (.raise ..) <| .after (.inc ..) <| .wr ..) <| .ite (.after (.raiseIf ..) <| .wr ..) (.wr ..)

theorem State.canReceive_canRestate (s : State) (c : Nat) : Foot.canReceive.Covers s (s.canRestate c) :=
  .mono rfl (s.canCounters_canRestate c)

theorem State.sendEnd_canSendEnd (s : State) (i status effc val cstat : Nat) :
    Foot.sendEnd.Covers s (s.canSendEnd i status effc val cstat) := by
  unfold State.canSendEnd
  extract_lets r s1 s2
  have h1 : Foot.sendEnd.Covers s s1 := by
    simp only [s1]
    split
    · exact .complete ..
    · exact .refl _
  exact .after (.clrBits ..) <| .after (.setCanO ..) <| .after (.cancelsEnd ..) h1

/-- The object that takes a frame hangs on the settings of the objects alone. -/
theorem State.canTaker_of_covers {a b : State} (h : Foot.canReceive.Covers a b) (ho : a.ordered) (c : Nat) (f : CanFrame) :
    b.canTaker c f = a.canTaker c f := by
  simp only [State.canTaker, h.rd ho (p := P.CanObjKind) rfl rfl, h.rd ho (p := P.CanObjId) rfl rfl, h.rd ho (p := P.CanObjMask) rfl rfl,
    h.rd ho (p := P.CanObjFlags) rfl rfl]

theorem State.rd_setCounters {s : State} (ho : s.ordered) (c t r : Nat) :
    (s.setCounters c t r).rd P.CanErrorCounters c = min r 65535 * 65536 + min t 65535 := State.rd_wr_same ho ..

theorem State.canC_setCanC_same {s : State} (h : tabSorted none s.can = true) (c : Nat) (r : CanRec) : (s.setCanC c r).canC c = r :=
  tabGet_tabSet_same _ _ _ _ h

theorem State.canO_setCanO_same {s : State} (h : tabSorted none s.canObj = true) (i : Nat) (r : CanObjRec) : (s.setCanO i r).canO i = r :=
  tabGet_tabSet_same _ _ _ _ h

/-- After the end of a send nothing is sent. -/
theorem State.send_canSendEnd {s : State} (h : tabSorted none s.canObj = true) (i status effc val cstat : Nat) :
    ((s.canSendEnd i status effc val cstat).canO i).send = none := by
  unfold State.canSendEnd
  extract_lets r s1 s2
  have h1 : Foot.nothing.Covers s s2 := .after (.cancelsEnd ..) <| by
    simp only [s1]
    split
    · exact .complete ..
    · exact .refl _
  exact congrArg CanObjRec.send (State.canO_setCanO_same (by rwa [h1.parts .canObj rfl]) ..)

/-- The record a frame makes is held by its object, which is marked as new. -/
theorem State.objPut_holds {s : State} (ho : s.ordered) (hobj : tabSorted none s.canObj = true) (i : Nat) (b : List Byte) :
    ((s.objPut i b).canO i).held = some b ∧ bitOf ((s.objPut i b).rd P.CanObjState i) coNEW = true := by
  let u := s.setCanO i { s.canO i with held := some b }
  have hu : (u.canO i).held = some b := congrArg CanObjRec.held (State.canO_setCanO_same hobj ..)
  have ou : u.ordered := ho
  let v := if bitOf (s.rd P.CanObjState i) coNEW then
    (u.wrBit P.CanObjState i coOVR true).inc P.CanObjLost i else u.wrBit P.CanObjState i coNEW true
  have hev : Foot.nothing.Covers v (s.objPut i b) := .raiseIf ..
  have hvO : v.canObj = u.canObj := by
    simp only [v]
    split
    · simp [State.inc, State.wrBit]
    · simp [State.wrBit]
  have hv : v.ordered ∧ bitOf (v.rd P.CanObjState i) coNEW = true := by
    simp only [v]
    split
    next h =>
      refine ⟨State.ordered_wr (State.ordered_wrBit ou ..) .., ?_⟩
      rw [State.inc, State.rd_wr_ne (State.ordered_wrBit ou ..) (by decide), State.bitOf_rd_wrBit_ne ou _ _ (by decide)]
      exact h
    · exact ⟨State.ordered_wrBit ou .., State.bitOf_rd_wrBit_same ou ..⟩
  obtain ⟨ov, hbit⟩ := hv
  refine ⟨?_, ?_⟩
  · rw [State.canO, hev.parts .canObj rfl, hvO]
    exact hu
  · rw [hev.rd ov rfl rfl]
    exact hbit

/-- Settles O52. -/
theorem canTrafficActs : Obligations.CanTrafficActs := by
  refine ⟨?receivedOff, ?received, ?transmit, ?complete, ?lost, ?lostIdle, ?errorOff, ?errorReceived, ?timeout, ?integration, ?recovery,
    ?bellman⟩
  case receivedOff =>
    intro t c f s hc hoff
    change execCanFrameReceived t c f s = _
    have hoff' : (s.advance t).canOn c = false := by simpa [State.canOn] using hoff
    simp [execCanFrameReceived, onUnit, hc, hoff']
  case received =>
    intro t c f o s hc ho hobj hon hcur hfd hrtr htk
    have ho' := State.ordered_advance ho t
    let u := (s.advance t).inc P.CanFramesRx c
    let v := if 127 < u.rec' c then u.takeFree 9 else (0, u)
    let w := (v.2.setCounters c (v.2.tec c) (if 127 < v.2.rec' c then (sat 119 127 v.1).toNat else v.2.rec' c - 1)).canRestate c
    have hw : Foot.canReceive.Covers (s.advance t) w :=
      .after (State.canReceive_canRestate ..) <| .after (.wr ..) <| .after (.ite_snd (.takeFree ..) (.refl _)) (.inc ..)
    have htk' : w.canTaker c f = some o := by
      rw [State.canTaker_of_covers hw ho']
      simpa [State.canTaker] using htk
    refine ⟨w.objPut (100 * c + o) (canRecord f.stamp f.id f.ide f.fdf f.brs f.esi f.rtr f.dlc o f.data), ?_, ?_⟩
    · change execCanFrameReceived t c f s = _
      have hon' : (s.advance t).canOn c = true := by simpa [State.canOn] using hon
      have hfd' : ¬ (f.fdf = true ∧ s.rd P.CanMode c = 1) := by
        rintro ⟨hf, hm⟩
        simp [hf, hm] at hfd
      rw [execCanFrameReceived, onUnit, if_pos (by simpa using hc), if_neg (by simp [hon', hcur]), if_neg (by simpa using hfd')]
      have htk'' : (if f.rtr then none else w.canTaker c f) = some o := by simpa [hrtr] using htk'
      change Host.Outcome.next (match (if f.rtr then none else w.canTaker c f) with
        | some o => w.objPut (100 * c + o) (canRecord f.stamp f.id f.ide f.fdf f.brs f.esi f.rtr f.dlc o f.data)
        | none => _) = _
      rw [htk'']
    · refine State.objPut_holds (hw.ordered ho') ?_ ..
      rw [hw.parts .canObj rfl]
      simpa using hobj
  case transmit =>
    intro t c d o s hc hcan hsends hcur hbest
    have hsends' : (s.advance t).canSends c = true := by simpa [State.canSends, State.canOn] using hsends
    let u := (s.advance t).takeFree 8
    let stamp := ((u.2.lineNs : Int) + sat (-20) 20 u.1).toNat
    let v := u.2.canSsp c o d
    let w := v.2.setCanC c { v.2.canC c with cur := some o, stamp := stamp, cycle := v.2.time.cycle, cycS := v.2.cycleAt stamp, ssp := v.1 }
    let x := if o = bellObj then w else w.wrBit P.CanObjState (100 * c + o) coSTARTED true
    have he : exec (.canTransmitStart t ⟨c, d⟩) s = .next (x.frame .canFrame c (x.canBusFrame c o stamp)) := by
      change execCanTransmitStart t ⟨c, d⟩ s = _
      rw [execCanTransmitStart, onUnit, if_pos (by simpa using hc), if_pos (by simp [hsends', hcur])]
      dsimp only
      rw [hbest]
    have hv : Foot.canReceive.Covers (s.advance t) v.2 := .after (.canSsp ..) (.takeFree ..)
    have hx : x.can = w.can := by
      simp only [x]
      split <;> simp [State.wrBit]
    have hw : w.canC c = _ := State.canC_setCanC_same (by rw [hv.parts .can rfl]; simpa using hcan) c _
    refine ⟨_, he, ?_, ?_⟩
    · simp [State.canC, hx]
      exact congrArg CanRec.cur hw
    · simp [State.canC, hx]
      exact (congrArg CanRec.cycle hw).trans ((hv.cycle rfl).trans (by simp))
  case complete =>
    intro t c o s hc ho hcan hobj hcur hlt
    have ho' := State.ordered_advance ho t
    have hne : o ≠ bellObj := by simp [bellObj]; omega
    let u := ((s.advance t).attemptOver c).inc P.CanFramesTx c
    let v := (u.setCounters c (u.tec c - 1) (u.rec' c)).canRestate c
    let w := (v.setCanO (100 * c + o) { v.canO (100 * c + o) with consec := 0 }).wr P.CanObjLastTx (100 * c + o) ((s.canC c).stamp % 2 ^ 64)
    have he : exec (.canTxComplete t c) s = .next (w.canSendEnd (100 * c + o) 0 (s.canC c).cycle 0 0x0238) := by
      change execCanTxComplete t c s = _
      simp [execCanTxComplete, onUnit, hc, hcur, hne, w, v, u]
    have ou : u.ordered := State.ordered_wr (s := (s.advance t).attemptOver c) ho' ..
    have hv : Foot.canCounters.Covers u v := .after (State.canCounters_canRestate ..) (.wr ..)
    have ow : w.ordered := State.ordered_wr (s := v.setCanO ..) (hv.ordered ou) ..
    have hcov := w.sendEnd_canSendEnd (100 * c + o) 0 (s.canC c).cycle 0 0x0238
    refine ⟨_, he, ?_, ?_, ?_⟩
    · have hvcan : w.can = v.can := by simp [w]
      rw [State.canC, hcov.parts .can rfl, hvcan, hv.parts .can rfl]
      exact congrArg CanRec.cur (State.canC_setCanC_same (by simpa using hcan) ..)
    · refine State.send_canSendEnd ?_ ..
      have hvO : v.canObj = s.canObj := by
        rw [hv.parts .canObj rfl]
        simp [u, State.inc, State.attemptOver]
      have hsort : tabSorted none (v.setCanO (100 * c + o) { v.canO (100 * c + o) with consec := 0 }).canObj = true :=
        tabSorted_tabSet _ _ _ _ none (by simp) (by rwa [hvO])
      simpa [w] using hsort
    · rw [hcov.rd ow rfl rfl]
      refine (State.rd_wr_ne (s := v.setCanO ..) (hv.ordered ou) (by decide) ..).trans ?_
      refine (hv.rd ou rfl rfl c).trans ((State.rd_wr_same (s := (s.advance t).attemptOver c) ho' ..).trans ?_)
      simp [State.attemptOver]
  case lost =>
    intro t c o s hc hcur hlt hcl hone
    change execCanArbitrationLost t c s = _
    have hne : o ≠ bellObj := by simp [bellObj]; omega
    have hcl' : (((s.advance t).attemptOver c).canO (100 * c + o)).cancels = [] := by simpa [State.attemptOver, State.canO] using hcl
    have hone' : bitOf (((s.advance t).attemptOver c).rd P.CanObjFlags (100 * c + o)) 1 = false := by simpa [State.attemptOver] using hone
    simp [execCanArbitrationLost, onUnit, hc, hcur, hne, State.attemptFails, hcl', hone']
  case lostIdle =>
    intro t c s hc hcur
    change execCanArbitrationLost t c s = _
    simp [execCanArbitrationLost, onUnit, hc, hcur]
  case errorOff =>
    intro t c e s hc hoff
    change execCanError t c e s = _
    have hoff' : (s.advance t).canOn c = false := by simpa [State.canOn] using hoff
    simp [execCanError, onUnit, hc, hoff']
  case errorReceived =>
    intro t c e s hc ho hon htx hfast
    change execCanError t c e s = _
    have hon' : (s.advance t).canOn c = true := by simpa [State.canOn] using hon
    have hkind : s.canErrKind c e = some e.kind := by simp [State.canErrKind, hfast]
    have hcnt : ((s.advance t).wr P.CanLastError c e.kind).rd P.CanErrorCounters c = s.rd P.CanErrorCounters c := by
      simpa using State.rd_wr_ne (State.ordered_advance ho t) (by decide) c c e.kind
    simp [execCanError, onUnit, hc, hon', hkind, htx, State.tec, State.rec', hcnt]
  case timeout =>
    intro t c o d s hc hlt hsend hd hdue hcur
    change execCanTxTimeout t c o s = _
    simp [execCanTxTimeout, onUnit, hc, hlt, hsend, hd, hdue, hcur]
  case integration =>
    intro t c s hc ho hst htec hrec
    refine ⟨(s.advance t).wr P.CanState c 2, ?_, State.rd_wr_same (State.ordered_advance ho t) ..⟩
    change execCanBusIntegration t c s = _
    have h256 : ¬ 256 ≤ s.tec c := by omega
    simp [execCanBusIntegration, onUnit, hc, hst, State.canRestate, h256, htec.not_ge, hrec.not_ge]
  case recovery =>
    intro t c s hc ho hcan hst hrec
    have ho' := State.ordered_advance ho t
    let u := (((s.advance t).setCounters c 0 0).wr P.CanState c 2).setCanC c { s.canC c with recovers := [] }
    have o1 : ((s.advance t).setCounters c 0 0).ordered := State.ordered_wr ho' ..
    have o2 : u.ordered := State.ordered_wr o1 ..
    have he : ∃ s', exec (.canBusOffRecovery t c) s = .next s' ∧ Foot.nothing.Covers u s' := by
      refine ⟨_, by
        change execCanBusOffRecovery t c s = _
        simp [execCanBusOffRecovery, onUnit, hc, hst, State.rb, hrec]
        rfl, .after (.foldl _ fun _ _ => .complete ..) <| .raise ..⟩
    obtain ⟨s', he, hcov⟩ := he
    refine ⟨s', he, ?_, ?_, ?_⟩
    · rw [hcov.rd o2 rfl rfl]
      exact State.rd_wr_same o1 ..
    · rw [State.canC, hcov.parts .can rfl]
      exact congrArg CanRec.recovers (State.canC_setCanC_same (by simpa [State.setCounters] using hcan) ..)
    · rw [hcov.rd o2 rfl rfl]
      exact (State.rd_wr_ne o1 (by decide) ..).trans (State.rd_setCounters ho' ..)
  case bellman =>
    intro t c s hc hcan hrun hphase hlast hcur hwait
    have hns : (s.advance t).bellNs c = s.bellNs c := by simp [State.bellNs]
    let k := (((s.advance t).lineNs : Int) - roundHE (s.rf P.BellPhase c * 1000)) / (s.bellNs c)
    let u := (s.advance t).setCanC c { s.canC c with bLast := some k, bWait := 1 }
    have hu : u.canC c = { s.canC c with bLast := some k, bWait := 1 } := State.canC_setCanC_same (by simpa using hcan) ..
    have hcan' : (u.bellReport c).can = u.can := by simp [State.bellReport, State.wrBit]
    refine ⟨u.bellReport c, ?_, ?_, ?_⟩
    · change execBellmanDue t c s = _
      simp [execBellmanDue, onUnit, hc, hrun, hphase, hlast, hcur, hwait, u, k, hns]
    · rw [State.canC, hcan']
      exact congrArg CanRec.bWait hu
    · rw [State.canC, hcan']
      exact congrArg CanRec.bLast hu

end Sys2Proof.Machine

end

/-! TimeStep and the messages of the time service. -/

section

-- One declaration after the other: elaborated at once they need more threads than the check has memory for.
set_option Elab.async false

namespace Sys2Proof.Machine

theorem State.ptpMine_of {s : State} {m : PtpMsg} (hd : m.domain = s.rd P.NtDomain 0) (hr : s.pr.restart = false)
    (hb : s.boot.ready = true) : s.ptpMine m = true := by
  simp [State.ptpMine, hd, hr, hb]

/-! ### The selection of a master -/

/-- The best of the masters heard. -/
def State.ntBest (s : State) : Option PtpMaster :=
  s.ntHeard.foldl (fun (b : Option PtpMaster) m => match b with
    | none => some m
    | some x => if lexLt m.gm x.gm then some m else some x) none

/-- What the choice of a clock changes. -/
def State.ntChoose (s : State) (own : Bool) (sel : Option Nat) (id : Nat) : State :=
  let fresh := s.nt.sel != sel || s.nt.own != own
  let s := s.setNt { s.nt with own := own, sel := sel, syncAt := if fresh then s.time.tick else s.nt.syncAt
                               annAt := if fresh then s.time.tick else s.nt.annAt
                               sync := if fresh then none else s.nt.sync, lost := if fresh then false else s.nt.lost }
  let s := s.wrBit P.NtState 0 ntGRANDMASTER own
  if s.rd P.NtGrandmaster 0 = id then s
  else ((s.wr P.NtGrandmaster 0 id).wrBit P.NtLatched 0 2 true).raise E.grandmasterChanged 0 []

theorem State.ntSelect_eq (s : State) :
    s.ntSelect = if s.rd P.NtRole 0 == 1 && s.ntBest.all (fun m => lexLt s.ownGm m.gm) then s.ntChoose true none
      (Config.clockIdentity.toNat)
      else match s.ntBest with
        | some m => s.ntChoose false (some m.source) (m.gm.getD 5 0)
        | none => s := rfl

theorem State.ntChoose_nt (s : State) (own : Bool) (sel : Option Nat) (id : Nat) :
    (s.ntChoose own sel id).nt.masters = s.nt.masters ∧ (s.ntChoose own sel id).nt.sel = sel := by
  unfold State.ntChoose
  extract_lets fresh n s1 s2
  split <;> simp [s2, s1, n, State.wrBit]

/-- Of the time service a choice writes the state of the clock, the grandmaster and the latched bits. -/
theorem State.rd_ntChoose {s : State} (ho : s.ordered) (own : Bool) (sel : Option Nat) (id : Nat) :
    (s.ntChoose own sel id).rd P.NtGrandmaster 0 = id ∧
      ∀ k, k ≠ ntGRANDMASTER → bitOf ((s.ntChoose own sel id).rd P.NtState 0) k = bitOf (s.rd P.NtState 0) k := by
  unfold State.ntChoose
  extract_lets fresh _ s1 s2
  have o1 : s1.ordered := ho
  have o2 : s2.ordered := State.ordered_wrBit o1 ..
  have hbit (k : Nat) (hk : k ≠ ntGRANDMASTER) : bitOf (s2.rd P.NtState 0) k = bitOf (s.rd P.NtState 0) k :=
    State.bitOf_rd_wrBit_ne o1 _ _ hk _
  split
  next h => exact ⟨h, hbit⟩
  · have o3 : (s2.wr P.NtGrandmaster 0 id).ordered := State.ordered_wr o2 ..
    have o4 : ((s2.wr P.NtGrandmaster 0 id).wrBit P.NtLatched 0 2 true).ordered := State.ordered_wrBit o3 ..
    have hrd (p : Nat) (hl : lossCount p = false) (hp : p ≠ P.NtLatched) :
        (((s2.wr P.NtGrandmaster 0 id).wrBit P.NtLatched 0 2 true).raise E.grandmasterChanged 0 []).rd p 0 =
          (s2.wr P.NtGrandmaster 0 id).rd p 0 :=
      (State.rd_raise o4 _ _ _ hl 0).trans (State.rd_wrBit_ne o3 hp ..)
    refine ⟨?_, fun k hk => ?_⟩
    · rw [hrd P.NtGrandmaster rfl (by decide), State.rd_wr_same o2]
    · rw [hrd P.NtState rfl (by decide), State.rd_wr_ne o2 (by decide), hbit k hk]

theorem State.ntSelect_masters (s : State) : s.ntSelect.nt.masters = s.nt.masters := by
  rw [State.ntSelect_eq]
  split
  · exact (s.ntChoose_nt ..).1
  · split
    · exact (s.ntChoose_nt ..).1
    · rfl

theorem State.bitOf_rd_ntSelect {s : State} (ho : s.ordered) {k : Nat} (hk : k ≠ ntGRANDMASTER) :
    bitOf (s.ntSelect.rd P.NtState 0) k = bitOf (s.rd P.NtState 0) k := by
  rw [State.ntSelect_eq]
  split
  · exact (State.rd_ntChoose ho ..).2 k hk
  · split
    · exact (State.rd_ntChoose ho ..).2 k hk
    · rfl

/-! ### Locking and offsets -/

theorem State.ntLock_false {s : State} (ho : s.ordered) :
    bitOf ((s.ntLock false).rd P.NtState 0) ntLOCKED = false ∧
      bitOf ((s.ntLock false).rd P.NtState 0) ntHOLDOVER = bitOf (s.rd P.NtState 0) ntHOLDOVER := by
  unfold State.ntLock
  split
  next h => exact ⟨by simpa [State.ntBit] using h, rfl⟩
  · have o1 : (s.wrBit P.NtState 0 ntLOCKED false).ordered := State.ordered_wrBit ho ..
    have o2 : ((s.wrBit P.NtState 0 ntLOCKED false).wrBit P.NtLatched 0 0 true).ordered := State.ordered_wrBit o1 ..
    simp only [Bool.false_eq_true, if_false]
    rw [State.rd_raise o2 _ _ _ rfl, State.rd_wrBit_ne o1 (by decide), State.bitOf_rd_wrBit_same ho,
      State.bitOf_rd_wrBit_ne ho _ _ (by decide)]
    exact ⟨rfl, rfl⟩

/-- What the servo changes after it has kept the offset. -/
def Foot.servo : Foot where
  parts := Foot.timeService.parts
  pars := [P.NtIncrement, P.NtLatched, P.NtState, P.SysIslandLatched]

theorem State.servo_timeStep (s : State) (d16 : Int) : Foot.servo.Covers s (s.timeStep d16) :=
  .after (.raise ..) <| .after (.bellStep ..) <| .after (.ite (.orBits ..) (.refl _)) <| .setTime s _ rfl (fun _ => by dsimp only; omega) id

theorem State.servo_ntLock (s : State) (b : Bool) : Foot.servo.Covers s (s.ntLock b) :=
  .ite (.refl _) <| .ite (.after (.raise ..) <| .after (.setNt ..) <| .wrBit ..) <| .after (.raise ..) <| .after (.wrBit ..) <| .wrBit ..

theorem State.servo_ntRuns (s : State) (b : Bool) : Foot.servo.Covers s (s.ntRuns b) :=
  .after (.ite (State.servo_ntLock ..) (.ite (State.servo_ntLock ..) (.refl _))) <| .setNt ..

/-- In servo mode 2 the offset is kept (R452). -/
theorem State.rd_ntOffset {s : State} (ho : s.ordered) (hm : s.rd P.NtServoMode 0 = 2) (o : Int) :
    (s.ntOffset o).rd P.NtOffset 0 = ratToF32 (mkRat o 65536) := by
  have hcov : Foot.servo.Covers (s.wrF P.NtOffset 0 (mkRat o 65536)) (s.ntOffset o) := by
    rw [State.ntOffset, if_neg (by simp [hm])]
    exact .after (State.servo_ntRuns ..) <| .after (.setNt ..) <| .after (.ite (State.servo_timeStep ..) <| .ite (.after (.wr ..) <|
      .setNt ..) <| .ite (State.servo_timeStep ..) <| .after (State.servo_ntLock ..) <| .after (.wrBit ..) <| .after (.raise ..) <|
      .wrBit ..) <| .ite (.wrBit ..) (.refl _)
  exact (hcov.rd (State.ordered_wr ho ..) rfl rfl 0).trans (State.rd_wr_same ho ..)

theorem State.rd_syncDone {s : State} (ho : s.ordered) (hm : s.rd P.NtServoMode 0 = 2) (origin : Int) (ingress : Nat) :
    (s.syncDone origin ingress).rd P.NtOffset 0 = ratToF32 (mkRat ((ingress : Int) - origin - s.nt.delay) 65536) :=
  State.rd_ntOffset (s := s.setNt { s.nt with lastPair := some (origin.toNat, ingress) }) ho hm _

/-- A Sync of the selected master ends its holdover. -/
def State.afterSync (s : State) (t : Nat) : State :=
  ((s.advance t).setNt { s.nt with syncAt := (s.advance t).time.tick, lost := false }).wrBit P.NtState 0 ntHOLDOVER false

theorem State.rd_afterSync (s : State) (ho : s.ordered) (t : Nat) {p : Nat} (hp : p ≠ P.NtState) (i : Nat) :
    (s.afterSync t).rd p i = s.rd p i := by
  refine (State.rd_wrBit_ne (s := (s.advance t).setNt _) (State.ordered_advance ho t) hp ..).trans ?_
  simp

theorem exec_ptpSyncReceived_oneStep {t : Nat} {m : PtpMsg} {s : State} (hm : s.ptpMine m = true) (hsel : s.nt.sel = some m.source)
    (h2 : m.twoStep = false) :
    exec (.ptpSyncReceived t m) s = .next ((s.afterSync t).syncDone ((m.origin : Int) + m.corr) m.stamp) := by
  change execPtpSyncReceived t m s = _
  simp [execPtpSyncReceived, onEvent, hm, hsel, h2, State.afterSync]

/-- What an Announce records of its master. -/
def State.announced (s : State) (t : Nat) (m : PtpMsg) : State :=
  (s.advance t).setNt { s.nt with
    masters := { gm := m.gm, source := m.source, prevAt := (s.nt.masters.find? (fun x => x.source == m.source)).map (·.at_),
                 at_ := (s.advance t).time.tick } :: s.nt.masters.filter (fun x => x.source != m.source)
    annAt := if s.nt.sel == some m.source then (s.advance t).time.tick else s.nt.annAt }

theorem exec_ptpAnnounceReceived_of {t : Nat} {m : PtpMsg} {s : State} (hm : s.ptpMine m = true)
    (hsrc : m.source ≠ Config.clockIdentity.toNat) : exec (.ptpAnnounceReceived t m) s = .next (s.announced t m).ntSelect := by
  change execPtpAnnounceReceived t m s = _
  simp [execPtpAnnounceReceived, onEvent, hm, hsrc, State.announced]

/-- The loss of the selected master: holdover, and no lock (R453). -/
theorem exec_ptpMasterLoss_of_gone {t x : Nat} {s : State} (ho : s.ordered) (hr : s.pr.restart = false) (hb : s.boot.ready = true)
    (hsel : s.nt.sel = some x) (hlost : s.nt.lost = false)
    (hann : s.nt.annAt + s.rd P.NtAnnounceTimeout 0 * 1000000000 ≤ (s.advance t).time.tick) :
    ∃ u : State, u.ordered ∧ exec (.ptpMasterLoss t) s = .next
      (let v := (u.wrBit P.NtState 0 ntHOLDOVER true).ntLock false
       (v.setNt { v.nt with lost := true, good := 0, bad := 0, masters := v.nt.masters.filter (fun m => some m.source != s.nt.sel) }).ntSelect) := by
  refine ⟨_, ?_, by
    change execPtpMasterLoss t s = _
    simp [execPtpMasterLoss, onEvent, hr, hb, hsel, hlost, hann]
    rfl⟩
  split
  · exact State.ordered_wr (State.ordered_advance ho t) ..
  · exact State.ordered_advance ho t

/-- Settles O53. -/
theorem timeServiceActs : Obligations.TimeServiceActs := by
  refine ⟨?step, ?stepForced, ?stepRefused, ?syncOther, ?syncTwoStep, ?syncKept, ?syncOffset, ?followUpNone, ?followUp, ?delayNone,
    ?delay, ?announce, ?select, ?loss, ?lossOwn, ?send, ?delayReq⟩
  case step =>
    intro t q s hs hm hf hd
    change execTimeStep t q s = _
    refine runReq_of_ok hs ?_
    simp [guarded, hm, hf, hd.not_gt]
  case stepForced =>
    intro t q s hs hf
    change execTimeStep t q s = _
    refine runReq_of_ok hs ?_
    simp [guarded, hf]
  case stepRefused =>
    intro t q s hs hm hf hd
    change execTimeStep t q s = _
    refine runReq_of_ok hs ?_
    simp [guarded, hm, hf, hd]
  case syncOther =>
    intro t m s h
    change execPtpSyncReceived t m s = _
    simp [execPtpSyncReceived, onEvent, h]
  case syncTwoStep =>
    intro t m s hd hr hb hsel h2
    let u := ((s.advance t).setNt { s.nt with syncAt := (s.advance t).time.tick, lost := false }).wrBit P.NtState 0 ntHOLDOVER false
    refine ⟨u.setNt { u.nt with sync := some (m.seq, m.stamp, m.corr) }, ?_, rfl, ?_, ?_⟩
    · change execPtpSyncReceived t m s = _
      simp [execPtpSyncReceived, onEvent, State.ptpMine_of hd hr hb, hsel, h2, u]
    · simp [u, State.wrBit]
    · simp [u, State.wrBit]
  case syncKept =>
    intro t m s hd hr hb ho hsel h2 hm
    have hmode : (s.afterSync t).rd P.NtServoMode 0 = s.rd P.NtServoMode 0 := s.rd_afterSync ho t (by decide) 0
    refine ⟨_, exec_ptpSyncReceived_oneStep (State.ptpMine_of hd hr hb) hsel h2, ?_, ?_⟩
    · simp [State.syncDone, State.ntOffset, hmode, hm]
    · simpa [State.syncDone, State.ntOffset, hmode, hm] using s.rd_afterSync ho t (by decide) 0
  case syncOffset =>
    intro t m s hd hr hb ho hsel h2 hm
    have hmode : (s.afterSync t).rd P.NtServoMode 0 = 2 := (s.rd_afterSync ho t (by decide) 0).trans hm
    refine ⟨_, exec_ptpSyncReceived_oneStep (State.ptpMine_of hd hr hb) hsel h2, ?_⟩
    have ho' : (s.afterSync t).ordered := State.ordered_wrBit (s := (s.advance t).setNt _) (State.ordered_advance ho t) ..
    rw [State.rd_syncDone ho' hmode]
    simp [State.afterSync, State.wrBit]
  case followUpNone =>
    intro t m s h
    change execFollowUpReceived t m s = _
    simp [execFollowUpReceived, onEvent, h]
  case followUp =>
    intro t m i c s hd hr hb hsel hsync
    change execFollowUpReceived t m s = _
    simp [execFollowUpReceived, onEvent, State.ptpMine_of hd hr hb, hsel, hsync]
  case delayNone =>
    intro t m s h
    change execDelayRespReceived t m s = _
    simp [execDelayRespReceived, onEvent, h]
  case delay =>
    intro t m out p s hd hr hb hsel hid hreq hp
    obtain ⟨t1, t2⟩ := p
    let d := (((t2 : Int) - t1) + ((m.origin : Int) - m.corr - out)) / 2
    refine ⟨((s.advance t).setNt { s.nt with delay := d, req := none }).wrF P.NtMeanPathDelay 0 (satR 0 1000000 (mkRat d 65536)), ?_, ?_,
      ?_⟩
    · change execDelayRespReceived t m s = _
      simp [execDelayRespReceived, onEvent, State.ptpMine_of hd hr hb, hsel, hid, hreq, hp, d]
    · simp [State.wrF]
    · simp [State.wrF, d]
  case announce =>
    intro t m s hd hr hb hsrc
    refine ⟨_, exec_ptpAnnounceReceived_of (State.ptpMine_of hd hr hb) hsrc, ?_⟩
    simp [State.ntSelect_masters, State.announced]
  case select =>
    intro t m x s hd hr hb hsrc ho hrole hmas hx hat
    refine ⟨_, exec_ptpAnnounceReceived_of (State.ptpMine_of hd hr hb) hsrc, ?_⟩
    have hbest : (s.announced t m).ntBest = some
      { gm := m.gm, source := m.source, prevAt := some x.at_, at_ := (s.advance t).time.tick } := by
      simp [State.ntBest, State.ntHeard, State.announced, hmas, hx, hat]
    have hrole' : (s.announced t m).rd P.NtRole 0 = 0 := by simpa [State.announced] using hrole
    rw [State.ntSelect_eq, hbest, if_neg (by simp [hrole'])]
    exact ⟨(State.ntChoose_nt ..).2, (State.rd_ntChoose (s := s.announced t m) (State.ordered_advance ho t) ..).1⟩
  case loss =>
    intro t x s hr hb ho hsel hlost hann
    have ho' := State.ordered_advance ho t
    obtain ⟨u, hou, he⟩ := exec_ptpMasterLoss_of_gone ho hr hb hsel hlost hann
    let v := (u.wrBit P.NtState 0 ntHOLDOVER true).ntLock false
    let w := v.setNt { v.nt with lost := true, good := 0, bad := 0, masters := v.nt.masters.filter (fun m => some m.source != s.nt.sel) }
    have ou : (u.wrBit P.NtState 0 ntHOLDOVER true).ordered := State.ordered_wrBit hou ..
    have ow : w.ordered := (State.servo_ntLock ..).ordered ou
    obtain ⟨hlock, hhold⟩ := State.ntLock_false ou
    refine ⟨_, he, ?_, ?_, ?_⟩
    · rw [State.bitOf_rd_ntSelect ow (by decide)]
      exact hhold.trans (State.bitOf_rd_wrBit_same hou ..)
    · rw [State.bitOf_rd_ntSelect ow (by decide)]
      exact hlock
    · rw [State.ntSelect_masters]
      intro m hm
      simpa [hsel] using (List.mem_filter.1 hm).2
  case lossOwn =>
    intro t s hsel hown
    change execPtpMasterLoss t s = _
    simp [execPtpMasterLoss, onEvent, hsel, hown]
  case send =>
    intro t k s hk hr hb hlen hnone hrole
    have hnone' : s.nt.sentAt[k]?.getD none = none := by simpa using hnone
    refine ⟨_, by
      change execPtpMessageSend t k s = _
      rw [execPtpMessageSend, onUnit, if_pos (by simpa using hk), if_neg (by simp [hr, hb]), if_pos (by simp [hrole, hnone'])], ?_, ?_⟩
    · simp [hlen, hk]
    · exact ⟨_, by
        simp
        rfl⟩
  case delayReq =>
    intro t m s hd hr hb hown
    change execDelayReqReceived t m s = _
    simp [execDelayReqReceived, onEvent, State.ptpMine_of hd hr hb, hown]

end Sys2Proof.Machine

end

/-! The transparent clock, beacons and the roll call of the line. -/

section

-- One declaration after the other: elaborated at once they need more threads than the check has memory for.
set_option Elab.async false

namespace Sys2Proof.Machine

/-- Without a call nothing of it is due. -/
theorem State.rollDue_of_idle {s : State} (h : s.roll.startAt = none) (t : Nat) : (s.advance t).rollDue = s.advance t := by
  simp [State.rollDue, h]

/-- Once the address has been sent nothing more of the call is due. -/
theorem State.rollDue_of_sent {s : State} (h : s.roll.addrSent = true) (t : Nat) : (s.advance t).rollDue = s.advance t := by
  unfold State.rollDue
  split <;> simp [h]

theorem State.isHead_of_roll (s : State) (t : Nat) (r : RollRec) : ((s.advance t).setRoll r).isHead = s.isHead := by
  simp [State.isHead, State.neighbour]

theorem State.isHead_iff (s : State) : s.isHead = true ↔ s.rd P.LineNeighbour 0 = 0 := by simp [State.isHead, State.neighbour]

theorem State.rd_setNeighbour {s : State} (ho : s.ordered) (p i : Nat) : (s.setNeighbour p i).rd P.LineNeighbour p = i := by
  unfold State.setNeighbour
  split
  next h => exact h
  · exact State.rd_wr_same ho ..

theorem State.seen_setNeighbour (s : State) (p i : Nat) : (s.setNeighbour p i).roll.seen = s.roll.seen := by
  unfold State.setNeighbour
  split <;> simp

/-! ### Addresses -/

theorem State.setAddress_of_off {s : State} (h : s.rd P.LineEnable 0 = 0) (a : Nat) :
    s.setAddress a = if s.rd P.LineAddress 0 = a then s else s.wr P.LineAddress 0 a := by
  simp [State.setAddress, State.rb, h]

/-- A unit that is not on the line takes an address and hands the list on. -/
def State.ownAddress (s : State) (a : Nat) : State :=
  let u := (s.setRoll { s.roll with gotAddr := true, addrSent := true }).setAddress a
  u.rollSend 1 3 a u.unitId s.roll.num

theorem State.takeAddress_of_fits {s : State} {a : Nat} (ha : a ≤ 32) :
    s.takeAddress a =
      (let u := s.ownAddress a
       if u.neighbour 1 = 0 then (if u.leads then u else u.rollSend 0 4 a u.unitId s.roll.num).rollDone a else u) := by
  simp only [State.takeAddress, decide_eq_true ha, if_true]
  rfl

theorem State.ownAddress_of_off {s : State} (ho : s.ordered) (h : s.rd P.LineEnable 0 = 0) (a : Nat) :
    (s.ownAddress a).ordered ∧ (s.ownAddress a).rd P.LineAddress 0 = a ∧
      (∀ p i, p ≠ P.LineAddress → (s.ownAddress a).rd p i = s.rd p i) ∧
      (s.ownAddress a).sent = .frame .rollCall 1 (rollBytes 3 a s.unitId s.roll.num) :: s.sent ∧
      (s.ownAddress a).roll = { s.roll with gotAddr := true, addrSent := true } := by
  let u := s.setRoll { s.roll with gotAddr := true, addrSent := true }
  have ou : u.ordered := ho
  have hu : u.setAddress a = if s.rd P.LineAddress 0 = a then u else u.wr P.LineAddress 0 a := State.setAddress_of_off (s := u) h a
  unfold State.ownAddress State.rollSend State.unitId
  rw [hu]
  split
  next he => exact ⟨ou, he, fun _ _ _ => rfl, by simp [u], by simp [u]⟩
  · refine ⟨State.ordered_wr ou .., State.rd_wr_same ou .., fun p i hp => State.rd_wr_ne ou hp .., ?_, ?_⟩
    · simp [u, State.rd_wr_ne ou (show P.SysUnitId ≠ P.LineAddress by decide)]
    · simp [u]

/-- What the end of a roll call changes. -/
def Foot.rollEnd : Foot where
  parts := [.roll]
  pars := [P.LineCount, P.LineRollCallState]

/-- A unit that has its address ends the call with the count (R457). -/
theorem State.rollDone_of_addr {s : State} (ho : s.ordered) (h : s.roll.gotAddr = true) (n : Nat) :
    Foot.rollEnd.Covers s (s.rollDone n) ∧ (s.rollDone n).rd P.LineCount 0 = n ∧ (s.rollDone n).rd P.LineRollCallState 0 = 2 := by
  let u := (s.wr P.LineCount 0 n).wr P.LineRollCallState 0 2
  have o1 : (s.wr P.LineCount 0 n).ordered := State.ordered_wr ho ..
  have o2 : u.ordered := State.ordered_wr o1 ..
  have hc : ({ parts := [.roll], pars := [] } : Foot).Covers u (s.rollDone n) := by
    unfold State.rollDone
    simp only [h, if_true]
    exact .after (.foldl _ fun _ _ => .complete ..) <| .setRoll ..
  refine ⟨.after (.mono rfl hc) <| .after (.wr ..) <| .wr .., ?_, ?_⟩
  · rw [hc.rd o2 rfl rfl, State.rd_wr_ne o1 (by decide), State.rd_wr_same ho]
  · rw [hc.rd o2 rfl rfl, State.rd_wr_same o1]

theorem any_add_gt_of_le {o : Option Nat} {k n : Nat} (h : ∀ x ∈ o, x + k ≤ n) : o.any (fun x => decide (n < x + k)) = false := by
  cases o with
  | none => rfl
  | some x => simpa using h

/-- Settles O54. -/
theorem transparentClockAndRollCallAct : Obligations.TransparentClockAndRollCallAct := by
  refine ⟨?transitOff, ?transitEvent, ?transitFollowUp, ?followUps, ?unmatched, ?beacon, ?beaconReceived, ?lost, ?heard, ?callStart,
    ?address, ?lastAddress, ?request, ?conflict, ?timeout, ?noTimeout, ?retry, ?rollCallHead, ?rollCallElse⟩
  case transitOff =>
    intro t m p r s hp h
    change execPtpTransit t m p r s = _
    simp [execPtpTransit, onUnit, hp, h]
  case transitEvent =>
    intro t m p r s hp h hk
    have h8 : m.kind ≠ 8 := by omega
    have h019 : m.kind = 0 ∨ m.kind = 1 ∨ m.kind = 9 := by omega
    have h2 : ¬ (m.kind = 0 ∧ m.twoStep = true) := by
      rintro ⟨h0, htwo⟩
      simp [h0, htwo] at hk
    refine ⟨_, by
      change execPtpTransit t m p r s = _
      simp [execPtpTransit, onUnit, hp, h, h8, h019, h2]
      rfl, ?_⟩
    split <;> simp [State.transitDrop, State.wrF]
  case transitFollowUp =>
    intro t m p r x s hp h hk htr
    refine ⟨(((s.advance t).transitDrop).setNt { (s.advance t).transitDrop.nt with transit := [] }).frame .ptp (1 - p) (transitBytes m (m.corr + x)), ?_, ?_, ?_⟩
    · change execPtpTransit t m p r s = _
      simp [execPtpTransit, onUnit, hp, h, hk, State.transitDrop, htr]
    · simp [State.transitDrop]
    · simp
  case followUps => exact fun t s => rfl
  case unmatched =>
    intro t e s ho he hlate
    have ho' := State.ordered_advance ho t
    refine ⟨_, rfl, ?_, ?_⟩
    · simp [State.transitDrop, he, hlate]
    · refine (State.rd_wr_same (s := (s.advance t).setNt _) ho' ..).trans ?_
      simp [State.transitOld, he, hlate]
  case beacon =>
    intro t s hst hb
    change execBeaconSend t s = _
    have hb' : s.roll.beaconAt.any (fun x => decide ((s.advance t).time.tick < x + 100000000)) = false :=
      any_add_gt_of_le hb
    simp [execBeaconSend, onEvent, State.rollDue_of_idle hst, hb', State.unitId]
  case beaconReceived =>
    intro t p i s hp hst ho hlen
    let u := (s.advance t).setRoll { s.roll with seen := s.roll.seen.set p (some (s.advance t).time.tick) }
    have ou : u.ordered := State.ordered_advance ho t
    refine ⟨u.setNeighbour p i, ?_, State.rd_setNeighbour ou .., ?_⟩
    · change execBeaconReceived t p i s = _
      simp [execBeaconReceived, onUnit, hp, State.rollDue_of_idle hst, u]
    · rw [State.seen_setNeighbour]
      simp [u, hlen, hp]
  case lost =>
    intro t p x s hp hst ho hseen hx hn
    let u := (s.advance t).setRoll { s.roll with seen := s.roll.seen.set p none }
    have ou : u.ordered := State.ordered_advance ho t
    have hseen' : s.roll.seen[p]?.getD none = some x := by simpa using hseen
    refine ⟨u.setNeighbour p 0, ?_, State.rd_setNeighbour ou .., ?_, ?_⟩
    · change execNeighbourLost t p s = _
      simp [execNeighbourLost, onUnit, hp, State.rollDue_of_idle hst, hseen', hx, u]
    · simp [State.setNeighbour, State.neighbour, u, hn]
    · simp [State.setNeighbour, State.neighbour, u, hn]
  case heard =>
    intro t p x s hp hst hseen hx
    change execNeighbourLost t p s = _
    have hseen' : s.roll.seen[p]?.getD none = some x := by simpa using hseen
    simp [execNeighbourLost, onUnit, hp, State.rollDue_of_idle hst, hseen', hx.not_gt]
  case callStart =>
    intro t s ho hst hhead hcalled hstable
    let u := (s.advance t).setRoll { s.roll with
      called := true, reqAt := none, num := s.roll.nextNum, nextNum := (s.roll.nextNum + 1) % 2 ^ 32, startAt := some
        (s.advance t).time.tick
      addrSent := false, follow := false, gotAddr := false, retryAt := none }
    have ou : u.ordered := State.ordered_advance ho t
    let v := u.wr P.LineRollCallState 0 1
    refine ⟨(v.rollSend 0 2 0 u.unitId s.roll.nextNum).rollSend 1 2 0 u.unitId s.roll.nextNum, ?_, State.rd_wr_same ou .., ?_, ?_, ?_⟩
    · change execRollCallStart t s = _
      have hh' : (s.advance t).isHead = true := by simpa [State.isHead_iff] using hhead
      simp [execRollCallStart, onEvent, State.rollDue_of_idle hst, hh', hst, hcalled, hstable, v, u, State.rollSend]
    · simp [v, u, State.rollSend]
    · simp [v, u, State.rollSend]
    · have hid : u.unitId = s.unitId := by simp [u, State.unitId]
      have hs : v.sent = s.sent := by simp [v, u]
      simp [State.rollSend, hid, hs]
  case address =>
    intro t p f s hp hst ho hk ha hn hen
    have hfit : f.addr + 1 ≤ 32 := ha
    obtain ⟨-, haddr, hrd, hsent, -⟩ := State.ownAddress_of_off (State.ordered_advance ho t) (by simpa using hen) (f.addr + 1)
    refine ⟨(s.advance t).ownAddress (f.addr + 1), ?_, haddr, ?_⟩
    · change execRollCallFrameReceived t p f s = _
      have hn' : ((s.advance t).ownAddress (f.addr + 1)).neighbour 1 ≠ 0 := by
        rw [State.neighbour, hrd _ _ (by decide)]
        simpa using hn
      simp [execRollCallFrameReceived, onUnit, hp, State.rollDue_of_idle hst, hk, State.takeAddress_of_fits hfit, hn']
    · rw [hsent]
      simp [State.unitId]
  case lastAddress =>
    intro t p f s hp hst ho hk ha hn1 hn0 hen
    have hfit : f.addr + 1 ≤ 32 := ha
    obtain ⟨ou, haddr, hrd, -, hroll⟩ := State.ownAddress_of_off (State.ordered_advance ho t) (by simpa using hen) (f.addr + 1)
    let u := (s.advance t).ownAddress (f.addr + 1)
    have hn' : u.neighbour 1 = 0 := by
      rw [State.neighbour, hrd _ _ (by decide)]
      simpa using hn1
    have hl : u.leads = false := by
      have h0 : u.neighbour 0 ≠ 0 := by
        rw [State.neighbour, hrd _ _ (by decide)]
        simpa using hn0
      simp [State.leads, State.isHead, h0]
    have hid : u.unitId = s.unitId := (hrd _ _ (by decide)).trans (by simp [State.unitId])
    let v := u.rollSend 0 4 (f.addr + 1) s.unitId s.roll.num
    have hgot : v.roll.gotAddr = true := by simp [v, State.rollSend, u, hroll]
    obtain ⟨hcov, hcount, hstate⟩ := State.rollDone_of_addr (s := v) ou hgot (f.addr + 1)
    refine ⟨v.rollDone (f.addr + 1), ?_, (hcov.rd (a := v) ou rfl rfl 0).trans haddr, hcount, hstate, ?_⟩
    · change execRollCallFrameReceived t p f s = _
      have he : (s.advance t).takeAddress (f.addr + 1) = v.rollDone (f.addr + 1) := by
        rw [State.takeAddress_of_fits hfit]
        simp [u, v] at hn' hl hid ⊢
        simp [hn', hl, hid]
      simp [execRollCallFrameReceived, onUnit, hp, State.rollDue_of_idle hst, hk, he]
    · exact hcov.sent.subset (by simp [v, State.rollSend])
  case request =>
    intro t p f s hp hst hk hhead
    change execRollCallFrameReceived t p f s = _
    have hh : (s.advance t).isHead = true := by simpa [State.isHead_iff] using hhead
    simp [execRollCallFrameReceived, onUnit, hp, State.rollDue_of_idle hst, hk, hh, RollRec.asked]
  case conflict =>
    intro t p f x s hp ho hst hsent hhead hk hid
    have hne : f.id ≠ s.unitId := hid.ne
    let u := (s.advance t).setRoll { s.roll with follow := true, startAt := none, num := f.num, gotAddr := false }
    have ou : u.ordered := State.ordered_advance ho t
    have hrole : (u.wr P.LineRollCallState 0 3).rd P.LineRollCallState 0 = 3 := State.rd_wr_same ou ..
    refine ⟨(u.wr P.LineRollCallState 0 3).raise E.lineRollCallConflict 0 [], ?_, ?_, ?_,
      (State.rd_raise (State.ordered_wr ou ..) _ _ _ rfl 0).trans hrole⟩
    · change execRollCallFrameReceived t p f s = _
      have hh' : (s.advance t).isHead = true := by simpa [State.isHead_iff] using hhead
      have hid' : (s.advance t).unitId = s.unitId := by simp [State.unitId]
      simp [execRollCallFrameReceived, onUnit, hp, State.rollDue_of_sent hsent, hk, hh', hid', hst, hid, hne, u]
    · simp [u]
    · simp [u]
  case timeout =>
    intro t x s ho hst hsent hhead hx
    let u := (s.advance t).setRoll { s.roll with startAt := none, waiting := [] }
    have ou : u.ordered := State.ordered_advance ho t
    let v := (u.wr P.LineRollCallState 0 4).raise E.lineRollCallIncomplete 0 []
    let s' := s.roll.waiting.foldl (fun s q => s.complete q 0 0xFFFFFFFF 0x0503 0 0 0) v
    have hcov : Foot.nothing.Covers (u.wr P.LineRollCallState 0 4) s' := .after (.foldl _ fun _ _ => .complete ..) <| .raise ..
    have hroll : s'.roll = u.roll := by
      rw [hcov.parts .roll rfl]
      simp
    refine ⟨s', ?_, (hcov.rd (State.ordered_wr ou ..) rfl rfl 0).trans (State.rd_wr_same ou ..), ?_, ?_⟩
    · change execRollCallTimeout t s = _
      have hh' : (s.advance t).isHead = true := by simpa [State.isHead_iff] using hhead
      simp [execRollCallTimeout, onEvent, State.rollDue_of_sent hsent, hst, hh', hx, s', v, u]
    · simp [hroll, u]
    · simp [hroll, u]
  case noTimeout =>
    intro t s hst
    change execRollCallTimeout t s = _
    simp [execRollCallTimeout, onEvent, State.rollDue_of_idle hst, hst]
  case retry =>
    intro t x s hst hr hx
    change execRollCallRetry t s = _
    simp [execRollCallRetry, onEvent, State.rollDue_of_idle hst, hr, hx, State.unitId]
  case rollCallHead =>
    intro t q s hs hhead
    change execLineRollCall t q s = _
    refine runReq_of_ok hs ?_
    have hh : s.isHead = true := by simpa [State.isHead_iff] using hhead
    simp [State.isHead_of_roll, hh, RollRec.asked]
  case rollCallElse =>
    intro t q s hs hhead
    change execLineRollCall t q s = _
    refine runReq_of_ok hs ?_
    have hh : s.isHead = false := by simpa [State.isHead, State.neighbour] using hhead
    simp [State.isHead_of_roll, hh, State.unitId]

end Sys2Proof.Machine

end

/-! Resets and the start of the image. -/

section

-- One declaration after the other: elaborated at once they need more threads than the check has memory for.
set_option Elab.async false

namespace Sys2Proof.Machine

/-- What a reset leaves of the device (R466). -/
theorem State.chipReset_leaves (s : State) (t c : Nat) (l : Bool) :
    ((s.advance t).chipReset c l).boot.phase = 0 ∧ ((s.advance t).chipReset c l).boot.ready = false ∧
      ((s.advance t).chipReset c l).rd P.SysResetCause 0 = c ∧ ((s.advance t).chipReset c l).par.commits = [] ∧
      ((s.advance t).chipReset c l).par.shadow = [] ∧ ((s.advance t).chipReset c l).boot.slots = s.boot.slots ∧
      ((s.advance t).chipReset c l).pending = s.pending := by
  refine ⟨rfl, rfl, State.chipReset_rd_cause .., rfl, rfl, ?_, ?_⟩
  · change (s.advance t).boot.slots = _
    simp
  · change (s.advance t).pending = _
    simp

theorem State.slotReport_boot (s : State) (k : Nat) : (s.slotReport k).boot = s.boot := by
  unfold State.slotReport
  dsimp only
  split <;> simp

theorem State.slotBytes_of_boot {a b : State} (h : b.boot.slots = a.boot.slots) (k : Nat) : b.slotBytes k = a.slotBytes k := by
  have hb (off : Nat) : b.slotByte k off = a.slotByte k off := by rw [State.slotByte, State.slotByte, h]
  funext off n
  simp only [State.slotBytes, hb]

theorem State.slotOk_of_boot {a b : State} (h : b.boot.slots = a.boot.slots) (k : Nat) : b.slotOk k = a.slotOk k := by
  rw [State.slotOk, State.slotOk, State.slotBytes_of_boot h]

/-- What the ROM writes of the slot it starts. -/
def State.startSlot (s : State) (k fallback : Nat) : State :=
  ((s.wr P.SysBootSlot 0 k).wr P.SysBootState 0 fallback).wr P.SysFirmwareVersion 0 (s.slotVersion k)

theorem State.startSlot_boot (s : State) (k fallback : Nat) : (s.startSlot k fallback).boot = s.boot := by simp [State.startSlot]

theorem State.startSlot_time (s : State) (k fallback : Nat) : (s.startSlot k fallback).time = s.time := by simp [State.startSlot]

theorem State.rd_startSlot {s : State} (h : s.ordered) (k fallback : Nat) :
    (s.startSlot k fallback).rd P.SysBootSlot 0 = k ∧ (s.startSlot k fallback).rd P.SysBootState 0 = fallback := by
  have o1 := State.ordered_wr h P.SysBootSlot 0 k
  have o2 := State.ordered_wr o1 P.SysBootState 0 fallback
  constructor
  · rw [State.startSlot, State.rd_wr_ne o2 (by decide), State.rd_wr_ne o1 (by decide), State.rd_wr_same h]
  · rw [State.startSlot, State.rd_wr_ne o2 (by decide), State.rd_wr_same o1]

theorem State.sfpReport_boot (s : State) : s.sfpReport.boot = s.boot :=
  foldl_keeps State.boot (fun _ _ => by simp) (List.range 4) s

/-- What a slot report writes. -/
theorem State.slotReport_covers (s : State) (k : Nat) : Foot.upkeep.Covers s (s.slotReport k) := by
  unfold State.slotReport
  exact .ite (.after (.wr ..) <| .wr ..) (.after (.wr ..) <| .wr ..)

/-- Settles O55. -/
theorem resetsAct : Obligations.ResetsAct := by
  refine ⟨?powerUp, ?brownOut, ?supplyLong, ?supplyShort, ?watchdog, ?watchdogIdle, ?force, ?refused, ?boot, ?bootIdle, ?ready,
    ?readyOutOfLimits, ?readyIdle⟩
  case powerUp => exact fun t s => ⟨_, rfl, s.chipReset_leaves t 1 true⟩
  case brownOut => exact fun t s => ⟨_, rfl, s.chipReset_leaves t 3 false⟩
  case supplyLong =>
    intro t ns s hns
    refine ⟨_, ?_, s.chipReset_leaves t 3 false⟩
    change execSupplyInterruption t ns s = _
    simp [execSupplyInterruption, onEvent, hns.not_gt]
  case supplyShort =>
    intro t ns s hns
    change execSupplyInterruption t ns s = _
    simp [execSupplyInterruption, onEvent, hns]
  case watchdog =>
    intro t s hw
    refine ⟨_, ?_, s.chipReset_leaves t 4 false⟩
    change execSystemWatchdog t s = _
    simp [execSystemWatchdog, onEvent, hw]
  case watchdogIdle =>
    intro t s hw
    change execSystemWatchdog t s = _
    simp [execSystemWatchdog, onEvent, hw]
  case force =>
    intro t q s hs hf
    change execSysReset t q s = _
    have hop : sysResetOp q (s.advance t) = .ok 0 [] ((s.advance t).setBoot { s.boot with due := 1 }) := by
      simp [sysResetOp, guarded, hf]
    rw [execSysReset_eq, runReq_of_ok hs hop]
    simp
  case refused =>
    intro t q s hs hf hfe hdue
    refine answers_sysReset_of_driving hs hdue hf ?_
    simp [State.driving, hfe]
  case boot =>
    intro t s hp ho
    let a : State := { s.advance t with time := { State.reset.time with tick := (s.advance t).time.tick, lastTick := (s.advance t).time.tick } }
    let b := (a.slotReport 0).slotReport 1
    let sel := (s.advance t).stored 0
    let w := b.setBoot { b.boot with phase := 1, bootAt := b.time.tick, recovery := !b.slotOk sel && !b.slotOk (1 - sel) }
    have he : exec (.boot t) s = .next (if w.slotOk sel then w.startSlot sel 0
        else if w.slotOk (1 - sel) then w.startSlot (1 - sel) 1 else w.wr P.SysBootState 0 2) := by
      change execBoot t s = _
      rw [execBoot, onEvent, if_neg (by simpa using hp)]
      rfl
    have hcov : Foot.upkeep.Covers a b := .after (State.slotReport_covers ..) (State.slotReport_covers ..)
    have hboot : b.boot = s.boot := by
      simp [b, a, State.slotReport_boot]
    have hsel : sel = s.stored 0 := by simp [sel]
    have hb (k : Nat) : b.slotOk k = s.slotOk k := State.slotOk_of_boot (by rw [hboot]) k
    have hok (k : Nat) : w.slotOk k = s.slotOk k := State.slotOk_of_boot (by simp [w, hboot]) k
    have ho' : w.ordered := hcov.ordered (State.ordered_advance ho t)
    have hlt : w.time.lt = 0 := hcov.parts .lineTime rfl
    have hrec : w.boot.recovery = (!s.slotOk (s.stored 0) && !s.slotOk (1 - s.stored 0)) := by simp [w, hb, hsel]
    have hphase : w.boot.phase = 1 := rfl
    rw [hok, hok, hsel] at he
    refine ⟨_, he, ?_⟩
    clear_value w
    cases h0 : s.slotOk (s.stored 0) with
    | true =>
      obtain ⟨hslot, hstate⟩ := State.rd_startSlot ho' (s.stored 0) 0
      simp [State.startSlot_boot, State.startSlot_time, hslot, hstate, hlt, hrec, hphase, h0]
    | false =>
      cases h1 : s.slotOk (1 - s.stored 0) with
      | true =>
        obtain ⟨-, hstate⟩ := State.rd_startSlot ho' (1 - s.stored 0) 1
        simp [State.startSlot_boot, State.startSlot_time, hstate, hlt, hrec, hphase, h0, h1]
      | false =>
        have hstate : (w.wr P.SysBootState 0 2).rd P.SysBootState 0 = 2 := State.rd_wr_same ho' ..
        simp [hstate, hlt, hrec, hphase, h0, h1]
  case bootIdle =>
    intro t s hp
    change execBoot t s = _
    simp [execBoot, onEvent, hp]
  case ready =>
    intro t s hp hi hb
    refine ⟨_, by
      change execReady t s = _
      rw [execReady, onEvent, if_neg (by simp [State.rb, hp, hi, hb])], ?_⟩
    simp [State.wrF, State.sfpReport_boot]
  case readyOutOfLimits =>
    intro t s hi
    change execReady t s = _
    have h : (s.advance t).rb P.SysIslandState 0 = true := by simp [State.rb, hi]
    simp [execReady, onEvent, h]
  case readyIdle =>
    intro t s hp
    change execReady t s = _
    simp [execReady, onEvent, hp]

end Sys2Proof.Machine

end

/-! The boot record, auxiliary supplies and transceivers. -/

section

-- One declaration after the other: elaborated at once they need more threads than the check has memory for.
set_option Elab.async false

namespace Sys2Proof.Machine

/-- Settles O56. -/
theorem bootRecordSuppliesAndCagesAct : Obligations.BootRecordSuppliesAndCagesAct := by
  refine ⟨?bootStore, ?recordWritten, ?nothingToStore, ?overload, ?retry, ?retryEarly, ?inserted, ?removed⟩
  case bootStore =>
    intro t q s hs
    change execSysBootStore t q s = _
    refine runReq_of_ok hs ?_
    simp
  case recordWritten =>
    intro t j r s hj
    refine ⟨_, rfl, ?_⟩
    cases hr : j.req with
    | none => cases hc : s.bootCopy <;> simp [hj, hr, hc]
    | some q => cases hc : s.bootCopy <;> simp [hj, hr, hc]
  case nothingToStore =>
    intro t s h
    change execBootRecordWritten t s = _
    simp [execBootRecordWritten, onEvent, h]
  case overload =>
    intro t n s hn hb
    change execAuxSupplyOverload t n s = _
    simp [execAuxSupplyOverload, onUnit, hn, hb]
  case retry =>
    intro t n o s hn hb ht ho
    change execAuxSupplyRetry t n o s = _
    have ht' : ¬ (s.advance t).time.tick < s.boot.auxAt[n]?.getD 0 + 1000000000 := by simpa using ht
    simp [execAuxSupplyRetry, onUnit, hn, hb, ho, ht']
  case retryEarly =>
    intro t n o s hn ht
    change execAuxSupplyRetry t n o s = _
    have ht' : ¬ s.boot.auxAt[n]?.getD 0 + 1000000000 ≤ (s.advance t).time.tick := by simpa using ht
    simp [execAuxSupplyRetry, onUnit, hn, ht']
  case inserted =>
    intro t n r i s hn
    change execSfpInserted t n r i s = _
    simp [execSfpInserted, onUnit, hn]
  case removed =>
    intro t n f s hn hf
    change execSfpRemoved t n f s = _
    simp [execSfpRemoved, onUnit, hn, hf]

end Sys2Proof.Machine

end

/-! Island measurements, halts and resumptions. -/

section

-- One declaration after the other: elaborated at once they need more threads than the check has memory for.
set_option Elab.async false

namespace Sys2Proof.Machine

/-- What an island of the loop path that is out of its limits brings: the pairs off and holds. -/
def Foot.islandOff : Foot where
  parts := [.ax, .mod]
  pars := [P.AxisHoldReason, P.AxisState, P.LoopStatus]

/-- What a hold changes. -/
def Foot.holdSide : Foot where
  parts := [.ax]
  pars := [P.AxisHoldReason, P.AxisState, P.LoopStatus]

theorem State.holdSide_hold (s : State) (a k : Nat) : Foot.holdSide.Covers s (s.hold a k) :=
  .after (.ite (.after (.setAxis ..) <| .after (.wrBit ..) <| .wr ..) (.refl _)) <| .wrBit ..

theorem State.holdSide_unhold (s : State) (a k : Nat) : Foot.holdSide.Covers s (s.unhold a k) := .wrBit ..

theorem State.halted_pairsOff (s : State) : s.pairsOff.mod.halted = s.mod.halted :=
  foldl_keeps (fun s => s.mod.halted) (fun s n => by simp [State.gpOff, State.setGp]) (List.range 12) s

/-- What a loop writes to a parameter of each listed instance is read there afterwards. -/
theorem State.rd_foldl_wr (p v : Nat) (l : List Nat) {i : Nat} {s : State} (h : tabSorted none s.par.active = true)
    (hi : i ∈ l ∨ s.rd p i = v) : (l.foldl (fun s i => s.wr p i v) s).rd p i = v := by
  induction l generalizing s with
  | nil => simpa using hi
  | cons x l ih =>
    refine ih (State.ordered_wr h ..) ?_
    rw [State.rd_wr h]
    obtain hi | hi := hi
    · obtain rfl | hi := List.mem_cons.1 hi
      · simp
      · exact .inl hi
    · simp [hi]

/-- Settles O57. -/
theorem islandsAct : Obligations.IslandsAct := by
  refine ⟨?within, ?outOfLimits, ?haltLoopPath, ?resumeOff, ?resumeNotHalted, ?resumeHalted, ?haltOff, ?haltProcessor⟩
  case within =>
    intro t m s hf hc hs ht ho
    refine ⟨(((s.advance t).wr P.SysIslandState 0 0).orBits P.SysIslandLatched 0 0), ?_, ?_, ?_, ?_⟩
    · change execIslandMeasurement t m s = _
      simp [execIslandMeasurement, onEvent, hf, hc, hs, ht]
    · have ho' := State.ordered_advance ho t
      exact (State.rd_wr_ne (State.ordered_wr ho' ..) (by decide) ..).trans (State.rd_wr_same ho' ..)
    · simp [State.orBits]
    · simp [State.orBits]
  case outOfLimits =>
    intro t m s ho hf h0 hc
    have ho' := State.ordered_advance ho t
    let u := ((s.advance t).wr P.SysIslandState 0 (clockBits m.clock)).orBits P.SysIslandLatched 0 (clockBits m.clock)
    have hu : u.rd P.SysIslandState 0 = clockBits m.clock :=
      (State.rd_wr_ne (State.ordered_wr ho' ..) (by decide) ..).trans (State.rd_wr_same ho' ..)
    let w := u.setBoot { u.boot with islBadAt := some u.time.tick, islFault := true, islEarly := u.boot.islEarly || decide (u.boot.phase ≤ 1) }
    have he : ∃ s', exec (.islandMeasurement t m) s = .next s' ∧ Foot.islandOff.Covers w s' := by
      refine ⟨_, by
        change execIslandMeasurement t m s = _
        simp [execIslandMeasurement, onEvent, hf, h0, hc]
        rfl, ?_⟩
      have hevents (l : List Nat) : Foot.islandOff.Covers w (l.foldl (fun s k => s.raise E.islandOutOfLimits k []) w) :=
        .foldl _ fun _ _ => .raise ..
      split
      · exact .ite (.refl _) (hevents _)
      · exact .after (.foldl _ fun _ _ => .mono rfl (State.holdSide_hold ..)) <| .after (.pairsOff ..) <| .after (.setMod ..) <|
          .ite (.refl _) (hevents _)
    obtain ⟨s', he, hcov⟩ := he
    have hb : s'.boot = w.boot := hcov.parts .boot rfl
    refine ⟨s', he, (hcov.rd (State.ordered_wr (State.ordered_wr ho' ..) ..) rfl rfl 0).trans hu, ?_, ?_⟩
    · rw [hb]
      rfl
    · rw [hb]
      simp [w, u, State.orBits]
  case haltLoopPath =>
    intro t i s hi
    refine ⟨(List.range 128).foldl (fun s a => s.hold a holdHALT)
      ((s.advance t).setMod { s.mod with halted := setBit s.mod.halted i true }).pairsOff, ?_, ?_⟩
    · change execIslandHalt t i s = _
      simp [execIslandHalt, onUnit, hi]
    · rw [(Foot.Covers.foldl _ fun s a => s.holdSide_hold a _).parts .mod rfl, State.halted_pairsOff]
      rfl
  case resumeOff =>
    intro t i s h5 h9
    change execIslandResume t i s = _
    have h4 : 4 ≤ i := by omega
    have hne : i ≠ 4 := by omega
    simp [execIslandResume, onUnit, h9, h4, hne]
  case resumeNotHalted =>
    intro t i s hi hb
    change execIslandResume t i s = _
    have h9 : i < 9 := by omega
    simp [execIslandResume, onUnit, h9, hi.not_ge, hb]
  case resumeHalted =>
    intro t i s hi hb
    have h9 : i < 9 := by omega
    have he : exec (.islandResume t i) s = .next
        (let s' := (s.advance t).setMod { s.mod with halted := setBit s.mod.halted i false }
         if s'.mod.halted ≠ 0 then s'
         else (List.range 128).foldl (fun s a => s.unhold a holdHALT) (s'.setMod { s'.mod with relTick := s'.time.tick })) := by
      change execIslandResume t i s = _
      simp [execIslandResume, onUnit, h9, hi.not_ge, hb]
    refine ⟨_, he, ?_⟩
    dsimp only
    split
    · rfl
    · rw [(Foot.Covers.foldl _ fun s a => s.holdSide_unhold a _).parts .mod rfl]
      rfl
  case haltOff =>
    intro t i s h5 h8
    change execIslandHaltOffLoopPath t i s = _
    have h4 : 4 ≤ i ∧ i ≤ 8 := by omega
    have hne : i ≠ 4 ∧ i ≠ 8 := by omega
    simp [execIslandHaltOffLoopPath, onUnit, h4, hne]
  case haltProcessor =>
    intro t i s hi ho
    subst hi
    refine ⟨(List.range 6).foldl (fun s c => s.wr P.ProcCoreState c 3)
      ((s.advance t).setBoot { s.boot with offHalt := setBit s.boot.offHalt 4 true }), ?_, ?_, ?_⟩
    · change execIslandHaltOffLoopPath t 4 s = _
      simp [execIslandHaltOffLoopPath, onUnit]
    · rw [foldl_keeps State.boot (fun s c => by simp)]
      rfl
    · exact fun c hc => State.rd_foldl_wr P.ProcCoreState 3 _ (State.ordered_advance ho t) (.inl (List.mem_range.2 hc))

end Sys2Proof.Machine

end

/-! The image store and the firmware update. -/

section

-- One declaration after the other: elaborated at once they need more threads than the check has memory for.
set_option Elab.async false

namespace Sys2Proof.Machine

theorem execFirmwareSwitch_of_next {t : Nat} {q : Req} {s s' : State} (h : runReq 0x0F12 t q s (firmwareSwitchOp q) = .next s') :
    exec (.firmwareSwitch t q) s =
      .next (if s'.boot.due = 2 then ((s'.setBoot { s'.boot with due := 0 }).wr P.UpdState 0 2).coresStop else s') := by
  change execFirmwareSwitch t q s = _
  rw [execFirmwareSwitch_eq, h]

/-- Settles O58. -/
theorem firmwareRequestsAct : Obligations.FirmwareRequestsAct := by
  refine ⟨?write, ?writeBegin, ?check, ?switch, ?switched, ?noSwitch, ?trialEnd, ?trialEarly⟩
  case write =>
    intro t q s hs hlen hk hmax hbusy hb
    change execImageWrite t q s = _
    refine runReq_of_ok hs ?_
    refine (guarded_of_none ?_).trans ?_
    · simp [hlen.not_gt, hbusy, slotMax]
      omega
    · simp [hb]
  case writeBegin =>
    intro t q s hs hlen hk hmax hbusy hb hslots ho
    have ho' := State.ordered_advance ho t
    let k := fld q.body 0 1
    let u := (((s.advance t).wr P.SysImageState k 0).wr P.SysImageVersion k 0).wr P.UpdWritten 0 0
    let w := u.setBoot { u.boot with slots := u.boot.slots.set k ⟨true, []⟩ }
    have o1 : ((s.advance t).wr P.SysImageState k 0).ordered := State.ordered_wr ho' ..
    have o2 : (((s.advance t).wr P.SysImageState k 0).wr P.SysImageVersion k 0).ordered := State.ordered_wr o1 ..
    have ow : w.ordered := State.ordered_wr o2 ..
    have hw : w.rd P.SysImageState k = 0 :=
      (State.rd_wr_ne o2 (by decide) ..).trans <| (State.rd_wr_ne o1 (by decide) ..).trans (State.rd_wr_same ho' ..)
    refine ⟨(w.wr P.UpdState 0 1).wr P.UpdWritten 0 (max (w.rd P.UpdWritten 0) (fld q.body 4 4)), ?_, ?_, ?_⟩
    · change execImageWrite t q s = _
      refine runReq_of_ok hs ?_
      refine (guarded_of_none ?_).trans ?_
      · simp [hlen, hbusy, slotMax]
        omega
      · simp [hb, hlen, w, u, k]
    · have hk' : k < u.boot.slots.length := by simp [u, hslots, k, hk]
      change (u.boot.slots.set k _).getD k _ = _
      simp [hk']
    · exact (State.rd_wr_ne (State.ordered_wr ow ..) (by decide) ..).trans <| (State.rd_wr_ne ow (by decide) ..).trans hw
  case check =>
    intro t q s hs hk
    change execImageCheck t q s = _
    refine runReq_of_ok hs ?_
    refine (guarded_of_none ?_).trans ?_
    · simp
      omega
    · cases hok : s.slotOk (fld q.body 0 1) <;> simp [hok]
  case switch =>
    intro t q s hs hk hslot hopen hasm hst hsw hdue ho
    have hk' : ¬ 1 < fld q.body 0 1 := by omega
    have ho' := State.ordered_advance ho t
    cases hok : s.slotOk (fld q.body 0 1) with
    | false =>
      have he : runReq 0x0F12 t q s (firmwareSwitchOp q) = .next ((s.advance t).reply q 0x0331 (refBytes 0 0 0)) :=
        runReq_of_no (r := ⟨0x0331, 0, 0, 0⟩) hs (by simp [firmwareSwitchOp, guarded, hk', hslot, hok])
      refine ⟨(s.advance t).reply q 0x0331 (refBytes 0 0 0), ?_, by simp, fun _ => rfl⟩
      rw [execFirmwareSwitch_of_next he, if_neg (by simpa using hdue)]
    | true =>
      by_cases hv : s.slotVersion (fld q.body 0 1) / 2 ^ 24 = s.rd P.SysFirmwareVersion 0 / 2 ^ 24
      · have hop : firmwareSwitchOp q (s.advance t) =
            .ok 0x0101 [] ((s.advance t).setBoot { s.boot with switch := some (fld q.body 0 1, q, (s.advance t).time.tick), due := 2 }) :=
              by
          refine (guarded_of_none ?_).trans ?_
          · simp at hv
            simp [hk', hslot, hok, hv, hopen, hasm, hst, hsw]
          · simp
        refine ⟨_, execFirmwareSwitch_of_next (runReq_of_ok hs hop), fun _ _ => ?_, by simp⟩
        rw [if_pos (by simp)]
        let r := ((s.advance t).setBoot { s.boot with switch := some (fld q.body 0 1, q, (s.advance t).time.tick), due := 2 }).reply q 0x0101 []
        have hr : r.ordered := (Foot.Covers.reply (F := .nothing) ..).ordered ho'
        have hstop : Foot.stopSide.Covers _ ((r.setBoot { r.boot with due := 0 }).wr P.UpdState 0 2).coresStop := .coresStop _
        refine ⟨?_, ?_, ?_⟩
        · rw [hstop.parts .boot rfl]
          simp [r]
        · exact (hstop.rd (State.ordered_wr hr ..) rfl rfl 0).trans (State.rd_wr_same (s := r.setBoot _) hr ..)
        · rfl
      · have hv' := hv
        have hop : firmwareSwitchOp q (s.advance t) = .no ⟨0x0243, 0, 0, 0⟩ := by
          simp at hv
          simp [firmwareSwitchOp, guarded, hk', hslot, hok, hv]
        exact ⟨_, execFirmwareSwitch_of_next (runReq_of_no hs hop), fun _ h => absurd h hv', by simp⟩
  case switched =>
    intro t k q x s ho hsw
    have ho' := State.ordered_advance ho t
    let u := ((s.advance t).setBoot { s.boot with switch := none, trial := some (s.advance t).time.tick }).setPr
      { s.pr with restart := false }
    let v := (u.wr P.UpdState 0 3).wr P.SysBootSlot 0 k
    let w := v.wr P.SysFirmwareVersion 0 (v.slotVersion k)
    have o1 : (u.wr P.UpdState 0 3).ordered := State.ordered_wr (s := u) ho' ..
    have o2 : v.ordered := State.ordered_wr o1 ..
    have o3 : w.ordered := State.ordered_wr o2 ..
    have he : exec (.firmwareSwitched t) s = .next ((w.raise E.firmwareSwitched 0 []).complete q 0 w.time.cycle 0 0 0 0) := by
      change execFirmwareSwitched t s = _
      simp [execFirmwareSwitched, onEvent, hsw, w, v, u, State.slotVersion, State.slotBytes, State.slotByte]
    have hc : Foot.nothing.Covers w ((w.raise E.firmwareSwitched 0 []).complete q 0 w.time.cycle 0 0 0 0) := .after (.complete ..)
      (.raise ..)
    refine ⟨_, he, ?_, ?_, ?_, ?_, ?_⟩
    · rw [hc.parts .boot rfl]
      simp [w, v, u]
    · rw [hc.parts .boot rfl]
      simp [w, v, u]
    · rw [hc.parts .pr rfl]
      simp [w, v, u]
    · rw [hc.rd o3 rfl rfl, State.rd_wr_ne o2 (by decide), State.rd_wr_ne o1 (by decide), State.rd_wr_same (s := u) ho']
    · rw [hc.rd o3 rfl rfl, State.rd_wr_ne o2 (by decide), State.rd_wr_same o1]
  case noSwitch =>
    intro t s h
    change execFirmwareSwitched t s = _
    simp [execFirmwareSwitched, onEvent, h]
  case trialEnd =>
    intro t x s ho htr hx hw
    have ho' := State.ordered_advance ho t
    let w := ((s.advance t).wr P.SysBootSelect 0 (s.rd P.SysBootSlot 0)).wr P.UpdState 0 0
    have o1 : ((s.advance t).wr P.SysBootSelect 0 (s.rd P.SysBootSlot 0)).ordered := State.ordered_wr ho' ..
    refine ⟨w.setBoot { w.boot with trial := none, storing := w.boot.storing ++ [{ vals := w.bootVals false, req := none }] }, ?_,
      rfl, ?_, ?_, ?_⟩
    · change execFirmwareTrialEnd t s = _
      simp [execFirmwareTrialEnd, onEvent, htr, hx, hw, w]
    · exact (State.rd_wr_ne o1 (by decide) ..).trans (State.rd_wr_same ho' ..)
    · exact State.rd_wr_same o1 ..
    · simp [w]
  case trialEarly =>
    intro t x s htr hx
    change execFirmwareTrialEnd t s = _
    simp [execFirmwareTrialEnd, onEvent, htr, hx.not_ge]

end Sys2Proof.Machine

end

/-! Bits that are taken away. -/

section

-- One declaration after the other: elaborated at once they need more threads than the check has memory for.
set_option Elab.async false

namespace Sys2Proof.Machine

theorem land_mod_two_le (v m : Nat) : (v &&& m) % 2 ≤ v % 2 ∧ (v &&& m) % 2 ≤ m % 2 ∧ (v % 2 + m % 2) ≤ (v &&& m) % 2 + 1 := by
  have h := Nat.testBit_and v m 0
  simp only [Nat.testBit_zero, ← Bool.decide_and, decide_eq_decide] at h
  generalize v &&& m = x at h
  omega

/-- A mask taken away by subtraction borrows from no other bit. -/
theorem testBit_sub_land (k : Nat) : ∀ v m : Nat, (v - (v &&& m)).testBit k = (v.testBit k && !m.testBit k) := by
  induction k with
  | zero =>
    intro v m
    have hle : v &&& m ≤ v := Nat.and_le_left
    have h := land_mod_two_le v m
    simp only [Nat.testBit_zero, ← decide_not, ← Bool.decide_and, decide_eq_decide]
    generalize v &&& m = x at h hle
    omega
  | succ k ih =>
    intro v m
    have hle : v &&& m ≤ v := Nat.and_le_left
    have h := land_mod_two_le v m
    have he : (v - (v &&& m)) / 2 = v / 2 - (v &&& m) / 2 := by
      generalize v &&& m = x at h hle
      omega
    rw [Nat.testBit_succ, Nat.testBit_succ, Nat.testBit_succ, he, Nat.and_div_two, ih]

theorem State.bitOf_rd_clrBits {s : State} (ho : s.ordered) (p i m k : Nat) :
    bitOf ((s.clrBits p i m).rd p i) k = (bitOf (s.rd p i) k && !m.testBit k) := by
  rw [State.clrBits, State.rd_wr_same ho]
  exact testBit_sub_land k _ m

/-- Clearing a bit, of whatever instance, sets none. -/
theorem State.bitOf_rd_wrBit_false {s : State} (ho : s.ordered) {p i k : Nat} (h : bitOf (s.rd p i) k = false) (j l : Nat) :
    bitOf ((s.wrBit p j l false).rd p i) k = false := by
  by_cases hp : pkey p i = pkey p j
  · have he (v : State) : v.rd p i = v.rd p j := by rw [State.rd, State.rd, hp]
    rw [he] at h ⊢
    by_cases hk : k = l
    · rw [hk]
      exact State.bitOf_rd_wrBit_same ho ..
    · rw [State.bitOf_rd_wrBit_ne ho _ _ hk]
      exact h
  · rw [State.wrBit, State.rd_wr ho, if_neg hp]
    exact h

end Sys2Proof.Machine

end

/-! The Lockkeeper's inputs, processors, checks and internal faults. -/

section

-- One declaration after the other: elaborated at once they need more threads than the check has memory for.
set_option Elab.async false

namespace Sys2Proof.Machine

/-- The Lockkeeper but for its two processors' own states: inputs, fault, bank and the rest. -/
def State.safShared (s : State) : SafRec := { s.saf with prs := [] }

theorem State.safShared_setProc (s : State) (p : Nat) (x : SafProc) : (s.setProc p x).safShared = s.safShared := rfl

theorem State.safShared_of_saf {a b : State} (h : b.saf = a.saf) : b.safShared = a.safShared := by rw [safShared, safShared, h]

theorem State.safLines_saf (s : State) : s.safLines.saf = s.saf := by simp [State.safLines]

theorem State.safShared_setGroupState (s : State) (p g v : Nat) : (s.setGroupState p g v).safShared = s.safShared := by
  unfold State.setGroupState
  split
  · rfl
  · refine (State.safShared_of_saf (?_ : _ = (s.setProc p { s.proc p with gs := (s.proc p).gs.set g v }).saf)).trans ?_
    · simp [State.safLines]
    · exact State.safShared_setProc ..

theorem State.safShared_ite {c : Prop} [Decidable c] {a b s : State} (ha : a.safShared = s.safShared) (hb : b.safShared = s.safShared) :
    (if c then a else b).safShared = s.safShared := by
  split
  · exact ha
  · exact hb

theorem State.safShared_demandReport (s : State) (g new : Nat) : (s.demandReport g new).safShared = s.safShared :=
  foldl_keeps State.safShared (fun s i => State.safShared_of_saf (by simp [State.inc])) _ s

theorem State.safShared_guardTest (s : State) (p g : Nat) : (s.guardTest p g).safShared = s.safShared :=
  State.safShared_ite rfl (State.safShared_ite rfl (State.safShared_ite rfl rfl))

theorem State.safShared_groupSettle (s : State) (p g : Nat) : (s.groupSettle p g).safShared = s.safShared := by
  unfold State.groupSettle
  extract_lets dm s1 s2 s3
  have h1 : s1.safShared = s.safShared := State.safShared_ite (State.safShared_setGroupState ..) rfl
  have h2 : s2.safShared = s.safShared := .trans (State.safShared_ite (State.safShared_setGroupState ..) rfl) h1
  have h3 : s3.safShared = s.safShared := .trans (State.safShared_ite (State.safShared_setGroupState ..) rfl) h2
  clear_value s3
  exact .trans (State.safShared_ite ((State.safShared_setGroupState ..).trans (State.safShared_setProc ..)) rfl) h3

theorem State.safShared_groupEval (s : State) (p g : Nat) : (s.groupEval p g).safShared = s.safShared := by
  unfold State.groupEval
  extract_lets r dm new s1 moved forced guardOnly auto r2 s2 sto r3 s3 r4 s4
  have h1 : s1.safShared = s.safShared := (State.safShared_guardTest ..).trans (State.safShared_demandReport ..)
  have h2 : s2.safShared = s.safShared := (State.safShared_setProc ..).trans h1
  have h3 : s3.safShared = s2.safShared := State.safShared_setProc ..
  have h4 : s4.safShared = s2.safShared :=
    State.safShared_ite rfl <| State.safShared_ite (State.safShared_ite ((State.safShared_setGroupState ..).trans h3) <|
      (State.safShared_setGroupState ..).trans ((State.safShared_setProc ..).trans h3)) <|
      State.safShared_ite (State.safShared_setGroupState ..) (State.safShared_ite (State.safShared_setGroupState ..) rfl)
  exact (State.safShared_ite (State.safShared_setGroupState ..) ((State.safShared_groupSettle ..).trans h4)).trans h2

theorem State.safShared_safEval (s : State) (p : Nat) : (s.safEval p).safShared = s.safShared :=
  State.safShared_ite (foldl_keeps State.safShared (fun s g => State.safShared_groupEval s p g) _ s) rfl

theorem State.safShared_safEvals (s : State) : s.safEvals.safShared = s.safShared :=
  (State.safShared_safEval ..).trans (State.safShared_safEval ..)

theorem State.safShared_safExchange (s : State) : s.safExchange.safShared = s.safShared :=
  foldl_keeps State.safShared (fun s p => State.safShared_setProc s ..) _ s

theorem State.safShared_safBegin (s : State) : s.safBegin.safShared = s.safShared :=
  foldl_keeps State.safShared (fun s p => State.safShared_setProc s ..) _ s

theorem State.safIn_of_shared {a b : State} (h : b.safShared = a.safShared) (i : Nat) : b.safIn i = a.safIn i := by
  have hi : b.safShared.ins = a.safShared.ins := by rw [h]
  change b.saf.ins = a.saf.ins at hi
  rw [State.safIn, State.safIn, hi]

/-! ### Internal faults -/

/-- Internal fault `c` stands, with every group in state 5 in both processors and no reset waiting. -/
def State.faulted (s : State) (c : Nat) : Prop := s.saf.fault = c ∧ s.saf.rstDue = false ∧ ∀ x ∈ s.saf.prs, x.gs = List.replicate 8 5

theorem State.faulted.of_saf {a b : State} {c : Nat} (h : a.faulted c) (hs : b.saf = a.saf) : b.faulted c := by
  rw [State.faulted, hs]
  exact h

theorem State.safFault_saf {s : State} (h : s.saf.fault = 0) (c : Nat) : (s.safFault c).saf =
    { s.saf with fault := c, rstDue := false, prs := s.saf.prs.map fun x => { x with gs := List.replicate 8 5, auto := 0, rst := 0 } } := by
  rw [State.safFault, if_neg (by simp [h])]
  simp [State.safLines, State.setSaf]

theorem State.faulted_safFault {s : State} (h : s.saf.fault = 0) (c : Nat) : (s.safFault c).faulted c := by
  rw [State.faulted, State.safFault_saf h]
  simp

/-- The first fault stands. -/
theorem State.safFault_of_faulted {s : State} {c : Nat} (h : s.faulted (c + 1)) (d : Nat) : s.safFault d = s := by
  rw [State.safFault, if_pos (by rw [h.1]; exact Nat.succ_ne_zero c)]

theorem State.safEvals_of_faulted {s : State} {c : Nat} (h : s.faulted (c + 1)) : s.safEvals = s := by
  have he (p : Nat) : s.safEval p = s := by simp [State.safEval, h.1]
  rw [State.safEvals, he, he]

theorem State.faulted_safExchange {s : State} {c : Nat} (h : s.faulted c) : s.safExchange.faulted c := by
  refine List.foldlRecOn (motive := fun v : State => v.faulted c) _ _ h fun v hv p _ => ⟨hv.1, hv.2.1, fun x hx => ?_⟩
  rcases List.mem_or_eq_of_mem_set hx with hm | rfl
  · exact hv.2.2 x hm
  · obtain ⟨-, -, hg⟩ := hv
    by_cases hp : p < v.saf.prs.length
    · simpa [State.proc, List.getD_eq_getElem?_getD, List.getElem?_eq_getElem hp] using hg _ (List.getElem_mem hp)
    · rw [State.setProc, State.setSaf, List.set_eq_of_length_le (by omega)] at hx
      exact hg _ hx

/-- The end of a safety cycle: frames leave, whatever the fault. -/
theorem State.faulted_cycle {s : State} {c : Nat} (b : Bool) (h : s.faulted (c + 1)) :
    let s := if b then s.safExchange.safEvals else s
    let s := if s.saf.rstDue then s.safReset else s
    ((s.frame .safety 0 (s.safFrame 0)).frame .safety 1 (s.safFrame 1)).faulted (c + 1) := by
  intro u v
  have hu : u.faulted (c + 1) := by
    dsimp only [u]
    split
    · rw [State.safEvals_of_faulted (State.faulted_safExchange h)]
      exact State.faulted_safExchange h
    · exact h
  have hv : v = u := by simp [v, hu.2.1]
  exact State.faulted.of_saf (a := u) hu (by simp [hv])

/-- The checks that follow a fault find it standing. -/
theorem State.faulted_ite {s : State} {c : Nat} (h : s.faulted (c + 1)) {b : Prop} [Decidable b] (d : Nat) :
    (if b then s.safFault d else s).faulted (c + 1) := by
  rw [State.safFault_of_faulted h, ite_self]
  exact h

theorem State.faulted_ite_not {s : State} {c : Nat} (h : s.faulted (c + 1)) {b : Prop} [Decidable b] (d : Nat) :
    (if b then s else s.safFault d).faulted (c + 1) := by
  rw [State.safFault_of_faulted h, ite_self]
  exact h

/-- A safety cycle whose first two checks fail is fault 3. -/
theorem State.faulted_safChecks_three {s : State} {i : SafetyObs} (hf : s.saf.fault = 0) (ha : i.bankA = s.saf.bank) (hb : i.bankB = s.saf.bank)
    (h : 2 ≤ s.saf.linkBad ∨ 2 ≤ s.saf.differ) : (s.safChecks i).faulted 3 := by
  unfold State.safChecks
  dsimp only
  rw [ha, hb, bne_self_eq_false, Bool.or_self, Bool.and_false, if_neg Bool.false_ne_true, if_pos h]
  exact State.faulted_ite (State.faulted_ite_not (State.faulted_ite_not (State.faulted_safFault hf 3) 5) 9) 6

/-- One whose supply alone is wrong so far is fault 5. -/
theorem State.faulted_safChecks_five {s : State} {i : SafetyObs} (hf : s.saf.fault = 0) (ha : i.bankA = s.saf.bank) (hb : i.bankB = s.saf.bank)
    (hl : ¬(2 ≤ s.saf.linkBad ∨ 2 ≤ s.saf.differ)) (h : i.supplyOk = false) : (s.safChecks i).faulted 5 := by
  unfold State.safChecks
  dsimp only
  rw [ha, hb, bne_self_eq_false, Bool.or_self, Bool.and_false, if_neg Bool.false_ne_true, if_neg hl, h, if_neg Bool.false_ne_true]
  exact State.faulted_ite (State.faulted_ite_not (State.faulted_safFault hf 5) 9) 6

/-- One whose checks all pass changes nothing. -/
theorem State.safChecks_of_right {s : State} {i : SafetyObs} (ha : i.bankA = s.saf.bank) (hb : i.bankB = s.saf.bank)
    (hl : ¬(2 ≤ s.saf.linkBad ∨ 2 ≤ s.saf.differ)) (hs : i.supplyOk = true) (ht : i.tempOk = true)
    (ho : ((List.range 8).all fun g => (s.stoOn 0 g || !bitOf i.readA g) && (s.stoOn 1 g || !bitOf i.readB g)) = true) : s.safChecks i = s := by
  unfold State.safChecks
  dsimp only
  rw [ha, hb, bne_self_eq_false, Bool.or_self, Bool.and_false, if_neg Bool.false_ne_true, if_neg hl, if_pos hs, if_pos ht]
  rw [List.all_eq_true] at ho
  refine if_neg ?_
  simp only [List.any_eq_true, Bool.or_eq_true, Bool.and_eq_true, Bool.not_eq_true', not_exists, not_and, not_or] at ho ⊢
  intro g hg
  obtain ⟨h0, h1⟩ := ho g hg
  exact ⟨fun hn => by simpa [hn] using h0, fun hn => by simpa [hn] using h1⟩

/-- The state a safety cycle makes its checks in. -/
def State.cycleBegun (s : State) (i : SafetyObs) : State :=
  s.setSaf { s.saf with
    linkBad := if i.linkOk then 0 else s.saf.linkBad + 1
    differ := if !i.linkOk then s.saf.differ else if (s.proc 0).gs = (s.proc 1).gs then 0 else s.saf.differ + 1
    outRb := i.readA % 256 + 256 * (i.readB % 256), seq := (s.saf.seq + 1) % 256 }

/-- A safety cycle whose checks end in a fault leaves that fault. -/
theorem exec_safetyCycle_of_faulted {t : Nat} {i : SafetyObs} {s : State} {c : Nat}
    (h : (((s.advance t).cycleBegun i).safChecks i).faulted (c + 1)) :
    ∃ s', exec (.safetyCycle t i) s = .next s' ∧ s'.saf.fault = c + 1 ∧ ∀ x ∈ s'.saf.prs, x.gs = List.replicate 8 5 := by
  obtain ⟨h1, -, h2⟩ := State.faulted_cycle i.linkOk h
  exact ⟨_, rfl, h1, h2⟩

/-! ### The status lines -/

/-- In every processor of which the state is kept a group in state 5 holds STO and not SS1; so does one without a kept state. -/
theorem State.safLineWord_of_faulted {s : State} {c : Nat} (h : s.faulted c) : s.safLineWord = 0xFF := by
  obtain ⟨-, -, hgs⟩ := h
  have hp (p : Nat) : (s.proc p).gs = List.replicate 8 5 ∨ (s.proc p).gs = List.replicate 8 0 := by
    rw [State.proc, List.getD_eq_getElem?_getD]
    by_cases hp : p < s.saf.prs.length
    · rw [List.getElem?_eq_getElem hp]
      exact .inl (hgs _ (List.getElem_mem hp))
    · rw [List.getElem?_eq_none (by omega)]
      exact .inr rfl
  have hg (p g : Nat) : s.gState p g = 5 ∨ s.gState p g = 0 := by
    rw [State.gState, List.getD_eq_getElem?_getD]
    rcases hp p with h | h <;> rw [h, List.getElem?_replicate] <;> split <;> simp
  have hsto (g : Nat) : s.stoLine g = true := by
    rcases hg 0 g with h | h <;> simp [State.stoLine, State.stoLineOf, h]
  have hss1 (g : Nat) : s.ss1Line g = false := by
    have hl (p : Nat) : s.ss1LineOf p g = false := by
      rcases hg p g with h | h <;> simp [State.ss1LineOf, h]
    simp [State.ss1Line, hl]
  simp only [State.safLineWord, hsto, hss1]
  decide

/-! ### Inputs -/

theorem State.safIn_setSafIn_same {s : State} (h : tabSorted none s.saf.ins = true) (i : Nat) (x : SafIn) : (s.setSafIn i x).safIn i = x :=
  tabGet_tabSet_same _ _ _ _ h

theorem State.safIn_setSafIn_ne {s : State} (h : tabSorted none s.saf.ins = true) {i k : Nat} (hk : k ≠ i) (x : SafIn) :
    (s.setSafIn i x).safIn k = s.safIn k :=
  tabGet_tabSet_ne _ _ _ _ _ _ h hk

/-- A pass over the inputs, each of which changes by itself alone: at its turn input `k` becomes `f k`, which the turns of others leave. -/
theorem State.safIn_foldl {g : State → Nat → State} {f : State → Nat → SafIn}
    (hs : ∀ v k, tabSorted none v.saf.ins = true → tabSorted none (g v k).saf.ins = true)
    (hn : ∀ v k i, tabSorted none v.saf.ins = true → i ≠ k → (g v k).safIn i = v.safIn i ∧ f (g v k) i = f v i)
    (hf : ∀ v k, tabSorted none v.saf.ins = true → (g v k).safIn k = f v k) :
    ∀ (l : List Nat) (s : State), l.Nodup → tabSorted none s.saf.ins = true → ∀ i,
      (l.foldl g s).safIn i = if i ∈ l then f s i else s.safIn i
  | [], s, _, _, i => by simp
  | k :: l, s, hl, h, i => by
    obtain ⟨hk, hl⟩ := List.nodup_cons.1 hl
    refine (State.safIn_foldl hs hn hf l (g s k) hl (hs s k h) i).trans ?_
    by_cases he : i = k
    · subst he
      rw [if_neg hk, if_pos List.mem_cons_self, hf s i h]
    · obtain ⟨h1, h2⟩ := hn s k i h he
      simp only [h1, h2, List.mem_cons, he, false_or]

theorem State.sorted_setSafIn {s : State} (h : tabSorted none s.saf.ins = true) (i : Nat) (x : SafIn) :
    tabSorted none (s.setSafIn i x).saf.ins = true :=
  tabSorted_tabSet _ _ _ _ none (by simp) h

theorem State.sampled_congr {v s : State} {i : Nat} (hi : v.safIn i = s.safIn i) (hb : v.saf.bank = s.saf.bank) (ht : v.saf.tpAt = s.saf.tpAt)
    (hn : v.time = s.time) (ch : Nat) (lv : Bool) : v.sampled ch i lv = s.sampled ch i lv := by
  unfold State.sampled State.tpOff State.openFilter SafRec.sw
  rw [hi, hb, ht, hn]

/-- A test pulse's result on an input. -/
def State.pulseIn (s : State) (b : Bool) (w i : Nat) : SafIn :=
  let x := s.safIn i
  if s.saf.sw (i / 2 + 1) then x
  else { x with code := if bitOf w i then 3 else if bitOf w (12 + i) then 4 else x.code, stage := if bitOf w i || bitOf w (12 + i) then 0 else x.stage
                short := x.short.set b.toNat (bitOf w i || bitOf w (12 + i)) }

/-- An input's turn in a test pulse. -/
def State.pulsed (b : Bool) (w : Nat) (s : State) (i : Nat) : State := if s.saf.sw (i / 2 + 1) then s else s.setSafIn i
  { s.safIn i with
    code := if bitOf w i then 3 else if bitOf w (12 + i) then 4 else (s.safIn i).code, stage := if bitOf w i || bitOf w
      (12 + i) then 0 else (s.safIn i).stage
    short := (s.safIn i).short.set b.toNat (bitOf w i || bitOf w (12 + i)) }

theorem State.sorted_pulsed {s : State} (h : tabSorted none s.saf.ins = true) (b : Bool) (w i : Nat) :
    tabSorted none (State.pulsed b w s i).saf.ins = true := by
  unfold State.pulsed
  split
  · exact h
  · exact State.sorted_setSafIn h ..

theorem State.tpAt_pulsed (s : State) (b : Bool) (w i : Nat) : (State.pulsed b w s i).saf.tpAt = s.saf.tpAt := by
  unfold State.pulsed
  split <;> rfl

theorem State.bank_pulsed (s : State) (b : Bool) (w i : Nat) : (State.pulsed b w s i).saf.bank = s.saf.bank := by
  unfold State.pulsed
  split <;> rfl

theorem State.safIn_pulsed {s : State} (h : tabSorted none s.saf.ins = true) (b : Bool) (w i : Nat) :
    (State.pulsed b w s i).safIn i = s.pulseIn b w i := by
  unfold State.pulsed State.pulseIn
  split
  · rfl
  · exact State.safIn_setSafIn_same h ..

theorem State.pulsed_ne {s : State} (h : tabSorted none s.saf.ins = true) {i k : Nat} (he : i ≠ k) (b : Bool) (w : Nat) :
    (State.pulsed b w s k).safIn i = s.safIn i ∧ (State.pulsed b w s k).pulseIn b w i = s.pulseIn b w i := by
  have hi : (State.pulsed b w s k).safIn i = s.safIn i := by
    unfold State.pulsed
    split
    · rfl
    · exact State.safIn_setSafIn_ne h he _
  exact ⟨hi, by rw [State.pulseIn, State.pulseIn, SafRec.sw, SafRec.sw, hi, State.bank_pulsed]⟩

/-- Settles O41: `safShared` stands through the evaluation of the groups, `faulted` through all that follows a fault. -/
theorem safetyInputsAndProcessorsAct : Obligations.SafetyInputsAndProcessorsAct := by
  refine ⟨?safetyInputSample, ?discrepancyTimeout, ?testPulse, ?testPulse2, ?safetyCycle, ?safetyCycle2, ?safetyCycle3, ?stoTestPulse,
    ?stoTestPulse2, ?stoTestPulse3, ?safetySelfTest, ?safetySelfTest2, ?safetySupplyLoss, ?safetyStartupComplete, ?safetyStartupComplete2⟩
  case safetyInputSample =>
    intro t p l s hp hs
    refine ⟨_, if_pos (by simpa using hp), fun i hi => ?_⟩
    refine (State.safIn_of_shared (State.safShared_safEval ..) i).trans ?_
    have hn (v : State) (k i : Nat) (h : tabSorted none v.saf.ins = true) (he : i ≠ k) :
        (v.setSafIn k (v.sampled p k (bitOf l k))).safIn i = v.safIn i ∧
          (v.setSafIn k (v.sampled p k (bitOf l k))).sampled p i (bitOf l i) = v.sampled p i (bitOf l i) :=
      have hi := State.safIn_setSafIn_ne h he _
      ⟨hi, State.sampled_congr hi rfl rfl rfl ..⟩
    rw [State.safIn_foldl (f := fun v k => v.sampled p k (bitOf l k)) (fun v k h => State.sorted_setSafIn h ..) hn
      (fun v k h => State.safIn_setSafIn_same h ..) _ _ List.nodup_range (by simpa using hs), if_pos (List.mem_range.2 hi)]
  case discrepancyTimeout =>
    intro t n s hn hs hd ht
    refine ⟨_, if_pos (by simpa using hn), ?_⟩
    dsimp only
    rw [if_pos (by simpa using ⟨hd, ht⟩), State.safIn_of_shared (State.safShared_safEvals ..),
      State.safIn_setSafIn_same (by simpa using hs)]
    simp
  case testPulse =>
    intro t b w i s hw hi hs hsw hb
    refine ⟨_, rfl, ?_⟩
    dsimp only
    rw [hw, if_neg Bool.false_ne_true]
    let u := ((s.advance t).setSaf { (s.advance t).saf with
      tpAt := (s.advance t).saf.tpAt.set b.toNat (some (s.advance t).time.tick) }).frame .safety (2 + b.toNat) [0]
    have hus : tabSorted none u.saf.ins = true := by simpa [u, State.setSaf] using hs
    have hui : u.safIn i = s.safIn i := by simp [u, State.safIn, State.setSaf]
    have hub : u.saf.bank = s.saf.bank := by simp [u, State.setSaf]
    have hut : u.saf.tpAt = s.saf.tpAt.set b.toNat (some (s.advance t).time.tick) := by simp [u, State.setSaf]
    have hin := State.safIn_of_shared (State.safShared_safEvals ((List.range 12).foldl (State.pulsed b w) u)) i
    rw [State.safIn_foldl (fun v k h => State.sorted_pulsed h ..) (fun v k i h he => State.pulsed_ne h he ..) (fun v k h => State.safIn_pulsed h ..)
      _ u List.nodup_range hus, if_pos (List.mem_range.2 hi)] at hin
    have hp : u.pulseIn b w i = { s.safIn i with code := 3, stage := 0, short := (s.safIn i).short.set b.toNat true } := by
      have hsw : u.saf.sw (i / 2 + 1) = false := by rw [SafRec.sw, hub]; exact hsw
      simp [State.pulseIn, hsw, hui, hb]
    have htp := congrArg SafRec.tpAt (State.safShared_safEvals ((List.range 12).foldl (State.pulsed b w) u))
    refine ⟨congrArg SafIn.code (hin.trans hp), congrArg SafIn.short (hin.trans hp), htp.trans (.trans ?_ hut)⟩
    exact foldl_keeps (fun v : State => v.saf.tpAt) (fun v k => State.tpAt_pulsed ..) _ u
  case testPulse2 =>
    intro t b w s hw hf
    refine ⟨_, rfl, ?_⟩
    dsimp only
    rw [if_pos hw]
    obtain ⟨h1, -, h2⟩ := State.faulted_safFault (s := ((s.advance t).setSaf { (s.advance t).saf with
      tpAt := (s.advance t).saf.tpAt.set b.toNat
        (some (s.advance t).time.tick) }).frame .safety (2 + b.toNat) [0]) (by simpa [State.setSaf] using hf) 8
    exact ⟨h1, h2⟩
  case safetyCycle =>
    intro t i s s2 s3 hl hg hA hB hs ht ho h2 h3
    have hb : (s.advance t).cycleBegun i = (s.advance t).setSaf { s.saf with
        linkBad := 0, differ := 0, outRb := i.readA % 256 + 256 * (i.readB % 256), seq := (s.saf.seq + 1) % 256 } := by
      simp [State.cycleBegun, hl, hg, State.proc_advance]
    have hc : ((s.advance t).cycleBegun i).safChecks i = (s.advance t).cycleBegun i :=
      State.safChecks_of_right (by simpa [State.cycleBegun, State.setSaf] using hA) (by simpa [State.cycleBegun, State.setSaf] using hB)
        (by simp [hb, State.setSaf]) hs ht (by simpa [hb, State.setSaf, State.stoOn, State.gState, State.proc] using ho)
    have h2' : s2 = (if i.linkOk then ((((s.advance t).cycleBegun i).safChecks i).safExchange.safEvals)
      else ((s.advance t).cycleBegun i).safChecks i) := by rw [if_pos hl, hc, hb, h2]
    subst h3 h2'
    rfl
  case safetyCycle2 =>
    intro t i s hA hB hf h
    refine exec_safetyCycle_of_faulted (State.faulted_safChecks_three (by simpa [State.cycleBegun, State.setSaf] using hf)
      (by simpa [State.cycleBegun, State.setSaf] using hA) (by simpa [State.cycleBegun, State.setSaf] using hB) ?_)
    obtain ⟨hl, h1⟩ | ⟨hl, hg, h1⟩ := h
    · exact .inl (by simp [State.cycleBegun, State.setSaf, hl, h1])
    · exact .inr (by simp [State.cycleBegun, State.setSaf, hl, State.proc_advance, hg, h1])
  case safetyCycle3 =>
    intro t i s hl hg hA hB hs hf
    exact exec_safetyCycle_of_faulted (State.faulted_safChecks_five (by simpa [State.cycleBegun, State.setSaf] using hf)
      (by simpa [State.cycleBegun, State.setSaf] using hA) (by simpa [State.cycleBegun, State.setSaf] using hB)
      (by simp [State.cycleBegun, State.setSaf, hl, State.proc_advance, hg]) hs)
  case stoTestPulse =>
    intro t o b s ho
    exact if_pos (by simpa using ho)
  case stoTestPulse2 =>
    intro t o b d s ho hf
    obtain ⟨h1, -, h2⟩ := State.faulted_safFault (s := s.advance t) (by simpa using hf) 6
    exact ⟨_, if_pos (by simpa using ho), h1, h2⟩
  case stoTestPulse3 =>
    intro t o b s ho hf
    obtain ⟨h1, -, h2⟩ := State.faulted_safFault (s := s.advance t) (by simpa using hf) 7
    exact ⟨_, if_pos (by simpa using ho), h1, h2⟩
  case safetySelfTest =>
    intro t p s hp
    exact if_pos (by simpa using hp)
  case safetySelfTest2 =>
    intro t p s hp hf
    obtain ⟨h1, -, h2⟩ := State.faulted_safFault (s := s.advance t) (by simpa using hf) 4
    exact ⟨_, if_pos (by simpa using hp), h1, h2⟩
  case safetySupplyLoss =>
    intro t s ho hf
    let u := (s.advance t).setSaf { (s.advance t).saf with powered := false }
    have huf : u.saf.fault = 0 := by simpa [u, State.setSaf] using hf
    have hF := State.faulted_safFault huf 5
    have ho' : (u.safFault 5).ordered := (Foot.Covers.safFault (F := Foot.lockkeeper) u 5).ordered (State.ordered_advance ho t)
    have hp : (u.safFault 5).saf.powered = false := by rw [State.safFault_saf huf]; rfl
    obtain ⟨h1, -, h2⟩ := hF.of_saf (State.safLines_saf _)
    refine ⟨_, rfl, h1, h2, (congrArg SafRec.powered (State.safLines_saf _)).trans hp, ?_⟩
    exact (State.rd_wr_same ho' ..).trans (State.safLineWord_of_faulted hF)
  case safetyStartupComplete =>
    intro t b s hst hf hb
    refine ⟨_, congrArg Host.Outcome.next (if_neg (by simp [hst, hf])), ?_⟩
    dsimp only
    rw [Bool.not_true, if_neg Bool.false_ne_true, if_neg (by simp), hb, Bool.not_true, if_neg Bool.false_ne_true]
    generalize hu : (if (State.setSaf _ _).saf.srst = 0 then _ else _ : State) = u
    have hk : u.saf.started = true ∧ u.saf.bankOk = true ∧ u.saf.bank = b % 65536 ∧ u.saf.up = (s.advance t).time.tick := by
      subst hu
      split <;> simp [State.setSaf]
    have h : u.safExchange.safBegin.safEvals.safShared = u.safShared :=
      (State.safShared_safEvals _).trans ((State.safShared_safBegin _).trans (State.safShared_safExchange _))
    obtain ⟨k1, k2, k3, k4⟩ := hk
    exact ⟨(congrArg SafRec.started h).trans k1, (congrArg SafRec.bankOk h).trans k2, (congrArg SafRec.bank h).trans k3,
      (congrArg SafRec.up h).trans k4⟩
  case safetyStartupComplete2 =>
    intro t b s hst hf hb
    refine ⟨_, congrArg Host.Outcome.next (if_neg (by simp [hst, hf])), ?_⟩
    dsimp only
    rw [Bool.not_true, if_neg Bool.false_ne_true, if_neg (by simp), hb, Bool.not_false, if_pos rfl]
    have hf' : ((s.advance t).setSaf { (s.advance t).saf with bank := b % 65536 }).saf.fault = 0 := by simpa [State.setSaf] using hf
    obtain ⟨h1, -, h2⟩ := State.faulted_safFault hf' 2
    exact ⟨h1, h2, by rw [State.safFault_saf hf']; rfl⟩

end Sys2Proof.Machine

end

/-! Stop delays, the reset key, status frames, the wiring check and the requests of the Lockkeeper. -/

section

-- One declaration after the other: elaborated at once they need more threads than the check has memory for.
set_option Elab.async false

namespace Sys2Proof.Machine

/-! ### The SS1-t delay of one processor -/

/-- What the other processor's groups leave: all that is shared, how many processors there are, and processor `p`. -/
def State.safBut (s : State) (p : Nat) : SafRec × Nat × SafProc := (s.safShared, s.saf.prs.length, s.proc p)

theorem State.safBut_setProc (s : State) {p k : Nat} (h : p ≠ k) (x : SafProc) : (s.setProc k x).safBut p = s.safBut p := by
  have hp : (s.setProc k x).proc p = s.proc p := by
    simp [State.proc, State.setProc, State.setSaf, List.getD_eq_getElem?_getD, List.getElem?_set_ne (Ne.symm h)]
  have hl : (s.setProc k x).saf.prs.length = s.saf.prs.length := List.length_set ..
  rw [State.safBut, State.safBut, hp, hl, State.safShared_setProc]

theorem State.safBut_of_saf {a b : State} (h : b.saf = a.saf) (p : Nat) : b.safBut p = a.safBut p := by
  rw [State.safBut, State.safBut, State.safShared_of_saf h, State.proc, State.proc, h]

theorem State.safBut_setGroupState (s : State) {p k : Nat} (h : p ≠ k) (g v : Nat) : (s.setGroupState k g v).safBut p = s.safBut p := by
  unfold State.setGroupState
  split
  · rfl
  · exact (State.safBut_of_saf (by simp [State.safLines]) p).trans (State.safBut_setProc s h { s.proc k with gs := (s.proc k).gs.set g v })

theorem State.safBut_ite {c : Prop} [Decidable c] {a b s : State} {p : Nat} (ha : a.safBut p = s.safBut p) (hb : b.safBut p = s.safBut p) :
    (if c then a else b).safBut p = s.safBut p := by
  split
  · exact ha
  · exact hb

theorem State.safBut_groupSettle (s : State) {p k : Nat} (h : p ≠ k) (g : Nat) : (s.groupSettle k g).safBut p = s.safBut p := by
  unfold State.groupSettle
  extract_lets dm s1 s2 s3
  have h1 : s1.safBut p = s.safBut p := State.safBut_ite (State.safBut_setGroupState _ h ..) rfl
  have h2 : s2.safBut p = s.safBut p := .trans (State.safBut_ite (State.safBut_setGroupState _ h ..) rfl) h1
  have h3 : s3.safBut p = s.safBut p := .trans (State.safBut_ite (State.safBut_setGroupState _ h ..) rfl) h2
  clear_value s3
  exact .trans (State.safBut_ite ((State.safBut_setGroupState _ h ..).trans (State.safBut_setProc _ h _)) rfl) h3

/-- The end of the SS1-t delay in one processor. -/
def State.ss1Expired (g : Nat) (s : State) (p : Nat) : State :=
  if s.gState p g = 3 ∧ (s.proc p).ss1At.getD g 0 + ss1Ns s.saf.bank ≤ s.time.tick then (s.setGroupState p g 0).groupSettle p g else s

theorem State.safBut_ss1Expired (s : State) {p k : Nat} (h : p ≠ k) (g : Nat) : (s.ss1Expired g k).safBut p = s.safBut p :=
  State.safBut_ite ((State.safBut_groupSettle _ h ..).trans (State.safBut_setGroupState _ h ..)) rfl

theorem State.tick_ss1Expired (s : State) (g p : Nat) : (s.ss1Expired g p).time.tick = s.time.tick :=
  (Foot.Covers.ite (F := Foot.lockkeeper) (.after (.groupSettle ..) <| .setGroupState ..) (.refl _)).tick

/-- What a processor reads for a group that stands in state 3 with a demand and its delay over. -/
structure State.ss1Over (s : State) (p g : Nat) : Prop where
  procs : p < s.saf.prs.length
  groups : g < (s.proc p).gs.length
  state : s.gState p g = 3
  ended : (s.proc p).ss1At.getD g 0 + ss1Ns s.saf.bank ≤ s.time.tick
  demand : s.demands p g ≠ 0

theorem State.demands_congr {a b : State} {p : Nat} (h : b.safShared = a.safShared) (hp : (b.proc p).peer = (a.proc p).peer) (g : Nat) :
    b.demands p g = a.demands p g := by
  have hi : b.safShared.ins = a.safShared.ins := by rw [h]
  have hb : b.safShared.bank = a.safShared.bank := by rw [h]
  change b.saf.ins = a.saf.ins at hi
  change b.saf.bank = a.saf.bank at hb
  have hI (i : Nat) : b.safIn i = a.safIn i := by rw [State.safIn, State.safIn, hi]
  have hV (i : Nat) : b.safV p i = a.safV p i := by rw [State.safV, State.safV, hI, hp]
  have hS (k : Nat) : b.saf.sw k = a.saf.sw k := by rw [SafRec.sw, SafRec.sw, hb]
  simp only [State.demands, State.estops, State.setupMode, State.enabling, hI, hV, hS]

theorem State.ss1Over.congr {a b : State} {p g : Nat} (h : a.ss1Over p g) (hb : b.safBut p = a.safBut p)
    (ht : b.time.tick = a.time.tick) : b.ss1Over p g := by
  obtain ⟨hs, hb⟩ := Prod.mk.inj hb
  obtain ⟨hl, hp⟩ := Prod.mk.inj hb
  have hk : b.safShared.bank = a.safShared.bank := by rw [hs]
  change b.saf.bank = a.saf.bank at hk
  exact ⟨by rw [hl]; exact h.procs, by rw [hp]; exact h.groups, by rw [State.gState, hp]; exact h.state, by rw [hp, hk, ht]; exact h.ended,
    by rw [State.demands_congr hs (by rw [hp])]; exact h.demand⟩

theorem State.gState_setProc {s : State} {p g v : Nat} (hp : p < s.saf.prs.length) (hg : g < (s.proc p).gs.length) :
    (s.setProc p { s.proc p with gs := (s.proc p).gs.set g v }).gState p g = v := by
  simp [State.gState, State.proc, State.setProc, State.setSaf, List.getD_eq_getElem?_getD, hp] at hg ⊢
  simp [hg]

theorem State.gState_ss1Expired {s : State} {p g : Nat} (h : s.ss1Over p g) : (s.ss1Expired g p).gState p g = 0 := by
  let v := s.setProc p { s.proc p with gs := (s.proc p).gs.set g 0 }
  let u := s.setGroupState p g 0
  have hu : u.saf = v.saf := by
    dsimp only [u, v]
    rw [State.setGroupState, if_neg (by simp [h.state])]
    simp [State.safLines]
  have hp : u.proc p = v.proc p := by rw [State.proc, State.proc, hu]
  have h0 : u.gState p g = 0 := by
    rw [State.gState, hp]
    exact State.gState_setProc h.procs h.groups
  have hd : u.demands p g ≠ 0 := by
    have hpe : (u.proc p).peer = (s.proc p).peer := by
      rw [hp]
      simp [v, State.proc, State.setProc, State.setSaf, List.getD_eq_getElem?_getD, h.procs]
    rw [State.demands_congr ((State.safShared_of_saf hu).trans (State.safShared_setProc ..)) hpe]
    exact h.demand
  have hs : u.groupSettle p g = u := by simp [State.groupSettle, h0, hd]
  rw [State.ss1Expired, if_pos ⟨h.state, h.ended⟩]
  exact (congrArg (fun s : State => s.gState p g) hs).trans h0

theorem State.gState_of_safBut {a b : State} {p : Nat} (h : b.safBut p = a.safBut p) (g : Nat) : b.gState p g = a.gState p g := by
  rw [State.gState, State.gState, (Prod.mk.inj (Prod.mk.inj h).2).2]

/-! ### Status frames -/

theorem State.rd_range_wr {s : State} (ho : s.ordered) (p : Nat) (f : Nat → Nat) {n i : Nat} (hn : n ≤ 65536) (hi : i < n) :
    ((List.range n).foldl (fun s g => s.wr p g (f g)) s).rd p i = f i := by
  induction n with
  | zero => exact absurd hi (Nat.not_lt_zero i)
  | succ n ih =>
    have hc := Foot.Covers.foldl (F := { parts := [], pars := [p] }) (a := s) (List.range n) fun s g => .wr s p g (f g) (by simp [Foot.par])
    rw [List.range_succ, List.foldl_append]
    by_cases h : i = n
    · subst h
      exact State.rd_wr_same (hc.ordered ho) ..
    · exact (State.rd_wr_inst (hc.ordered ho) (by omega) ..).trans (ih (by omega) (by omega))

/-- What a status frame shows of the groups, the inputs and the fault. -/
theorem State.rd_safShow {s : State} (ho : s.ordered) (f : List Byte) :
    (∀ g, g < 8 → (s.safShow f).rd P.SafGroupState g = bitsOf (fld f 2 4) (4 * g + 3) (4 * g)) ∧
      (∀ i, i < 12 → (s.safShow f).rd P.SafInputFault i = bitsOf (fld f 18 6) (4 * i + 3) (4 * i)) ∧
        (s.safShow f).rd P.SafFault 0 = fld f 16 1 := by
  unfold State.safShow
  extract_lets s1 s2 s3 s4 s5 s6 s7 m s8
  have c1 : Foot.Covers { parts := [], pars := [P.SafGroupState] } s s1 := .foldl _ fun s g => .wr ..
  have c2 : Foot.Covers { parts := [], pars := [P.SafInputFault] } s1 s2 := .foldl _ fun s g => .wr ..
  have o1 := c1.ordered ho
  have o2 := c2.ordered o1
  have o3 : s3.ordered := State.ordered_wr o2 ..
  have c4 : Foot.Covers { parts := [], pars := [P.SafInputLevels, P.SafOutputs, P.SafFault] } s2 s4 := .after (.wr ..) <| .after
    (.wr ..) <| .wr ..
  have h4 : s4.rd P.SafFault 0 = fld f 16 1 := State.rd_wr_same (State.ordered_wr o3 ..) ..
  have c8 : Foot.Covers { parts := [], pars := [P.SafConfig, P.SafConfigChecksum, P.SafSs1Delay, P.SafDiscrepancyTime, P.SafReset, P.SafMode,
      P.SafFirmware] } s4 (s8.wr P.SafFirmware 0 Config.safFirmware.toNat) :=
    .after (.wr ..) <| .after (.wr ..) <| .after (.wr ..) <| .after (.wrF ..) <| .after (.wrF ..) <| .after (.wr ..) <| .wr ..
  have o4 := c4.ordered o2
  refine ⟨fun g hg => ?_, fun i hi => ?_, (c8.rd o4 rfl rfl 0).trans h4⟩
  · rw [c8.rd o4 rfl rfl, c4.rd o2 rfl rfl, c2.rd o1 rfl rfl]
    exact State.rd_range_wr ho _ (fun g => bitsOf (fld f 2 4) (4 * g + 3) (4 * g)) (by decide) hg
  · rw [c8.rd o4 rfl rfl, c4.rd o2 rfl rfl]
    exact State.rd_range_wr o1 _ (fun g => bitsOf (fld f 18 6) (4 * g + 3) (4 * g)) (by decide) hi

/-- Settles O42: of two processors each acts on its own part (`safBut`), and a frame's writes are to different parameters. -/
theorem safetyGroupsAndFramesAct : Obligations.SafetyGroupsAndFramesAct := by
  refine ⟨?ss1DelayExpiry, ?srstPress, ?srstRelease, ?srstRelease2, ?resetHeld, ?safetyStatusFrame, ?safetyStatusFrame2, ?safetyStatusLost,
    ?stoWiringMismatch, ?stoMapSet, ?safStatusRead⟩
  case ss1DelayExpiry =>
    intro t g p s hg hp hl hgl h3 he hd
    have h : (s.advance t).ss1Over p g :=
      ⟨by simp [hl, hp], by simpa [State.proc_advance] using by omega, by simpa [State.gState, State.proc_advance] using h3,
        by simpa [State.proc_advance] using he,
          by rw [State.demands_congr (a := s) (State.safShared_of_saf (by simp)) (by rw [State.proc_advance])]; exact hd⟩
    have h0 : (((s.advance t).ss1Expired g 0).ss1Expired g 1).gState p g = 0 := by
      obtain rfl | rfl : p = 0 ∨ p = 1 := by omega
      · exact (State.gState_of_safBut (State.safBut_ss1Expired _ (by decide) g) g).trans (State.gState_ss1Expired h)
      · exact State.gState_ss1Expired (h.congr (State.safBut_ss1Expired _ (by decide) g) (State.tick_ss1Expired ..))
    refine ⟨_, if_pos (by simpa using hg), h0, ?_⟩
    obtain rfl | rfl : p = 0 ∨ p = 1 := by omega
    · exact Bool.or_eq_true_iff.2 (.inl (congrArg [0, 1, 2, 5].contains h0))
    · exact Bool.or_eq_true_iff.2 (.inr (congrArg [0, 1, 2, 5].contains h0))
  case srstPress =>
    intro t s h0 h1
    change execSrstPress t s = _
    simp [execSrstPress, onEvent, h0, h1]
  case srstRelease =>
    intro t s h0 h1 h2
    change execSrstRelease t s = _
    have h3 : ¬3000000000 < (s.advance t).time.tick - s.saf.srstAt := by omega
    simp [execSrstRelease, onEvent, h0, h1, h2, h3]
  case srstRelease2 =>
    intro t s h0 h1 h2 h3 h4 h5
    change execSrstRelease t s = _
    have h6 : ¬3000000000 < (s.advance t).time.tick - s.saf.srstAt := by omega
    have h7 : ¬(s.advance t).time.tick - s.saf.srstAt < 50000000 := by omega
    simp [execSrstRelease, onEvent, h0, h1, h4, h5, h6, h7]
  case resetHeld =>
    intro t s h0 h1
    change execResetHeld t s = _
    simp [execResetHeld, onEvent, h0, h1]
  case safetyStatusFrame =>
    intro t b s ho h1 h2 h3
    have h4 : (s.advance t).saf.refs.getD 0 0 = 0 := by simpa using h3
    obtain ⟨n, hn⟩ : ∃ n, exec (.safetyStatusFrame t 0 b) s = .next (((s.advance t).setSaf n).safShow b) := by
      change ∃ n, execSafetyStatusFrame t 0 b s = _
      rw [execSafetyStatusFrame, onUnit, if_pos (by decide), if_neg (by simp [h1, h2])]
      dsimp only
      rw [if_pos (.inl h4)]
      exact ⟨_, rfl⟩
    exact ⟨_, hn, State.rd_safShow (s := (s.advance t).setSaf n) (State.ordered_advance ho t) b⟩
  case safetyStatusFrame2 =>
    intro t p b s h0 h1
    exact (if_pos (by simpa using h0)).trans (congrArg Host.Outcome.next (if_pos h1))
  case safetyStatusLost =>
    intro t s h0 h1
    change execSafetyStatusLost t s = _
    simp [execSafetyStatusLost, onEvent, h0, h1]
  case stoWiringMismatch =>
    intro t k s h0 h1 hs h3 h4 h5
    let u := (s.advance t).setNode k { s.node k with misDone := true }
    have hu : u.node k = { s.node k with misDone := true } := tabGet_tabSet_same _ _ _ _ (by simpa using hs)
    have hx : ∃ s', exec (.stoWiringMismatch t k) s = .next s' ∧ s'.link = u.link := by
      change ∃ s', execStoWiringMismatch t k s = _ ∧ _
      rw [execStoWiringMismatch, onUnit, if_pos (by simp [h0, h1])]
      dsimp only
      rw [if_pos (by simp [h3, h4, h5])]
      refine ⟨_, rfl, (foldl_keeps State.link (fun s a => ?_) _ _).trans (by simp [u])⟩
      split
      · rfl
      · simp [State.inc]
    obtain ⟨s', he, hl⟩ := hx
    have hn : s'.node k = u.node k := by rw [State.node, State.node, hl]
    exact ⟨s', he, by rw [hn, hu], by rw [hn, hu]⟩
  case stoMapSet =>
    intro t q s hs h1 h2 h3 h4
    change execStoMapSet t q s = _
    exact runReq_of_ok hs (State.commitReq_of_firstBad (by simp [h1, h2, h3, h4]))
  case safStatusRead =>
    intro t q s hs
    change execSafStatusRead t q s = _
    refine runReq_of_ok hs ?_
    simp [guarded, firstBad]

end Sys2Proof.Machine

end

/-! FaultClear, FaultLogRead and GroupChange. -/

section

-- One declaration after the other: elaborated at once they need more threads than the check has memory for.
set_option Elab.async false

namespace Sys2Proof.Machine

/-- A present fault condition refuses a FaultClear of its axis and names where it is. -/
theorem exec_faultClear_of_holds {t : Nat} {q : Req} {s : State} {b : Nat} (hs : Served 0x0F01 q s) (h0 : fld q.body 0 1 = 0)
    (hb : s.axisFaultHolds q.inst = some b) : Answers (.faultClear t q) s q 0x0241 (refBytes 0 b 0) (s.advance t) := by
  have hb' : (s.advance t).axisFaultHolds q.inst = some b := by
    simpa [State.axisFaultHolds, State.cellFault] using hb
  change execFaultClear t q s = _
  exact runReq_of_no (r := ⟨0x0241, 0, b, 0⟩) hs (by simp [guarded, h0, hb'])

/-- No axis of the group has a commit that waits for a master position. -/
theorem State.noPending_of_cplr {s : State} {g : Nat} (h : ∀ a < 128, s.rd P.AxisGroup a = g → (s.cplr a).pend = none) :
    ((List.range 128).any fun a => s.rd P.AxisGroup a == g && (s.cplr a).pend.isSome) = false := by
  simpa [List.any_eq_false] using h

theorem State.groupLock_of_clear {s : State} {g : Nat} {x : Staged} (hx : s.groupSet g = some x) (hp : x.pending = none)
    (hk : x.keys.any s.keyLocked = false) :
    ((s.groupSet g).elim false fun x => x.pending.isSome || x.keys.any s.keyLocked) = false := by simp [hx, hp, hk]

/-- Settles O59. -/
theorem faultAndGroupRequestsAct : Obligations.FaultAndGroupRequestsAct := by
  refine ⟨?faultClear, ?faultClear2, ?faultClear3, ?faultLogRead, ?groupChange⟩
  case faultClear =>
    intro t q s hs h1 h2
    change execFaultClear t q s = _
    exact runReq_of_ok hs (by simp [guarded, h1, h2])
  case faultClear2 =>
    intro t q s hs h1 h2
    exact exec_faultClear_of_holds hs h1 (by rw [State.axisFaultHolds, h2]; rfl)
  case faultClear3 =>
    intro t q s hs h1 h2
    change execFaultClear t q s = _
    exact runReq_of_ok hs (by simp [guarded, h1, h2])
  case faultLogRead =>
    intro t q s hs h1 h2
    change execFaultLogRead t q s = _
    refine runReq_of_ok hs ?_
    simp only [State.advance_frame]
    refine guarded_of_none ?_
    simp only [firstBad_cons, firstBad_nil, ite_eq_right_iff, reduceCtorEq, imp_false, Bool.or_eq_true, decide_eq_true_eq]
    omega
  case groupChange =>
    intro t q s x hs h1 h2 h3 h4 h5 h6
    have hx : (s.advance t).groupSet q.inst = some x := by simpa [State.groupSet] using h3
    have hk : x.keys.any (s.advance t).keyLocked = false := by simpa [State.keyLocked] using h5
    have hl := State.groupLock_of_clear hx h4 hk
    have hp : ((List.range 128).any fun a => (s.advance t).rd P.AxisGroup a == q.inst && ((s.advance t).cplr a).pend.isSome) = false :=
      State.noPending_of_cplr (by simpa [State.cplr] using h6)
    change execGroupChange t q s = _
    refine runReq_of_ok hs ?_
    dsimp only
    rw [if_pos h1, guarded_of_none (by rw [hl, hp]; simp [h2, hx]), hx]
    dsimp only
    simp only [State.advance_frame]
    rfl

end Sys2Proof.Machine

end

/-! What a FaultClear leaves, and GroupChange with a mode. -/

section

-- One declaration after the other: elaborated at once they need more threads than the check has memory for.
set_option Elab.async false

namespace Sys2Proof.Machine

theorem State.holdClear_unblockOthers {s : State} (ho : s.ordered) (a : Nat) {i k : Nat} (h : bitOf (s.rd P.AxisHoldReason i) k = false) :
    (s.unblockOthers a).ordered ∧ bitOf ((s.unblockOthers a).rd P.AxisHoldReason i) k = false := by
  unfold State.unblockOthers
  refine List.foldlRecOn (motive := fun v : State => v.ordered ∧ bitOf (v.rd P.AxisHoldReason i) k = false) _ _ ⟨ho, h⟩ fun v hv b _ => ?_
  have hu (r : AxisRec) : (v.setAxis b r).ordered ∧ bitOf ((v.setAxis b r).rd P.AxisHoldReason i) k = false := hv
  dsimp only
  split
  · split
    · exact ⟨State.ordered_wrBit (hu _).1 .., State.bitOf_rd_wrBit_false (hu _).1 (hu _).2 ..⟩
    · exact hv
  · exact hv

/-- What a FaultClear leaves of its axis' latches, verdict and hold reasons. -/
theorem State.rd_clearAxis {s : State} (ho : s.ordered) (a : Nat) :
    bitOf ((s.clearAxis a).rd P.FbLatched a) fbLOSS = false ∧ bitOf ((s.clearAxis a).rd P.FbLatched a) fbFREEZE = false ∧
      (s.clearAxis a).rd P.MonVerdict a = (if s.rd P.MonVerdict a = 2 ∨ s.rd P.MonVerdict a = 3 then 0 else s.rd P.MonVerdict a) ∧
      bitOf ((s.clearAxis a).rd P.AxisHoldReason a) holdBLOCK = false ∧ bitOf ((s.clearAxis a).rd P.AxisHoldReason a) holdCELL = false := by
  unfold State.clearAxis
  extract_lets v lost s1 s2 s3 s4
  have c1 : Foot.Covers { parts := [], pars := [P.FbLatched] } s s1 := .clrBits ..
  have c2 : Foot.Covers { parts := [.fb], pars := [P.FbState, P.FbSpeed] } s1 s2 :=
    .ite (.after (.wrP ..) <| .after (.clrBits ..) <| .setFb ..) (.refl _)
  have c3 : Foot.Covers { parts := [], pars := [P.MonVerdict] } s2 s3 := .ite (.wr ..) (.refl _)
  have o1 := c1.ordered ho
  have o2 := c2.ordered o1
  have o3 := c3.ordered o2
  have ob : (s3.unhold a holdBLOCK).ordered := State.ordered_wrBit o3 ..
  have oc : ((s3.unhold a holdBLOCK).unhold a holdCELL).ordered := State.ordered_wrBit ob ..
  have hb : bitOf (((s3.unhold a holdBLOCK).unhold a holdCELL).rd P.AxisHoldReason a) holdBLOCK = false :=
    State.bitOf_rd_wrBit_false ob (State.bitOf_rd_wrBit_same o3 ..) a holdCELL
  have hc : bitOf (((s3.unhold a holdBLOCK).unhold a holdCELL).rd P.AxisHoldReason a) holdCELL = false := State.bitOf_rd_wrBit_same ob ..
  obtain ⟨o4, hb4⟩ := State.holdClear_unblockOthers oc a hb
  obtain ⟨-, hc4⟩ := State.holdClear_unblockOthers oc a hc
  have c4 : Foot.Covers { parts := [.ax], pars := [P.AxisHoldReason] } s3 (s4.raise E.faultCleared a []) :=
    .after (.raise ..) <| .after (.foldl _ fun s b => .ite (.after (.ite (.wrBit ..) (.refl _)) <| .setAxis ..) (.refl _)) <|
    .after (.wrBit ..) <| .wrBit ..
  have hl (k : Nat) (hk : Nat.testBit 0x300 k = true) : bitOf (s1.rd P.FbLatched a) k = false := by
    rw [State.bitOf_rd_clrBits ho, hk, Bool.not_true, Bool.and_false]
  have hv : s3.rd P.MonVerdict a = if v = 2 ∨ v = 3 then 0 else v := by
    dsimp only [s3]
    split
    · exact State.rd_wr_same o2 ..
    · exact (c2.rd o1 rfl rfl a).trans (c1.rd ho rfl rfl a)
  have hf : (s4.raise E.faultCleared a []).rd P.FbLatched a = s1.rd P.FbLatched a :=
    (c4.rd o3 rfl rfl a).trans ((c3.rd o2 rfl rfl a).trans (c2.rd o1 rfl rfl a))
  rw [hf, c4.rd o3 rfl rfl, State.rd_raise o4 _ _ _ rfl]
  exact ⟨hl _ rfl, hl _ rfl, hv, hb4, hc4⟩

/-- Settles O60. -/
theorem faultClearAndGroupChangeTakeEffect : Obligations.FaultClearAndGroupChangeTakeEffect := by
  refine ⟨?faultClear, ?faultClear2, ?faultClear3, ?groupChange, ?groupChange2⟩
  case faultClear =>
    intro t q s hs ho h0 hh
    refine ⟨(s.advance t).clearAxis q.inst, ?_, by simpa using State.rd_clearAxis (State.ordered_advance ho t) q.inst⟩
    change execFaultClear t q s = _
    exact runReq_of_ok hs (by simp [guarded, h0, hh])
  case faultClear2 =>
    intro t q s b l hs h1 h2 h3 h4 h5
    exact exec_faultClear_of_holds hs h1 (by rw [State.axisFaultHolds, h2, h3, h4, h5]; rfl)
  case faultClear3 =>
    intro t q s hs h1 h2
    change execFaultClear t q s = _
    refine runReq_of_no (r := ⟨0x0241, 0, 0, 0⟩) hs ?_
    have h2' : ¬(s.advance t).islandState = 0 := by simpa [State.islandState] using h2
    simp only [h1, Nat.succ_ne_zero, if_false, if_neg h2']
    rfl
  case groupChange =>
    intro t q s hs h1 h2 h3
    have hx : (s.advance t).groupSet q.inst = none := by simpa [State.groupSet] using h3
    change execGroupChange t q s = _
    refine runReq_of_no (r := ⟨0x0203, 0, 0, 0⟩) hs ?_
    dsimp only
    rw [if_pos h1, guarded, h2, hx]
    rfl
  case groupChange2 =>
    intro t q s c x hs h1 h2 h3 h4 h5 h6 h7 h8 h9 h10
    have hx : (s.advance t).groupSet q.inst = some x := by simpa [State.groupSet] using h3
    have hk : x.keys.any (s.advance t).keyLocked = false := by simpa [State.keyLocked] using h5
    have hl := State.groupLock_of_clear hx h4 hk
    have hp : ((List.range 128).any fun a => (s.advance t).rd P.AxisGroup a == q.inst && ((s.advance t).cplr a).pend.isSome) = false :=
      State.noPending_of_cplr (by simpa [State.cplr] using h6)
    have hm : (s.advance t).movesOthers q.inst (fld q.body 0 1) = false := by simpa [State.movesOthers] using h10
    change execGroupChange t q s = _
    refine runReq_of_ok hs ?_
    dsimp only
    rw [if_neg (by omega), h2, guarded_of_none ?_, hx]
    dsimp only
    · have hlk : (((s.advance t).commitSet x s.par.nextId).wr P.GroupCycle q.inst c).link = s.link := by simp [State.commitSet]
      rw [← hlk]
      simp only [State.advance_frame]
    · rw [hl, hp, hm]
      have h7' : ¬7 < fld q.body 0 1 := by omega
      simp [State.switchBad, h7, h8, h9, h7', hx]

end Sys2Proof.Machine

end

/-! Load-all, trip clear, gate trips, local data, delay lines and microstep tables. -/

section

-- One declaration after the other: elaborated at once they need more threads than the check has memory for.
set_option Elab.async false

namespace Sys2Proof.Machine

/-- Trip input 0 of pair 0 is enabled, and the pair keeps no tick of an active level for its inputs: its list of them is empty, which no
premise of O38 excludes. -/
def State.noSince : State :=
  let s := State.resetWith [(pkey P.GpTripEnable 128, 1), (pkey P.GpTripScope 128, 0)]
  { s with mod := { s.mod with gp := [(0, { GpRec.init with since := [] })] }, time := { s.time with lt := 2 ^ 60 } }

/-- Refutes O38: with the empty list the edge of a trip, at 1 ns, is not kept, and GpTripTime reads 0. -/
theorem not_modulationCommandsAct : ¬ Obligations.ModulationCommandsAct := by
  rintro ⟨-, -, -, h, -⟩
  obtain ⟨s', he, -, -, ht, -⟩ := h 0 0 0 1 State.noSince (by decide +kernel) (by decide +kernel) (by decide) (by decide) (by decide +kernel)
    (by decide +kernel) (by decide +kernel) (by decide +kernel) (by decide +kernel)
  have hz := congrArg (fun r => (Res.after State.reset r).rd P.GpTripTime 128) he
  exact absurd (hz.trans ht) (by decide +kernel)

end Sys2Proof.Machine

end

/-! Front-end samples: the order of an exhausted ride. -/

section

-- One declaration after the other: elaborated at once they need more threads than the check has memory for.
set_option Elab.async false

namespace Sys2Proof.Machine

/-- A ride of 2 s, with virtual master 0, of rank 2, taking part in it and made for the coming cycle. -/
def State.rankTwoRide : State :=
  let s := State.resetWith [(pkey P.VmRideThrough 0, 1), (pkey P.FeState 0, 5), (pkey P.FeRideRank 0, 2)]
  { s with vm := [(0, { VmRec.init with made := 1 })], time := { s.time with tick := 2000000000 } }

/-- Refutes O39: an exhausted ride sets EXHAUSTED before its demand of 0, so that the demand reaches the masters of rank 2 in the same cycle
(R297). The statement sets the bit after the demand, which then reaches none of them: master 0 would not begin to slow down. -/
theorem not_frontEndSamplesAct : ¬ Obligations.FrontEndSamplesAct := by
  rintro ⟨-, -, -, -, -, -, -, -, h, -⟩
  have h := h 0 State.rankTwoRide (by decide +kernel) (by decide +kernel) (by decide +kernel) (by decide +kernel)
  exact absurd (congrArg (fun r => ((Res.after State.reset r).vmr 0).sd) h) (by decide +kernel)

end Sys2Proof.Machine

end

/-! FeStart, the start sequence, FeStop, FeFaultClear and the faults of the front end. -/

section

-- One declaration after the other: elaborated at once they need more threads than the check has memory for.
set_option Elab.async false

namespace Sys2Proof.Machine

/-- What a contactor output changes. -/
def Foot.outputSide : Foot where
  parts := [.dqFe, .ferry]
  pars := []

theorem State.outputSide_feOutput (s : State) (p : Nat) (on : Bool) : Foot.outputSide.Covers s (s.feOutput p on).2 :=
  .ite_snd (.refl _) <| .after (.setDqFe (s.entry ..) _) (.entry ..)

theorem State.fe_feOutput (s : State) (p : Nat) (on : Bool) : (s.feOutput p on).2.fe = s.fe := (outputSide_feOutput s p on).parts .fe rfl

theorem State.tick_feOutput (s : State) (p : Nat) (on : Bool) : (s.feOutput p on).2.time.tick = s.time.tick :=
  (outputSide_feOutput s p on).tick

theorem State.feState_feOutput {s : State} (ho : s.ordered) (p : Nat) (on : Bool) : (s.feOutput p on).2.feState = s.feState :=
  (outputSide_feOutput s p on).rd ho rfl rfl 0

theorem State.ordered_feOutput {s : State} (ho : s.ordered) (p : Nat) (on : Bool) : (s.feOutput p on).2.ordered :=
  (outputSide_feOutput s p on).ordered ho

/-- What opening both contactors changes. -/
def Foot.openSide : Foot where
  parts := [.dqFe, .ferry, .fe]
  pars := []

theorem State.openSide_feOpen (s : State) : Foot.openSide.Covers s s.feOpen :=
  have h (s : State) (p : Nat) (on : Bool) : Foot.openSide.Covers s (s.feOutput p on).2 := .mono rfl (outputSide_feOutput s p on)
  .after (.setFe ..) <| .after (h ..) <| h ..

/-! ### Requests that end with the sequence they wait for -/

theorem State.fe_feEndStart (s : State) (status : Nat) : (s.feEndStart status).fe = { s.fe with start := none } := by
  unfold State.feEndStart
  split
  case h_1 h => exact congrArg (fun x => { s.fe with start := x }) h
  case h_2 => simp

/-- What the end of a start changes. -/
theorem Foot.Covers.feEnded {F : Foot} (s : State) (status : Nat) (h : F.part .fe = true := by rfl) : F.Covers s (s.feEndStart status) := by
  unfold State.feEndStart
  split
  · exact .refl _
  · exact .after (.complete ..) <| .setFe _ _ h

/-- A run of completions touches the sender's side alone. -/
theorem Foot.Covers.completeAll (F : Foot) (s : State) (l : List Req) (st v : Nat) :
    F.Covers s (l.foldl (fun s q => s.complete q 0 s.time.cycle st 0 0 v) s) :=
  .foldl l fun s q => .complete ..

theorem State.fe_feStopped (s : State) (status : Nat) : (s.feStopped status).fe = { s.fe with stops := [], bridge := false, id_ := 0 } :=
  (Foot.Covers.completeAll .nothing ..).parts .fe rfl

theorem State.rd_feStopped {s : State} (ho : s.ordered) (status : Nat) {p : Nat} (hl : lossCount p = false) (i : Nat) :
    (s.feStopped status).rd p i = s.rd p i :=
  Foot.Covers.rd (F := { parts := [.fe], pars := [] }) (.after (.completeAll ..) <| .setFe ..) ho rfl hl i

/-! ### Faults -/

/-- The end of a fault: what waits ends with it, and the masters take up its demand. -/
def State.feFaultEnd (s : State) (cause : Nat) : State :=
  let s := ((s.feBit feRECOVER false).feRaise E.frontEndFault 0 (leBytes 4 cause)).feEndStart 0x0503
  (s.fe.stops.foldl (fun s q => s.complete q 0 s.time.cycle 0x0503 0 0 cause) (s.setFe { s.fe with stops := [] })).vmRefresh

theorem State.fe_feRaise (s : State) (c i : Nat) (l : List Byte) : (s.feRaise c i l).fe = s.fe := by simp [State.feRaise]

theorem State.fe_vmRefresh (s : State) : s.vmRefresh.fe = s.fe :=
  (Foot.Covers.vmRefresh (F := { parts := [.vm], pars := [] }) s).parts .fe rfl

theorem State.bridge_feFaultEnd (s : State) (c : Nat) : (s.feFaultEnd c).fe.bridge = s.fe.bridge := by
  unfold State.feFaultEnd
  extract_lets u
  have hu : u.fe.bridge = s.fe.bridge := by
    have h : u.fe = { ((s.feBit feRECOVER false).feRaise E.frontEndFault 0 (leBytes 4 c)).fe with start := none } := State.fe_feEndStart ..
    rw [h, State.fe_feRaise]
    rfl
  clear_value u
  have hk : (u.fe.stops.foldl (fun s q => s.complete q 0 s.time.cycle 0x0503 0 0 c) (u.setFe { u.fe with stops := [] })).fe =
      { u.fe with stops := [] } := (Foot.Covers.completeAll .nothing ..).parts .fe rfl
  rw [State.fe_vmRefresh, hk]
  exact hu

theorem Foot.Covers.feFaultEnd (s : State) (c : Nat) : Foot.Covers { parts := [.fe, .vm], pars := [P.FeFlags] } s (s.feFaultEnd c) :=
  .after (.vmRefresh ..) <| .after (.completeAll ..) <| .after (.setFe ..) <| .after (.feEnded ..) <| .after (.feRaise ..) <| .wrBit ..

/-- The front end goes into state 7. -/
def State.feDown (s : State) : State :=
  let s := (s.wr P.FeState 0 7).wrF P.FeRideDemand 0 0
  s.setFe { s.fe with all_ := true, step := 0, bridge := false }

/-- The begin of a fault: its cause stands, the outputs open, the state is 7. -/
def State.feFaultBegin (s : State) (cause : Nat) : State := (s.wr P.FeFaultCause 0 cause).bridgeOff.feOpen.feDown

theorem State.feFault_eq (s : State) (c : Nat) : s.feFault c = if s.feState = 7 then s else (s.feFaultBegin c).feFaultEnd c := by
  unfold State.feFault State.feFaultBegin
  refine if_congr Iff.rfl rfl ?_
  generalize (s.wr P.FeFaultCause 0 c).bridgeOff.feOpen = u
  rfl

theorem State.rd_feDown {s : State} (ho : s.ordered) :
    s.feDown.ordered ∧ s.feDown.rd P.FeState 0 = 7 ∧ s.feDown.rd P.FeFaultCause 0 = s.rd P.FeFaultCause 0 ∧
      s.feDown.rd P.FeRideDemand 0 = ratToF32 0 ∧ s.feDown.fe.bridge = false := by
  have o : (s.wr P.FeState 0 7).ordered := State.ordered_wr ho ..
  refine ⟨State.ordered_wr o .., ?_, ?_, State.rd_wr_same o .., rfl⟩
  · exact (State.rd_wr_ne o (by decide) ..).trans (State.rd_wr_same ho ..)
  · exact (State.rd_wr_ne o (by decide) ..).trans (State.rd_wr_ne ho (by decide) ..)

/-- What a fault writes before it tells of it. -/
theorem State.rd_feFaultBegin {s : State} (ho : s.ordered) (c : Nat) :
    (s.feFaultBegin c).ordered ∧ (s.feFaultBegin c).rd P.FeState 0 = 7 ∧ (s.feFaultBegin c).rd P.FeFaultCause 0 = c ∧
      (s.feFaultBegin c).rd P.FeRideDemand 0 = ratToF32 0 ∧ (s.feFaultBegin c).fe.bridge = false := by
  have hc : Foot.Covers { parts := [.mod, .dqFe, .ferry, .fe], pars := [] } (s.wr P.FeFaultCause 0 c)
      (s.wr P.FeFaultCause 0 c).bridgeOff.feOpen := .after (.mono (F := Foot.openSide) rfl (State.openSide_feOpen _)) (.bridgeOff ..)
  have hw : (s.wr P.FeFaultCause 0 c).ordered := State.ordered_wr ho ..
  have hr := (hc.rd hw rfl rfl 0).trans (State.rd_wr_same ho P.FeFaultCause 0 c)
  have hd := State.rd_feDown (hc.ordered hw)
  rw [hr] at hd
  exact hd

/-- A fault of the front end (R301). -/
theorem State.feFault_of_ne {s : State} (ho : s.ordered) (h : s.feState ≠ 7) (c : Nat) :
    (s.feFault c).rd P.FeState 0 = 7 ∧ (s.feFault c).rd P.FeFaultCause 0 = c ∧ (s.feFault c).rd P.FeRideDemand 0 = ratToF32 0 ∧
      (s.feFault c).fe.bridge = false := by
  obtain ⟨o, h1, h2, h3, h4⟩ := State.rd_feFaultBegin ho c
  have hr (p : Nat) (hp : p ≠ P.FeFlags) (hl : lossCount p = false) : ((s.feFaultBegin c).feFaultEnd c).rd p 0 =
    (s.feFaultBegin c).rd p 0 :=
    (Foot.Covers.feFaultEnd _ c).rd o (by simp [Foot.par, hp]) hl 0
  rw [State.feFault_eq, if_neg h, hr _ (by decide) rfl, hr _ (by decide) rfl, hr _ (by decide) rfl, State.bridge_feFaultEnd]
  exact ⟨h1, h2, h3, h4⟩

theorem exec_feFault {r : Res} {u : State} {c : Nat} (hr : r = .next (u.feFault c)) (ho : u.ordered) (h : u.feState ≠ 7) :
    ∃ s', r = .next s' ∧ s'.rd P.FeState 0 = 7 ∧ s'.rd P.FeFaultCause 0 = c ∧ s'.rd P.FeRideDemand 0 = ratToF32 0 ∧ s'.fe.bridge = false :=
  ⟨_, hr, State.feFault_of_ne ho h c⟩

/-- FeStart where nothing speaks against it (R290, R291). -/
theorem exec_feStart {t : Nat} {q : Req} {s : State} (hs : Served 0x0901 q s) (ho : s.ordered) (hset : s.feSettings = true)
    (hr : s.spans s.fe.nReady 100000000 = true) (hn : s.fe.nReady ≠ 0) (hst : s.feState = 0) (hc : s.rd P.FeFaultCause 0 = 0) :
    ∃ s', Answers (.feStart t q) s q 0x0101 [] s' ∧ s'.feState = 1 ∧ s'.fe.start = some q ∧ s'.fe.step = (if s.fe.preFb then 2 else 1) ∧
      s'.fe.t0 = (s.advance t).time.tick := by
  have hb : firstBad [(!(s.advance t).feSettings, ⟨0x0328, 0, 0, 0⟩), ((s.advance t).rb P.FeState 0, ⟨0x022F, 0, 0, 0⟩),
      ((s.advance t).rb P.FeFaultCause 0, ⟨0x0230, 0, 0, 0⟩),
      (!(s.advance t).spans (s.advance t).fe.nReady 100000000 || (s.advance t).fe.nReady == 0, ⟨0x022E, 0, 0, 0⟩)] = none := by
    have hst' : s.rd P.FeState 0 = 0 := hst
    have hr' : (s.advance t).spans s.fe.nReady 100000000 = true := by simpa [State.spans] using hr
    simp [State.feSettings_advance, hset, hr', hn, hst', hc, State.rb]
  let u := ((s.advance t).feOutput P.FePreOutput true).2
  have hfe : u.fe = s.fe := (State.fe_feOutput ..).trans (by simp)
  have hut : u.time.tick = (s.advance t).time.tick := State.tick_feOutput ..
  have hu : u.ordered := State.ordered_feOutput (State.ordered_advance ho t) ..
  let w (ch : Bool) (u : State) : State := (u.wr P.FeState 0 1).setFe { u.fe with
    step := if u.fe.preFb then 2 else 1, t0 := u.time.tick, tStep := u.time.tick, start := some q, preWait := u.fe.preWait || ch
    pi_ := [0, 0, 0, 0], res := List.replicate 8 (0, 0), iB := 0, cut := 0, nLow := 0 }
  have he : Answers (.feStart t q) s q 0x0101 [] (w ((s.advance t).feOutput P.FePreOutput true).1 u) := by
    change execFeStart t q s = _
    refine runReq_of_ok hs ?_
    dsimp only
    rw [guarded_of_none hb]
  refine ⟨_, he, ?_⟩
  clear_value u
  refine ⟨State.rd_wr_same hu P.FeState 0 1, rfl, ?_, hut⟩
  change (if u.fe.preFb then 2 else 1) = _
  rw [hfe]

/-- The loops are synchronised. -/
theorem State.feSync_done {s : State} (ho : s.ordered) : s.feSync.feState = 3 ∧ s.feSync.fe.step = 6 ∧ s.feSync.fe.uRef = s.fe.bus := by
  have hl : s.feLoadAll.ordered := (Foot.Covers.feLoadAll (F := { parts := [.mod], pars := [P.ModLoadAllState] }) s).ordered ho
  unfold State.feSync
  generalize s.feLoadAll = u at hl
  exact ⟨State.rd_wr_same hl .., rfl, rfl⟩

theorem exec_prechargeLevelReached {t : Nat} {s : State} (ho : s.ordered) (h1 : s.fe.step = 2)
    (h2 : s.rf P.FePrechargeLevel 0 * sqrtR 2 * s.rf P.FeMainsNominal 0 ≤ ofState s.fe.bus) :
    ∃ s', exec (.prechargeLevelReached t) s = .next s' ∧ s'.feState = 2 ∧ s'.fe.step = (if s.fe.mainFb then 4 else 3) := by
  let u := ((s.advance t).feOutput P.FeMainOutput true).2
  have hfe : u.fe = s.fe := (State.fe_feOutput ..).trans (by simp)
  have hu : u.ordered := State.ordered_feOutput (State.ordered_advance ho t) ..
  let w (ch : Bool) (u : State) : State := (u.wr P.FeState 0 2).setFe { u.fe with
    step := if u.fe.mainFb then 4 else 3, tStep := u.time.tick, mainWait := u.fe.mainWait || ch }
  have he : exec (.prechargeLevelReached t) s = .next (w ((s.advance t).feOutput P.FeMainOutput true).1 u) :=
    congrArg Host.Outcome.next (if_pos (by simpa using ⟨h1, h2⟩))
  refine ⟨_, he, ?_⟩
  clear_value u
  exact ⟨State.rd_wr_same hu P.FeState 0 2, congrArg (fun r : FeRec => if r.mainFb then 4 else 3) hfe⟩

/-- The state after the delay in which the precharge contactor opens. -/
def State.preOpened (s : State) (ch : Bool) : State :=
  let s := s.setFe { s.fe with step := 5, tStep := s.time.tick, preWait := s.fe.preWait || ch }
  if s.fe.preFb then s else s.feSync

theorem exec_preOpenDelayExpiry {t : Nat} {s : State} (h1 : s.fe.step = 4) (h2 : s.rf P.FePreOpenDelay 0 * 1000000 ≤ (s.advance t).feElapsed) :
    exec (.preOpenDelayExpiry t) s =
      .next (((s.advance t).feOutput P.FePreOutput false).2.preOpened ((s.advance t).feOutput P.FePreOutput false).1) :=
  congrArg Host.Outcome.next (if_pos (by simpa using ⟨h1, h2⟩))

theorem State.preOpened_of_closed {s : State} (h : s.fe.preFb = true) (ch : Bool) :
    (s.preOpened ch).fe.step = 5 ∧ (s.preOpened ch).fe.tStep = s.time.tick := by
  unfold State.preOpened
  dsimp only
  rw [if_pos (by exact h)]
  exact ⟨rfl, rfl⟩

theorem State.preOpened_of_open {s : State} (ho : s.ordered) (h : s.fe.preFb = false) (ch : Bool) :
    (s.preOpened ch).feState = 3 ∧ (s.preOpened ch).fe.step = 6 ∧ (s.preOpened ch).fe.uRef = s.fe.bus := by
  unfold State.preOpened
  dsimp only
  rw [if_neg (by exact ne_true_of_eq_false h)]
  exact State.feSync_done (s := s.setFe _) ho

/-- A recovery sets at most one flag. -/
theorem Foot.Covers.rideRecovers (s : State) : Foot.Covers { parts := [], pars := [P.FeFlags] } s s.rideRecover :=
  .ite (.wrBit ..) (.refl _)

theorem exec_busSettled {t : Nat} {s : State} (ho : s.ordered) (h1 : s.feState = 3)
    (h2 : absR (ofState s.fe.bus - s.rf P.FeBusSet 0) ≤ s.rf P.FeBusSet 0 / 50) :
    ∃ s', exec (.busSettled t) s = .next s' ∧ s'.feState = 4 ∧ s'.fe.step = 0 ∧ s'.fe.start = none := by
  let u := ((s.advance t).wr P.FeState 0 4).setFe { (s.advance t).fe with step := 0 }
  have hs : u.fe.step = 0 := rfl
  have hu : u.ordered := State.ordered_wr (State.ordered_advance ho t) ..
  have h4 : u.feState = 4 := State.rd_wr_same (State.ordered_advance ho t) ..
  have he : exec (.busSettled t) s = .next ((u.rideRecover.feRaise E.frontEndRunning 0 []).feEndStart 0) :=
    congrArg Host.Outcome.next (if_pos (by simpa [State.feState] using ⟨h1, h2⟩))
  refine ⟨_, he, ?_⟩
  clear_value u
  have hc : Foot.Covers { parts := [.fe], pars := [P.FeFlags] } u ((u.rideRecover.feRaise E.frontEndRunning 0 []).feEndStart 0) :=
    .after (.feEnded ..) <| .after (.feRaise ..) <| .mono (F := { parts := [], pars := [P.FeFlags] }) rfl (.rideRecovers u)
  refine ⟨(hc.rd hu rfl rfl 0).trans h4, ?_, congrArg FeRec.start (State.fe_feEndStart ..)⟩
  rw [State.fe_feEndStart, State.fe_feRaise, (Foot.Covers.rideRecovers u).parts .fe rfl]
  exact hs

theorem exec_feStop {t : Nat} {q : Req} {s : State} (hs : Served 0x0902 q s) (ho : s.ordered) (h : s.feState ≠ 6) :
    ∃ s', Answers (.feStop t q) s q 0x0101 [] s' ∧ s'.feState = 6 ∧ s'.fe.stops = s.fe.stops ++ [q] ∧ s'.fe.start = none ∧
      s'.fe.stopAt = (s.advance t).time.tick := by
  have h' : ¬(s.advance t).feState = 6 := by rwa [State.feState_advance]
  let u := (((s.advance t).feEndStart 0x0503).feBit feRECOVER false).feBit feRESERVE false
  have hc : Foot.Covers { parts := [.fe], pars := [P.FeFlags] } (s.advance t) u := .after (.wrBit ..) <| .after (.wrBit ..) <| .feEnded ..
  have hu : u.ordered := hc.ordered (State.ordered_advance ho t)
  have hst : u.fe.start = none := congrArg FeRec.start (State.fe_feEndStart ..)
  have hut : u.time.tick = (s.advance t).time.tick := hc.tick
  let w (u : State) : State := (u.wr P.FeState 0 6).setFe { u.fe with
    stops := s.fe.stops ++ [q], stopAt := u.time.tick, stopId := s.fe.id_, bridge := decide (3 ≤ s.feState ∧ s.feState ≤ 5), step := 0 }
  have he : Answers (.feStop t q) s q 0x0101 [] (w u) := by
    change execFeStop t q s = _
    refine runReq_of_ok hs ?_
    dsimp only
    rw [if_neg h', State.feState_advance]
    simp only [State.advance_frame]
    rfl
  refine ⟨_, he, ?_⟩
  clear_value u
  exact ⟨State.rd_wr_same hu P.FeState 0 6, rfl, hst, hut⟩

theorem exec_feStopRampEnd {t : Nat} {s : State} (ho : s.ordered) (h1 : s.feState = 6) (h2 : s.fe.stopAt + 10000000 ≤ (s.advance t).time.tick) :
    ∃ s', exec (.feStopRampEnd t) s = .next s' ∧ s'.feState = 0 ∧ s'.fe.stops = [] ∧ s'.fe.bridge = false := by
  have he : exec (.feStopRampEnd t) s = .next (((s.advance t).bridgeOff.feOpen.wr P.FeState 0 0).feStopped 0) :=
    congrArg Host.Outcome.next (if_pos (by simpa [State.feState] using ⟨h1, h2⟩))
  have hc : Foot.Covers { parts := [.mod, .dqFe, .ferry, .fe], pars := [] } (s.advance t) (s.advance t).bridgeOff.feOpen :=
    .after (.mono (F := Foot.openSide) rfl (State.openSide_feOpen _)) (.bridgeOff ..)
  have hu := hc.ordered (State.ordered_advance ho t)
  refine ⟨_, he, ?_⟩
  generalize (s.advance t).bridgeOff.feOpen = u at hu
  refine ⟨(State.rd_feStopped (State.ordered_wr hu ..) 0 rfl 0).trans (State.rd_wr_same hu ..), ?_, ?_⟩
  · rw [State.fe_feStopped]
  · rw [State.fe_feStopped]

theorem exec_feFaultClear {t : Nat} {q : Req} {s : State} (hs : Served 0x0903 q s) (ho : s.ordered) (h : s.rd P.FeFaultCause 0 ≠ 0)
    (hp : (s.advance t).fePresent (s.rd P.FeFaultCause 0) = false) :
    ∃ s', Answers (.feFaultClear t q) s q 0 [] s' ∧ s'.rd P.FeFaultCause 0 = 0 ∧ s'.feState = 0 ∧ s'.fe.stops = [] := by
  have hu := State.ordered_advance ho t
  have hw : ((s.advance t).wr P.FeFaultCause 0 0).ordered := State.ordered_wr hu ..
  refine ⟨(((s.advance t).wr P.FeFaultCause 0 0).wr P.FeState 0 0).feStopped 0, ?_, ?_, ?_, ?_⟩
  · change execFeFaultClear t q s = _
    refine runReq_of_ok hs ?_
    dsimp only
    rw [guarded_of_none (by simp [hp]), if_neg (by simpa using h)]
  · rw [State.rd_feStopped (State.ordered_wr hw ..) _ rfl, State.rd_wr_ne hw (by decide), State.rd_wr_same hu]
  · exact (State.rd_feStopped (State.ordered_wr hw ..) _ rfl 0).trans (State.rd_wr_same hw ..)
  · rw [State.fe_feStopped]

/-- A feedback that its output does not let expect (R301). -/
theorem exec_contactorFeedbackChange_of_unexpected {t : Nat} {m c : Bool} {s : State} (ho : s.ordered)
    (h1 : s.rd (if m then P.FeMainFeedback else P.FePreFeedback) 0 ≠ 0xFF)
    (h2 : (s.advance t).diLevel (s.rd (if m then P.FeMainFeedback else P.FePreFeedback) 0) = c)
    (h3 : (if m then s.fe.mainFb else s.fe.preFb) ≠ c) (h4 : (if m then s.fe.mainWait else s.fe.preWait) = false) (h5 : s.feState ≠ 7) :
    ∃ s', exec (.contactorFeedbackChange t m c) s = .next s' ∧ s'.rd P.FeState 0 = 7 ∧ s'.rd P.FeFaultCause 0 = 5 ∧
      s'.rd P.FeRideDemand 0 = ratToF32 0 ∧ s'.fe.bridge = false := by
  obtain ⟨r, hr⟩ : ∃ r, exec (.contactorFeedbackChange t m c) s = .next (((s.advance t).setFe r).feFault 5) := by
    change ∃ r, execContactorFeedbackChange t m c s = _
    simp only [execContactorFeedbackChange, onEvent, State.advance_frame, State.advance_rd, h4, Bool.false_and, Bool.not_false, if_true]
    rw [if_neg (by simp [h1, h2, h3])]
    exact ⟨_, rfl⟩
  exact exec_feFault hr (State.ordered_advance ho t) (by rwa [← State.feState_advance s t] at h5)

/-- Settles O40: a contactor output keeps the section's own record, and a fault leaves what R301 says. -/
theorem frontEndSequencesAct : Obligations.FrontEndSequencesAct := by
  refine ⟨?feStart, ?contactorFeedbackChange, ?contactorFeedbackChange2, ?contactorFeedbackChange3, ?contactorFeedbackChange4,
    ?contactorFeedbackChange5, ?prechargeLevelReached, ?preOpenDelayExpiry, ?preOpenDelayExpiry2, ?feSequenceTimeout, ?feSequenceTimeout2,
    ?busSettled, ?feStop, ?feStop2, ?feStopRampEnd, ?feFaultClear, ?feFaultClear2⟩
  case feStart =>
    intro t q s hs ho h2 h3 h4 h5 h6
    exact exec_feStart hs ho h2 h3 h4 h5 h6
  case contactorFeedbackChange =>
    intro t s h0 h1 h2 h3 h4 h5
    change execContactorFeedbackChange t false true s = _
    simp [execContactorFeedbackChange, onEvent, h0, h1, h2, h3, h4, h5]
  case contactorFeedbackChange2 =>
    intro t s h0 h1 h2 h3 h4 h5
    change execContactorFeedbackChange t true true s = _
    simp [execContactorFeedbackChange, onEvent, h0, h1, h2, h3, h4, h5]
  case contactorFeedbackChange3 =>
    intro t s h0 h1 h2 h3 h4 h5
    change execContactorFeedbackChange t false false s = _
    simp [execContactorFeedbackChange, onEvent, h0, h1, h2, h3, h4, h5]
  case contactorFeedbackChange4 =>
    intro t m c s h
    refine congrArg Host.Outcome.next (if_pos ?_)
    simpa using h
  case contactorFeedbackChange5 =>
    intro t m c s ho h1 h2 h3 h4 h5
    exact exec_contactorFeedbackChange_of_unexpected ho h1 h2 h3 h4 h5
  case prechargeLevelReached =>
    intro t s ho h1 h2
    exact exec_prechargeLevelReached ho h1 h2
  case preOpenDelayExpiry =>
    intro t s h0 h1 h2
    have hp : ((s.advance t).feOutput P.FePreOutput false).2.fe.preFb = true := by simpa [State.fe_feOutput] using h1
    obtain ⟨h5, ht⟩ := State.preOpened_of_closed hp ((s.advance t).feOutput P.FePreOutput false).1
    exact ⟨_, exec_preOpenDelayExpiry h0 h2, h5, ht.trans (State.tick_feOutput ..)⟩
  case preOpenDelayExpiry2 =>
    intro t s ho h1 h2 h3
    have hp : ((s.advance t).feOutput P.FePreOutput false).2.fe.preFb = false := by simpa [State.fe_feOutput] using h2
    have hd := State.preOpened_of_open (State.ordered_feOutput (State.ordered_advance ho t) ..) hp
      ((s.advance t).feOutput P.FePreOutput false).1
    simp only [State.fe_feOutput, State.advance_frame] at hd
    exact ⟨_, exec_preOpenDelayExpiry h1 h3, hd⟩
  case feSequenceTimeout =>
    intro t s ho h1 h2 h3
    exact exec_feFault (congrArg Host.Outcome.next (if_pos (by simpa using ⟨h1, h2⟩))) (State.ordered_advance ho t)
      (by rwa [State.feState_advance])
  case feSequenceTimeout2 =>
    intro t s ho h1 h2 h3
    refine exec_feFault (congrArg Host.Outcome.next ((if_neg (by simp [h1])).trans (if_pos ?_))) (State.ordered_advance ho t)
      (by rwa [State.feState_advance])
    simpa using ⟨h1, h2⟩
  case busSettled =>
    intro t s ho h1 h2
    exact exec_busSettled ho h1 h2
  case feStop =>
    intro t q s hs h1
    have h1' : (s.advance t).feState = 6 := by rwa [State.feState_advance]
    change execFeStop t q s = _
    refine runReq_of_ok hs ?_
    dsimp only
    rw [if_pos h1']
    simp only [State.advance_frame]
  case feStop2 =>
    intro t q s hs ho h
    exact exec_feStop hs ho h
  case feStopRampEnd =>
    intro t s ho h1 h2
    exact exec_feStopRampEnd ho h1 h2
  case feFaultClear =>
    intro t q s hs ho h1 h2
    exact exec_feFaultClear hs ho h1 h2
  case feFaultClear2 =>
    intro t q s hs h1
    change execFeFaultClear t q s = _
    exact runReq_of_ok hs (by simp [guarded, h1])

end Sys2Proof.Machine

end

/-! Virtual masters, line requests, line frames and the line time-out. -/

section

-- One declaration after the other: elaborated at once they need more threads than the check has memory for.
set_option Elab.async false

namespace Sys2Proof.Machine

/-- A line request that nothing speaks against is answered with its instant and number, and joins the commands (R228). -/
theorem State.lineReq_of_clear {s : State} {q : Req} {kind value : Nat} {lims : List Nat} {bad : List (Bool × Rsn)} (hb : firstBad bad = none)
    (ho : s.lineOwner = true) (hc : s.line.cmds.length < 4) :
    s.lineReq q kind value lims bad = .ok 0x0101
      (leBytes 8 (s.sampleAt (s.lineSend + (roundHE (s.rf P.LineLead 0 * 1000000)).toNat)) ++ leBytes 4 ((s.line.no + 1) % 2 ^ 32) ++ [0,
        0, 0, 0])
      (s.setLine { s.line with
        no := (s.line.no + 1) % 2 ^ 32
        cmds := s.line.cmds ++ [({
          eff := s.sampleAt (s.lineSend + (roundHE (s.rf P.LineLead 0 * 1000000)).toNat), kind := kind, value := value, lims := lims
          no := (s.line.no + 1) % 2 ^ 32, req := some (0, q) } : LineCmd)] }) := by
  have hc' : ¬4 ≤ s.line.cmds.length := by omega
  exact guarded_of_none (by simp [hb, ho, hc'])

/-- The line frame's check of form: length, protocol, commands and check value. -/
theorem lineFrame_ok {b : List Byte} (h1 : 100 ≤ b.length) (h2 : fld b 0 2 = 1) (h3 : fld b 88 1 ≤ 4) (h4 : b.length = 100 + 32 * fld b 88 1)
    (h5 : fld b (b.length - 4) 4 = crc32 (b.take (b.length - 4))) :
    (decide (100 ≤ b.length) && fld b 0 2 == 1 && decide (fld b 88 1 ≤ 4) && decide (b.length = 100 + 32 * fld b 88 1) &&
      fld b (b.length - 4) 4 == crc32 (b.take (b.length - 4))) = true := by
  simp only [Bool.and_eq_true, decide_eq_true_eq, beq_iff_eq]
  exact ⟨⟨⟨⟨h1, h2⟩, h3⟩, h4⟩, h5⟩

/-- A line frame of good form for the line's address and port, of another unit. -/
theorem exec_lineFrameReceived_of_ok {t : Nat} {b : List Byte} {s : State}
    (hok : (decide (100 ≤ b.length) && fld b 0 2 == 1 && decide (fld b 88 1 ≤ 4) && decide (b.length = 100 + 32 * fld b 88 1) &&
      fld b (b.length - 4) 4 == crc32 (b.take (b.length - 4))) = true) (ha : fld b 2 1 ≠ s.rd P.LineAddress 0) :
    exec (.lineFrameReceived t ⟨s.rd P.LineGroupAddress 0, s.rd P.LinePort 0, b⟩) s = .next (
      let own := bitOf (fld b 3 1) 0
      let s := if own then (s.advance t).setLine { s.line with owner := some ((s.advance t).time.tick, b) } else s.advance t
      if !s.rb P.LineEnable 0 then s else
      let s := s.setLine { s.line with
        demands := (fld b 2 1, fld b 28 4, s.time.tick) :: s.line.demands.filter fun d => d.1 != fld b 2 1 }
      if !own || s.lineOwner then s else s.lineFollow b) := by
  change execLineFrameReceived t ⟨s.rd P.LineGroupAddress 0, s.rd P.LinePort 0, b⟩ s = _
  unfold execLineFrameReceived onEvent
  dsimp only
  rw [hok, if_neg (by simp [ha])]
  simp only [State.advance_frame]

/-- Settles O36. -/
theorem mastersAndLineCommandsAct : Obligations.MastersAndLineCommandsAct := by
  refine ⟨?vmMove, ?vmStop, ?lineMove, ?lineStop, ?lineFrameSend, ?lineFrameReceived, ?lineFrameReceived2, ?lineFrameReceived3,
    ?lineTimeout⟩
  case vmMove =>
    intro t q s hs h1 h2 h3
    change execVmMove t q s = _
    have h1' : ownBad (moveOwn q.body 12) (s.vmLims q.inst) = false := by simpa using h1
    exact runReq_of_ok hs (State.commitReq_of_firstBad (by simp [h1', h2, h3]))
  case vmStop =>
    intro t q s hs h1 h2
    change execVmStop t q s = _
    exact runReq_of_ok hs (State.commitReq_of_firstBad (by simp [h1, h2]))
  case lineMove =>
    intro t q s hs h1 h2 h3 h4
    have hv (m : Nat) : (s.advance t).vmLims m = s.vmLims m := by simp [State.vmLims]
    have hl : (s.advance t).lineVm = s.lineVm := by simp [State.lineVm]
    change execLineMove t q s = _
    refine runReq_of_ok hs ((State.lineReq_of_clear ?_ (by rwa [State.lineOwner_advance]) (by simpa using h4)).trans ?_)
    · simp only [hl, hv, firstBad_cons, firstBad_nil, h1]
      cases hm : s.lineVm with
      | none =>
        simp only [hm] at h2
        simp [h2]
      | some m =>
        simp only [hm] at h2
        simp [h2]
    · simp only [State.advance_frame, State.rf_advance]
  case lineStop =>
    intro t q s hs h1 h2
    change execLineStop t q s = _
    refine runReq_of_ok hs ((State.lineReq_of_clear rfl (by rwa [State.lineOwner_advance]) (by simpa using h2)).trans ?_)
    simp only [State.advance_frame, State.rf_advance]
  case lineFrameSend =>
    intro t s s2 s3 h0 h1 h2 h3 h4
    change execLineFrameSend t s = _
    unfold execLineFrameSend onEvent
    dsimp only
    rw [if_neg (by simp [h0, h1, h2])]
    simp only [State.advance_frame]
    rw [← h3, ← h4]
    rfl
  case lineFrameReceived =>
    intro t b s h0 h1 h2 h3 h4 h5 h6 h7
    rw [exec_lineFrameReceived_of_ok (lineFrame_ok h0 h1 h2 h3 h4) h5]
    simp [h6, h7]
  case lineFrameReceived2 =>
    intro t b s h0 h1 h2 h3 h4 h5 h6 h7
    rw [exec_lineFrameReceived_of_ok (lineFrame_ok h0 h1 h2 h3 h4) h5]
    have he : s.rd P.LineEnable 0 = 0 := by simpa [State.rb] using h6
    simp [h7, he, State.rb]
  case lineFrameReceived3 =>
    intro t b s h0 h1 h2 h3 h4 h5 h6 h7 h8
    rw [exec_lineFrameReceived_of_ok (lineFrame_ok h0 h1 h2 h3 h4) h5]
    have he : s.rd P.LineEnable 0 ≠ 0 := by simpa [State.rb] using h6
    have ha : s.rd P.LineAddress 0 ≠ 1 := by simpa [State.lineOwner, h6] using h8
    simp [h7, he, ha, State.rb, State.lineOwner]
  case lineTimeout =>
    intro t s ho h1 h2
    let u := (s.advance t).wr P.LineState 0 4
    have hu : u.ordered := State.ordered_wr (State.ordered_advance ho t) ..
    have h4 : u.rd P.LineState 0 = 4 := State.rd_wr_same (State.ordered_advance ho t) ..
    have hl : u.line = s.line := by simp [u]
    have he : exec (.lineTimeout t) s = .next ((u.lineFlag vLINELOST true).raise E.lineMasterLost 0 []) :=
      congrArg Host.Outcome.next (if_pos (by simpa only [State.advance_rd, State.rf_advance, State.advance_frame] using ⟨h1, h2⟩))
    have hc : Foot.Covers { parts := [], pars := [P.VmState] } u ((u.lineFlag vLINELOST true).raise E.lineMasterLost 0 []) := by
      refine .after (.raise ..) ?_
      unfold State.lineFlag
      split
      · exact .refl _
      · exact .wrBit ..
    exact ⟨_, he, (hc.rd hu rfl rfl 0).trans h4, Eq.trans (hc.parts .line rfl) hl⟩

end Sys2Proof.Machine

end

/-! The gain-map requests. -/

section

-- One declaration after the other: elaborated at once they need more threads than the check has memory for.
set_option Elab.async false

namespace Sys2Proof.Machine

/-- A map of key 1 with two points, 0 and 1, whose slot 0 is 0 at both, and whose MODE is 2. -/
def mapOfModeTwo : List Byte :=
  [1, 0, 1, 0, 2, 1, 2, 0, 1, 0, 0, 0] ++ List.replicate 20 0 ++ leBytes 4 0 ++ leBytes 4 0x3F800000 ++ List.replicate 64 0

/-- GainMapLoad of that map for axis 0. -/
def loadOfModeTwo : Req := { Req.own with opcode := 0x0510, body := mapOfModeTwo }

/-- Refutes O34: the checks that the map passes leave MODE and BLEND out, and GainMapLoad refuses a MODE above 1 with 0x0304. -/
theorem not_axisAndGainMapCommandsAct : ¬ Obligations.AxisAndGainMapCommandsAct := by
  rintro ⟨-, -, -, h, -⟩
  have h := h 0 loadOfModeTwo State.reset (by decide +kernel) (by decide +kernel) (by decide +kernel) (by decide +kernel)
  exact absurd (congrArg (fun r => ((Res.after State.reset r).gmap 0).loaded) h) (by decide +kernel)

end Sys2Proof.Machine

end

/-! Acquisition units: requests, triggers, time-outs, staging and read-out. -/

section

-- One declaration after the other: elaborated at once they need more threads than the check has memory for.
set_option Elab.async false

namespace Sys2Proof.Machine

theorem State.baseTime_of_base {s : State} {u : Nat} (h : s.rd P.AqClass u = 0) : s.baseTime u = s.time.lastS := by
  simp [State.baseTime, h]

theorem State.baseTime_of_fast {s : State} {u : Nat} (h : s.rd P.AqClass u = 1) : s.baseTime u = s.lineNs / 10 * 10 := by
  simp [State.baseTime, h]

/-- An automatic time-out that is due with no trigger found takes the present frame. -/
theorem exec_acqAutoTimeout_of_none {t u : Nat} {s : State} (hu : u < 4) (h2 : s.rd P.AqState u = 2) (hm : s.rd P.AqMode u = 2)
    (hd : s.rf P.AqAutoTimeout u * 1000000 ≤ (((s.advance t).baseTime u - (s.aqu u).waitAt : Nat) : Rat)) (hc : (s.aqu u).cand = none) :
    exec (.acqAutoTimeout t u) s = .next ((s.advance t).aqTake u (s.aqu u).frame ((s.advance t).baseTime u) (32 + 16)) := by
  change execAcqAutoTimeout t u s = _
  simp [execAcqAutoTimeout, onUnit, hu, h2, hm, hd, hc]

theorem State.aqu_setAq_same {s : State} (h : tabSorted none s.aq = true) (u : Nat) (r : AqRec) : (s.setAq u r).aqu u = r := by
  simp [State.aqu, State.setAq, tabGet_tabSet_same _ _ _ _ h]

/-- What a disarmed unit reads. -/
theorem State.rd_aqDisarm {s : State} (ho : s.ordered) (u st : Nat) :
    (s.aqDisarm u st).ordered ∧ (s.aqDisarm u st).rd P.AqState u = st ∧ bitOf ((s.aqDisarm u st).rd P.AqFlags u) 0 = false := by
  unfold State.aqDisarm
  extract_lets _ v
  have hv : v.ordered := ho
  clear_value v
  have hw : (v.wr P.AqState u st).ordered := State.ordered_wr hv ..
  exact ⟨State.ordered_wrBit hw .., (State.rd_wrBit_ne hw (by decide) ..).trans (State.rd_wr_same hv ..), State.bitOf_rd_wrBit_same hw ..⟩

/-- Settles O50. -/
theorem acquisitionUnitsAct : Obligations.AcquisitionUnitsAct := by
  refine ⟨?acqArm, ?acqStop, ?acqStop2, ?acqForce, ?acqTrigger, ?acqAutoTimeout, ?acqAutoTimeout2, ?acqFrameFormed, ?acqAutoTimeout3,
    ?acqBlockWrite, ?acqOverrun, ?acqRateRestore, ?acqRead, ?acqCaptures, ?acqGrant, ?acqRevoke⟩
  case acqArm =>
    intro t q s hs h1 h2 h3
    change execAcqArm t q s = _
    exact runReq_of_ok hs (State.commitReq_of_firstBad (by simp [h1, h2, h3]))
  case acqStop =>
    intro t q s hs h1
    change execAcqStop t q s = _
    refine runReq_of_ok hs ?_
    simp [guarded, firstBad, h1]
  case acqStop2 =>
    intro t q s hs h1
    change execAcqStop t q s = _
    refine runReq_of_ok hs ?_
    simp [guarded, firstBad, h1]
  case acqForce =>
    intro t q s hs h1
    change execAcqForce t q s = _
    refine runReq_of_ok hs ?_
    obtain h1 | h1 := h1 <;> simp [guarded, firstBad, h1]
  case acqTrigger =>
    intro t u f x s h0 h1 h2
    change execAcqTrigger t u s = _
    simp [execAcqTrigger, onUnit, h0, h1, h2]
  case acqAutoTimeout =>
    intro t u s h0 h1 h2 h3 h4 h5
    have hb : (s.advance t).baseTime u = s.time.lastS := (State.baseTime_of_base (by simpa using h5)).trans (by simp)
    rw [exec_acqAutoTimeout_of_none h0 h1 h2 (by rwa [hb]) h4, hb]
  case acqAutoTimeout2 =>
    intro t u s h0 h1 h2 h3 h4 h5
    have hb : (s.advance t).baseTime u = (s.advance t).lineNs / 10 * 10 := State.baseTime_of_fast (by simpa using h5)
    rw [exec_acqAutoTimeout_of_none h0 h1 h2 (by rwa [hb]) h4, hb]
  case acqFrameFormed =>
    intro t u r s h0 h1 h2 h3
    have hc (tl : Nat) : ((s.advance t).fastRow u tl r).2.time.cycle = s.time.cycle :=
      ((Foot.Covers.fastRow (F := Foot.acquisition) ..).cycle rfl).trans (State.cycle_advance ..)
    have h3' : ¬((s.aqu u).idx = 0 ∧ (s.advance t).lineNs / 10 * 10 < (s.aqu u).waitAt) := by simpa using h3
    change execAcqFrameFormed t u [r] s = _
    simp [execAcqFrameFormed, onUnit, h0, h1, h2, h3', hc]
  case acqAutoTimeout3 =>
    intro t u f x s h0 h1 h2 h3 h4
    change execAcqAutoTimeout t u s = _
    simp [execAcqAutoTimeout, onUnit, h0, h1, h2, h3, h4]
  case acqBlockWrite =>
    intro t u s h0 h1
    refine ⟨_, if_pos (by simpa using h0), ?_⟩
    rw [State.aqu_setAq_same (by simpa using h1)]
    simp
  case acqOverrun =>
    intro t u s h0 h1 h2 h3
    obtain ⟨ho, hst, hf⟩ := State.rd_aqDisarm (State.ordered_advance h0 t) u 5
    have hb := State.ordered_wrBit ho P.AqFlags u 1 true
    refine ⟨((s.advance t).aqDisarm u 5 |>.wrBit P.AqFlags u 1 true).raise E.acquisitionOverrun u [], ?_, ?_, ?_, ?_⟩
    · change execAcqOverrun t u s = _
      simp [execAcqOverrun, onUnit, h1, h2, h3, State.aqOverrun]
    · rw [State.rd_raise hb _ _ _ rfl, State.rd_wrBit_ne ho (by decide), hst]
    · rw [State.rd_raise hb _ _ _ rfl, State.bitOf_rd_wrBit_same ho]
    · rw [State.rd_raise hb _ _ _ rfl, State.bitOf_rd_wrBit_ne ho _ _ (by decide), hf]
  case acqRateRestore =>
    intro t u s h0 h1 h2 h3 h4
    change execAcqRateRestore t u s = _
    simp [execAcqRateRestore, onUnit, h0, h1, h2, h3, h4]
  case acqRead =>
    intro t q s c hs h1 h2 h3
    change execAcqRead t q s = _
    refine runReq_of_ok hs ?_
    dsimp only
    rw [if_neg (by omega)]
    simp only [State.aqu_advance, h3]
  case acqCaptures =>
    intro t q s hs
    change execAcqCaptures t q s = _
    refine runReq_of_ok hs ?_
    simp [guarded, firstBad]
  case acqGrant =>
    intro t q s hs h1 h2 h3 h4
    change execAcqGrant t q s = _
    refine runReq_of_ok hs ?_
    have h1' : ¬63 < fld q.body 0 1 := by omega
    obtain h4 | h4 := h4 <;> simp [guarded, firstBad, h1', h2, h3, h4]
  case acqRevoke =>
    intro t q s hs
    change execAcqRevoke t q s = _
    refine runReq_of_ok hs ?_
    simp [guarded, firstBad]

end Sys2Proof.Machine

end

/-! Field inputs and outputs: levels, filters, diagnosis, supplies and the field I/O requests. -/

section

-- One declaration after the other: elaborated at once they need more threads than the check has memory for.
set_option Elab.async false

namespace Sys2Proof.Machine

/-- A command of a unit that exists is what it does to the state at its tick. -/
theorem onUnit_of {t : Nat} {s s' : State} {ok : Bool} {f : State → State} (h : ok = true) (hf : f (s.advance t) = s') :
    onUnit t s ok f = .next s' := by
  rw [onUnit, h, ← hf]
  rfl

/-- Settles O44: each case takes one branch of its command, and says which conditions lead there. -/
theorem fieldInputsAndOutputsAct : Obligations.FieldInputsAndOutputsAct := by
  refine ⟨?fastInputEdge, ?fastInputEdge2, ?inputFilterExpiry, ?inputFilterExpiry2, ?inputFilterExpiry3, ?inputWireBreak,
    ?inputWireBreak2, ?outputOverload, ?outputOverloadClear, ?outputFedBack, ?outputFedBack2, ?fieldSupplyLow, ?fieldSupplyRestored,
    ?ioSnapshot, ?dqWrite, ?dqRelease⟩
  case fastInputEdge =>
    intro t i v s hi hl
    change execFastInputEdge t i v s = _
    refine onUnit_of (by simpa using hi) ?_
    simp only [State.group_advance]
    exact if_neg (by simpa [FerryRec.setLevels] using hl)
  case fastInputEdge2 =>
    intro t i v s hi hl
    change execFastInputEdge t i v s = _
    refine onUnit_of (by simpa using hi) ?_
    simp only [State.group_advance]
    exact if_pos (by simpa [FerryRec.setLevels] using hl)
  case inputFilterExpiry =>
    intro t i x s hi ht
    change execInputFilterExpiry t i x s = _
    refine onUnit_of (by simp; omega) ?_
    simp only [State.group_advance]
    exact (if_pos hi).trans (if_neg (by simpa using ht))
  case inputFilterExpiry2 =>
    intro t i x s hl hi ht
    change execInputFilterExpiry t i x s = _
    refine onUnit_of (by simpa using hi) ?_
    simp only [State.group_advance]
    exact (if_neg (by omega)).trans (if_neg (by simpa using ht))
  case inputFilterExpiry3 =>
    intro t i x s hi ht
    change execInputFilterExpiry t i x s = _
    refine onUnit_of (by simp; omega) ?_
    simp only [State.group_advance]
    exact (if_pos hi).trans (if_pos ht)
  case inputWireBreak =>
    intro t i s hi hc hb
    have hi' : i < 48 := by omega
    change execInputWireBreak t i true s = _
    simp [execInputWireBreak, onUnit, State.raiseIf, hi', hi, hc, hb]
  case inputWireBreak2 =>
    intro t i s hl hi
    have hl' : ¬i < 32 := by omega
    change execInputWireBreak t i false s = _
    simp [execInputWireBreak, onUnit, State.raiseIf, hl', hi]
  case outputOverload =>
    intro t o s ho hl
    change execOutputOverload t o s = _
    refine onUnit_of (by simpa using ho) ?_
    simp only [State.group_advance]
    exact if_neg (by simpa using hl)
  case outputOverloadClear =>
    intro t o s ho hl ht
    change execOutputOverloadClear t o s = _
    refine onUnit_of (by simpa using ho) ?_
    simp only [State.group_advance]
    exact if_neg (by simpa [hl] using ht)
  case outputFedBack =>
    intro t o s ho hl hf
    change execOutputFedBack t o true s = _
    simp [execOutputFedBack, onUnit, State.raiseIf, ho, hl, hf]
  case outputFedBack2 =>
    intro t o s ho
    change execOutputFedBack t o false s = _
    simp [execOutputFedBack, onUnit, State.raiseIf, ho]
  case fieldSupplyLow =>
    intro t g s hg hl
    change execFieldSupplyLow t g s = _
    simp [execFieldSupplyLow, onUnit, State.raiseIf, hg, hl]
  case fieldSupplyRestored =>
    intro t g s hg
    change execFieldSupplyRestored t g s = _
    exact onUnit_of (by simpa using hg) (by simp)
  case ioSnapshot =>
    intro t q s hs
    change execIoSnapshot t q s = _
    refine runReq_of_ok hs ?_
    simp
  case dqWrite =>
    intro t q s hs hl hf
    have hn : (bitList 16 (fld q.body 0 2)).any (s.advance t |>.lockedCopy P.DqCommand) = false ∧
        (bitList 16 (fld q.body 0 2)).any (fun o => s.dqOwner o == 1) = false ∧
        (bitList 16 (fld q.body 0 2)).any (fun o => s.dqOwner o == 2) = false ∧
        (bitList 16 (fld q.body 0 2)).any (s.advance t |>.stagedCopy P.DqCommand) = false := by
      simp only [List.all_eq_true, Bool.not_eq_true', Bool.or_eq_false_iff] at hf
      refine ⟨?_, ?_, ?_, ?_⟩ <;> refine List.any_eq_false.2 fun o hm => Bool.eq_false_iff.1 ?_
      · exact (State.lockedCopy_advance ..).trans (hf o hm).1.1.1
      · exact (hf o hm).1.1.2
      · exact (hf o hm).1.2
      · exact (State.stagedCopy_advance ..).trans (hf o hm).2
    obtain ⟨h1, h2, h3, h4⟩ := hn
    change execDqWrite t q s = _
    exact runReq_of_ok hs (State.commitReq_of_firstBad (by simp [hl, h1, h2, h3, h4]))
  case dqRelease =>
    intro t q s hs hl hf
    have hn : (bitList 4 (fld q.body 0 1)).any (fun g => !s.settled g) = false := by
      simpa [List.all_eq_true, List.any_eq_false] using hf
    change execDqRelease t q s = _
    exact runReq_of_ok hs (State.commitReq_of_firstBad (by simp [hl, hn]))

end Sys2Proof.Machine

end

/-! User tasks, DMA channels, memory information and memory errors. -/

section

-- One declaration after the other: elaborated at once they need more threads than the check has memory for.
set_option Elab.async false

namespace Sys2Proof.Machine

/-- The tasks' table is sorted, and no start of the tasks in `ks` waits. -/
def State.tasksIdle (ks : Nat → Prop) (s : State) : Prop :=
  tabSorted none s.pr.tasks = true ∧ ∀ k, ks k → (s.taskR k).start = none

namespace State.tasksIdle

variable {ks : Nat → Prop} {s : State}

theorem of_tasks {s' : State} (h : s.tasksIdle ks) (ht : s'.pr.tasks = s.pr.tasks) : s'.tasksIdle ks := by
  obtain ⟨hs, hk⟩ := h
  exact ⟨by rw [ht]; exact hs, fun k x => by rw [State.taskR, ht]; exact hk k x⟩

/-- Writing a task whose start does not wait for longer than before keeps both. -/
theorem setTask (h : s.tasksIdle ks) {k : Nat} {r : TaskRec} (hr : (s.taskR k).start = none → r.start = none) : (s.setTask k r).tasksIdle ks := by
  obtain ⟨hs, hk⟩ := h
  refine ⟨tabSorted_tabSet _ _ _ _ none (by simp) hs, fun j hj => ?_⟩
  by_cases hjk : j = k
  · subst hjk
    simpa [State.taskR, State.setTask, tabGet_tabSet_same _ _ _ _ hs] using hr (hk j hj)
  · simpa [State.taskR, State.setTask, tabGet_tabSet_ne _ _ _ _ _ _ hs hjk] using hk j hj

theorem foldl {β : Type} {f : State → β → State} (hf : ∀ v x, v.tasksIdle ks → (f v x).tasksIdle ks) (l : List β) (h : s.tasksIdle ks) :
    (l.foldl f s).tasksIdle ks :=
  List.foldlRecOn (motive := fun v : State => v.tasksIdle ks) _ _ h fun v hv x _ => hf v x hv

theorem complete (h : s.tasksIdle ks) (q i e st d w v) : (s.complete q i e st d w v).tasksIdle ks :=
  h.of_tasks (by rw [Eq.trans ((Foot.Covers.complete (F := .nothing) ..).parts .pr rfl) rfl])

theorem coreRun (h : s.tasksIdle ks) (c : Nat) (n : Option Nat) : (s.coreRun c n).tasksIdle ks := by
  unfold State.coreRun
  extract_lets k s1 hist s2 s3
  have h1 : s1.tasksIdle ks := by
    unfold s1
    split
    · exact h
    · split
      · exact h
      · exact h.of_tasks rfl
  have h3 : s3.tasksIdle ks := h1.of_tasks rfl
  clear_value s3
  split
  · exact h3
  · split
    · exact h3
    · extract_lets r
      split
      · split
        · exact (h3.setTask fun _ => rfl).complete ..
        · exact h3
      · exact h3

theorem dispatchPass (h : s.tasksIdle ks) : s.dispatchPass.tasksIdle ks := by
  unfold State.dispatchPass
  refine foldl (fun v c hv => ?_) _ h
  split
  · exact hv
  · split
    · exact hv.coreRun ..
    · split
      · exact hv.coreRun ..
      · exact hv

theorem schedReport (h : s.tasksIdle ks) : s.schedReport.tasksIdle ks := h.of_tasks rfl

theorem dispatch (h : s.tasksIdle ks) : s.dispatch.tasksIdle ks :=
  schedReport (foldl (fun _ _ hv => hv.dispatchPass) (List.range 7) h)

theorem taskWrite (h : s.tasksIdle ks) (k a : Nat) (b : List Byte) : (s.taskWrite k a b).tasksIdle ks := by
  unfold State.taskWrite
  extract_lets r
  split
  · split
    · exact h.setTask id
    · exact h
  · exact h

theorem dmaPost (h : s.tasksIdle ks) (k c : Nat) : (s.dmaPost k c).tasksIdle ks := by
  unfold State.dmaPost
  split
  · exact h.setTask id
  · exact h

theorem dmaEnd (h : s.tasksIdle ks) (c st : Nat) (go : Bool) : (s.dmaEnd c st go).tasksIdle ks := by
  unfold State.dmaEnd
  split
  · exact h
  · extract_lets k s1 s2 s3
    have h1 : s1.tasksIdle ks := by
      unfold s1
      split
      · exact (h.taskWrite ..).taskWrite ..
      · exact h
    have h2 : s2.tasksIdle ks := by
      unfold s2
      split
      · exact h1.dmaPost ..
      · exact h1
    clear_value s2
    split
    · exact h2.of_tasks rfl
    · exact h2.of_tasks rfl

theorem dmaFree (h : s.tasksIdle ks) (k : Nat) (st : Nat → Nat) : (s.dmaFree k st).tasksIdle ks := by
  unfold State.dmaFree
  refine foldl (fun v c hv => ?_) _ h
  split
  · exact (hv.dmaEnd c (st c) false).of_tasks rfl
  · exact hv

/-- A halted task has no start that waits. -/
theorem taskHalt (h : s.tasksIdle fun _ => False) (k : Nat) (st : Nat → Nat) : (s.taskHalt k st).tasksIdle (· = k) := by
  unfold State.taskHalt
  extract_lets s1 _ s2 s3 _ s4 s5
  have h1 : s1.tasksIdle fun _ => False := by
    refine foldl (fun v c hv => ?_) _ h
    split
    · exact hv.coreRun ..
    · exact hv
  clear_value s1
  have h2 : s2.tasksIdle fun _ => False := h1.of_tasks rfl
  have h3 : s3.tasksIdle fun _ => False := h2.dmaFree ..
  clear_value s3
  have h4 : s4.tasksIdle (· = k) := by
    obtain ⟨hs, -⟩ := h3
    refine ⟨tabSorted_tabSet _ _ _ _ none (by simp) hs, ?_⟩
    rintro _ rfl
    simp [s4, State.taskR, State.setTask, tabGet_tabSet_same _ _ _ _ hs]
  clear_value s4
  have h5 : s5.tasksIdle (· = k) := by
    refine foldl (fun v u hv => ?_) _ h4
    split
    · exact hv.of_tasks rfl
    · exact hv
  exact h5.dispatch

/-- A halted task that stops reads state 4, whatever completes then. -/
theorem stopped {k : Nat} (h : s.tasksIdle (· = k)) (ho : s.ordered) (q : Req) (e : Nat) :
    ((s.wr P.TaskState k 4).complete q 0 e 0 0 0 0).rd P.TaskState k = 4 ∧
      (((s.wr P.TaskState k 4).complete q 0 e 0 0 0 0).taskR k).start = none := by
  have hw : (s.wr P.TaskState k 4).ordered := State.ordered_wr ho ..
  have hr : (s.wr P.TaskState k 4).rd P.TaskState k = 4 := State.rd_wr_same ho ..
  have hi : (s.wr P.TaskState k 4).tasksIdle (· = k) := h.of_tasks rfl
  generalize s.wr P.TaskState k 4 = v at hw hr hi
  exact ⟨((Foot.Covers.complete (F := .nothing) v q 0 e 0 0 0 0).rd hw rfl rfl k).trans hr, (hi.complete ..).2 k rfl⟩

end State.tasksIdle

theorem State.taskR_setTask_same {s : State} (h : tabSorted none s.pr.tasks = true) (k : Nat) (r : TaskRec) : (s.setTask k r).taskR k = r :=
  tabGet_tabSet_same _ _ _ _ h

/-- A task that faults reads state 5. -/
theorem State.rd_taskFault {s : State} (ho : s.ordered) (k code core th pc addr : Nat) (st : Nat → Nat) :
    (s.taskFault k code core th pc addr st).rd P.TaskState k = 5 := by
  unfold State.taskFault
  extract_lets s1 s2 s3
  have h1 : s1.ordered := by
    unfold s1
    split
    · exact (Foot.Covers.complete (F := .nothing) ..).ordered ho
    · exact ho
  have h : (s1.taskHalt k st).ordered := (Foot.Covers.taskHalt (F := Foot.processor) ..).ordered h1
  rw [State.rd_raise (State.ordered_wr (State.ordered_wr h ..) ..) _ _ _ rfl, State.rd_wr_ne (State.ordered_wr h ..) (by decide),
    State.rd_wr_same h]

/-- The record of a task that starts: its pages are those of its image. -/
def State.startedTask (s : State) (k : Nat) (q : Req) : TaskRec :=
  let img := (s.taskR k).parts.flatMap (·.2)
  let data := fld img 12 4
  let ps := mapPages [] (Config.taskPage 0) false true (pagesOf (fld img 8 4 / 4096) (slice img 48 (fld img 8 4)))
  let ps := mapPages ps (Config.taskPage 1) true false (pagesOf ((data + fld img 16 4) / 4096)
    (padTo (data + fld img 16 4) (slice img (48 + fld img 8 4) data)))
  { s.taskR k with
    start := some q, kick := s.time.tick, dmaFlow := []
    pages := mapPages ps (Config.taskPage 2) true false (List.replicate (fld img 24 4 / 4096) []) }

/-- A start that waits ends when its task stops. -/
def State.startEnded (s : State) (k : Nat) : State :=
  match (s.taskR k).start with
  | some p => s.complete p 0 s.time.cycle 0x0503 0 0 0
  | none => s

theorem State.tasksIdle.startEnded {ks : Nat → Prop} {s : State} (h : s.tasksIdle ks) (k : Nat) : (s.startEnded k).tasksIdle ks := by
  unfold State.startEnded
  split
  · exact h.complete ..
  · exact h

theorem State.ordered_startEnded {s : State} (h : s.ordered) (k : Nat) : (s.startEnded k).ordered := by
  unfold State.startEnded
  split
  · exact (Foot.Covers.complete (F := .nothing) ..).ordered h
  · exact h

theorem execTaskStop_eq (t : Nat) (q : Req) (s : State) :
    execTaskStop t q s = runReq 0x0D03 t q s fun s =>
      let v := ((s.startEnded q.inst).taskHalt q.inst fun _ => 2).wr P.TaskState q.inst 4
      guarded [(s.rd P.TaskState q.inst != 3, ⟨0x0232, 0, 0, 0⟩)] (.ok 0x0101 [] (v.complete q 0 v.time.cycle 0 0 0 0)) := by
  refine congrArg (runReq 0x0D03 t q s) (funext fun v => ?_)
  unfold State.startEnded
  cases h : (v.taskR q.inst).start <;> simp [h]

/-! ### One part of an image -/

theorem assemble_single (n : Nat) (b : List Byte) :
    assemble n [(0, b)] = ((b ++ List.replicate (n - b.length) 0).take n, decide (n ≤ b.length)) := by
  simp [assemble, patch, sortNat, insNat]

/-- A first part shorter than its image is kept. -/
theorem assemble_part {n : Nat} {b : List Byte} (h : b.length < n) : (assemble n [(0, b)]).2 = false := by
  simp [assemble_single, h]

/-- A first part as long as its image is the image. -/
theorem assemble_whole (b : List Byte) : assemble b.length [(0, b)] = (b, true) := by
  simp [assemble_single]

/-! ### Memory errors -/

theorem State.pr_retirePage (s : State) (p n : Nat) :
    (s.retirePage p n).pr.ecc = s.pr.ecc ∧ (s.retirePage p n).pr.retired.contains n = true := by
  unfold State.retirePage
  split
  · exact ⟨rfl, ‹_›⟩
  · extract_lets _ v
    have hv : v.pr.ecc = s.pr.ecc ∧ v.pr.retired.contains n = true := ⟨rfl, by simp [v, State.setPr, State.inc]⟩
    split
    · have hp : v.camReport.pr = v.pr := (Foot.Covers.camReport (F := Foot.motion) v).parts .pr rfl
      rw [hp]
      exact hv
    · exact hv

/-- Retiring a page leaves the error counts. -/
theorem State.rd_retirePage {s : State} (ho : s.ordered) (p n : Nat) {x : Nat} (hr : x ≠ P.MemRetiredPages) (hm : Foot.motion.par x = false)
    (hl : lossCount x = false) (i : Nat) : (s.retirePage p n).ordered ∧ (s.retirePage p n).rd x i = s.rd x i := by
  unfold State.retirePage
  split
  · exact ⟨ho, rfl⟩
  · extract_lets _ v
    have hv : v.ordered := State.ordered_wr (s := { s with pr := { s.pr with retired := n :: s.pr.retired } }) ho ..
    have he : v.rd x i = s.rd x i := State.rd_wr_ne (s := { s with pr := { s.pr with retired := n :: s.pr.retired } }) ho hr ..
    clear_value v
    split
    · have hc := Foot.Covers.camReport (F := Foot.motion) v
      exact ⟨hc.ordered hv, (hc.rd hv hm hl i).trans he⟩
    · exact ⟨hv, he⟩

/-- The count of corrected errors of a partition and of a page. -/
def State.eccCounted (s : State) (p page c n : Nat) : Prop :=
  s.ordered ∧ s.rd P.MemEccCorrected p = c ∧ tabGet s.pr.ecc 0 page = n

theorem State.eccCounted.retirePage {s : State} {p page c n : Nat} (h : s.eccCounted p page c n) (a b : Nat) :
    (s.retirePage a b).eccCounted p page c n := by
  obtain ⟨ho, hc, hn⟩ := h
  obtain ⟨hv, hr⟩ := State.rd_retirePage ho a b (x := P.MemEccCorrected) (by decide) rfl rfl p
  exact ⟨hv, hr.trans hc, by rw [(State.pr_retirePage s a b).1, hn]⟩

theorem State.eccCounted.raise {s : State} {p page c n : Nat} (h : s.eccCounted p page c n) (e i : Nat) (d : List Byte) :
    (s.raise e i d).eccCounted p page c n := by
  obtain ⟨ho, hc, hn⟩ := h
  have hv := Foot.Covers.raise (F := .nothing) s e i d
  exact ⟨hv.ordered ho, (hv.rd ho rfl rfl p).trans hc, by rw [hv.parts .pr rfl, hn]⟩

/-- The error of a page that has had `n` of them, with the report that is due. -/
def State.eccCorrected (s : State) (p page n : Nat) : State :=
  let s := s.setPr { s.pr with ecc := tabSet s.pr.ecc 0 page n }
  let s := if 16 < n then s.retirePage p page else s
  if s.pr.eccAt = 0 ∨ s.pr.eccAt + 999999999 ≤ s.time.tick then
    (s.setPr { s.pr with eccAt := s.time.tick + 1 }).raise E.memoryErrorCorrected p []
  else s

theorem State.eccCounted_eccCorrected {s : State} (ho : s.ordered) (hs : tabSorted none s.pr.ecc = true) (p page n : Nat) :
    (s.eccCorrected p page n).eccCounted p page (s.rd P.MemEccCorrected p) n := by
  unfold State.eccCorrected
  extract_lets _ s1 s2
  have h1 : s1.eccCounted p page (s.rd P.MemEccCorrected p) n := ⟨ho, rfl, tabGet_tabSet_same _ _ _ _ hs⟩
  clear_value s1
  have h2 : s2.eccCounted p page (s.rd P.MemEccCorrected p) n := by
    unfold s2
    split
    · exact h1.retirePage ..
    · exact h1
  clear_value s2
  split
  · refine State.eccCounted.raise ?_ ..
    exact h2
  · exact h2

theorem exec_memoryEccError_corrected {s : State} {x p : Nat} (ho : s.ordered) (hs : tabSorted none s.pr.ecc = true) (hx : s.partOf x = some p)
    (t : Nat) (b : Bool) (h : MemHit) : ∃ s', exec (.memoryEccError t x true b h) s = .next s' ∧
      s'.eccCounted p (x / 4096) ((s.rd P.MemEccCorrected p + 1) % 2 ^ 32) (tabGet s.pr.ecc 0 (x / 4096) + 1) := by
  have hp := State.ordered_advance ho t
  have hi : ((s.advance t).inc P.MemEccCorrected p).ordered := State.ordered_wr hp ..
  have hr : ((s.advance t).inc P.MemEccCorrected p).rd P.MemEccCorrected p = (s.rd P.MemEccCorrected p + 1) % 2 ^ 32 :=
    (State.rd_wr_same hp ..).trans (by simp)
  have hc := State.eccCounted_eccCorrected hi (by simpa [State.inc] using hs) p (x / 4096) (tabGet s.pr.ecc 0 (x / 4096) + 1)
  rw [hr] at hc
  refine ⟨_, congrArg Host.Outcome.next ?_, hc⟩
  simp [hx, State.eccCorrected, State.inc]

/-- The count and the address of an error that is not correctable, before its page is retired. -/
theorem exec_memoryEccError_unused {s : State} {x p : Nat} (ho : s.ordered) (hx : s.partOf x = some p) (t : Nat) (b : Bool) :
    ∃ s1 : State, exec (.memoryEccError t x false b .unused) s = .next (s1.retirePage p (x / 4096)) ∧ s1.ordered ∧
      s1.rd P.MemEccUncorrected p = (s.rd P.MemEccUncorrected p + 1) % 2 ^ 32 ∧ s1.rd P.MemEccLastAddr 0 = x := by
  have hp := State.ordered_advance ho t
  have hi : ((s.advance t).inc P.MemEccUncorrected p).ordered := State.ordered_wr hp ..
  have hw : (((s.advance t).inc P.MemEccUncorrected p).wr P.MemEccLastAddr 0 x).ordered := State.ordered_wr hi ..
  refine ⟨(((s.advance t).inc P.MemEccUncorrected p).wr P.MemEccLastAddr 0 x).raise E.memoryErrorUncorrectable p [],
    congrArg Host.Outcome.next ?_,
    (Foot.Covers.raise (F := .nothing) ..).ordered hw, ?_, ?_⟩
  · simp [hx, State.eccHit]
  · rw [State.rd_raise hw _ _ _ rfl, State.rd_wr_ne hi (by decide)]
    exact (State.rd_wr_same hp ..).trans (by simp)
  · rw [State.rd_raise hw _ _ _ rfl, State.rd_wr_same hi]

/-- Settles O49: each case goes through its command's branch; what a halt does to the tasks' table is `State.tasksIdle.taskHalt`. -/
theorem tasksAndMemoryAct : Obligations.TasksAndMemoryAct := by
  refine ⟨?taskLoad, ?taskLoad2, ?taskStart, ?taskStop, ?taskUnload, ?taskMap, ?taskMemRead, ?memInfo, ?taskFault, ?taskWatchdogExpiry,
    ?taskWatchdogKick, ?dmaStart, ?dmaStart2, ?dmaBurst, ?dmaBurst2, ?memoryEccError, ?memoryEccError2, ?patrolScrub⟩
  case taskLoad =>
    intro t q s hs ht ho h3 h4 h5 h6 h7
    have hl : 48 ≤ (q.body.drop 8).length := by simp; omega
    have hf : [(0, q.body.drop 8)].find? (fun p => p.1 == 0 && decide (48 ≤ p.2.length)) = some (0, q.body.drop 8) := by simpa using hl
    obtain ⟨b, hw⟩ : ∃ b, assemble (fld (q.body.drop 8) 4 4) [(0, q.body.drop 8)] = (b, false) :=
      ⟨_, Prod.ext rfl (assemble_part (by simpa using h6))⟩
    have ha : tabSorted none (s.advance t).pr.tasks = true := by simpa using ht
    refine ⟨((s.advance t).setTask q.inst { s.taskR q.inst with parts := [(0, q.body.drop 8)] }).wr P.TaskState q.inst 1, ?_,
      State.rd_wr_same (s := (s.advance t).setTask _ _) (State.ordered_advance ho t) .., ?_⟩
    · change execTaskLoad t q s = _
      refine runReq_of_ok hs ?_
      simp only [State.advance_rd, h3, h4, if_true, hf, Option.elim_some, List.nil_append, hw, State.taskR_advance, State.partFree_advance]
      have h1 : ¬q.body.length < 8 := by omega
      have hn : q.body.drop 8 ≠ [] := by intro h; rw [h] at hl; simp at hl
      have h6' : ¬fld (q.body.drop 8) 4 4 < q.body.length - 8 := by omega
      have h7' := Nat.not_lt.2 h7
      refine (guarded_of_none ?_).trans ?_
      · simp [firstBad, h1, h6', h7', hn]
      · simp
    · exact congrArg TaskRec.parts (State.taskR_setTask_same ha ..)
  case taskLoad2 =>
    intro t q s hs ht ho h3 h4 h5 h6 h7 h8
    have hl : 48 ≤ (q.body.drop 8).length := by simp; omega
    have hf : [(0, q.body.drop 8)].find? (fun p => p.1 == 0 && decide (48 ≤ p.2.length)) = some (0, q.body.drop 8) := by simpa using hl
    have hw : assemble (fld (q.body.drop 8) 4 4) [(0, q.body.drop 8)] = (q.body.drop 8, true) := by
      rw [show fld (q.body.drop 8) 4 4 = (q.body.drop 8).length by simpa using h6]
      exact assemble_whole _
    have ha : tabSorted none (s.advance t).pr.tasks = true := by simpa using ht
    have h2 : (((s.advance t).setTask q.inst { s.taskR q.inst with parts := [(0, q.body.drop 8)] }).wr P.TaskState q.inst 2).ordered :=
      State.ordered_wr (s := (s.advance t).setTask _ _) (State.ordered_advance ho t) ..
    refine ⟨(((s.advance t).setTask q.inst { s.taskR q.inst with parts := [(0, q.body.drop 8)] }).wr P.TaskState q.inst 2).wr P.TaskImageCrc q.inst
      (fld (q.body.drop 8) 44 4), ?_, ?_, ?_⟩
    · change execTaskLoad t q s = _
      refine runReq_of_ok hs ?_
      simp only [State.advance_rd, h3, h4, if_true, hf, Option.elim_some, List.nil_append, hw, State.taskR_advance, State.partFree_advance]
      have h1 : ¬q.body.length < 8 := by omega
      have hn : q.body.drop 8 ≠ [] := by intro h; rw [h] at hl; simp at hl
      refine guarded_of_none ?_
      simp [firstBad, h1, h6, Nat.not_lt.2 h8, hn, h7]
    · rw [State.rd_wr_ne h2 (by decide)]
      exact State.rd_wr_same (s := (s.advance t).setTask _ _) (State.ordered_advance ho t) ..
    · exact congrArg TaskRec.parts (State.taskR_setTask_same ha ..)
  case taskStart =>
    intro t q s hs ht ho h3 h4 h5
    have ha : tabSorted none (s.advance t).pr.tasks = true := by simpa using ht
    let s1 := (s.advance t).setTask q.inst ((s.advance t).startedTask q.inst q)
    have h1 : s1.ordered := State.ordered_advance ho t
    have hk : ((s1.wr P.TaskState q.inst 3).taskReport q.inst).taskR q.inst = (s.advance t).startedTask q.inst q :=
      State.taskR_setTask_same ha ..
    refine ⟨(s1.wr P.TaskState q.inst 3).taskReport q.inst, ?_,
      (State.rd_wr_ne (State.ordered_wr h1 ..) (by decide) ..).trans (State.rd_wr_same h1 ..), congrArg TaskRec.start hk,
        congrArg TaskRec.kick hk⟩
    change execTaskStart t q s = _
    refine runReq_of_ok hs (guarded_of_none ?_)
    obtain h3 | h3 | h3 := h3 <;> simp [firstBad, h3, Nat.not_lt.2 h4, Nat.not_lt.2 h5]
  case taskStop =>
    intro t q s hs ht ho h3
    have h0 : (s.advance t).tasksIdle fun _ => False := ⟨by simpa using ht, fun _ h => h.elim⟩
    have hh := (h0.startEnded q.inst).taskHalt q.inst fun _ => 2
    have ho2 := (Foot.Covers.taskHalt (F := Foot.processor) _ q.inst fun _ => 2).ordered
      (State.ordered_startEnded (State.ordered_advance ho t) q.inst)
    obtain ⟨hst, hn⟩ := hh.stopped ho2 q ((((s.advance t).startEnded q.inst).taskHalt q.inst fun _ => 2).wr P.TaskState q.inst 4).time.cycle
    refine ⟨_, ?_, hst, hn⟩
    refine (execTaskStop_eq t q s).trans (runReq_of_ok hs ?_)
    exact guarded_of_none (by simp [h3])
  case taskUnload =>
    intro t q s hs h1 h2
    change execTaskUnload t q s = _
    refine runReq_of_ok hs ?_
    simp [guarded, firstBad, h1, h2]
  case taskMap =>
    intro t q s ps hs ht h2 h3 h4 h5 hp h7 h8
    have ha : tabSorted none (s.advance t).pr.tasks = true := by simpa using ht
    have hc (v : State) : (v.dmaResume q.inst).pr = v.pr := by
      refine foldl_keeps State.pr (fun s c => ?_) (List.range 16) v
      split <;> rfl
    refine ⟨(((s.advance t).setTask q.inst { s.taskR q.inst with pages := ps }).taskReport q.inst).dmaResume q.inst, ?_, ?_⟩
    · change execTaskMap t q s = _
      refine runReq_of_ok hs ?_
      have h7' := Nat.not_lt.2 h7
      have h8' := Nat.not_lt.2 h8
      simp [guarded, firstBad, h2, h3, h4, h5, h7', h8', ← hp]
    · rw [State.taskR, hc]
      exact congrArg TaskRec.pages (State.taskR_setTask_same ha ..)
  case taskMemRead =>
    intro t q s b hs h1 h2 h3 h4
    change execTaskMemRead t q s = _
    refine runReq_of_ok hs ?_
    dsimp only
    rw [if_neg (by omega), State.advance_rd, if_neg (by omega), State.taskBytes_advance, h4]
  case memInfo =>
    intro t q s hs
    change execMemInfo t q s = _
    refine runReq_of_ok hs ?_
    simp
  case taskFault =>
    intro t k c n h pc x s ho h1 h2 h3 h4
    refine ⟨_, if_pos (by simpa using h1), ?_⟩
    dsimp only
    rw [if_pos (by simp [h2, h3, h4])]
    exact State.rd_taskFault (State.ordered_advance ho t) ..
  case taskWatchdogExpiry =>
    intro t k s ho h1 h2 h3 h4
    refine ⟨_, if_pos (by simpa using h1), ?_⟩
    dsimp only
    rw [if_pos (by simpa using ⟨h2, h3, h4⟩)]
    exact State.rd_taskFault (State.ordered_advance ho t) ..
  case taskWatchdogKick =>
    intro t k s h0 h1
    change execTaskWatchdogKick t k s = _
    simp [execTaskWatchdogKick, onUnit, h0, h1]
  case dmaStart =>
    intro t c p l s h0 h1 h2
    have hc : c < 16 := by omega
    change execDmaStart t c 0xFE p l s = _
    simp [execDmaStart, onUnit, h0, hc, h1, h2, fwOwner]
  case dmaStart2 =>
    intro t c k p l s h0 h1 h2 h3 h4 h5 h6
    have hc : ¬c < 4 := by omega
    change execDmaStart t c k p l s = _
    simp [execDmaStart, onUnit, hc, h1, h2, h3, h4, h5, h6]
  case dmaBurst =>
    intro t s h0
    refine congrArg Host.Outcome.next ?_
    simp [h0]
  case dmaBurst2 =>
    intro t c d l n s ho h1 h2 h3 h4 h5 hn h7
    have hp := State.ordered_advance ho t
    refine ⟨((s.advance t).setPr { s.pr with dmaLast := s.pr.dmaLast.set (s.rd P.DmaPriority c) c, dmaAt := (s.advance t).time.tick + 1 }).wr P.DmaBytes c
      (s.rd P.DmaBytes c + n), ?_, State.rd_wr_same (s := (s.advance t).setPr _) hp .., rfl, rfl⟩
    refine congrArg Host.Outcome.next ?_
    have hd : (bitOf s.boot.offHalt 5 || decide ((s.advance t).time.tick < s.pr.dmaAt + 999) && s.pr.dmaAt != 0) = false := by
      obtain h2 | h2 := h2
      · simp [h1, h2]
      · simp [h1, Nat.not_lt.2 h2]
    have hl : min (dmaLen d - s.rd P.DmaBytes c) n = n := by omega
    have hc (a : List Nat) (b : Nat) : ((s.advance t).setPr { s.pr with dmaLast := a, dmaAt := b }).dmaChain c = d :: l := h4
    simp [hd, h3, hc, h5, ← hn, hl, Nat.not_le.2 h7]
  case memoryEccError =>
    intro t x b h p s ho hs hx
    obtain ⟨s', he, -, hc, hn⟩ := exec_memoryEccError_corrected ho hs hx t b h
    exact ⟨s', he, hc, hn⟩
  case memoryEccError2 =>
    intro t x b p s ho hx
    obtain ⟨s1, he, h1, hu, ha⟩ := exec_memoryEccError_unused ho hx t b
    exact ⟨_, he, (State.rd_retirePage h1 p _ (by decide) rfl rfl p).2.trans hu,
      (State.rd_retirePage h1 p _ (by decide) rfl rfl 0).2.trans ha,
      (State.pr_retirePage s1 p _).2⟩
  case patrolScrub =>
    intro t s
    refine congrArg Host.Outcome.next ?_
    simp

end Sys2Proof.Machine

end

/-! Packets and events between the transports and the interpreter. -/

section

-- One declaration after the other: elaborated at once they need more threads than the check has memory for.
set_option Elab.async false

namespace Sys2Proof.Machine

theorem State.ordered_of_wf {s : State} (h : s.wf) : s.ordered := by
  obtain ⟨ht, -⟩ := h
  have ha : tabWf s.par.active keyReset = true := by simp_all [State.tabsWf]
  exact tabWf_sorted ha

/-! ### Event queues -/

@[simp] theorem HostState.dest_queue (h : HostState) (d : Dest) : (h.queue d).dest = d := by
  unfold HostState.queue
  cases hf : h.queues.find? (fun q => q.dest == d) with
  | none => rfl
  | some q => simpa using List.find?_some hf

theorem HostState.queue_setQueue (h : HostState) {d : Dest} {q : EvQueue} (hd : q.dest = d) : (h.setQueue q).queue d = q := by
  subst hd
  have hn : (h.queues.filter fun x => !(x.dest == q.dest)).find? (fun x => x.dest == q.dest) = none := by
    simp [List.find?_eq_none]
  simp [HostState.queue, HostState.setQueue, List.find?_append, hn]

/-- With no event lost nothing is told of lost ones. -/
theorem State.lostNotice_of_none {s : State} {d : Dest} (h : (s.host.queue d).dropped = 0) : s.lostNotice d = s := if_pos (.inl h)

/-! ### Packets -/

/-- A packet that the device takes joins the waiting ones and is counted. -/
theorem State.arrive_of_parse {s : State} {d : Dest} {bytes : List Byte} {q : Req} (ho : s.ordered) (hr : s.boot.ready = true)
    (hp : s.pr.restart = false) (hi : s.interpHalted = false) (hu : s.boot.recovery = true → d.tr = .usb)
    (hg : ¬(d.tr = .rs485 ∧ s.host.rsFrom ≤ s.time.tick ∧ s.time.tick < s.host.rsTo)) (hq : parsePacket d s.time.tick bytes = some q)
    (hf : s.host.queueFull q = false) :
    (s.arrive d bytes).host = { s.host with waiting := s.host.joined q } ∧ (s.arrive d bytes).sent = s.sent ∧
      (s.arrive d bytes).rd P.HostPackets (trNum d.tr) = (s.rd P.HostPackets (trNum d.tr) + 1) % 2 ^ 32 := by
  have h1 : (!s.boot.ready || s.pr.restart || s.interpHalted || (s.boot.recovery && d.tr != .usb)) = false := by
    cases hc : s.boot.recovery
    · simp [hr, hp, hi]
    · simp [hr, hp, hi, hu hc]
  have h2 : (d.tr == .rs485 && decide (s.host.rsFrom ≤ s.time.tick) && decide (s.time.tick < s.host.rsTo)) = false := by
    simpa [and_assoc] using hg
  have hw : (s.inc P.HostPackets (trNum d.tr)).ordered := State.ordered_wr ho ..
  have hn : (s.inc P.HostPackets (trNum d.tr)).rd P.HostPackets (trNum d.tr) = (s.rd P.HostPackets (trNum d.tr) + 1) % 2 ^ 32 :=
    State.rd_wr_same ho ..
  unfold State.arrive
  rw [if_neg (by simp [h1]), if_neg (by simp [h2])]
  extract_lets s1
  have hq1 : parsePacket d s1.time.tick bytes = some q := hq
  have hf1 : s1.host.queueFull q = false := hf
  simp only [hq1, hf1, Bool.false_eq_true, if_false]
  split
  · exact ⟨rfl, rfl, (State.rd_wr_ne (s := s1.setHost _) hw (by decide) ..).trans hn⟩
  · exact ⟨rfl, rfl, hn⟩

/-- A packet that is neither damaged nor a duplicate leaves the record of damaged ones. -/
theorem State.setPrDamaged_erase {s : State} {q : Req} (h : s.pr.damaged.contains q = false) : s.setPrDamaged (s.pr.damaged.erase q) = s := by
  rw [List.erase_of_not_mem (by simpa using h)]
  rfl

/-- A whole packet outside an assembly runs. -/
theorem State.startPacket_whole {s : State} {q : Req} {r : OpRow} (hd : s.host.dupOf q = none) (hb : s.pr.damaged.contains q = false)
    (hr : opRow q.opcode = some r) (hg : ¬(q.gen = 1 ∧ (!r.g1 || q.more || q.noEvent) = true))
    (ha : s.host.assemblies.find? (fun x => x.flow == q.flow) = none) (hm : q.more = false) (hl : q.body.length ≤ 262112) :
    s.startPacket q = s.setHost { s.host with
      waiting := s.host.waiting.erase q
      assemblies := s.host.assemblies.filter (fun x => x.flow != q.flow)
      running := s.host.running ++ [q] } := by
  unfold State.startPacket
  extract_lets _ s1 damaged s2 asm _ s0 refuse next
  have hd1 : s1.host.dupOf q = none := hd
  have hb1 : damaged = false := hb
  have h2 : s2 = s1 := State.setPrDamaged_erase hb
  have ha1 : asm = none := ha
  have hn : next = false := by simp only [next, ha1, Option.any_none]
  rw [hd1, hr]
  dsimp only
  rw [if_neg hg]
  simp only [hn, hb1, hm, ha1, Bool.or_self, Bool.and_false, Bool.false_eq_true, if_false, if_neg (Nat.not_lt.2 hl)]
  simp only [s0, h2]
  rfl

/-- The first packet of a body in parts begins its assembly. -/
theorem State.startPacket_first {s : State} {q : Req} {r : OpRow} (hd : s.host.dupOf q = none) (hb : s.pr.damaged.contains q = false)
    (hr : opRow q.opcode = some r) (hg : q.gen = 2) (hi : instOk q.opcode q = true)
    (ha : s.host.assemblies.find? (fun x => x.flow == q.flow) = none) (hm : q.more = true) (hl : q.body.length ≤ 262112) :
    s.startPacket q = (s.setHost { s.host with
      waiting := s.host.waiting.erase q
      assemblies := { dest := q.dest, flow := q.flow, opcode := q.opcode, inst := q.inst, nextSeq := (q.seq + 1) % 2 ^ 32, body := q.body } ::
        s.host.assemblies.filter (fun x => x.flow != q.flow) }).reply q 0x0103 [] := by
  unfold State.startPacket
  extract_lets _ s1 damaged s2 asm _ s0 refuse next
  have hd1 : s1.host.dupOf q = none := hd
  have hb1 : damaged = false := hb
  have h2 : s2 = s1 := State.setPrDamaged_erase hb
  have ha1 : asm = none := ha
  have hg' : ¬(q.gen = 1 ∧ (!r.g1 || q.more || q.noEvent) = true) := by omega
  rw [hd1, hr]
  dsimp only
  rw [if_neg hg']
  simp only [hi, hb1, hm, ha1, Bool.not_true, Bool.and_false, Bool.false_and, Bool.false_eq_true, if_false, if_true,
    if_neg (Nat.not_lt.2 hl)]
  simp only [s0, h2]
  rfl

/-- The last packet of a body in parts runs with the body assembled. -/
theorem State.startPacket_last {s : State} {q : Req} {r : OpRow} {a : Assembly} (hd : s.host.dupOf q = none)
    (hb : s.pr.damaged.contains q = false) (hr : opRow q.opcode = some r) (hg : q.gen = 2)
    (ha : s.host.assemblies.find? (fun x => x.flow == q.flow) = some a) (had : a.dest = q.dest) (hao : a.opcode = q.opcode)
    (hai : a.inst = q.inst) (han : a.nextSeq = q.seq) (hm : q.more = false) (hl : a.body.length + q.body.length ≤ 262112) :
    s.startPacket q = s.setHost { s.host with
      waiting := s.host.waiting.erase q
      assemblies := s.host.assemblies.filter (fun x => x.flow != q.flow)
      running := s.host.running ++ [{ q with body := a.body ++ q.body }] } := by
  unfold State.startPacket
  extract_lets _ s1 damaged s2 asm _ s0 refuse next
  have hd1 : s1.host.dupOf q = none := hd
  have hb1 : damaged = false := hb
  have h2 : s2 = s1 := State.setPrDamaged_erase hb
  have ha1 : asm = some a := ha
  have hg' : ¬(q.gen = 1 ∧ (!r.g1 || q.more || q.noEvent) = true) := by omega
  have hn : next = true := by simp [next, ha1, had, hao, hai, han, hg]
  rw [hd1, hr]
  dsimp only
  rw [if_neg hg']
  simp only [hn, hb1, hm, ha1, Bool.not_true, Bool.false_and, Bool.false_eq_true, if_false, if_true, if_neg (Nat.not_lt.2 hl)]
  simp only [s0, h2]
  rfl

/-- Settles O45: the packet that is taken is `State.arrive_of_parse`; the events' queues are those of `HostState.queue_setQueue`. -/
theorem hostPacketsMove : Obligations.HostPacketsMove := by
  refine ⟨?packetArrival, ?packetStart, ?packetStart2, ?packetStart3, ?commandTimedOut, ?replyRelease, ?eventSend, ?eventSend2,
    ?eventSend3, ?descriptorFetch⟩
  case packetArrival =>
    intro t tr sender bytes q s hw h1 h2 h3 h4 h5 h6 h7
    have ho : (s.advance t).ordered := State.ordered_advance (State.ordered_of_wf hw) t
    obtain ⟨hh, hs, hp⟩ := State.arrive_of_parse (s := s.advance t) (d := ⟨tr,
      sender⟩) ho (by simpa using h1) (by simpa using h2) (by simpa using h3)
      (by simpa using h4) (by simpa using h5) h6 (by simpa using h7)
    exact ⟨_, rfl, by simpa using hh, by simpa using hs, by simpa using hp⟩
  case packetStart =>
    intro t flow q r s h0 h1 h2 h3 h4 h5 h6 h7 h8 h9 h10 h11
    subst h1
    rw [exec_packetStart_of_next h0 h2 h3 h4]
    rw [State.startPacket_whole (by simpa using h5) (by simpa using h6) h7 h8 (by simpa using h9) h10 h11]
    simp
  case packetStart2 =>
    intro t flow q r s h0 h1 h2 h3 h4 h5 h6 h7 h8 h9 h10 h11 h12
    subst h1
    rw [exec_packetStart_of_next h0 h2 h3 h4]
    rw [State.startPacket_first (by simpa using h5) (by simpa using h6) h7 h8 h9 (by simpa using h10) h11 h12]
    simp
  case packetStart3 =>
    intro t flow q r s a h0 h1 h2 h3 h4 h5 h6 h7 h8 h9 h10 h11 h12 h13 h14 h15
    subst h1
    rw [exec_packetStart_of_next h0 h2 h3 h4]
    rw [State.startPacket_last (by simpa using h5) (by simpa using h6) h7 h8 (by simpa using h9) h10 h11 h12 h13 h14 h15]
    simp
  case commandTimedOut =>
    intro t flow pos q s h1 h2 h3
    refine congrArg Host.Outcome.next ?_
    simp [h1, h2, h3]
  case replyRelease =>
    intro t r rs s s1 h1 h2
    refine congrArg Host.Outcome.next ?_
    simp [h1, h2]
  case eventSend =>
    intro t d e es s h0 h1 h2
    have hq := s.host.queue_setQueue (q := { s.host.queue d with evs := es, sentSeq := ((s.host.queue d).sentSeq + 1) % 2 ^ 32 })
      (s.host.dest_queue d)
    refine congrArg Host.Outcome.next ?_
    simp only [State.advance_frame, h1]
    obtain h0 | h0 := h0
    all_goals
      simp only [h0]
      exact State.lostNotice_of_none ((congrArg EvQueue.dropped hq).trans h2)
  case eventSend2 =>
    intro t d e es o tl s h0 h1 h2 h3 h4
    have hq := s.host.queue_setQueue (q := { s.host.queue d with evs := es, sentSeq := ((s.host.queue d).sentSeq + 1) % 2 ^ 32 })
      (s.host.dest_queue d)
    let s1 := (s.advance t).setHost (s.host.setQueue { s.host.queue d with evs := es, sentSeq := ((s.host.queue d).sentSeq + 1) % 2 ^ 32 })
    let g := { s.host.regs with evtTail := tl, want := setBit s.host.regs.want (((s.host.subs.find? fun x : Sub => x.dest == d).map Sub.vector).getD 1) true }
    refine ⟨{ s1 with sent := g.mirror ++ o ++ s1.sent, host := { s1.host with regs := g } }, congrArg Host.Outcome.next ?_, rfl,
      congrArg EvQueue.evs hq, by simp [HostRegs.mirror, g, s1]⟩
    simp only [State.advance_frame, h0, h1, h2, h4, Bool.not_true, Bool.false_eq_true, if_false]
    refine (State.lostNotice_of_none ((congrArg EvQueue.dropped hq).trans h3)).trans ?_
    simp [s1, g, h1]
  case eventSend3 =>
    intro t d s h0
    refine congrArg Host.Outcome.next ?_
    simp only [State.advance_frame, h0]
    split <;> rfl
  case descriptorFetch =>
    intro t addr len bytes s h0 h1 h2 h3 h4 h5 h6
    refine congrArg Host.Outcome.next ?_
    simp [h0, h1, h2, h3, h4, h5, h6, State.setRegs]

end Sys2Proof.Machine

end

/-! The registers of the PCI Express host block, its vectors and errors, host settings, ARP and echo. -/

section

-- One declaration after the other: elaborated at once they need more threads than the check has memory for.
set_option Elab.async false

namespace Sys2Proof.Machine

/-! ### Bytes of a register -/

theorem leNat_append (a b : List Byte) : leNat (a ++ b) = leNat a + 256 ^ a.length * leNat b := by
  induction a with
  | nil => simp [leNat]
  | cons x r ih => simp [leNat, ih, pow_succ]; ring

theorem leNat_leBytes (n v : Nat) : leNat (leBytes n v) = v % 256 ^ n := by
  induction n generalizing v with
  | zero => simp [leNat, leBytes, Nat.mod_one]
  | succ n ih => rw [leBytes, leNat, ih, pow_succ', Nat.mod_mul]; simp

theorem take_leBytes (n m v : Nat) : (leBytes (n + m) v).take n = leBytes n v := by
  induction n generalizing v with
  | zero => simp [leBytes]
  | succ n ih => rw [Nat.add_right_comm]; simp [leBytes, ih]

/-- A write of all 8 bytes sets the register. -/
theorem part64_whole {v : Nat} (h : v < 2 ^ 64) (old : Nat) : part64 old 0 8 v = v := by
  have hd : (leBytes 8 old).drop 8 = [] := List.drop_eq_nil_of_le (length_leBytes 8 old).le
  simp only [part64, patch, Nat.sub_zero, min_self, List.take_zero, List.nil_append, length_leBytes, Nat.zero_add, hd, List.append_nil,
    leNat_leBytes]
  exact Nat.mod_eq_of_lt h

/-- A write of 4 bytes at the upper half leaves the lower one. -/
theorem part64_upper {v : Nat} (h : v < 2 ^ 32) (old : Nat) : part64 old 4 4 v = old % 2 ^ 32 + v * 2 ^ 32 := by
  have hd : (leBytes 8 old).drop 8 = [] := List.drop_eq_nil_of_le (length_leBytes 8 old).le
  have ht : (leBytes 8 old).take 4 = leBytes 4 old := take_leBytes 4 4 old
  simp only [part64, patch, Nat.reduceSub, min_self, ht, length_leBytes, Nat.reduceAdd, hd, List.append_nil, leNat_append, leNat_leBytes]
  rw [Nat.mod_eq_of_lt (show v < 256 ^ 4 from h), Nat.mul_comm]
  rfl

/-- A wanted vector that nothing holds back fires. -/
theorem State.fireVec_of_due {s : State} {k : Nat} (hw : bitOf s.host.regs.want k = true) (hm : bitOf (tabGet s.host.regs.mx (2 ^ 96) k) 96 = false)
    (hl : tabGet s.host.regs.lastFire 0 k ≠ 0 → tabGet s.host.regs.lastFire 0 k - 1 + s.host.regs.irqDelay * 1000 ≤ s.time.tick) :
    s.fireVec k = (s.out (.msix k)).setRegs { s.host.regs with
      pba := setBit s.host.regs.pba k false
      want := setBit s.host.regs.want k false
      lastFire := tabSet s.host.regs.lastFire 0 k (s.time.tick + 1) } := by
  unfold State.fireVec
  dsimp only
  rw [if_neg (by simp [hw]), if_neg (by rw [hm]; decide), if_neg]
  rintro ⟨h0, h1⟩
  exact absurd (hl h0) (Nat.not_le.2 h1)

/-- Firing a vector leaves the error report and the parameters. -/
theorem State.fireVec_regs (s : State) (k : Nat) :
    (s.fireVec k).host.regs.err = s.host.regs.err ∧ (s.fireVec k).host.regs.cause = s.host.regs.cause ∧
      (s.fireVec k).host.regs.errAddr = s.host.regs.errAddr ∧ (s.fireVec k).host.regs.running = s.host.regs.running ∧
      (s.fireVec k).par = s.par := by
  unfold State.fireVec
  extract_lets g last
  split
  · exact ⟨rfl, rfl, rfl, rfl, rfl⟩
  · split
    · exact ⟨rfl, rfl, rfl, rfl, rfl⟩
    · split <;> exact ⟨rfl, rfl, rfl, rfl, rfl⟩

/-- Settles O46: each register's branch of a write, its bytes by `part64_whole` and `part64_upper`. -/
theorem hostBlockRegistersAct : Obligations.HostBlockRegistersAct := by
  refine ⟨?dbReqTailWrite, ?dbRplHeadWrite, ?dbEvtHeadWrite, ?dbReqTailWrite2, ?hbReset, ?hbEnable, ?hbEvtLostRead, ?registerWrite,
    ?registerWrite2, ?registerWrite3, ?registerWrite4, ?registerWrite5, ?registerWrite6, ?registerWrite7, ?msixFire, ?hostBlockDmaError,
    ?hostConfigApply, ?arpRequest, ?icmpEchoRequest⟩
  case dbReqTailWrite =>
    intro t v s h0
    change execDbReqTailWrite t v s = _
    simp [execDbReqTailWrite, onEvent, h0]
  case dbRplHeadWrite =>
    intro t v s h0
    change execDbRplHeadWrite t v s = _
    simp [execDbRplHeadWrite, onEvent, h0]
  case dbEvtHeadWrite =>
    intro t v s h0
    change execDbEvtHeadWrite t v s = _
    simp [execDbEvtHeadWrite, onEvent, h0]
  case dbReqTailWrite2 =>
    intro t v s h0
    refine ⟨?_, ?_, ?_⟩ <;> refine congrArg Host.Outcome.next (if_neg ?_) <;> simp [h0]
  case hbReset =>
    intro t s hw
    have ho := State.ordered_advance (State.ordered_of_wf hw) t
    have h1 := State.ordered_wr ho P.HostRepliesLost 0
      (((s.advance t).rd P.HostRepliesLost 0 + (s.advance t).host.replyWait.length) % 2 ^ 32)
    let q := (s.advance t).host.queue ⟨.pcie, 0⟩
    have hq := (s.advance t).host.queue_setQueue (q := { q with evs := [], dropped := q.dropped + q.evs.length }) (HostState.dest_queue ..)
    refine ⟨_, rfl, rfl, rfl, congrArg EvQueue.evs hq, ?_, ?_⟩
    · exact ((State.rd_wr_ne h1 (by decide) ..).trans (State.rd_wr_same ho ..)).trans (by simp)
    · refine (State.rd_wr_same h1 ..).trans ?_
      rw [State.rd_wr_ne ho (by decide)]
      simp
  case hbEnable =>
    intro t on s
    refine congrArg Host.Outcome.next ?_
    simp
  case hbEvtLostRead =>
    intro t s
    refine congrArg Host.Outcome.next ?_
    simp
  case registerWrite =>
    intro t v s h0 h1
    have h1' : pow2Between 16 65536 (v % 4294967296) = true := by simpa using h1
    refine congrArg Host.Outcome.next ?_
    simp [h0, h1']
  case registerWrite2 =>
    intro t v s h0 h1
    have h1' : pow2Between 65536 16777216 (v % 4294967296) = true := by simpa using h1
    refine ⟨congrArg Host.Outcome.next ?_, congrArg Host.Outcome.next ?_⟩ <;> simp [h0, h1']
  case registerWrite3 =>
    intro t v s h0 h1
    refine ⟨?_, ?_, ?_, ?_⟩ <;> refine congrArg Host.Outcome.next ?_ <;> simp [h0, part64_whole h1]
  case registerWrite4 =>
    intro t v s h0 h1 _ _ _ _
    refine ⟨?_, ?_, ?_, ?_⟩ <;> refine congrArg Host.Outcome.next ?_ <;> simp [h0, part64_upper h1]
  case registerWrite5 =>
    intro t off size v s h0 h1
    refine congrArg Host.Outcome.next ?_
    simp only [List.mem_cons, List.not_mem_nil, or_false] at h1
    rcases h1 with rfl | rfl | rfl | rfl | rfl | rfl | rfl | rfl | rfl | rfl | rfl <;> simp [h0]
  case registerWrite6 =>
    intro t v s h0
    have h0' : v % 1024 ≤ 1000 := by omega
    refine congrArg Host.Outcome.next ?_
    simp [h0']
  case registerWrite7 =>
    intro t k o size v s h0 h1
    have hk : (8192 + 16 * k + o - 8192) / 16 = k := by omega
    have ho : (8192 + 16 * k + o) % 16 = o := by omega
    refine congrArg Host.Outcome.next ?_
    simp only [State.advance_frame]
    rw [if_neg (by omega), if_neg (by omega), if_neg (by omega), if_neg (by omega), if_neg (by omega), if_neg (by omega), if_neg (by omega),
      if_neg (by omega), if_pos (by omega), hk, ho]
  case msixFire =>
    intro t k s h0 h1 h2 h3
    change execMsixFire t k s = _
    rw [execMsixFire, onUnit, if_pos (by simpa using h0), State.fireVec_of_due (by simpa using h1) (by simpa using h2) (by simpa using h3)]
    simp
  case hostBlockDmaError =>
    intro t cause addr s h0 h1
    obtain ⟨he, hc, ha, hr, hp⟩ := State.fireVec_regs ((s.advance t).setRegs { s.host.regs with
      err := true, cause := cause, errAddr := addr % 2 ^ 64, running := false, want := setBit s.host.regs.want 2 true }) 2
    refine ⟨_, ?_, he, hc, ha, hr, hp.trans (by simp)⟩
    change execHostBlockDmaError t cause addr s = _
    simp [execHostBlockDmaError, onUnit, h0, h1]
  case hostConfigApply =>
    intro t idx i v s h0 h1 h2
    have hk : pkey idx i / 65536 = idx := by unfold pkey; omega
    have hi : pkey idx i % 65536 = i := by unfold pkey; omega
    have hn (x : State) : x.netChanged idx = x := by
      simp only [List.mem_cons, List.not_mem_nil, or_false] at h0
      rcases h0 with rfl | rfl | rfl | rfl | rfl | rfl <;> rfl
    refine congrArg Host.Outcome.next ?_
    simp only [State.advance_frame, h2, List.foldl_cons, List.foldl_nil, hk, hi, hn]
  case arpRequest =>
    intro t ip sender s h0
    refine congrArg Host.Outcome.next ?_
    simp [h0]
  case icmpEchoRequest =>
    intro t ip sender bytes s h0
    refine congrArg Host.Outcome.next ?_
    simp [h0]

end Sys2Proof.Machine

end

/-! What a commit does when it runs. -/

section

-- One declaration after the other: elaborated at once they need more threads than the check has memory for.
set_option Elab.async false

namespace Sys2Proof.Machine

/-! ### A commit ends with the completion of its request -/

/-- What a commit brings about, its request's completion left out, is what its opcode does. -/
theorem State.runCommit_covers {s v : State} {x : Taken} {no : Option (Nat × Nat)} (h : s.applyCommit x = (no, v)) :
    Foot.nothing.Covers v (s.runCommit x) := by
  unfold State.runCommit
  rw [h]
  cases no <;> exact .complete ..

/-! ### The trajectory section alone -/

/-- The flags of the trajectory section. -/
def Foot.trjFlags : Foot where
  parts := []
  pars := [P.TrjState, P.TrjLatched]

/-- The trajectory section and its flags. -/
def Foot.generator : Foot where
  parts := [.trj]
  pars := [P.TrjState, P.TrjLatched, P.TrjChain, P.TrjSource, P.TrjTarget]

/-- What a step of a coupling reports. -/
def Foot.camPhase : Foot where
  parts := []
  pars := [P.CplState, P.CplCamPhase]

/-- The trajectory section with the set-point it puts out. -/
def Foot.setPointOut : Foot where
  parts := [.trj, .ax, .hist]
  pars := [P.TrjState, P.TrjLatched, P.TrjChain, P.TrjSource, P.TrjTarget, P.TrjSetPos, P.TrjSetVel, P.TrjSetAcc]

namespace Foot.Covers

variable {F : Foot}

theorem tSet_flags (s : State) (a k b) (h : trjFlags.le F = true := by rfl) : F.Covers s (s.tSet a k b) :=
  .mono h <| .after (.ite (.wrBit ..) (.refl _)) <| .wrBit ..

theorem genFlags_flags (s : State) (a) (h : trjFlags.le F = true := by rfl) : F.Covers s (s.genFlags a) :=
  .mono h <| .after (.ite (.tSet_flags ..) (.refl _)) <| .after (.tSet_flags ..) <| .tSet_flags ..

theorem endTask_generator (s : State) (a) (h : generator.le F = true := by rfl) : F.Covers s (s.endTask a) := by
  refine .mono h ?_
  unfold State.endTask
  refine .after (.tSet_flags ..) <| .after (.tSet_flags ..) <| .after (.tSet_flags ..) ?_
  split
  · exact .after (.tSet_flags ..) <| .after (.tSet_flags ..) <| .setTraj ..
  · exact .after (.raise ..) <| .after (.tSet_flags ..) <| .setTraj ..
  · exact .setTraj ..

theorem trjEngage_generator (s : State) (a src k) (h : generator.le F = true := by rfl) : F.Covers s (s.trjEngage a src k) :=
  .mono h <| .after (.genFlags_flags ..) <| .after (.ite (.refl _) (.wr ..)) <| .after (.tSet_flags ..) <| .after (.wr ..) <|
  .after (.setTraj ..) <| .after (.endTask_generator ..) <| .ite (.tSet_flags ..) (.refl _)

theorem cplStep_phase (s : State) (a) (h : camPhase.le F = true := by rfl) : F.Covers s (s.cplStep a).2 :=
  .mono h <| .after (.wrF ..) <| .wrBit ..

theorem anchorAt_offset (s : State) (a p) (h : F.par P.CplSlaveOffset = true := by rfl) : F.Covers s (s.anchorAt a p) :=
  .wrP (h := h) ..

theorem trjTakeOver_generator (s : State) (a quick) (h : generator.le F = true := by rfl) : F.Covers s (s.trjTakeOver a quick) :=
  .mono h <| .after (.genFlags_flags ..) <| .after (.ite (.refl _) (.after (.tSet_flags ..) <| .wr ..)) <|
  .after (.ite (.wrP ..) (.refl _)) <| .after (.wr ..) <| .after (.setTraj ..) <| .endTask_generator ..

theorem setPoint_setPointOut (s : State) (a k) (h : setPointOut.le F = true := by rfl) : F.Covers s (s.setPoint a k) :=
  .mono h <| .after (.tSet_flags ..) <| .after (.setTraj ..) <| .after (.ite (.setHist ..) (.refl _)) <|
  .after (.wrP ..) <| .after (.wrP ..) <| .after (.wrP ..) <| .setAxis ..

theorem trjRelease_setPointOut (s : State) (a) (h : setPointOut.le F = true := by rfl) : F.Covers s (s.trjRelease a) :=
  .mono h <| .after (.setPoint_setPointOut ..) <| .after (.genFlags_flags ..) <| .after (.wr ..) <| .after (.ite (.wrP ..) (.refl _)) <|
  .after (.setTraj ..) <| .after (.raiseIf ..) <| .endTask_generator ..

end Foot.Covers

theorem State.rd_released {s : State} (ho : s.ordered) (a : Nat) :
    ((((s.wr P.AxisState a 2).wr P.LoopStatus a 1).endOpen a).gmRelease a).rd P.AxisState a = 2 ∧
      ((((s.wr P.AxisState a 2).wr P.LoopStatus a 1).endOpen a).gmRelease a).rd P.LoopStatus a = 1 := by
  have h4 := State.ordered_wr ho P.AxisState a 2
  have h5 := State.ordered_wr h4 P.LoopStatus a 1
  have he (p : Nat) (hp : p ≠ P.MonVerdict) := State.rd_endOpen_ne h5 hp a a
  exact ⟨(he _ (by decide)).trans ((State.rd_wr_ne h4 (by decide) ..).trans (State.rd_wr_same ho ..)),
    (he _ (by decide)).trans (State.rd_wr_same h4 ..)⟩

/-- A released axis runs, its loop with it. -/
theorem State.rd_engRelease {s : State} (ho : s.ordered) (a : Nat) :
    (s.engRelease a).rd P.AxisState a = 2 ∧ (s.engRelease a).rd P.LoopStatus a = 1 := by
  have h1 : (s.cellForms a).ordered := (Foot.Covers.cellForms s a).ordered ho
  unfold State.engRelease
  generalize s.cellForms a = s1 at h1
  extract_lets _ r fromOff keep g s2 s3
  have h2 : s2.ordered := by
    unfold s2
    split
    · exact State.ordered_wr (s := s1.setGm a _) h1 ..
    · exact h1
  clear_value s2
  have h3 : s3.ordered := h2
  clear_value s3
  exact State.rd_released h3 a

/-! ### Gain maps -/

theorem State.gmap_setGm_same {s : State} (h : tabSorted none s.gm = true) (a : Nat) (r : GmRec) : (s.setGm a r).gmap a = r :=
  tabGet_tabSet_same _ _ _ _ h

theorem State.act_checkDue {s : State} (h : tabSorted none s.gm = true) (a m : Nat) : ((s.checkDue a m).gmap a).act = (s.gmap a).act :=
  (congrArg GmRec.act (State.gmap_setGm_same h a _) :)

/-- A commit of a map makes the loaded map the active one. -/
theorem State.act_gmCommit {s : State} (h : tabSorted none s.gm = true) (a : Nat) : ((s.gmCommit a).gmap a).act = (s.gmap a).shadow := by
  unfold State.gmCommit
  extract_lets r cur held r1 r2 s1
  have hr : r2.act = (s.gmap a).shadow := by
    unfold r2
    split <;> rfl
  clear_value r2
  have h1 : tabSorted none s1.gm = true ∧ s1.gmap a = r2 := ⟨tabSorted_tabSet _ _ _ _ none (by simp) h, State.gmap_setGm_same h ..⟩
  clear_value s1
  obtain ⟨hs, hg⟩ := h1
  refine (State.act_checkDue (s := (s1.wrBit P.GmState a 0 _).gmStaged a) hs a 2).trans ?_
  exact (congrArg GmRec.act hg).trans hr

/-- Switching the map off leaves none active. -/
theorem State.act_gmOff {s : State} (h : tabSorted none s.gm = true) (a : Nat) : ((s.gmOff a).gmap a).act = [] := by
  unfold State.gmOff
  extract_lets r cur r1 _ r2
  exact congrArg GmRec.act (State.gmap_setGm_same h a r2)

/-! ### Couplings -/

theorem State.cplr_setCpl_same {s : State} (h : tabSorted none s.cpl = true) (a : Nat) (r : CplRec) : (s.setCpl a r).cplr a = r :=
  tabGet_tabSet_same _ _ _ _ h

theorem State.sorted_setCpl {s : State} (h : tabSorted none s.cpl = true) (a : Nat) (r : CplRec) : tabSorted none (s.setCpl a r).cpl = true :=
  tabSorted_tabSet _ _ _ _ none (by simp) h

/-- A change that lapses leaves the coupling engaged as it is. -/
theorem State.engaged_cplLapse {s : State} (h : tabSorted none s.cpl = true) (a : Nat) :
    tabSorted none (s.cplLapse a).cpl = true ∧ ((s.cplLapse a).cplr a).engaged = (s.cplr a).engaged := by
  unfold State.cplLapse
  extract_lets r s1
  split
  · exact ⟨h, rfl⟩
  next p _ =>
    extract_lets s2
    have h1 : tabSorted none s1.cpl = true ∧ (s1.cplr a).engaged = (s.cplr a).engaged :=
      ⟨State.sorted_setCpl h .., Eq.trans (congrArg CplRec.engaged (State.cplr_setCpl_same h a _)) rfl⟩
    clear_value s1
    have h2 : s2.cpl = s1.cpl := by
      unfold s2
      split
      · rfl
      · exact (Foot.Covers.foldl (F := { parts := [.shadow], pars := [] }) cplCopies fun v p => .dropShadow ..).parts .cpl rfl
    have hc : Foot.nothing.Covers s2 ((s2.raise E.couplingChangeLapsed a []).complete p.req p.id 0xFFFFFFFF 0x0204 0 0 0) :=
      .after (.complete ..) <| .raise ..
    have he := Eq.trans (hc.parts .cpl rfl) h2
    rw [State.cplr, he]
    exact h1

/-- A disengaged coupling is not engaged. -/
theorem State.engaged_cplDisengage {s : State} (h : tabSorted none s.cpl = true) (a : Nat) (quick : Bool) (he : (s.cplr a).engaged = true) :
    ((s.cplDisengage a quick).cplr a).engaged = false := by
  unfold State.cplDisengage
  extract_lets s1
  have h1 : tabSorted none s1.cpl = true ∧ (s1.cplr a).engaged = true := by
    unfold s1
    split
    · obtain ⟨hs, hc⟩ := State.engaged_cplLapse h a
      exact ⟨hs, hc.trans he⟩
    · exact ⟨h, he⟩
  clear_value s1
  obtain ⟨hs, hc⟩ := h1
  rw [if_pos hc]
  have hk := (Foot.Covers.trjTakeOver_generator (F := .generator) (s1.cplClear a) a quick).parts .cpl rfl
  rw [State.cplr, hk]
  exact congrArg CplRec.engaged (State.cplr_setCpl_same hs a CplRec.init)

/-- The axis takes its set-points from the source it engages with. -/
theorem State.rd_trjEngage {s : State} (ho : s.ordered) (a src : Nat) (k : Kin) : (s.trjEngage a src k).rd P.TrjSource a = src := by
  unfold State.trjEngage
  extract_lets s1 s2 r _ _ s3 s4
  have h1 : s1.ordered := (Foot.Covers.ite (F := .trjFlags) (.tSet_flags ..) (.refl _)).ordered ho
  clear_value s1
  have h2 : s2.ordered := (Foot.Covers.endTask_generator (F := .generator) ..).ordered h1
  clear_value s2
  have h3 : s3.ordered := h2
  clear_value s3
  have hw : (s3.wr P.TrjSource a src).ordered := State.ordered_wr h3 ..
  have hc : Foot.Covers { parts := [], pars := [P.TrjState, P.TrjLatched, P.TrjChain] } (s3.wr P.TrjSource a src)
      ((if s4.rd P.TrjChain a = 0 then s4 else s4.wr P.TrjChain a 1).genFlags a) :=
    .after (.genFlags_flags ..) <| .after (.ite (.refl _) (.wr ..)) <| .tSet_flags ..
  exact (hc.rd hw rfl rfl a).trans (State.rd_wr_same h3 ..)

theorem State.cplEngage_tail {s v : State} {a : Nat} (ho : s.ordered) (h : (s.cplr a).engaged = true) (k : Kin) (hc : Foot.camPhase.Covers s v) :
    (v.trjEngage a 1 k).ordered ∧ ((v.trjEngage a 1 k).cplr a).engaged = true ∧ (v.trjEngage a 1 k).rd P.TrjSource a = 1 := by
  have ht := Foot.Covers.trjEngage_generator (F := .generator) v a 1 k
  have hv := hc.ordered ho
  have hk : (v.trjEngage a 1 k).cpl = s.cpl := Eq.trans (ht.parts .cpl rfl) (hc.parts .cpl rfl)
  refine ⟨ht.ordered hv, ?_, State.rd_trjEngage hv a 1 k⟩
  rw [State.cplr, hk]
  exact h

/-- An engaged coupling is the source of its axis. -/
theorem State.cplEngage_engaged {s : State} (ho : s.ordered) (h : tabSorted none s.cpl = true) (a : Nat) :
    (s.cplEngage a).ordered ∧ ((s.cplEngage a).cplr a).engaged = true ∧ (s.cplEngage a).rd P.TrjSource a = 1 := by
  unfold State.cplEngage
  extract_lets s1 _ s2 s3
  have h0 : Foot.Covers { parts := [], pars := [P.CplSlaveOffset] } s s1 := .ite (.anchorAt_offset ..) (.refl _)
  have hc0 : s1.cpl = s.cpl := h0.parts .cpl rfl
  have h1 : s1.ordered ∧ tabSorted none s1.cpl = true := ⟨h0.ordered ho, by rw [hc0]; exact h⟩
  clear_value s1
  obtain ⟨ho1, hs1⟩ := h1
  have h2 : s2.ordered ∧ (s2.cplr a).engaged = true := ⟨ho1, congrArg CplRec.engaged (State.cplr_setCpl_same hs1 a _)⟩
  clear_value s2
  have h3 : s3.ordered ∧ (s3.cplr a).engaged = true := ⟨State.ordered_wr h2.1 .., h2.2⟩
  clear_value s3
  have hc := Foot.Covers.cplStep_phase (F := .camPhase) s3 a
  rcases hy : s3.cplStep a with ⟨k, v⟩
  rw [hy] at hc
  dsimp only
  exact State.cplEngage_tail h3.1 h3.2 k hc

/-! ### Acquisition units -/

/-- The filters of an acquisition unit. -/
def Foot.sincFilters : Foot where
  parts := [.aq, .free]
  pars := []

/-- What a unit reports of its divider and its channels. -/
def Foot.aqReports : Foot where
  parts := []
  pars := [P.AqFramesPerBlock, P.AqDemand]

/-- What the beginning of a capture counts. -/
def Foot.capture : Foot where
  parts := [.aq]
  pars := [P.AqOverwritten]

theorem Foot.Covers.sincArm_filters (s : State) (u) : sincFilters.Covers s (s.sincArm u) := by
  unfold State.sincArm
  refine .after (.foldl _ fun v k => ?_) (.setAq ..)
  exact .ite (.after (.setAq ..) (.takeFree v 10)) (.refl _)

/-- The beginning of a capture sets the state of its unit. -/
theorem State.rd_capBegin {s : State} (ho : s.ordered) (u : Nat) :
    (s.capBegin u).ordered ∧ (s.capBegin u).rd P.AqFlags u = s.rd P.AqFlags u ∧
      (s.capBegin u).rd P.AqState u = if s.rd P.AqPreTrigger u = 0 then 2 else 1 := by
  unfold State.capBegin
  extract_lets r gone s1 s2
  have hc : Foot.capture.Covers s s2 := .after (.foldl _ fun _ _ => .inc ..) (.setAq ..)
  clear_value s2
  have h2 := hc.ordered ho
  refine ⟨State.ordered_wr h2 .., (State.rd_wr_ne h2 (by decide) ..).trans (hc.rd ho rfl rfl u), ?_⟩
  rw [State.rd_wr_same h2, hc.rd ho rfl rfl]

/-- The reports of an armed unit leave its overrun flag and its settings. -/
theorem State.rd_armReports {s : State} (ho : s.ordered) {u : Nat} (hf : bitOf (s.rd P.AqFlags u) 1 = false) :
    (((s.sincArm u).aqDivReport u).aqReport u).ordered ∧ bitOf ((((s.sincArm u).aqDivReport u).aqReport u).rd P.AqFlags u) 1 = false ∧
      (((s.sincArm u).aqDivReport u).aqReport u).rd P.AqPreTrigger u = s.rd P.AqPreTrigger u := by
  have h1 := Foot.Covers.sincArm_filters s u
  generalize s.sincArm u = v at h1
  have o1 := h1.ordered ho
  have f1 := h1.rd ho (p := P.AqFlags) rfl rfl u
  have g1 := h1.rd ho (p := P.AqPreTrigger) rfl rfl u
  let w := v.wr P.AqEffDivider u (v.aqu u).d
  have ow : w.ordered := State.ordered_wr o1 ..
  have fw : w.rd P.AqFlags u = v.rd P.AqFlags u := State.rd_wr_ne o1 (by decide) ..
  have gw : w.rd P.AqPreTrigger u = v.rd P.AqPreTrigger u := State.rd_wr_ne o1 (by decide) ..
  have od : (v.aqDivReport u).ordered := State.ordered_wrBit ow ..
  have fd : bitOf ((v.aqDivReport u).rd P.AqFlags u) 1 = false := by
    refine (State.bitOf_rd_wrBit_ne ow _ _ (by decide) ..).trans ?_
    rw [fw, f1, hf]
  have gd : (v.aqDivReport u).rd P.AqPreTrigger u = s.rd P.AqPreTrigger u := (State.rd_wrBit_ne ow (by decide) ..).trans (gw.trans g1)
  have h2 : Foot.aqReports.Covers (v.aqDivReport u) ((v.aqDivReport u).aqReport u) := .after (.wrF ..) (.wr ..)
  exact ⟨h2.ordered od, by rw [h2.rd od rfl rfl, fd], (h2.rd od rfl rfl u).trans gd⟩

/-- An idle unit that is armed waits for its trigger, or fills its pre-trigger first. -/
theorem State.rd_aqArm {s : State} (ho : s.ordered) {u : Nat} (hs : s.rd P.AqState u = 0) :
    (s.aqArm u).ordered ∧ bitOf ((s.aqArm u).rd P.AqFlags u) 1 = false ∧
      (s.aqArm u).rd P.AqState u = if s.rd P.AqPreTrigger u = 0 then 2 else 1 := by
  have hn : s.aqRuns u = false := by simp [State.aqRuns, hs]
  obtain ⟨r, hk⟩ : ∃ r, s.aqArm u = (((((s.setAq u r).wrBit P.AqFlags u 1 false).wrBit P.AqFlags u 0 true).sincArm u |>.aqDivReport u).aqReport u
      |>.capBegin u) := ⟨_, by unfold State.aqArm; rw [hn]; rfl⟩
  rw [hk]
  have o0 : (s.setAq u r).ordered := ho
  have o1 := State.ordered_wrBit o0 P.AqFlags u 1 false
  have o2 := State.ordered_wrBit o1 P.AqFlags u 0 true
  have f1 := State.bitOf_rd_wrBit_same o0 P.AqFlags u 1 false
  have f2 := (State.bitOf_rd_wrBit_ne o1 P.AqFlags u (k := 0) (j := 1) (by decide) true).trans f1
  have g2 : (((s.setAq u r).wrBit P.AqFlags u 1 false).wrBit P.AqFlags u 0 true).rd P.AqPreTrigger u = s.rd P.AqPreTrigger u :=
    (State.rd_wrBit_ne o1 (by decide) ..).trans (State.rd_wrBit_ne o0 (by decide) ..)
  obtain ⟨o3, f3, g3⟩ := State.rd_armReports o2 f2
  obtain ⟨o4, f4, h4⟩ := State.rd_capBegin o3 u
  exact ⟨o4, by rw [f4, f3], by rw [h4, g3, g2]⟩

/-- Settles O10: each commit is what `applyCommit` does for its opcode, and its request's completion leaves that
  (`State.runCommit_covers`). -/
theorem commitsTakeEffect : Obligations.CommitsTakeEffect := by
  refine ⟨?held, ?enable, ?mapCommit, ?mapOff, ?vmMove, ?vmStop, ?engage, ?disengage, ?pathStart, ?acqArm, ?stoMap, ?retire⟩
  case held =>
    intro x s ho hq hh
    have ha : s.applyCommit x = (some (0x021C, s.rd P.AxisHoldReason x.commit.req.inst),
        s.raise E.releaseRefused x.commit.req.inst (leBytes 4 (s.rd P.AxisHoldReason x.commit.req.inst))) := by
      simp [State.applyCommit, hq, hh]
    have hc := State.runCommit_covers ha
    have hr : Foot.nothing.Covers s (s.runCommit x) := .after hc (.raise ..)
    exact ⟨hr.rd ho rfl rfl _, hr.parts .ax rfl⟩
  case enable =>
    intro x s ho hq hh hs
    have ha : s.applyCommit x = (none, (s.engRelease x.commit.req.inst).trjRelease x.commit.req.inst) := by
      simp [State.applyCommit, hq, hh, State.axisRuns, hs]
    obtain ⟨h1, h2⟩ := State.rd_engRelease ho x.commit.req.inst
    have he := (Foot.Covers.engRelease s x.commit.req.inst).ordered ho
    have hr : Foot.setPointOut.Covers (s.engRelease x.commit.req.inst) (s.runCommit x) :=
      .after (.mono rfl (State.runCommit_covers ha)) (.trjRelease_setPointOut ..)
    exact ⟨(hr.rd he rfl rfl _).trans h1, (hr.rd he rfl rfl _).trans h2⟩
  case mapCommit =>
    intro x s ho hq hg
    have ha : s.applyCommit x = (none, s.gmCommit x.commit.req.inst) := by simp [State.applyCommit, hq]
    rw [State.gmap, (State.runCommit_covers ha).parts .gm rfl]
    exact State.act_gmCommit hg _
  case mapOff =>
    intro x s ho hq hg
    have ha : s.applyCommit x = (none, s.gmOff x.commit.req.inst) := by simp [State.applyCommit, hq]
    rw [State.gmap, (State.runCommit_covers ha).parts .gm rfl]
    exact State.act_gmOff hg _
  case vmMove =>
    intro x s ho hq ht hs hf
    have ha : s.applyCommit x = (none, s.vmMoveApply x.commit.req) := by simp [State.applyCommit, hq]
    rw [State.vmr, (State.runCommit_covers ha).parts .vm rfl]
    have hk : s.vmMoveApply x.commit.req = s.setVm x.commit.req.inst { s.vmr x.commit.req.inst with
        gen := { (s.vmr x.commit.req.inst).gen with
          own := moveOwn x.commit.req.body 12, keep := noKeep, quick := false, mode := .pos, target := fldI x.commit.req.body 4 8 } } := by
      simp [State.vmMoveApply, hs, hf]
    rw [hk]
    have hg := (tabGet_tabSet_same s.vm VmRec.init { s.vmr x.commit.req.inst with
        gen := { (s.vmr x.commit.req.inst).gen with
          own := moveOwn x.commit.req.body 12, keep := noKeep, quick := false, mode := .pos, target :=
            fldI x.commit.req.body 4 8 } } x.commit.req.inst ht)
    exact ⟨congrArg (fun r : VmRec => r.gen.mode) hg, congrArg (fun r : VmRec => r.gen.target) hg⟩
  case vmStop =>
    intro x s ho hq hv
    have ha : s.applyCommit x = (none, s.vmStopApply x.commit.req) := by simp [State.applyCommit, hq]
    rw [State.vmr, (State.runCommit_covers ha).parts .vm rfl]
    exact congrArg VmRec.gen (tabGet_tabSet_same _ _ _ _ hv)
  case engage =>
    intro x s ho hq hp
    have ha : s.applyCommit x = (none, s.cplEngage x.commit.req.inst) := by simp [State.applyCommit, hq]
    have hc := State.runCommit_covers ha
    obtain ⟨h1, h2, h3⟩ := State.cplEngage_engaged ho hp x.commit.req.inst
    rw [State.cplr, hc.parts .cpl rfl]
    exact ⟨h2, (hc.rd h1 rfl rfl _).trans h3⟩
  case disengage =>
    intro x s ho hq hp he
    have ha : s.applyCommit x = (none, s.cplDisengage x.commit.req.inst (bitOf (fld x.commit.req.body 0 1) 0)) :=
      by simp [State.applyCommit, hq]
    rw [State.cplr, (State.runCommit_covers ha).parts .cpl rfl]
    exact State.engaged_cplDisengage hp _ _ he
  case pathStart =>
    intro x s ho hq hp hb
    have ha : s.applyCommit x = (none, s.pgStart x.commit.req.inst) := by simp [State.applyCommit, hq]
    have hk : s.pgStart x.commit.req.inst = (s.setPg x.commit.req.inst { s.pgr x.commit.req.inst with
        mode := .pos, paused := false, quick := false, stopNew := false }).pgReport x.commit.req.inst := by
      simp [State.pgStart, hb]
    have hg := tabGet_tabSet_same s.pg PgRec.init
      { s.pgr x.commit.req.inst with mode := .pos, paused := false, quick := false, stopNew := false }
      x.commit.req.inst hp
    rw [State.pgr, (State.runCommit_covers ha).parts .pg rfl, hk]
    exact ⟨congrArg PgRec.mode hg, congrArg PgRec.paused hg⟩
  case acqArm =>
    intro x s ho hq hs hu
    have ha : s.applyCommit x = (none, s.aqArm x.commit.req.inst) := by simp [State.applyCommit, hq]
    have hc := State.runCommit_covers ha
    obtain ⟨ho1, hf, hst⟩ := State.rd_aqArm ho hs
    rw [hc.rd ho1 rfl rfl, hc.rd ho1 rfl rfl]
    exact ⟨hf, hst⟩
  case stoMap =>
    intro x s ho hq a hlt
    have ha : s.applyCommit x = (none, s.stoMapApply x.commit.req) := by simp [State.applyCommit, hq]
    let v := (List.range 128).foldl (fun s a => s.wr P.SafStoGroup a (mapOf x.commit.req.body a)) s
    have hv : Foot.Covers { parts := [], pars := [P.SafStoGroup] } s v := .foldl _ fun _ _ => .wr ..
    have hr : Foot.Covers { parts := [], pars := [P.SafSs1Masters] } v (s.runCommit x) :=
      .after (.mono rfl (State.runCommit_covers ha)) <| .foldl _ fun _ _ => .wr ..
    exact (hr.rd (hv.ordered ho) rfl rfl a).trans (State.rd_range_wr ho _ (mapOf x.commit.req.body) (by decide) hlt)
  case retire =>
    intro x s ho hq hr
    let v := s.wr P.ElkRetired 0 (setBit (s.rd P.ElkRetired 0) x.commit.req.inst true)
    have ha : s.applyCommit x = (none, (s.nodeAxes x.commit.req.inst).foldl (fun s a => s.hold a holdLINK) v) :=
      by simp [State.applyCommit, hq, v]
    have hv : v.ordered := State.ordered_wr ho ..
    have hc : Foot.feedback.Covers v (s.runCommit x) := .after (.mono rfl (State.runCommit_covers ha)) <| .foldl _ fun _ _ => .hold ..
    rw [hc.rd hv rfl rfl]
    exact State.bitOf_rd_wrBit_same ho ..

end Sys2Proof.Machine

end

/-! A write of an axis's group. -/

section

-- One declaration after the other: elaborated at once they need more threads than the check has memory for.
set_option Elab.async false

namespace Sys2Proof.Machine

/-! ### Conditions that do not hold -/

/-- No condition of the list holds. -/
def idleChecks (l : List (Bool × Rsn)) : Bool := l.all fun x => !x.1

theorem firstBad_of_idle {l : List (Bool × Rsn)} (h : idleChecks l = true) : firstBad l = none := by
  induction l with
  | nil => rfl
  | cons x r ih =>
    obtain ⟨c, y⟩ := x
    simp only [idleChecks, List.all_cons, Bool.and_eq_true, Bool.not_eq_true'] at h
    obtain ⟨rfl, hr⟩ := h
    simpa using ih hr

theorem idleChecks_ofClass {l : List (Bool × Rsn)} (h : idleChecks l = true) (c : Nat) : idleChecks (ofClass c l) = true :=
  List.all_eq_true.2 fun x hx => List.all_eq_true.1 h x (List.mem_of_mem_filter hx)

theorem idleChecks_append {l k : List (Bool × Rsn)} (h : idleChecks l = true) (hk : idleChecks k = true) : idleChecks (l ++ k) = true := by
  simp only [idleChecks, List.all_append, Bool.and_eq_true]
  exact ⟨h, hk⟩

theorem ofClass_append (c : Nat) (l k : List (Bool × Rsn)) : ofClass c (l ++ k) = ofClass c l ++ ofClass c k := List.filter_append ..

/-! ### The conditions on a write of AxisGroup -/

/-- AxisGroup's row of the parameter map. -/
def axisGroupRow : ParamRow := ⟨0x1050, .u32, [(0, 127)], .natOrNone 15, 0xFF, .rw⟩

theorem paramRow_axisGroup : paramRow P.AxisGroup = some axisGroupRow := by decide +kernel

theorem State.loopWriteBad_axisGroup (s : State) (i v : Nat) : idleChecks (s.loopWriteBad P.AxisGroup i v) = true := by
  have h : s.aboveFs P.AxisGroup i v = false := by
    unfold State.aboveFs
    split <;> rfl
  unfold State.loopWriteBad
  simp only [h]
  rfl

/-- Of the conditions on writes those of chapter 19 alone speak of AxisGroup. -/
theorem State.writeBad1_axisGroup (s : State) (i v : Nat) : idleChecks (s.writeBad1 P.AxisGroup i v) = true :=
  idleChecks_append (idleChecks_append (idleChecks_append (idleChecks_append (idleChecks_append (idleChecks_append (idleChecks_append
    (idleChecks_append (idleChecks_append (rfl : idleChecks (s.sysWriteBad P.AxisGroup i v) = true)
      (rfl : idleChecks (s.fbWriteBad P.AxisGroup i v) = true)) (rfl : idleChecks (s.latWriteBad P.AxisGroup i v) = true))
      (s.loopWriteBad_axisGroup i v)) (rfl : idleChecks (s.trjWriteBad P.AxisGroup i v) = true))
      (rfl : idleChecks (s.gearWriteBad P.AxisGroup i v) = true)) (rfl : idleChecks (s.modWriteBad P.AxisGroup i v) = true))
      (rfl : idleChecks (s.feWriteBad P.AxisGroup i v) = true)) (rfl : idleChecks (s.fieldWriteBad P.AxisGroup i) = true))
    (rfl : idleChecks (s.hostWriteBad P.AxisGroup v) = true)

theorem State.procToNet_axisGroup (s : State) (i v : Nat) :
    idleChecks (s.procWriteBad P.AxisGroup i v ++ s.aqWriteBad P.AxisGroup i v ++ s.canWriteBad P.AxisGroup i v ++ s.netWriteBad P.AxisGroup) = true :=
  idleChecks_append (idleChecks_append (idleChecks_append (rfl : idleChecks (s.procWriteBad P.AxisGroup i v) = true)
    (rfl : idleChecks (s.aqWriteBad P.AxisGroup i v) = true)) (rfl : idleChecks (s.canWriteBad P.AxisGroup i v) = true))
    (rfl : idleChecks (s.netWriteBad P.AxisGroup) = true)

/-- The group has 16 other axes. -/
def State.groupFull (s : State) (i v : Nat) : Bool :=
  v != 0xFF && s.rdShadow P.AxisGroup i != v && decide (16 ≤ ((List.range 128).filter fun a => s.rdShadow P.AxisGroup a == v).length)

theorem State.ofClass_bootWriteBad_axisGroup (s : State) (i v : Nat) :
    firstBad (ofClass 3 (s.bootWriteBad P.AxisGroup i v)) = firstBad [(s.groupFull i v, ⟨0x0332, 0, 0, 0⟩)] ∧
      firstBad (ofClass 2 (s.bootWriteBad P.AxisGroup i v)) = firstBad [(s.axisOn i, ⟨0x0217, 0, 0, 0⟩)] ∧
      firstBad (ofClass 4 (s.bootWriteBad P.AxisGroup i v)) = none := by
  have hb : s.bootWriteBad P.AxisGroup i v = [(false, ⟨0x0331, 0, 0, 0⟩), (s.groupFull i v, ⟨0x0332, 0, 0, 0⟩), (false, ⟨0x0213, 0, 0, 0⟩),
      (s.axisOn i, ⟨0x0217, 0, 0, 0⟩)] := rfl
  rw [hb]
  refine ⟨?_, ?_, ?_⟩ <;> simp [ofClass]

theorem State.locked_axisGroup {s : State} (h : s.par.staged = []) (i : Nat) : s.lockedCopy P.AxisGroup i = false := by
  unfold State.lockedCopy
  rw [h]
  rfl

/-- What a write of AxisGroup is refused with, in the order of the checks. -/
theorem State.firstBad_writeBad_axisGroup {s : State} (h : s.par.staged = []) (i v : Nat) :
    firstBad (s.writeBad axisGroupRow i v false) = firstBad [(!inRange axisGroupRow v, ⟨0x0304, 0, 0, 0⟩),
      (s.groupFull i v, ⟨0x0332, 0, 0, 0⟩), (s.axisOn i, ⟨0x0217, 0, 0, 0⟩)] := by
  have h1 (c : Nat) := firstBad_of_idle (idleChecks_ofClass (s.writeBad1_axisGroup i v) c)
  have hn (c : Nat) := firstBad_of_idle (idleChecks_ofClass (s.procToNet_axisGroup i v) c)
  have hs : s.stagedCopy P.AxisGroup i = false := by simp [State.stagedCopy, h]
  have hl := State.locked_axisGroup h i
  obtain ⟨b3, b2, b4⟩ := s.ofClass_bootWriteBad_axisGroup i v
  have hw : s.writeBad axisGroupRow i v false = [(!inRange axisGroupRow v, ⟨0x0304, 0, 0, 0⟩)] ++ ofClass 3 (s.writeBad1 P.AxisGroup i v) ++
      ofClass 3 (s.writeBad2 P.AxisGroup i v) ++ [(s.lockedCopy P.AxisGroup i, ⟨0x0210, 0, 0, 0⟩)] ++ ofClass 2
        (s.writeBad1 P.AxisGroup i v) ++
      [(s.stagedCopy P.AxisGroup i, ⟨0x0212, 0, 0, 0⟩)] ++ ofClass 2 (s.writeBad2 P.AxisGroup i v) ++ [(false, ⟨0x022A, 0, 0, 0⟩)] ++
      ofClass 4 (s.writeBad1 P.AxisGroup i v ++ s.writeBad2 P.AxisGroup i v) := rfl
  have h2 (c : Nat) : firstBad (ofClass c (s.writeBad2 P.AxisGroup i v)) = firstBad (ofClass c (s.bootWriteBad P.AxisGroup i v)) := by
    rw [State.writeBad2, ofClass_append, firstBad_append, hn, Option.none_or]
  rw [hw]
  simp only [firstBad_append, ofClass_append, h1, h2, b3, b2, b4, hl, hs]
  cases inRange axisGroupRow v <;> cases s.groupFull i v <;> simp

/-! ### The request -/

/-- A write of AxisGroup has the instance and the length its row asks for. -/
theorem exec_paramWrite_axisGroup {t : Nat} {q : Req} {s : State} (hp : fld q.body 0 2 = P.AxisGroup) (hn : fld q.body 3 1 = 4)
    (hl : q.body.length = 8) (hf : fld q.body 2 1 = 0) :
    exec (.paramWrite t q) s = runParam t q s true fun s => guarded (s.writeBad axisGroupRow q.inst (fld q.body 4 4) false)
      ((s.wrShadow P.AxisGroup q.inst (s.writeForm axisGroupRow q.inst (fld q.body 4 4))).accept q s.nextTarget) := by
  change execParamWrite t q s = _
  simp only [execParamWrite, hp, hn, hl, hf, paramRow_axisGroup]
  exact congrArg (runParam t q s true) (funext fun v => rfl)

/-- A parameter request that is refused changes nothing. -/
theorem runParam_of_no {t : Nat} {q : Req} {s : State} {r : Rsn} {f : State → OpRes} (hr : s.boot.recovery = false)
    (hb : s.host.broken.contains q = false) (hi : paramInstOk q = true) (hf : f (s.advance t) = .no r) :
    runParam t q s true f = .next ((s.advance t).reply q r.status (refBytes r.detail r.wh r.val)) := by
  unfold runParam runOp
  simp only [hi, OpRes.beside, State.advance_frame, hb, hr, hf]
  rfl

theorem State.writeForm_axisGroup (s : State) (i v : Nat) : s.writeForm axisGroupRow i v = v := by
  have hc : s.cellForm P.AxisGroup i v = v := by
    unfold State.cellForm
    exact if_pos (.inr (.inl rfl))
  exact hc

/-- A write of AxisGroup with a condition against it is refused for the first one. -/
theorem answers_axisGroup_refused {t : Nat} {q : Req} {s : State} {st : Nat} (hr : s.boot.recovery = false) (hb : s.host.broken.contains q = false)
    (hp : fld q.body 0 2 = P.AxisGroup) (hi : q.inst < 128) (hn : fld q.body 3 1 = 4) (hl : q.body.length = 8) (hf : fld q.body 2 1 = 0)
    (hs : s.par.staged = []) (h : firstBad [(!inRange axisGroupRow (fld q.body 4 4), ⟨0x0304, 0, 0, 0⟩),
      ((s.advance t).groupFull q.inst (fld q.body 4 4), ⟨0x0332, 0, 0, 0⟩), ((s.advance t).axisOn q.inst, ⟨0x0217, 0, 0, 0⟩)] =
        some ⟨st, 0, 0, 0⟩) : Answers (.paramWrite t q) s q st (refBytes 0 0 0) (s.advance t) := by
  refine (exec_paramWrite_axisGroup hp hn hl hf).trans ?_
  refine runParam_of_no hr hb (r := ⟨st, 0, 0, 0⟩) ?_ ?_
  · simp [paramInstOk, hp, paramRow_axisGroup, hasInst, axisGroupRow]
    omega
  · rw [← State.firstBad_writeBad_axisGroup (by simpa using hs)] at h
    rw [guarded, h]

/-- Settles O16: of all conditions on a write three speak of AxisGroup (`State.firstBad_writeBad_axisGroup`), in the order of the cases. -/
theorem axisGroupTakesSixteen : Obligations.AxisGroupTakesSixteen := by
  refine ⟨?full, ?enabled, ?range, ?accepted⟩
  case full =>
    intro t q s hr hb hp hi hn hl hf hs hv hne h16
    refine answers_axisGroup_refused hr hb hp hi hn hl hf hs ?_
    have hin : inRange axisGroupRow (fld q.body 4 4) = true := by simp [inRange, axisGroupRow, allFinite]; omega
    have hv' : fld q.body 4 4 ≠ 255 := by omega
    simp [hin, State.groupFull, hv', hne, h16]
  case enabled =>
    intro t q s hr hb hp hi hn hl hf hs hv hon
    refine answers_axisGroup_refused hr hb hp hi hn hl hf hs ?_
    simp [hv, inRange, axisGroupRow, allFinite, State.groupFull, State.axisOn, State.rb, hon, hi]
  case range =>
    intro t q s hr hb hp hi hn hl hf hs hv hne
    refine answers_axisGroup_refused hr hb hp hi hn hl hf hs ?_
    simp [inRange, axisGroupRow, Nat.not_le.2 hv, hne]
  case accepted =>
    intro t q s hr hb hp hi hn hl hf hs hv hoff hroom
    refine (exec_paramWrite_axisGroup hp hn hl hf).trans (runParam_of_ok hr hb ?_ ?_)
    · simp [paramInstOk, hp, paramRow_axisGroup, hasInst, axisGroupRow]
      omega
    · refine (guarded_of_none ?_).trans ?_
      · rw [State.firstBad_writeBad_axisGroup (by simpa using hs)]
        have hin : inRange axisGroupRow (fld q.body 4 4) = true := by simp [inRange, axisGroupRow, allFinite]; omega
        simp [hin, State.groupFull, State.axisOn, State.rb, hoff, hroom]
      · rw [State.writeForm_axisGroup]
        rfl

end Sys2Proof.Machine

end

/-! The parameter, staging, event and identity requests. -/

section

-- One declaration after the other: elaborated at once they need more threads than the check has memory for.
set_option Elab.async false

namespace Sys2Proof.Machine

/-- The gain map of axis 0 stands in an open staged set of the axis, and a GainMapCommit of the axis waits for its cycle: the map is
locked, the set itself is not. -/
def State.mapCommitted : State :=
  { State.reset with par := { State.reset.par with
      staged := [{ scope := 0, inst := 0, fam := 0, keys := [mapKey 0], pending := none }]
      commits := [{ target := 5, id := 1, req := { Req.own with opcode := 0x0511 } }] } }

/-- Refutes O47: the StageDiscard of that set is refused with 0x0210 and its set stays open; the clause has no premise about the keys of
the set. -/
theorem not_interpreterRequestsComplete : ¬ Obligations.InterpreterRequestsComplete := by
  rintro ⟨-, -, -, -, -, -, -, -, -, -, -, -, -, -, -, -, -, h⟩
  have h := h 0 { Req.own with opcode := 0x0106, body := [0, 0, 0, 0] } State.mapCommitted
    { scope := 0, inst := 0, fam := 0, keys := [mapKey 0], pending := none }
    (by decide +kernel) (by decide +kernel) (by decide +kernel) (by decide +kernel)
  exact absurd (congrArg (fun r => (Res.after State.reset r).par.staged.length) h) (by decide +kernel)

end Sys2Proof.Machine

end

/-! Moves, homing, the motion queue and its refill. -/

section

-- One declaration after the other: elaborated at once they need more threads than the check has memory for.
set_option Elab.async false

namespace Sys2Proof.Machine

/-- The move condition: the axis runs, its queue does not run and its source of set-points is its own generator. -/
theorem State.firstBad_moveBad {s : State} {a : Nat} (hr : s.axisRuns a = true) (hq : s.queueRuns a = false) (hs : s.rd P.TrjSource a = 0) :
    firstBad (s.moveBad a) = none := by
  simp [State.moveBad, hr, hq, hs]

/-- Entries that all pass a check hold none that fails it. -/
theorem any_eq_false_of_all_not {α : Type} {p p' : α → Bool} {l : List α} (h : l.all p' = true) (hn : ∀ e,
  p' e = !p e) : l.any p = false := by
  have hp : p' = fun e => !p e := funext hn
  rw [hp, List.all_eq_not_any_not] at h
  simpa using h

/-- The speed at the end of an entry: a finite value of at least 0. -/
theorem endSpeed_ok (f : Nat) :
    (f32Finite f && decide (0 ≤ f32ToRat f)) = !(!f32Finite f || decide (f32ToRat f < 0)) := by
  rw [Bool.not_or, Bool.not_not, ← decide_not, decide_eq_decide.mpr not_lt]

/-- The entries of a QueueAppend that the checks let through: 1 to 16, each with a valid end speed and its own limits in range, within the
range of positions, and no more than the queue has room for. -/
theorem queueAppend_checks {s : State} {q : Req} {n a : Nat} {es : List QEntry} (h1 : 1 ≤ n) (h2 : n ≤ 16) (hl : q.body.length = 4 + 32 * n)
    (hv : es.all (fun e => f32Finite (fld e.bytes 24 4) && decide (0 ≤ f32ToRat (fld e.bytes 24 4))) = true)
    (hlim : es.all (fun e => !s.limsBad a (qOwn e)) = true) (hb : s.entriesBeyond a (s.queueEnd a) es = false)
    (hd : (s.traj a).fill + n ≤ s.rd P.TrjQueueDepth a) :
    firstBad [(decide (q.body.length ≠ 4 + 32 * n), (⟨0x0303, 0, 0, 0⟩ : Rsn)),
      (decide (n < 1 ∨ 16 < n) || es.any (fun e => !f32Finite (fld e.bytes 24 4) || decide (f32ToRat (fld e.bytes 24 4) < 0)), ⟨0x0304, 0,
        0, 0⟩),
      (es.any (fun e => s.limsBad a (qOwn e)), ⟨0x0320, 0, 0, 0⟩), (s.entriesBeyond a (s.queueEnd a) es, ⟨0x0322, 0, 0, 0⟩),
      (decide (s.rd P.TrjQueueDepth a < (s.traj a).fill + n), ⟨0x0401, 0, 0, 0⟩)] = none := by
  have hv' := any_eq_false_of_all_not hv fun e => endSpeed_ok (fld e.bytes 24 4)
  have hlim' : es.any (fun e => s.limsBad a (qOwn e)) = false := any_eq_false_of_all_not hlim fun _ => rfl
  have hn : decide (n < 1 ∨ 16 < n) = false := by simp; omega
  have hd' : decide (s.rd P.TrjQueueDepth a < (s.traj a).fill + n) = false := by simp; omega
  simp only [firstBad_cons, firstBad_nil, hv', hlim', hn, hd', hb, hl, ne_eq, not_true_eq_false, decide_false, Bool.or_self,
    Bool.false_eq_true,
    if_false]

/-- A QueueAppend that the checks let through puts its entries behind those that wait and is a commit for the next cycle. -/
theorem commits_queueAppend {t : Nat} {q : Req} {s : State} {n : Nat} {es : List QEntry} (hs : Served 0x0608 q s) (hn : n = fld q.body 0 1)
    (h1 : 1 ≤ n) (h2 : n ≤ 16) (hl : q.body.length = 4 + 32 * n)
    (he : es = (List.range n).map (fun i => { bytes := slice q.body (4 + 32 * i) 32, avail := (s.advance t).nextTarget }))
    (hv : es.all (fun e => f32Finite (fld e.bytes 24 4) && decide (0 ≤ f32ToRat (fld e.bytes 24 4))) = true)
    (hlim : es.all (fun e => !(s.advance t).limsBad q.inst (qOwn e)) = true)
    (hb : (s.advance t).entriesBeyond q.inst ((s.advance t).queueEnd q.inst) es = false)
    (hd : (s.traj q.inst).fill + n ≤ s.rd P.TrjQueueDepth q.inst) :
    Commits (.queueAppend t q) s q (s.advance t).nextTarget (((s.advance t).setTraj q.inst
      (if (s.traj q.inst).spill = [] then
        { s.traj q.inst with
          sec := ((s.traj q.inst).sec ++ if (s.traj q.inst).spill = [] then es else []).take 16
          spill := ((s.traj q.inst).sec ++ if (s.traj q.inst).spill = [] then es else []).drop 16 }
      else { s.traj q.inst with spill := (s.traj q.inst).spill ++ es })).queueReport q.inst) := by
  have hd' : ((s.advance t).traj q.inst).fill + n ≤ (s.advance t).rd P.TrjQueueDepth q.inst := by simpa using hd
  subst hn
  change execQueueAppend t q s = _
  refine runReq_of_ok hs ?_
  refine (guarded_of_none ?_).trans ?_
  · rw [← he]
    exact queueAppend_checks h1 h2 hl hv hlim hb hd'
  · rw [← he]
    simp only [State.traj_advance]
    rfl

/-- The state an axis or path group refill leads to: nothing happens while the memory interface of the section is halted. -/
theorem exec_queueRefill {t x : Nat} {bad : Bool} {s : State} (hx : x < 128) (hh : bitOf s.boot.offHalt 5 = false)
    (hs : (s.traj x).spill ≠ []) :
    exec (.queueRefill t x bad) s = .next (if bad then (s.advance t).queueDiscard x 0 else
      ((s.advance t).setTraj x { s.traj x with
        sec := (s.traj x).sec ++ (s.traj x).spill.take (16 - (s.traj x).sec.length)
        spill := (s.traj x).spill.drop (16 - (s.traj x).sec.length) }).queueReport x) := by
  change execQueueRefill t x bad s = _
  refine onUnit_of (by simp; omega) ?_
  simp only [State.advance_frame, State.traj_advance, hh, hx, hs, Bool.false_eq_true, if_false, if_true]

/-- Settles O35: every request is its checks, all of which the premises let pass, and its effect. -/
theorem motionRequestsComplete : Obligations.MotionRequestsComplete := by
  refine ⟨?moveAbs, ?moveRel, ?moveJog, ?moveStop, ?moveHome, ?moveTest, ?moveResume, ?queueStart, ?queueAppend, ?queueAppendSpilled,
    ?queueClear, ?queueClearNothing, ?queueRefill, ?pathRefill, ?queueRefillBad, ?homingFailed⟩
  case moveAbs =>
    intro t q s hs hl hb ht hr hq hsrc
    change execMoveAbs t q s = _
    refine runReq_of_ok hs (State.commitReq_of_firstBad ?_)
    simpa [hl, hb, ht] using State.firstBad_moveBad hr hq hsrc
  case moveRel =>
    intro t q s hs hl hb ht hr hq hsrc
    change execMoveRel t q s = _
    have hm := State.firstBad_moveBad hr hq hsrc
    refine runReq_of_ok hs ((guarded_of_none ?_).trans ?_)
    · simpa [hl, hb, ht] using hm
    · simp [State.accept, State.withCommit]
  case moveJog =>
    intro t q s hs hf hl ht hr hq hsrc
    change execMoveJog t q s = _
    refine runReq_of_ok hs (State.commitReq_of_firstBad ?_)
    simpa [hf, hl, ht] using State.firstBad_moveBad hr hq hsrc
  case moveStop =>
    intro t q s hs ht hr
    change execMoveStop t q s = _
    exact runReq_of_ok hs (State.commitReq_of_firstBad (by simp [ht, hr]))
  case moveHome =>
    intro t q s hs h13 h23 ht hr hq hsrc
    change execMoveHome t q s = _
    refine runReq_of_ok hs (State.commitReq_of_firstBad ?_)
    have hm := State.firstBad_moveBad hr hq hsrc
    have hindex : ((s.rd P.HomeMethod q.inst == 1 || s.rd P.HomeMethod q.inst == 3) && s.rd P.FbType q.inst != 1) = false :=
      Bool.and_eq_false_imp.mpr fun h => by simpa using h13 (by simpa using h)
    have hinput : ((s.rd P.HomeMethod q.inst == 2 || s.rd P.HomeMethod q.inst == 3) &&
        (s.advance t).latchUses (s.rd P.HomeInput q.inst) (s.rd P.HomeEdge q.inst)) = false :=
      Bool.and_eq_false_imp.mpr fun h => h23 (by simpa using h)
    simp only [State.advance_rd, State.moveBad_advance, hindex, hinput, ht]
    simpa using hm
  case moveTest =>
    intro t q s hs hf h0 hl hb1 hb2 ht hr hq hsrc
    change execMoveTest t q s = _
    refine runReq_of_ok hs (State.commitReq_of_firstBad ?_)
    simpa [hf, not_lt.mpr h0, hl, hb1, hb2, ht] using State.firstBad_moveBad hr hq hsrc
  case moveResume =>
    intro t q s hs ht hv hres hr hq hsrc
    change execMoveResume t q s = _
    refine runReq_of_ok hs (State.commitReq_of_firstBad ?_)
    simpa [ht, hv, hres] using State.firstBad_moveBad hr hq hsrc
  case queueStart =>
    intro t q s hs ht hr hq hsrc
    change execQueueStart t q s = _
    refine runReq_of_ok hs (State.commitReq_of_firstBad ?_)
    simpa [ht] using State.firstBad_moveBad hr hq hsrc
  case queueAppend =>
    intro t q s n es hs hn h1 h2 hl he hv hlim hb hd hsp
    simpa only [hsp, if_true] using commits_queueAppend hs hn h1 h2 hl he hv hlim hb hd
  case queueAppendSpilled =>
    intro t q s n es hs hn h1 h2 hl he hv hlim hb hd hsp
    simpa only [hsp, if_false] using commits_queueAppend hs hn h1 h2 hl he hv hlim hb hd
  case queueClear =>
    intro t q s hs hq hres
    change execQueueClear t q s = _
    have hn : (s.traj q.inst).res ≠ none := Option.isSome_iff_ne_none.mp hres
    refine runReq_of_ok hs ((guarded_of_none (by simp [hq])).trans ?_)
    simp only [State.traj_advance, hn, if_false]
  case queueClearNothing =>
    intro t q s hs hq hres
    change execQueueClear t q s = _
    refine runReq_of_ok hs ((guarded_of_none (by simp [hq])).trans ?_)
    simp only [State.traj_advance, hres, if_true]
  case queueRefill => exact fun t x s hx hh hs => exec_queueRefill hx hh hs
  case pathRefill =>
    intro t g s hg hh hs
    change execQueueRefill t (128 + g) false s = _
    refine onUnit_of (by simp; omega) ?_
    simp [hh, hs]
  case queueRefillBad => exact fun t x s hx hh hs => exec_queueRefill hx hh hs
  case homingFailed =>
    intro t x s hx htask hp hwhy
    change execHomingFailed t x s = _
    refine onUnit_of (by simp [hx]) ?_
    refine if_pos ⟨by simpa using htask, by simpa using hp, ?_⟩
    simpa [or_assoc] using hwhy

end Sys2Proof.Machine

end

/-! Couplings, cam tables and paths. -/

section

-- One declaration after the other: elaborated at once they need more threads than the check has memory for.
set_option Elab.async false

namespace Sys2Proof.Machine

/-! ### What waits at a master position -/

theorem State.motionValue_cplState (s : State) (a : Nat) :
    s.motionValue P.CplState a =
      setBit (setBit (setBit (s.rd P.CplState a) cENGPEND ((s.cplr a).pend.elim false (fun x => x.kind == 0) || s.hasCommit 0x0706 a)) cCHGPEND
        ((s.cplr a).pend.elim false (fun x => x.kind == 2) || s.cplStaged.contains a)) cDISPEND
        ((s.cplr a).pend.elim false (fun x => x.kind == 1) || s.hasCommit 0x0707 a) := rfl

theorem State.engPend_of_pend {s : State} {a : Nat} {p : CplPend} (h : (s.cplr a).pend = some p) (hk : p.kind = 0) :
    bitOf (s.motionValue P.CplState a) cENGPEND = true := by
  rw [motionValue_cplState, bitOf_setBit_ne (by decide), bitOf_setBit_ne (by decide), bitOf_setBit_same]
  simp [h, hk]

theorem State.chgPend_of_pend {s : State} {a : Nat} {p : CplPend} (h : (s.cplr a).pend = some p) (hk : p.kind = 2) :
    bitOf (s.motionValue P.CplState a) cCHGPEND = true := by
  rw [motionValue_cplState, bitOf_setBit_ne (by decide), bitOf_setBit_same]
  simp [h, hk]

theorem State.disPend_of_pend {s : State} {a : Nat} {p : CplPend} (h : (s.cplr a).pend = some p) (hk : p.kind = 1) :
    bitOf (s.motionValue P.CplState a) cDISPEND = true := by
  rw [motionValue_cplState, bitOf_setBit_same]
  simp [h, hk]

/-- What waits for a master position: the place, the direction and the time after which it lapses, as the request gives them at `off`. -/
def State.cplPend (s : State) (q : Req) (kind m off : Nat) : CplPend :=
  { kind := kind
    master := m
    psw := fldI q.body (off + 8) 8
    up := fld q.body (off + 1) 1 == 1
    lapse := s.time.tick + (roundHE (f32ToRat (fld q.body (off + 4) 4) * 1000000)).toNat
    id := s.par.nextId
    req := q }

/-- A request at a master position is answered 0x0101 with the next COMMITID, and joins the record of its axis. -/
theorem State.cplAccept_pends {s : State} (h : tabSorted none s.cpl = true) (q : Req) (kind m off : Nat) :
    ∃ s', s.cplAccept q kind m off = .ok 0x0101 (crBytes 0xFFFFFFFF s.par.nextId) s' ∧
      (s'.cplr q.inst).engaged = (s.cplr q.inst).engaged ∧
      ∃ p, (s'.cplr q.inst).pend = some p ∧ p.psw = fldI q.body (off + 8) 8 ∧ p.kind = kind := by
  have hr : ((s.takeId.2).setCpl q.inst { s.cplr q.inst with pend := some (s.cplPend q kind m off) }).cplr q.inst =
      { s.cplr q.inst with pend := some (s.cplPend q kind m off) } := State.cplr_setCpl_same h q.inst _
  exact ⟨_, rfl, Eq.trans (congrArg CplRec.engaged hr) rfl, s.cplPend q kind m off, Eq.trans (congrArg CplRec.pend hr) rfl, rfl, rfl⟩

/-- The shadow copies are no part of the couplings. -/
theorem State.cplShadow_shadow (s : State) (a : Nat) (b : List Byte) : Foot.Covers { parts := [.shadow], pars := [] } s (s.cplShadow a b) :=
  .foldl (cplVals b 0) fun v e => .wrShadow ..

theorem State.cpl_cplShadow (s : State) (a : Nat) (b : List Byte) : (s.cplShadow a b).cpl = s.cpl := (s.cplShadow_shadow a b).parts .cpl rfl

theorem State.nextId_cplShadow (s : State) (a : Nat) (b : List Byte) : (s.cplShadow a b).par.nextId = s.par.nextId :=
  (s.cplShadow_shadow a b).parts .nextId rfl

/-! ### What lapses and what ends -/

theorem State.cpl_cplLapse {s : State} {a : Nat} {p : CplPend} (h : (s.cplr a).pend = some p) :
    (s.cplLapse a).cpl = (s.setCpl a { s.cplr a with pend := none }).cpl := by
  have hd (v : State) : (if p.kind = 1 then v else v.cplDrop a).cpl = v.cpl := by
    split
    · rfl
    · exact (Foot.Covers.foldl (F := { parts := [.shadow], pars := [] }) cplCopies fun v p => .dropShadow ..).parts .cpl rfl
  have hc (v : State) : Foot.nothing.Covers v ((v.raise E.couplingChangeLapsed a []).complete p.req p.id 0xFFFFFFFF 0x0204 0 0 0) :=
    .after (.complete ..) <| .raise ..
  simp only [State.cplLapse, h]
  exact Eq.trans ((hc _).parts .cpl rfl) (hd _)

theorem State.cplLapse_of_none {s : State} {a : Nat} (h : (s.cplr a).pend = none) : s.cplLapse a = s := by
  simp [State.cplLapse, h]

theorem State.cplr_raise (s : State) (id inst : Nat) (b : List Byte) (x : Nat) : (s.raise id inst b).cplr x = s.cplr x :=
  congrArg (tabGet · CplRec.init x) ((Foot.Covers.raise (F := .nothing) s id inst b).parts .cpl rfl)

/-- The couplings of the other axes stand, and the table of couplings keeps its order. -/
def State.OthersStand (a : Nat) (s s' : State) : Prop :=
  tabSorted none s.cpl = true → tabSorted none s'.cpl = true ∧ ∀ x, x ≠ a → s'.cplr x = s.cplr x

theorem State.OthersStand.of_cpl {a : Nat} {s s' : State} (h : s'.cpl = s.cpl) : State.OthersStand a s s' :=
  fun hs => ⟨h ▸ hs, fun x _ => by rw [State.cplr, State.cplr, h]⟩

theorem State.OthersStand.trans {a : Nat} {s s' s'' : State} (h : State.OthersStand a s s') (h' : State.OthersStand a s' s'') :
    State.OthersStand a s s'' := by
  intro hs
  obtain ⟨hs1, h1⟩ := h hs
  obtain ⟨hs2, h2⟩ := h' hs1
  exact ⟨hs2, fun x hx => (h2 x hx).trans (h1 x hx)⟩

theorem State.othersStand_setCpl {a : Nat} {s s' : State} {r : CplRec} (h : s'.cpl = (s.setCpl a r).cpl) : State.OthersStand a s s' := by
  intro hs
  refine ⟨h ▸ State.sorted_setCpl hs a r, fun x hx => ?_⟩
  rw [State.cplr, h]
  exact tabGet_tabSet_ne _ _ _ _ _ _ hs hx

theorem State.othersStand_cplLapse (s : State) (a : Nat) : State.OthersStand a s (s.cplLapse a) := by
  cases h : (s.cplr a).pend with
  | none => exact .of_cpl (by rw [cplLapse_of_none h])
  | some p => exact othersStand_setCpl (cpl_cplLapse h)

theorem State.othersStand_cplStop (s : State) (a : Nat) (quick : Bool) : State.OthersStand a s (s.cplStop a quick) := by
  have hl : State.OthersStand a s (if (s.cplr a).pend.isSome then s.cplLapse a else s) := by
    split
    · exact othersStand_cplLapse s a
    · exact .of_cpl rfl
  have he (v : State) : State.OthersStand a v (if (v.cplr a).engaged then (v.cplClear a).trjTakeOver a quick else v) := by
    split
    · exact othersStand_setCpl ((Foot.Covers.trjTakeOver_generator (F := .generator) (v.cplClear a) a quick).parts .cpl rfl)
    · exact .of_cpl rfl
  exact (hl.trans (he _)).trans (.of_cpl ((Foot.Covers.raise (F := .nothing) (s.cplDisengage a quick) E.disengagedByStop a []).parts .cpl rfl))

/-! ### A cam table that fails -/

/-- What the failure of table n does to axis a. -/
def State.camFailAt (n : Nat) (s : State) (a : Nat) : State :=
  let s := if (s.cplr a).pend.elim false (fun p => p.table == some n) then s.cplLapse a else s
  if (s.cplr a).engaged ∧ s.rd P.CplKind a = 2 ∧ s.rd P.CplCamTable a = n then s.cplStop a true else s

theorem State.camFail_eq (s : State) (n cause : Nat) :
    s.camFail n cause = ((List.range 128).foldl (State.camFailAt n) s).raise E.camDataError n (leBytes 4 cause) := rfl

theorem Foot.Covers.camFailAt (s : State) (n a : Nat) : Foot.motion.Covers s (s.camFailAt n a) :=
  .after (.ite (.cplStop ..) (.refl _)) <| .ite (.cplLapse ..) (.refl _)

/-- Axis x follows cam table n, where it is coupled. -/
structure State.CamOf (s : State) (n x : Nat) : Prop where
  ordered : s.ordered
  sorted : tabSorted none s.cpl = true
  kind : s.rd P.CplKind x = 2
  table : s.rd P.CplCamTable x = n

theorem State.othersStand_camFailAt (s : State) (n a : Nat) : State.OthersStand a s (State.camFailAt n s a) := by
  have hl : State.OthersStand a s (if (s.cplr a).pend.elim false (fun p => p.table == some n) then s.cplLapse a else s) := by
    split
    · exact othersStand_cplLapse s a
    · exact .of_cpl rfl
  have he (v : State) : State.OthersStand a v
      (if (v.cplr a).engaged ∧ v.rd P.CplKind a = 2 ∧ v.rd P.CplCamTable a = n then v.cplStop a true else v) := by
    split
    · exact othersStand_cplStop v a true
    · exact .of_cpl rfl
  exact hl.trans (he _)

theorem State.CamOf.camFailAt {s : State} {n x : Nat} (h : s.CamOf n x) (a : Nat) : (State.camFailAt n s a).CamOf n x := by
  have hc := Foot.Covers.camFailAt s n a
  exact ⟨hc.ordered h.ordered, (othersStand_camFailAt s n a h.sorted).1, (hc.rd h.ordered rfl rfl x).trans h.kind,
    (hc.rd h.ordered rfl rfl x).trans h.table⟩

/-- The axis that follows the table is disengaged. -/
theorem State.CamOf.engaged_camFailAt_same {s : State} {n x : Nat} (h : s.CamOf n x) : ((State.camFailAt n s x).cplr x).engaged = false :=
  by
  unfold State.camFailAt
  extract_lets v
  have hv : v.CamOf n x := by
    unfold v
    split
    · have hc := Foot.Covers.cplLapse (F := .motion) s x
      exact ⟨hc.ordered h.ordered, (othersStand_cplLapse s x h.sorted).1, (hc.rd h.ordered rfl rfl x).trans h.kind,
        (hc.rd h.ordered rfl rfl x).trans h.table⟩
    · exact h
  clear_value v
  by_cases he : (v.cplr x).engaged = true
  · rw [if_pos ⟨he, hv.kind, hv.table⟩]
    rw [cplStop, cplr_raise]
    exact engaged_cplDisengage hv.sorted x true he
  · rw [if_neg fun hn => he hn.1]
    simpa using he

/-- An axis that has been disengaged stays so. -/
theorem State.CamOf.engaged_camFailAt {s : State} {n x : Nat} (h : s.CamOf n x) (he : (s.cplr x).engaged = false) (a : Nat) :
    ((State.camFailAt n s a).cplr x).engaged = false := by
  by_cases ha : x = a
  · subst ha
    exact h.engaged_camFailAt_same
  · rw [(othersStand_camFailAt s n a h.sorted).2 x ha]
    exact he

theorem State.CamOf.engaged_foldl {n x : Nat} (l : List Nat) {s : State} (h : s.CamOf n x) (hx : x ∈ l ∨ (s.cplr x).engaged = false) :
    ((l.foldl (State.camFailAt n) s).cplr x).engaged = false := by
  induction l generalizing s with
  | nil => simpa using hx
  | cons a l ih =>
    refine ih (h.camFailAt a) ?_
    rcases hx with hx | hx
    · rcases List.mem_cons.mp hx with rfl | hx
      · exact .inr h.engaged_camFailAt_same
      · exact .inl hx
    · exact .inr (h.engaged_camFailAt hx a)

/-- With nothing engaged and nothing pending the failure of a table concerns no axis. -/
theorem State.foldl_camFailAt_of_idle {s : State} {n : Nat} (l : List Nat)
    (h : l.all (fun x => !((s.cplr x).engaged || (s.cplr x).pend.isSome)) = true) : l.foldl (State.camFailAt n) s = s := by
  induction l with
  | nil => rfl
  | cons a l ih =>
    obtain ⟨ha, hl⟩ := by simpa only [List.all_cons, Bool.and_eq_true] using h
    simp only [Bool.not_eq_true', Bool.or_eq_false_iff, Option.isSome_eq_false_iff, Option.isNone_iff_eq_none] at ha
    have hs : State.camFailAt n s a = s := by simp [State.camFailAt, ha.1, ha.2]
    rw [List.foldl_cons, hs]
    exact ih hl

/-! ### The requests -/

theorem couplingEngageNow {t : Nat} {q : Req} {s : State} (hs : Served 0x0706 q s) (h1 : (s.advance t).cplBlockBad q.body 0 = false)
    (h2 : engBad q.body 40 = false) (h3 : fld q.body 40 1 ≠ 1) (h4 : (s.advance t).cplLocked q.inst = false)
    (h5 : (s.advance t).late q.body 56 = false) (h6 : s.queueRuns q.inst = false) (h7 : (s.advance t).coupled q.inst = false)
    (h8 : (s.cplr q.inst).pend = none) :
    Commits (.couplingEngage t q) s q ((s.advance t).tgt q.body 56) ((s.advance t).cplShadow q.inst q.body) := by
  change execCouplingEngage t q s = _
  refine runReq_of_ok hs ?_
  simp only [beq_eq_false_iff_ne.mpr h3, Bool.false_eq_true, if_false]
  exact guarded_of_none (by simp_all)

theorem couplingEngageAt {t : Nat} {q : Req} {s : State} (hs : Served 0x0706 q s) (h1 : (s.advance t).cplBlockBad q.body 0 = false)
    (h2 : engBad q.body 40 = false) (h3 : fld q.body 40 1 = 1) (h4 : (s.advance t).cplLocked q.inst = false)
    (h5 : (s.advance t).swLate (fld q.body 1 1) q.body 40 = false) (h6 : s.queueRuns q.inst = false)
    (h7 : (s.advance t).coupled q.inst = false) (h8 : (s.cplr q.inst).pend = none) (hc : tabSorted none s.cpl = true) :
    ∃ s', Answers (.couplingEngage t q) s q 0x0101 (crBytes 0xFFFFFFFF s.par.nextId) s' ∧
      bitOf (s'.motionValue P.CplState q.inst) cENGPEND = true ∧ ∃ p, (s'.cplr q.inst).pend = some p ∧ p.psw = fldI q.body 48 8 ∧
        p.kind = 0 := by
  have hc' : tabSorted none ((s.advance t).cplShadow q.inst q.body).cpl = true := by
    simpa only [State.cpl_cplShadow, State.advance_frame] using hc
  obtain ⟨s', he, -, p, hp, hpsw, hk⟩ := State.cplAccept_pends hc' q 0 (fld q.body 1 1) 40
  refine ⟨s', ?_, State.engPend_of_pend hp hk, p, hp, hpsw, hk⟩
  change execCouplingEngage t q s = _
  refine runReq_of_ok hs ?_
  simp only [beq_iff_eq.mpr h3, if_true]
  refine (guarded_of_none (by simp_all)).trans ?_
  simp only [he, State.nextId_cplShadow, State.advance_frame]

theorem couplingDisengageAt {t : Nat} {q : Req} {s : State} (hs : Served 0x0707 q s) (h1 : fld q.body 0 1 = 1) (h2 : engBad q.body 0 = false)
    (h3 : (s.advance t).swLate (s.rd P.CplMaster q.inst) q.body 0 = false) (h4 : (s.cplr q.inst).engaged = true)
    (h5 : (s.cplr q.inst).pend = none) (hc : tabSorted none s.cpl = true) :
    ∃ s', Answers (.couplingDisengage t q) s q 0x0101 (crBytes 0xFFFFFFFF s.par.nextId) s' ∧
      bitOf (s'.motionValue P.CplState q.inst) cDISPEND = true ∧ (s'.cplr q.inst).engaged = true := by
  have hc' : tabSorted none (s.advance t).cpl = true := by simpa only [State.advance_frame] using hc
  obtain ⟨s', he, heng, p, hp, -, hk⟩ := State.cplAccept_pends hc' q 1 (s.rd P.CplMaster q.inst) 0
  refine ⟨s', ?_, State.disPend_of_pend hp hk, heng.trans (by simpa using h4)⟩
  change execCouplingDisengage t q s = _
  refine runReq_of_ok hs ?_
  simp only [h1, State.cplr_advance, h4, State.advance_rd, if_true]
  refine (guarded_of_none (by simp_all)).trans ?_
  simp only [he, State.advance_frame]

theorem couplingChangeAt {t : Nat} {q : Req} {s : State} (hs : Served 0x0708 q s)
    (h0 : (if s.par.staged.any (fun g => g.scope == 0 && g.inst == q.inst) then none
      else s.par.staged.find? fun g => g.scope == 1 && g.inst == s.rd P.AxisGroup q.inst) = none)
    (h1 : (s.advance t).cplBlockBad q.body 0 = false) (h2 : engBad q.body 40 = false) (h3 : fld q.body 40 1 = 1)
    (h4 : (s.advance t).cplLocked q.inst = false) (h5 : (s.advance t).swLate (s.rd P.CplMaster q.inst) q.body 40 = false)
    (h6 : (s.cplr q.inst).engaged = true) (h7 : (s.cplr q.inst).pend = none) (hc : tabSorted none s.cpl = true) :
    ∃ s', Answers (.couplingChange t q) s q 0x0101 (crBytes 0xFFFFFFFF s.par.nextId) s' ∧
      bitOf (s'.motionValue P.CplState q.inst) cCHGPEND = true ∧ (s'.cplr q.inst).engaged = true := by
  have hcpl : ((s.advance t).cplShadow q.inst q.body).cpl = s.cpl := by simp only [State.cpl_cplShadow, State.advance_frame]
  obtain ⟨s', he, heng, p, hp, -, hk⟩ := State.cplAccept_pends (hcpl ▸ hc) q 2 (s.rd P.CplMaster q.inst) 40
  refine ⟨s', ?_, State.chgPend_of_pend hp hk, heng.trans ?_⟩
  · change execCouplingChange t q s = _
    refine runReq_of_ok hs ?_
    simp only [State.advance_frame, State.advance_rd, h0]
    refine (guarded_of_none (by simp_all)).trans ?_
    simp only [he, State.nextId_cplShadow, State.advance_frame]
  · rw [State.cplr, hcpl]
    exact h6

theorem couplingChangeJoins {t : Nat} {q : Req} {s : State} {g : Staged} (hs : Served 0x0708 q s)
    (h0 : s.par.staged.any (fun g => g.scope == 0 && g.inst == q.inst) = false)
    (h1 : s.par.staged.find? (fun g => g.scope == 1 && g.inst == s.rd P.AxisGroup q.inst) = some g) (h2 : g.pending = none)
    (h3 : (s.advance t).cplBlockBad q.body 0 = false) (h4 : fld q.body 40 1 = 1) (h5 : (s.cplr q.inst).engaged = true)
    (h6 : (s.cplr q.inst).pend = none) :
    Answers (.couplingChange t q) s q 0x0104 ([]) (((s.advance t).cplShadow q.inst q.body).joinSet g (pkey 0x0708 q.inst)) := by
  change execCouplingChange t q s = _
  refine runReq_of_ok hs ?_
  simp only [State.advance_frame, State.advance_rd, h0, Bool.false_eq_true, if_false, h1]
  exact guarded_of_none (by simp_all)

theorem couplingChangeLapses {t x : Nat} {p : CplPend} {s : State} (hx : x < 128) (hp : (s.cplr x).pend = some p)
    (hl : p.lapse ≤ (s.advance t).time.tick) (hc : tabSorted none s.cpl = true) :
    ∃ s', exec (.couplingChangeLapsed t x) s = .next s' ∧ (s'.cplr x).pend = none ∧ (s'.cplr x).engaged = (s.cplr x).engaged := by
  have hr : ((s.advance t).cplLapse x).cplr x = { s.cplr x with pend := none } := by
    rw [State.cplr, State.cpl_cplLapse (p := p) (by simpa using hp)]
    exact Eq.trans (State.cplr_setCpl_same (s := s.advance t) (by simpa only [State.advance_frame] using hc) x _)
      (by rw [State.cplr_advance])
  refine ⟨(s.advance t).cplLapse x, ?_, by rw [hr], by rw [hr]⟩
  change execCouplingChangeLapsed t x s = _
  refine onUnit_of (by simp [hx]) ?_
  simp [hp, hl]

/-- A stored table and its checksum; the reports of the store and of the slopes are other parameters. -/
theorem camStore_reads {s : State} (ho : s.ordered) (hc : tabSorted none s.cams = true) (n sum slope : Nat) (b : List Byte) (held) :
    let s' := ((({ s with cams := tabSet s.cams [] n b, camHeld := held } : State).wr P.CamChecksum n sum).wr P.CamMaxSlope n slope).camReport
    s'.camTab n = b ∧ s'.rd P.CamChecksum n = sum := by
  have h0 : ({ s with cams := tabSet s.cams [] n b, camHeld := held } : State).ordered := ho
  have h1 := State.ordered_wr h0 P.CamChecksum n sum
  have h2 := State.ordered_wr h1 P.CamMaxSlope n slope
  refine ⟨tabGet_tabSet_same _ _ _ _ hc, ?_⟩
  exact (State.rd_wr_ne (State.ordered_wr h2 ..) (by simp) ..).trans <| (State.rd_wr_ne h2 (by simp) ..).trans <|
    (State.rd_wr_ne h1 (by simp) ..).trans <| State.rd_wr_same h0 ..

theorem camLoadStores {t : Nat} {q : Req} {s : State} (hs : Served 0x0703 q s) (h1 : camCheck q.body = 0)
    (h2 : (s.advance t).camUsed q.inst = false)
    (h3 : ((s.cams.filter (fun e => e.1 ≠ q.inst)).map fun e => camUnits e.2).sum + camUnits q.body ≤ (s.advance t).camSize)
    (ho : s.ordered) (hc : tabSorted none s.cams = true) :
    ∃ s', Answers (.camLoad t q) s q 0 [] s' ∧ s'.camTab q.inst = q.body ∧ s'.rd P.CamChecksum q.inst = crc32 q.body := by
  refine ⟨_, ?_, camStore_reads (s := s.advance t) (State.ordered_advance ho t) (by simpa only [State.advance_frame] using hc) q.inst (crc32 q.body)
    (ratToF32 (camSlopes q.body).1 + ratToF32 (camSlopes q.body).2 * 2 ^ 32) q.body (tabSet (s.advance t).camHeld [] q.inst [])⟩
  change execCamLoad t q s = _
  refine runReq_of_ok hs ?_
  refine (guarded_of_none ?_).trans rfl
  simp only [firstBad_cons, firstBad_nil, h1, h2, State.advance_frame, not_lt.mpr h3]
  rfl

theorem camDeleteRemoves {t : Nat} {q : Req} {s : State} (hs : Served 0x0704 q s) (h1 : (s.advance t).camUsed q.inst = false)
    (ho : s.ordered) (hc : tabSorted none s.cams = true) :
    ∃ s', Answers (.camDelete t q) s q 0 [] s' ∧ s'.camTab q.inst = [] ∧ s'.rd P.CamChecksum q.inst = 0 := by
  refine ⟨_, ?_, camStore_reads (s := s.advance t) (State.ordered_advance ho t) (by simpa only [State.advance_frame] using hc) q.inst 0 0 [] (tabSet (s.advance t).camHeld [] q.inst [])⟩
  change execCamDelete t q s = _
  refine runReq_of_ok hs ?_
  exact (guarded_of_none (by simp only [firstBad_cons, firstBad_nil, h1]; rfl)).trans rfl

/-- Settles O37: the requests are their checks and effects, and the failure of a table goes through the axes one by one. -/
theorem couplingCamAndPathCommandsAct : Obligations.CouplingCamAndPathCommandsAct := by
  refine ⟨?engage, ?engageAt, ?disengage, ?disengageAt, ?changeAt, ?changeJoins, ?changeLapsed, ?camLoad, ?camDelete, ?camRead,
    ?camPrefetch,
    ?fetchLateIdle, ?fetchLateEngaged, ?pathBind, ?pathAppend, ?pathStart, ?pathStop, ?pathRelease⟩
  case engage => exact fun t q s hs h1 h2 h3 h4 h5 h6 h7 h8 => couplingEngageNow hs h1 h2 h3 h4 h5 h6 h7 h8
  case engageAt => exact fun t q s hs _ h1 h2 h3 h4 h5 h6 h7 h8 hc => couplingEngageAt hs h1 h2 h3 h4 h5 h6 h7 h8 hc
  case disengage =>
    intro t q s hs h1 h2 h3 h4
    change execCouplingDisengage t q s = _
    refine runReq_of_ok hs ?_
    simp only [h1, if_false]
    exact State.commitReq_of_firstBad (by simp [h2, h3, h4])
  case disengageAt => exact fun t q s hs _ h1 h2 h3 h4 h5 hc => couplingDisengageAt hs h1 h2 h3 h4 h5 hc
  case changeAt => exact fun t q s hs _ h0 h1 h2 h3 h4 h5 h6 h7 hc => couplingChangeAt hs h0 h1 h2 h3 h4 h5 h6 h7 hc
  case changeJoins => exact fun t q s g hs h0 h1 h2 h3 h4 h5 h6 => couplingChangeJoins hs h0 h1 h2 h3 h4 h5 h6
  case changeLapsed => exact fun t x p s hx hp hl hc => couplingChangeLapses hx hp hl hc
  case camLoad => exact fun t q s hs h1 h2 h3 ho hc => camLoadStores hs h1 h2 h3 ho hc
  case camDelete => exact fun t q s hs h1 ho hc => camDeleteRemoves hs h1 ho hc
  case camRead =>
    intro t q s hs
    change execCamRead t q s = _
    exact runReq_of_ok hs (by rw [State.camTab_advance])
  case camPrefetch =>
    intro t n seg s hn hseg hh
    change execCamPrefetch t n seg s = _
    refine onUnit_of (by simp [hn]) ?_
    simp [hseg, hh]
  case fetchLateIdle =>
    intro t n s hn h
    change execCamFetchLate t n s = _
    refine onUnit_of (by simp [hn]) ?_
    rw [State.camFail_eq, State.foldl_camFailAt_of_idle _ (by simpa using h)]
  case fetchLateEngaged =>
    intro t n x s hn hx _ hk ht ho hc
    refine ⟨(s.advance t).camFail n 1, ?_, ?_⟩
    · change execCamFetchLate t n s = _
      exact onUnit_of (by simp [hn]) rfl
    · have hcam : (s.advance t).CamOf n x := ⟨State.ordered_advance ho t, by simpa only [State.advance_frame] using hc, by simpa using hk,
        by simpa using ht⟩
      rw [State.camFail_eq, State.cplr_raise]
      exact hcam.engaged_foldl _ (.inl (List.mem_range.mpr hx))
  case pathBind =>
    intro t q s hs h1 h2 h3 h4 h5
    change execPathBind t q s = _
    refine runReq_of_ok hs (State.commitReq_of_firstBad ?_)
    have hlt : (s.pgList q.inst).any (fun a => decide (127 < a)) = false := any_eq_false_of_all_not h3 fun x => by
      rw [← decide_not, decide_eq_decide, not_lt]
    have hcoupled : (s.advance t).coupled = s.coupled := funext fun x => s.coupled_advance t x
    have hruns : (s.advance t).queueRuns = s.queueRuns := funext fun x => s.queueRuns_advance t x
    have hrest : ∀ x ∈ s.pgList q.inst, s.queueRuns x = false ∧ s.tBit x tMOVING = false ∧ s.coupled x = false := by
      simpa [and_assoc] using h5
    have hc : (s.pgList q.inst).any s.coupled = false := List.any_eq_false.mpr fun x hx => by simp [(hrest x hx).2.2]
    have hm : (s.pgList q.inst).any (fun a => s.tBit a tMOVING) = false := List.any_eq_false.mpr fun x hx => by simp [(hrest x hx).2.1]
    have hq : (s.pgList q.inst).any s.queueRuns = false := List.any_eq_false.mpr fun x hx => by simp [(hrest x hx).1]
    simp only [List.cons_append, List.nil_append, firstBad_cons, firstBad_nil, State.pgList_advance, State.tBit_advance, hcoupled, hruns,
      h1,
      h2, hlt, h4, hc, hm, hq]
    rfl
  case pathAppend =>
    intro t q s n l z hs hn h1 h2 h3 h4 h5 h6 h7
    subst hn
    change execPathAppend t q s = _
    refine runReq_of_ok hs ?_
    refine (guarded_of_none ?_).trans ?_
    · have hlim := any_eq_false_of_all_not h4 fun _ => rfl
      have hn : decide (fld q.body 0 1 < 1 ∨ 8 < fld q.body 0 1) = false := by simp; omega
      simp only [firstBad_cons, firstBad_nil, State.pgr_advance, State.advance_rd, h3, hn, hlim, h5, h6, not_lt.mpr h7]
      simp
    · simp only [State.pgr_advance, h5, Option.getD_some]
      rfl
  case pathStart =>
    intro t q s hs h1 h2 h3
    change execPathStart t q s = _
    refine runReq_of_ok hs (State.commitReq_of_firstBad ?_)
    have hrun := any_eq_false_of_all_not h2 (p := fun a => !s.axisRuns a || s.rd P.TrjChain a != 2) fun x => by
      simp only [bne, Bool.not_or, Bool.not_not]
    simp [h1, hrun, State.pgUnbound, h3]
  case pathStop =>
    intro t q s hs h1 h2
    change execPathStop t q s = _
    exact runReq_of_ok hs (State.commitReq_of_firstBad (by simp [State.pgUnbound, h1, h2]))
  case pathRelease =>
    intro t q s hs h1 h2 h3 h4 h5
    change execPathRelease t q s = _
    exact runReq_of_ok hs (State.commitReq_of_firstBad (by simp [State.pgUnbound, h1, h2, h3, h4, h5]))

end Sys2Proof.Machine

end
